-- ==== Sys2Proof/Word.lean ====
section
/-! DEFINITION. The word types of the device: bytes, 32- and 64-bit words, and the plain table type that holds
every sparse piece of state (00 R6, R8). -/

namespace Sys2Proof

abbrev Byte := BitVec 8
abbrev W16 := BitVec 16
abbrev W32 := BitVec 32
abbrev W64 := BitVec 64

/-- A sparse table: keys with their entries, keys strictly rising. -/
abbrev Tbl (V : Type) := List (Nat × V)

/-- A byte store: only non-zero bytes are listed, addresses strictly rising. -/
abbrev Mem := List (Nat × Byte)

end Sys2Proof
end

