-- ==== Sys2Proof/Config.lean ====
section
/-! DEFINITION. What the spec leaves to the part: values without guarantee, fuses and what one implementation fixes. None has a
body, so nothing can be proved of a value. -/

namespace Sys2Proof.Config

/-- The n-th free value the machine uses (log 3): a value the spec does not fix. -/
opaque freeValue : Nat → W64

/-- The physical position of the spare core of a cluster, 0 to 64, chosen by fuses (01 R16). -/
opaque sparePos : Nat → BitVec 7

/-- The silicon stepping in fuses (15 R503). -/
opaque stepping : BitVec 4

/-- The device's 64-bit identity in fuses (14 R499, SEC_DEVID). -/
opaque deviceId : W64

/-- The fused digests of the Ed25519 and ML-DSA-65 public keys (14 R499, SEC_KH_ED and SEC_KH_ML), by word 0-3. -/
opaque keyHashEd : Nat → W64

opaque keyHashMl : Nat → W64

/-- Receive buffer of a fabric port per virtual channel, in slots: the initial credit it announces (08 R279, R280). -/
opaque linkCredit : Nat → BitVec 12

/-- The fused voltage VNOM, as millivolts above 660, 0 to 100 (13 R459). -/
opaque vnomStep : BitVec 7

/-- Firmware's aging margin in millivolts, 0 to 40 (13 R459). -/
opaque agingMargin : BitVec 6

/-- DRM_RSV in units of 32 MiB: what firmware reserves (07 R268). -/
opaque rsvUnits : BitVec 13

/-- The snoop filter's set of a function's line: how lines fall into its sets of 16 (11 R397). -/
opaque sfSet : Nat → Nat → BitVec 16

end Sys2Proof.Config
end

