-- ==== Sys2Proof/Syntax.lean ====
section
/-! DEFINITION. The commands of the block, one constructor for each row of spec/opcode_table.json, and the operand
records they carry: core instruction words (03 R69-R72), fabric packets (08 R281-R284), link flits (08 R275-R280). -/

namespace Sys2Proof

/-- An enabled core of the die: physical cluster 0-63 and enabled-core number 0-63 (01 R16, R17). -/
structure CoreId where
  clu : BitVec 6
  core : BitVec 6
  deriving DecidableEq, Repr

/-- Form R (03 R71): the first word of a base instruction without its opcode byte. -/
structure FormR where
  a : BitVec 6
  b : BitVec 6
  c : BitVec 6
  d : BitVec 6
  fn8 : BitVec 8
  fmt : BitVec 4
  rsv : BitVec 20
  deriving DecidableEq, Repr

/-- Form I (03 R71). -/
structure FormI where
  a : BitVec 6
  b : BitVec 6
  fn12 : BitVec 12
  imm : BitVec 32
  deriving DecidableEq, Repr

/-- Form B (03 R71). -/
structure FormB where
  a : BitVec 6
  b : BitVec 6
  cond : BitVec 6
  d : BitVec 6
  off : BitVec 32
  deriving DecidableEq, Repr

/-- Form V (03 R71, R72). -/
structure FormV where
  a : BitVec 6
  b : BitVec 6
  c : BitVec 6
  d : BitVec 6
  fn8 : BitVec 8
  fmt : BitVec 4
  sr : BitVec 1
  cnt : BitVec 12
  cr : BitVec 1
  rsv : BitVec 6
  deriving DecidableEq, Repr

/-- Form X (03 R71): a form R first word and a second word. -/
structure FormX where
  r : FormR
  w1 : BitVec 64
  deriving DecidableEq, Repr

/-- A fabric packet (08 R281-R284): the header words (a response uses w0 and w1), the extension slot of a Ductus
return (x0 the dispatch tag, x1 the rest), and the data as one little-endian number. -/
structure Packet where
  w0 : BitVec 64
  w1 : BitVec 64
  w2 : BitVec 64
  w3 : BitVec 64
  x0 : BitVec 64
  x1 : BitVec 64
  data : Nat
  deriving DecidableEq, Repr

/-- One 16 B data slot of a flit (08 R275) and the virtual channel it travels on. -/
structure Slot where
  vc : BitVec 3
  w : BitVec 128
  deriving DecidableEq, Repr

/-- The target of a host request (11 R395): FUNC f, or MGMT. -/
inductive HostTarget where
  | func (f : BitVec 4)
  | mgmt
  deriving DecidableEq, Repr

/-- Where a register access comes from (11 R395, 14 R482, 08 R318). -/
inductive RegPath where
  | dynerlink
  | i3c
  | fabric
  deriving DecidableEq, Repr

/-- What ends a DynerLink outage or starts one: the width trained (11 R393, R417). -/
inductive LinkWidth where
  | low
  | high
  | full
  deriving DecidableEq, Repr

/-- The commands: one constructor per row of the opcode table, in its order. -/
inductive Instr where
  -- 03: scalar
  | nop (c : CoreId) (w : FormR)
  | alu (c : CoreId) (w : FormR)
  | alui (c : CoreId) (w : FormI)
  | lih (c : CoreId) (w : FormI)
  | ld (c : CoreId) (w : FormI)
  | st (c : CoreId) (w : FormI)
  | br (c : CoreId) (w : FormB)
  | jal (c : CoreId) (w : FormI)
  | jalr (c : CoreId) (w : FormI)
  | srd (c : CoreId) (w : FormI)
  | swr (c : CoreId) (w : FormI)
  | eret (c : CoreId) (w : FormR)
  | brk (c : CoreId) (w : FormR)
  | trap (c : CoreId) (w : FormI)
  | ifence (c : CoreId) (w : FormR)
  | illegalInstruction (c : CoreId) (w0 w1 : BitVec 64)
  -- 03: counters
  | cset (c : CoreId) (w : FormI)
  | cadd (c : CoreId) (w : FormI)
  | crd (c : CoreId) (w : FormI)
  | cwait (c : CoreId) (w : FormI)
  | coreWaitTimeout (c : CoreId)
  | rfence (c : CoreId) (w : FormR)
  -- 03: remote
  | rld (c : CoreId) (w : FormX)
  | rst (c : CoreId) (w : FormX)
  | ratom (c : CoreId) (w : FormX)
  | ratomF (c : CoreId) (w : FormX)
  | rcas (c : CoreId) (w : FormX)
  | rmcst (c : CoreId) (w : FormX)
  | tdma (c : CoreId) (w : FormX)
  | tdmaPieceIssue (c : CoreId)
  -- 03: batcher and exceptions
  | bput (c : CoreId) (w : FormX)
  | bflush (c : CoreId) (w : FormR)
  | batchWaitExpiry (c : CoreId)
  | asyncExceptionTake (c : CoreId)
  -- 04: matrix
  | mmaF (c : CoreId) (w : FormX)
  | mmaS (c : CoreId) (w : FormX)
  | sparsify (c : CoreId) (w : FormX)
  | sparsifyT (c : CoreId) (w : FormX)
  | matrixStreamStart (c : CoreId) (arr : BitVec 2)
  | matrixComplete (c : CoreId) (arr : BitVec 2)
  | sparsifyComplete (c : CoreId) (arr : BitVec 2)
  -- 05: vector
  | vld (c : CoreId) (w : FormV)
  | vst (c : CoreId) (w : FormV)
  | vldx (c : CoreId) (w : FormV)
  | vstx (c : CoreId) (w : FormV)
  | vmovx (c : CoreId) (w : FormV)
  | viota (c : CoreId) (w : FormV)
  | vfp (c : CoreId) (w : FormV)
  | vfma (c : CoreId) (w : FormV)
  | vun (c : CoreId) (w : FormV)
  | vint (c : CoreId) (w : FormV)
  | vcmp (c : CoreId) (w : FormV)
  | vsel (c : CoreId) (w : FormV)
  | vcvt (c : CoreId) (w : FormV)
  | vcvtm (c : CoreId) (w : FormV)
  | vred (c : CoreId) (w : FormV)
  | scan (c : CoreId) (w : FormV)
  | smax (c : CoreId) (w : FormV)
  | topk (c : CoreId) (w : FormV)
  | sortk (c : CoreId) (w : FormV)
  | hist (c : CoreId) (w : FormV)
  | vrand (c : CoreId) (w : FormV)
  | gload (c : CoreId) (w : FormX)
  | gatingGlyphLoad (clu : BitVec 6)
  | gatt (c : CoreId) (w : FormX)
  | gdrain (c : CoreId) (w : FormX)
  | vectorQueueStart (c : CoreId)
  | drainGlyphTile (c : CoreId) (arr : BitVec 2)
  -- 06: Ductus
  | dscore (c : CoreId) (w : FormX)
  | dtopk (c : CoreId) (w : FormX)
  | dnorm (c : CoreId) (w : FormX)
  | dhist (c : CoreId) (w : FormX)
  | dscan (c : CoreId) (w : FormX)
  | dalloc (c : CoreId) (w : FormX)
  | dallocAttemptReply (p : Packet)
  | dsendDispatch (c : CoreId) (w : FormX)
  | dsendReturn (c : CoreId) (w : FormX)
  | dsplit (c : CoreId) (w : FormX)
  | dcollect (c : CoreId) (w : FormX)
  | dcombineGate (c : CoreId) (w : FormX)
  | dcombineSeg (c : CoreId) (w : FormX)
  | dcancel (c : CoreId) (w : FormX)
  | ductusQueueStart (clu : BitVec 6) (unit : BitVec 2)
  | returnStoreArrival (p : Packet)
  -- 07: Inkwell
  | inkAlloc
  | inkFree
  | feAlloc (clu : BitVec 6)
  | feRefill (clu : BitVec 6) (cls : BitVec 5)
  | feCreditReturn (clu : BitVec 6) (req : BitVec 8)
  | poolEnable (p : BitVec 4) (cls : BitVec 5)
  | poolEnableDone (p : BitVec 4) (cls : BitVec 5)
  | poolDrain (p : BitVec 4) (cls : BitVec 5)
  | poolDisable (p : BitVec 4) (cls : BitVec 5)
  | poolReclaim (p : BitVec 4) (cls : BitVec 5)
  | poolReclaimDone (p : BitVec 4) (cls : BitVec 5)
  -- 07: Tier Movers, migration, refresh
  | tmvPortStore (p : Packet)
  | tmvMove (quad : BitVec 4)
  | tmvGlyphLoad (quad : BitVec 4)
  | tmvComplete (quad : BitVec 4)
  | migrateBlock (p : BitVec 4) (gran : BitVec 27)
  | streamStage (p : BitVec 4) (addr : BitVec 48)
  | promotion (p : BitVec 4)
  | dramRefresh (ch : BitVec 8)
  | ruledRefresh (quad : BitVec 4)
  | refreshCatchup (ch : BitVec 8)
  -- 08: requests at the target, responses at the source
  | rldRequest (p : Packet)
  | rstRequest (p : Packet)
  | postedAtomicRequest (p : Packet)
  | fetchAddRequest (p : Packet)
  | casRequest (p : Packet)
  | multicastStore (p : Packet)
  | ackResponse (p : Packet)
  | dataResponse (p : Packet)
  | nakResponse (p : Packet)
  | mackResponse (p : Packet)
  -- 08: router and ports
  | packetForward (p : Packet)
  | circuitForward (p : Packet)
  | portEnable (port : BitVec 4)
  | portDisable (port : BitVec 4)
  | retrain (port : BitVec 4)
  | trainingComplete (port : BitVec 4) (rev : Bool)
  | trainingTimeout (port : BitVec 4)
  | alignLock (port : BitVec 4)
  | alignTimeout (port : BitVec 4)
  | downRetry (port : BitVec 4)
  | fecLockLost (port : BitVec 4)
  | fecUeRateExceeded (port : BitVec 4)
  | flitSilenceTimeout (port : BitVec 4)
  | dataFlit (port : BitVec 4) (hdr : BitVec 64) (slots : List Slot)
  | idleFlit (port : BitVec 4) (hdr : BitVec 64)
  | initFlit (port : BitVec 4) (hdr : BitVec 64) (slot1 : BitVec 128)
  | nakFlit (port : BitVec 5) (hdr : BitVec 64)
  | crcFailFlit (port : BitVec 4) (hdr : BitVec 64)
  | badLinkHeaderFlit (port : BitVec 4) (hdr : BitVec 64)
  | epochLoaded (v : BitVec 1)
  | epochFlip (v : BitVec 1)
  | epochRetire (v : BitVec 1)
  | epochDrainExpiry (v : BitVec 1)
  | tdmFrameStart (port : BitVec 4)
  | meshFrameStart (clu : BitVec 6) (link : BitVec 2)
  | fabTimeout (slot : BitVec 22)
  | slotQuarantineEnd (slot : BitVec 22)
  | fabStall (port : BitVec 4) (vc : BitVec 3)
  | lntDataWrite (v : BitVec 64)
  -- 08: management
  | regrd (p : Packet)
  | regwr (p : Packet)
  | lntwr (p : Packet)
  | notice (p : Packet)
  | teardown (p : Packet)
  | jobstart (p : Packet)
  | mgmtUnknownSub (p : Packet)
  | noticeSend
  | noticeResponse (p : Packet)
  | noticeResendTimeout
  -- 09: Ligature
  | lopen (c : CoreId) (w : FormX)
  | lcoll (c : CoreId) (w : FormX)
  | lclose (c : CoreId) (w : FormX)
  | openReport (p : Packet)
  | rankMessage (p : Packet)
  | chunkUp (p : Packet) (data : List Packet)
  | chunkDown (p : Packet) (data : List Packet)
  | ligStall (entry : BitVec 8) (input : BitVec 8)
  | jobstartGo
  | jobstartTimeout
  | heldLaunchRelease (p : BitVec 4) (s : BitVec 3)
  -- 10, 11: host commands, by journal sequence number
  | launch (seq : BitVec 64)
  | copy (seq : BitVec 64)
  | fill (seq : BitVec 64)
  | copyPartEnd (seq : BitVec 64) (part : BitVec 6)
  | map (seq : BitVec 64)
  | unmap (seq : BitVec 64)
  | fence (seq : BitVec 64)
  | cancelBatch (seq : BitVec 64)
  | partCreate (seq : BitVec 64)
  | partCreateDone (p : BitVec 4)
  | dramClearDone
  | partDisable (seq : BitVec 64)
  | drainLimitExpiry (p : BitVec 4)
  | partAbortDone (p : BitVec 4)
  | ctxCreate (seq : BitVec 64)
  | ctxPrio (seq : BitVec 64)
  | ctxPause (seq : BitVec 64)
  | ctxResume (seq : BitVec 64)
  | ctxReset (seq : BitVec 64)
  | ctxDestroy (seq : BitVec 64)
  | checkpoint (seq : BitVec 64)
  | restore (seq : BitVec 64)
  | query (seq : BitVec 64)
  | quantumExpiry (p : BitVec 4)
  | saveComplete (p : BitVec 4)
  | coreRestoreStart (p : BitVec 4) (lclu : BitVec 6) (core : BitVec 6)
  | ruledStartTick (p : BitVec 4)
  -- 11: DynerLink
  | loadshare (t : HostTarget) (addr : BitVec 64)
  | loadclaim (t : HostTarget) (addr : BitVec 64)
  | loadpeek (t : HostTarget) (addr : BitVec 64) (size : BitVec 9)
  | storemask (t : HostTarget) (addr : BitVec 64) (mask : BitVec 64) (data : BitVec 512)
  | returndirty (t : HostTarget) (addr : BitVec 64) (data : BitVec 512)
  | returnclean (t : HostTarget) (addr : BitVec 64)
  | hostAtomic (t : HostTarget) (addr : BitVec 64) (cas : Bool) (wide : Bool) (atype : BitVec 2) (operand compare : BitVec 128)
  | recallResponse (f : BitVec 4) (line : BitVec 48) (dirty : Bool) (data : BitVec 512)
  | recallTimeout (f : BitVec 4) (line : BitVec 48)
  | hostResponse (id : BitVec 32) (status : BitVec 16) (data : Nat)
  | ringService (f : BitVec 4) (r : BitVec 6) (rec : BitVec 512)
  | completionWrite (f : BitVec 4) (r : BitVec 6)
  | dynerlinkTraining (w : LinkWidth)
  | ringEnable (f : BitVec 4) (r : BitVec 6) (v : BitVec 64)
  | ringDisable (f : BitVec 4) (r : BitVec 6) (v : BitVec 64)
  -- 12, 15: registers, log, monitor, checkpoints
  | counterWrite (off : BitVec 26) (v : BitVec 64)
  | registerWrite (path : RegPath) (off : BitVec 26) (v : BitVec 64)
  | satWindowEnd (util : BitVec 64) (stall : BitVec 64)
  | ckpDue (p : BitVec 4)
  -- 13, 14: resets, power, clocks
  | fwsReset (v : BitVec 64)
  | railFault (rail : BitVec 4) (mv : BitVec 12)
  | sensorSample (i : BitVec 8) (t : BitVec 12)
  | droopDetect (mv : BitVec 12)
  | capLoop (watts : BitVec 11)
  | thermalLoop (clu : BitVec 6)
  | avsStatusRead (fault : Bool) (mv : BitVec 12)
  | avsVoltageWrite (mv : BitVec 12) (acked : Bool) (readback : BitVec 12)
  | domainWake (d : BitVec 7)
  | domainWakeDone (d : BitVec 7)
  | watchdogExpiry (s : BitVec 2)
  | scribeRestartDone (s : BitVec 2)
  | bootStageComplete (fail : BitVec 4)
  | recoveryData (v : BitVec 64)
  | updateDone (ok : Bool) (image : Nat)
  | clkTbStep (v : BitVec 64)
  | dbistDone (fails : List (BitVec 8 × BitVec 3 × BitVec 9))
  | loopbackDepth (i : BitVec 5) (depth : BitVec 3)
  | loopbackRun (i : BitVec 5) (bits errs : BitVec 48)
  | bypass (code : BitVec 8)
  | i3cPrivateWrite (off : BitVec 32) (v : BitVec 64)
  | i3cPrivateRead (off : BitVec 32)
  | i3cDynamicAddress (a : BitVec 7)
  | flitBuild (port : BitVec 4)
  | frontEndGrant (clu : BitVec 6)
  | scribeMemoryUe (s : BitVec 2)
  -- rows without operands of the last groups
  | dynerlinkDown
  | logRecordWrite
  | ckpFail
  | powerOnReset
  | pwrGoodAssert
  | pwrGoodDeassert
  | coldResetL
  | warmResetL
  | pllLockLoss
  | didtRelease
  | recoveryBegin
  | recoveryGo
  | recoveryAbort
  | updateGo
  | dbistGo
  | extest
  | idcode
  | samplePreload
  | ijtag
  | trstL
  | rootPllLock
  | coldResetAssert
  | auxSupplyLoss
  deriving DecidableEq, Repr

end Sys2Proof
end

