-- ==== Sys2Proof/Machine/State.lean ====
section
/-! DEFINITION. The state of the device: everything the spec gives it, as plain data, and its reset (15 R502). Numbers
that the spec adds, compares or counts are Nat; words that software sees whole are bit vectors. Tables list only what
differs from the reset value of their key. -/

namespace Sys2Proof.Machine

/-- A core of a context: partition, context slot, logical cluster, core number (02 R39, 10 R371). -/
structure Loc where
  p : Nat
  s : Nat
  l : Nat
  k : Nat
  deriving DecidableEq, Repr

/-- A failure delivered to a core: code, detail words, and whether it arrived while INH was 1 (03 R98-R101). -/
structure Fail where
  code : Nat
  e0 : W64
  e1 : W64
  e2 : W64
  late : Bool
  deriving DecidableEq, Repr

/-- How far a core is in its part of a run (10 R374). -/
inductive Run where
  | idle
  | running
  | ended
  | stopped (code : Nat)
  deriving DecidableEq, Repr, Inhabited

/-- A stalled CWAIT (03 R83): counter, waited value, tick the stall began, timeout, first word. -/
structure CStall where
  cnt : Nat
  v : W32
  start : Nat
  tmo : Nat
  w0 : W64
  deriving DecidableEq, Repr

/-- One request held by the decode batcher (03 R103): row, output address, counter. -/
structure BReq where
  row : Nat
  out : Nat
  cnt : Nat
  deriving DecidableEq, Repr

/-- An open group of the decode batcher (03 R104): template address and words, weight address and header, requests in
order of arrival, timebase tick of its first request. -/
structure BGroup where
  tmpl : Nat
  t0 : W64
  t1 : W64
  wgt : Nat
  hdr : Nat
  reqs : List BReq
  opened : Nat
  deriving DecidableEq, Repr

/-- What a matrix-queue entry does (04 R111, R105). -/
inductive MKind where
  | mmaF
  | mmaS
  | sparsify
  | sparsifyT
  deriving DecidableEq, Repr

/-- A matrix instruction with the register values, the weight or dense header and the first word it read at issue (04 R111,
R112, R117; 10 R377). -/
structure MOp where
  kind : MKind
  out : Nat
  row : Nat
  wgt : Nat
  acc : Option Nat
  rows : Nat
  fmt : Nat
  ofmt : Nat
  kb : Nat
  ostride : Nat
  gly : Bool
  dst : Nat
  breqs : Option (List BReq)
  pcAt : Nat
  hdr : Nat
  w0 : W64
  deriving DecidableEq, Repr

/-- A matrix instruction that has started streaming (04 R110): its accumulator values row by row, the columns without
guarantee (04 R138), the tiles already drained through a glyph, for MMA.S the weight bytes its recirculating
buffers hold (04 R126), and the address of a poisoned word that its feeders read, 2^18 where it is an accumulator's or feeder's own
(04 R145, 10 R380). -/
structure MAct where
  op : MOp
  vals : List W32
  noGuar : List Nat
  drained : Nat
  wbuf : Mem
  bad : Option Nat
  deriving DecidableEq, Repr

/-- One array of a core (04 R110, 05 R178-R182): queue, accumulator sets in use, attached glyph slot, drain sequence
counter, MX block buffer (key 32 row + column: value and random word) with its format and rounding, and whether a word of
its accumulators, feeders or buffer is poisoned (10 R380). -/
structure ArrSt where
  q : List MOp := []
  act : List MAct := []
  att : Option Nat := none
  dseq : Nat := 0
  mx : Tbl (W32 × W32) := []
  mxf : Nat := 0
  bad : Bool := false
  deriving DecidableEq, Repr

/-- A vector instruction with the scalar values it read at issue (05 R153, R185). -/
structure VOp where
  op : Nat
  w : FormV
  n : Nat
  xv : W64
  deriving DecidableEq, Repr

/-- A tile DMA transfer (03 R89-R91): descriptor, direction, second word, completion counter, address of the TDMA,
next row and byte, operations in flight, whether a piece failed, its serial number. -/
structure Dma where
  desc : Nat
  store : Bool
  w1 : W64
  cnt : Nat
  pcAt : Nat
  row : Nat
  byte : Nat
  out : Nat
  failed : Bool
  id : Nat
  deriving DecidableEq, Repr

/-- A Ductus instruction with its descriptor copy and register values (06 R192, R194; 10 R377): opcode, function code,
completion counter, second word, the value of x[B] (an address) and of x[C], x[D], where it was issued. -/
structure DOp where
  loc : Loc
  op : Nat
  fn8 : Nat
  cnt : Nat
  w1 : W64
  desc : Nat
  xc : W64
  xd : W64
  rc : Nat
  pcAt : Nat
  deriving DecidableEq, Repr

/-- The state of one core of one context (10 R377): what the cores hold while the context is resident and its saved
image holds otherwise (02 R56); `held` are the Ductus instructions a save took from their queues (06 R233), `cntPoison` the poisoned
arrival counters, `ctlPoison` whether the program counter, a state word or what a unit resumes from is poisoned (10 R380, 12 R419). -/
structure CoreSt where
  x : Tbl W64 := []
  xPoison : List Nat := []
  xPend : List Nat := []
  pc : Nat := 0
  spad : Mem := []
  spadPoison : List Nat := []
  vr : Mem := []
  vrPoison : List Nat := []
  cnt : Tbl W32 := []
  cntPoison : List Nat := []
  evec : W64 := 0
  epc : W64 := 0
  ecode : Nat := 0
  einfo0 : W64 := 0
  einfo1 : W64 := 0
  einfo2 : W64 := 0
  inh : Bool := false
  asyncB : Bool := false
  more : Nat := 0
  escratch : W64 := 0
  batwait : Nat := 52500
  seq0 : Nat := 0
  seq1 : Nat := 0
  seq2 : Nat := 0
  pend : List Fail := []
  stall : Option CStall := none
  fence : Bool := false
  run : Run := .idle
  a0 : ArrSt := {}
  a1 : ArrSt := {}
  a2 : ArrSt := {}
  a3 : ArrSt := {}
  glyph : Tbl Nat := []
  vBusy : Bool := false
  vq : List VOp := []
  dmas : List Dma := []
  batch : List BGroup := []
  held : List DOp := []
  ctlPoison : Bool := false
  deriving DecidableEq, Repr, Inhabited

/-- Context states (10 R372, the codes in their order). -/
inductive CtxState where
  | free
  | idle
  | held
  | ready
  | restoring
  | running
  | saving
  | paused
  | stopped
  deriving DecidableEq, Repr

/-- A context slot (10 R371, R372, R378, R391): the registers of PRT_CTX_STAT, its launch, its cluster records
(gating glyph slots keyed 4 l + slot, stream 8 numbers keyed l), its stream 9 numbers keyed by quad index. -/
structure Ctx where
  st : CtxState := .free
  prio : Nat := 0
  rtb : Bool := false
  stopcode : Nat := 0
  rperiod : Nat := 0
  seed : W64 := 0
  lnode : Nat := 0
  launchSeq : Option Nat := none
  holdJob : Option (Nat × Nat) := none
  startAt : Nat := 0
  pausing : Bool := false
  firstStart : Bool := true
  saveTick : Nat := 0
  runTick : Nat := 0
  quantumOut : Bool := false
  started : List Nat := []
  gates : Tbl Nat := []
  seq8 : Tbl Nat := []
  seq9 : Tbl Nat := []
  deriving DecidableEq, Repr, Inhabited

/-- Where a granule lives (02 R35, 07 R254): a half cluster store (2 n + half), a DPA granule, host memory, or the
memory of another node. -/
inductive Place where
  | t1 (half : Nat)
  | t2 (gran : Nat)
  | t3 (addr : Nat)
  | t4 (node off : Nat)
  deriving DecidableEq, Repr

/-- A mapped object (07 R253): its descriptor, the place of each granule, its creation number, and for a STREAM object
the blocks staged in its ring, earliest first, with their bytes (keyed 65,536 block + offset) and poisoned lines. -/
structure Obj where
  desc : Nat
  place : Tbl Place
  id : Nat
  staged : List Nat
  ring : Mem
  rpois : List Nat
  deriving DecidableEq, Repr

/-- A granule being migrated (07 R256): blocks below `next` are at the new place. -/
structure Mig where
  gran : Nat
  src : Place
  dst : Place
  next : Nat
  deriving DecidableEq, Repr

/-- Partition states (10 R370). -/
inductive PartState where
  | free
  | creating
  | active
  | draining
  | aborting
  deriving DecidableEq, Repr

/-- A CHECKPOINT or RESTORE in progress (12 R438, R442): journal number, context, the watched granules, whether a
write reached one, the stores or loads in flight, the blocks streamed, the phase, the code it will end with, the manifest, the bytes read for the image and tables. -/
structure Ckpt where
  seq : Nat
  s : Nat
  restore : Bool
  watched : List Nat
  torn : Bool
  out : Nat
  blocks : Nat
  phase : Nat
  code : Nat
  man : Mem
  img : Mem
  deriving DecidableEq, Repr

/-- A partition (10 R363-R370, R391): clusters in logical order, quads by index, DRAM share as DPA granules, the
command that creates or disables it, its contexts, objects, permissions (key 16 granule + writer group), logical node
table, migrations, checkpoint operation; the ACLK dividers of its clusters and the NCLK divider at its creation (10 R387). -/
structure Part where
  st : PartState := .free
  ruled : Bool := false
  reason : Nat := 0
  err : Bool := false
  clus : List Nat := []
  quads : List Nat := []
  share : Nat := 0
  dpa : List (Nat × Nat) := []
  cmdSeq : Option Nat := none
  drainTick : Nat := 0
  resident : Option Nat := none
  lastAt : Tbl Nat := []
  ctxs : Tbl Ctx := []
  objs : List Obj := []
  nextObj : Nat := 0
  perm : Tbl Nat := []
  lnt : Tbl W64 := []
  migs : List Mig := []
  ckpt : Option Ckpt := none
  clk : Tbl Nat := []
  nclk : Nat := 4
  deriving DecidableEq, Repr

/-- Inkwell pool states (07 R237). -/
inductive PoolState where
  | disabled
  | enabling
  | active
  | draining
  | failed
  deriving DecidableEq, Repr

/-- An Inkwell pool (07 R235-R238): region, buffers in all, the free stack as the freed indices on top of the indices
never handed out (from `fresh` up), the metadata words, whether a RECLAIM runs. -/
structure Pool where
  st : PoolState := .disabled
  err : Bool := false
  base : Nat := 0
  ngran : Nat := 0
  total : Nat := 0
  top : List Nat := []
  fresh : Nat := 0
  md : Tbl Nat := []
  reclaim : Bool := false
  deriving DecidableEq, Repr

/-- A requester (07 R239, R240, R252). -/
structure Requester where
  valid : Bool := false
  kind : Nat := 0
  part : Nat := 0
  ctx : Nat := 0
  quota : Nat := 0
  inuse : Nat := 0
  hiwater : Nat := 0
  deriving DecidableEq, Repr

/-- A request waiting at the Inkwell or at a front end: the packet that carried it and, for an ALLOC that waits for a
RECLAIM, the step of its ladder (07 R238, R245). A FREE of an engine of this device (06 R220, R224) has no packet: `own` is its
partition, logical node and offset. -/
structure InkReq where
  pkt : Packet
  step : Nat
  own : Option (Nat × Nat × Nat) := none
  deriving DecidableEq, Repr

/-- A front end's grant on its way to the central Inkwell (07 R247). -/
structure Grant where
  p : Nat
  cls : Nat
  idx : Nat
  req : Nat
  deriving DecidableEq, Repr

/-- A cluster's Inkwell front end (07 R247): cached buffers by class, credit in bytes by requester, grants in transit,
requests waiting. -/
structure FrontEnd where
  cache : Tbl (List Nat) := []
  credit : Tbl Nat := []
  grants : List Grant := []
  q : List InkReq := []
  deriving DecidableEq, Repr

/-- A gating glyph on its way to a Ductus engine (05 R184). -/
structure GateLoad where
  p : Nat
  s : Nat
  l : Nat
  slot : Nat
  image : Nat
  deriving DecidableEq, Repr

/-- One expert's allocation ladder in a running DALLOC (06 R207): map entry, counts, reserved records, rows tried, buffers
held, phase (0 waits for its reservations, 1 and 2 for a buffer of half 0 or 1, 3 for a free, 4 ended), dropped for a full
inbox. -/
structure Ladder where
  e : Nat
  em : Nat
  c0 : Nat
  c1 : Nat
  s0 : Option Nat := none
  s1 : Option Nat := none
  a : Nat := 0
  a0 : Nat := 0
  a1 : Nat := 0
  buf0 : Nat := 0
  buf1 : Nat := 0
  phase : Nat := 0
  full : Bool := false
  deriving DecidableEq, Repr

/-- A remote operation an engine has yet to issue (06 R191): target node, request fields, data, the run's own tag, and
whether its data are poisoned. -/
structure EngReq where
  lnode : Nat
  ptype : Nat
  cls : Nat
  off : Nat
  size : Nat := 0
  atype : Nat := 0
  circ : Nat := 0
  ext : Bool := false
  x0 : Nat := 0
  x1 : Nat := 0
  data : Nat := 0
  words : Nat := 0
  tag : Nat := 0
  pz : Bool := false
  deriving DecidableEq, Repr

/-- A Ductus instruction in progress: remote operations in flight and still to issue, the ladders of a DALLOC, whether a
return has sent every row (stage 1), the tags of its failed operations, its serial number. -/
structure DRun where
  op : DOp
  out : Nat := 0
  stage : Nat := 0
  ladders : List Ladder := []
  todo : List EngReq := []
  bad : List Nat := []
  failed : Bool := false
  id : Nat := 0
  deriving DecidableEq, Repr

/-- A collect table entry (06 R222-R224, R232): state 0 free, 1 open, 2 complete; `owed` when a closed RETINK entry named its
return region, which goes back once the last entry that names it closes (06 R224). -/
structure CtEntry where
  st : Nat := 0
  batch : Nat := 0
  gen : Nat := 0
  half : Nat := 0
  lo : Nat := 0
  len : Nat := 0
  expect : Nat := 0
  got : Nat := 0
  armed : Option (Loc × Nat) := none
  retink : Bool := false
  region : Nat := 0
  owed : Bool := false
  deriving DecidableEq, Repr

/-- A cluster's Ductus engine (06 R188, R222, R232): the four units (0 selection, 1 count, 2 exchange, 3 combine) with
their running instruction and queue, the collect table, generation floors by context slot, gating glyph loads. -/
structure Ductus where
  run : Tbl DRun := []
  q : Tbl (List DOp) := []
  ct : Tbl CtEntry := []
  floor : Tbl Nat := []
  loads : List GateLoad := []
  deriving DecidableEq, Repr

/-- A Tier Mover operation (07 R258): partition, context slot and descriptor. -/
structure TmOp where
  p : Nat
  s : Nat
  desc : Nat
  deriving DecidableEq, Repr

/-- The Tier Mover operation in progress (07 R259-R261): status so far, dropped rows, operations in flight. -/
structure TmRun where
  op : TmOp
  status : Nat
  drops : Nat
  out : Nat
  done : Bool
  deriving DecidableEq, Repr

/-- A Tier Mover (07 R258): queue of 64, stores waiting at the home, the operation in progress, glyph slots keyed
4 partition + slot (R260). -/
structure TierMover where
  q : List TmOp := []
  wait : List Packet := []
  run : Option TmRun := none
  glyph : Tbl Nat := []
  deriving DecidableEq, Repr

/-- Who issued a remote operation, so that its outcome reaches it (02 R46, R57; 03 R91; 06 R189; 07 R261; 08 R312). Of a Ligature
group's: its entry, what it is (0 an open report, 1 a rank message, 2 a chunk up, 3 one that a bypassing member passes on, 4 a chunk
down), the collective and chunk key, the input it belongs to and its place among that input's chunks (09 R348). -/
inductive Owner where
  | core (loc : Loc) (pcAt : Nat)
  | dma (loc : Loc) (pcAt : Nat) (id : Nat)
  | ductus (clu unit id : Nat) (loc : Loc) (pcAt : Nat) (tag : Nat)
  | tmv (quad : Nat) (last : Bool)
  | lig (entry kind k chunk inp ord : Nat)
  | ligStatus (loc : Loc) (cnt pcAt : Nat)
  | fwd (req : Packet)
  | combine (srcs : List Packet)
  | copy (seq part : Nat)
  | ckpt (p off : Nat)
  | stage (p obj block part : Nat)
  | move (p gran part : Nat)
  | notice
  | jobstart
  | far (id : Nat)
  | free
  deriving DecidableEq, Repr

/-- Where returned data go (03 R87). -/
inductive Dest where
  | none
  | reg (loc : Loc) (x : Nat)
  | spad (loc : Loc) (addr size : Nat)
  deriving DecidableEq, Repr

/-- A remote operation about to be sent (08 R282): class as on the wire, size in 8 B units less 1. -/
structure RReq where
  ptype : Nat
  cls : Nat
  size : Nat
  off : Nat
  space : Nat
  atype : Nat := 0
  aop : Nat := 0
  nt : Bool := false
  ncnt : Nat := 0
  ncore : Nat := 0
  nclu : Nat := 0
  circ : Nat := 0
  tree : Nat := 0
  comb : Bool := false
  ext : Bool := false
  x0 : Nat := 0
  x1 : Nat := 0
  data : Nat := 0
  words : Nat := 0
  deriving DecidableEq, Repr

/-- An operation that waits at issue for a free slot of the outstanding-operation table (08 R317). -/
structure Waiting where
  part : Nat
  owner : Owner
  dest : Dest
  lnode : Nat
  req : RReq
  deriving DecidableEq, Repr

/-- A held slot of the outstanding-operation table (08 R317): use count, issuer, destination, the operation's logical
node, space and offset for its report, partition, physical node, epoch, issue tick, circuit; the mesh link by which it leaves its
source cluster and whether it goes along the column first (08 R292), and whether it has crossed that link in a frame (10 R388). -/
structure Op where
  use : Nat
  owner : Owner
  dest : Dest
  part : Nat
  lnode : Nat
  space : Nat
  off : Nat
  pnode : Nat
  epoch : Nat
  tick : Nat
  circ : Option Nat
  way : Option (Nat × Bool) := none
  crossed : Bool := false
  deriving DecidableEq, Repr

/-- Fabric port states (08 R272). -/
inductive PortState where
  | disabled
  | training
  | aligning
  | init
  | up
  | down
  deriving DecidableEq, Repr

/-- A packet in an output queue, the tick it entered, its input (a fabric port, 16 to 23 a mesh port, 24 the management agent) and
the circuit entry that sent it there (08 R291, R301, R306, R312). -/
structure QEnt where
  pkt : Packet
  at_ : Nat
  inp : Nat
  circ : Option Nat
  deriving DecidableEq, Repr

/-- Where an output's turns stand (08 R306): slots served, what is left of the weights of classes 1 to 3, the input whose turn it
is. -/
structure Arb where
  rr : Nat := 0
  wrr : Tbl Nat := []
  rot : Nat := 0
  deriving DecidableEq, Repr

/-- A mesh port's output queue (08 R291, R306). -/
structure MeshPort where
  outq : List QEnt := []
  arb : Arb := {}
  deriving DecidableEq, Repr

/-- Slots of a virtual channel that a fabric port still owes as credit, for a packet that has not been taken (08 R279, R313). -/
structure Owe where
  pkt : Packet
  port : Nat
  vc : Nat
  n : Nat
  deriving DecidableEq, Repr

/-- A flit on the wire or in the retry buffer (08 R275, R278). -/
structure Flit where
  hdr : BitVec 64
  crc : BitVec 64
  slots : List Slot
  deriving DecidableEq, Repr

/-- A fabric port (08 R271-R280, R302-R307): `retries` flits refused in succession (R277), `failed` retries in succession of the
flit sent earliest (R273) and whether that one has been sent again since its last NAK, `rot` the input whose turn it is, `deficit`
what each circuit's share has left of its frame, `drr` and `drrAt` the circuits' deficit round robin (R303). -/
structure Port where
  st : PortState := .disabled
  rev : Bool := false
  pnode : Nat := 0
  pvalid : Bool := false
  pport : Nat := 0
  since : Nat := 0
  initSent : Bool := false
  initRcvd : Bool := false
  txSeq : Nat := 0
  retry : List Flit := []
  replay : List Flit := []
  rxNext : Nat := 0
  rxPart : Tbl (List (BitVec 128)) := []
  credit : Tbl Nat := []
  owe : Tbl Nat := []
  retries : Nat := 0
  failed : Nat := 0
  resent : Bool := false
  nakDue : Bool := false
  outq : List QEnt := []
  partial_ : Tbl (Option Nat × List (BitVec 128)) := []
  frameSlot : Nat := 0
  frameFlag : Bool := false
  rr : Nat := 0
  wrr : Tbl Nat := []
  deficit : Tbl Nat := []
  rot : Nat := 0
  drr : Tbl Nat := []
  drrAt : Nat := 0
  c0Used : Nat := 0
  c0At : Nat := 0
  c0Over : Bool := false
  agUsed : Nat := 0
  agAt : Nat := 0
  tx : List Flit := []
  deriving DecidableEq, Repr

/-- A multicast aggregation entry (08 R298): the version and tree it was opened on, the answers still awaited, the
merged status, the packet that opened it. -/
structure Agg where
  ver : Nat
  tree : Nat
  left : Nat
  status : Nat
  pkt : Packet
  deriving DecidableEq, Repr

/-- A routing version (08 R295): 0 INVALID, 1 VALID, 2 DRAINING, and the tick its drain began. -/
structure Version where
  st : Nat := 0
  since : Nat := 0
  deriving DecidableEq, Repr

/-- A Ligature message input of a chunk at a vertex (09 R345, R346): input number (0 the device partial, 1 + i child i),
header, data, whether the data are poisoned (12 R420), when it came. -/
structure ChunkIn where
  inp : Nat
  hdr : Nat
  data : Nat
  pz : Bool
  at_ : Nat := 0
  deriving DecidableEq, Repr

/-- A contributor's LCOLL (09 R335): where it was issued, its counter and descriptor, its issue tick and address. -/
structure Contrib where
  loc : Loc
  cnt : Nat
  desc : Nat
  tick : Nat
  pcAt : Nat
  deriving DecidableEq, Repr

/-- A collective of a group on this device (09 R337): number, shape (the header fields that must agree), contributions so far, inputs received by chunk key, own
messages given so far, chunk keys sent up or down, keys whose down path is done here, messages received by sender, rank and
contributor (an all-gather's), status, whether a read of a source failed, whether its stall was counted. -/
structure Coll where
  k : Nat
  shape : Option Nat := none
  contribs : List Contrib := []
  ins : List (Nat × ChunkIn) := []
  own : Nat := 0
  sent : List Nat := []
  downs : List Nat := []
  seen : Tbl Nat := []
  status : Nat := 0
  failed : Bool := false
  stalled : Bool := false
  deriving DecidableEq, Repr

/-- A Ligature group entry (09 R330-R334, R360): state 0 free, 1 opening, 2 open, 3 closing; whether its open report was
sent; the reports of children (child, inputs, contributors, status); the LOPEN that waits; the LCLOSEs that wait; each contributor's next collective;
the collectives under way and how many have completed; how many chunks each input has sent up (0 this device's, else one passed on). -/
structure Group where
  st : Nat := 0
  p : Nat := 0
  s : Nat := 0
  gid : Nat := 0
  desc : Nat := 0
  bypass : Bool := false
  told : Bool := false
  slots : Nat := 0
  rslots : Nat := 0
  status : Nat := 0
  base : Nat := 0
  total : Nat := 0
  reports : List (Nat × Nat × Nat × Nat) := []
  opener : Option (Loc × Nat × Nat) := none
  closers : List (Loc × Nat) := []
  next : Tbl Nat := []
  colls : List Coll := []
  upSent : Tbl Nat := []
  fin : Nat := 0
  since : Nat := 0
  stalled : Bool := false
  deriving DecidableEq, Repr

/-- A line the host may hold (11 R397): function, line number (address / 64), whether claimed; earliest first. -/
structure SfEnt where
  f : Nat
  line : Nat
  claimed : Bool
  deriving DecidableEq, Repr

/-- What waits for the host's answer to a device request (11 R398): a T3 operation, a piece of a COPY or FILL, a completion, the record
of a ring, a Recall, a block being staged or migrated, an engine's piece. -/
inductive HostWait where
  | tier3 (pkt : Packet)
  | copyRead (seq part : Nat)
  | copyWrite (seq part : Nat)
  | complete
  | record (ring : Nat)
  | recall (f line : Nat)
  | stage (p obj block part : Nat)
  | move (p gran part : Nat)
  | far (id : Nat)
  deriving DecidableEq, Repr

/-- Whose table lies outside the device (06 R195): a Tier Mover's operation, a Ductus instruction, a collective of a
group (its sources, or its destinations), a command, a ring whose record is read. -/
inductive Who where
  | mover (quad : Nat)
  | ductus (loc : Loc) (op pcAt : Nat)
  | lig (entry k : Nat) (down : Bool)
  | cmd (seq : Nat)
  | ring (key : Nat)
  deriving DecidableEq, Repr

/-- A piece of a table outside the device (log 13), by number: state 0 asked for, 1 here, 2 failed, 3 a write on its way, 4 a
completion that waits for such writes (`data` its counter), 5 a write not yet sent, 6 a piece of a STREAM
block that is not staged; [off, off + len) of a partition's Reservoir, its data, poison
and failure code. -/
structure FarBlk where
  id : Nat
  who : Who
  part : Nat
  off : Nat
  len : Nat
  st : Nat
  data : Nat := 0
  pz : Bool := false
  code : Nat := 0
  deriving DecidableEq, Repr

/-- A device request to the host that awaits its answer (11 R398): number, kind (0 LoadPeek, 1 StoreMask, 2 Atomic, 3 Recall),
address, size, data, what waits for it; of a StoreMask its byte mask and the number of the first of the StoreMasks that one write makes. -/
structure HostReq where
  id : Nat
  kind : Nat
  addr : Nat
  size : Nat
  data : Nat
  wait : HostWait
  mask : Nat := 0
  grp : Nat := 0
  deriving DecidableEq, Repr

/-- What the device sends on DynerLink (11 R394-R403): an answer to a host request, a request, an event message. -/
inductive HostMsg where
  | reply (t : HostTarget) (addr : Nat) (status : Nat) (copy : Bool) (size : Nat) (data : Nat)
  | request (r : HostReq)
  | event (vec : Nat)
  deriving DecidableEq, Repr

/-- A host request on device memory (11 R396). -/
inductive HostOp where
  | share (claim : Bool)
  | peek (size : Nat)
  | mask (mask data : Nat)
  | atomic (cas wide : Bool) (ty x y : Nat)
  deriving DecidableEq, Repr

/-- A host request that waits: for room in its set of the snoop filter (11 R397), or for a block that is being moved (07 R256). -/
structure Blocked where
  f : Nat
  addr : Nat
  op : HostOp
  deriving DecidableEq, Repr

/-- Ring states and indices (11 R402, R417): 0 DISABLED, 1 ACTIVE, 2 ERROR. -/
structure Ring where
  st : Nat := 0
  head : Nat := 0
  cqt : Nat := 0
  woken : Bool := false
  deriving DecidableEq, Repr

/-- A command that has been accepted (11 R404-R413): journal number, function, ring, ring index, record, journal state
(0 ACCEPTED, 1 RUNNING, 2 DONE, 3 ABORTED, 4 PARTIAL), part results so far, final code, detail, times. -/
structure Cmd where
  seq : Nat
  f : Nat
  r : Nat
  ridx : Nat
  body : Nat
  st : Nat
  parts : Nat
  fails : List (Nat × Nat)
  code : Nat
  detail : Nat
  accept : Nat
  fin : Nat
  deriving DecidableEq, Repr

/-- An event on its way into the Blot Log (12 R426-R428). -/
structure Event where
  code : Nat
  cls : Nat
  srck : Nat
  srcid : Nat
  lnode : Nat
  part : Nat
  ctx : Nat
  pv : Bool
  d0 : W64
  d1 : W64
  d2 : W64
  time : Nat
  deriving DecidableEq, Repr

/-- Scribe-M's notice sending (12 R431): the record being sent, sendings so far, tick of the last, and the numbers of
the records written while notices were off. -/
structure NoticeSt where
  cur : Option Nat := none
  tries : Nat := 0
  sentAt : Nat := 0
  next : Nat := 1
  skip : List Nat := []
  deriving DecidableEq, Repr

/-- Why the working clocks do not run (13 R457, R465, R470; 14 R477, R495). -/
inductive Power where
  | islandReset
  | waitGood
  | inReset
  | running
  | stopped
  deriving DecidableEq, Repr

/-- Clocks, power, thermal sensors, pins, boot, firmware, scribes and test access (13, 14). -/
structure Plat where
  power : Power := .waitGood
  pwrGood : Bool := false
  tb : Nat := 0
  tbRun : Bool := false
  tbStarted : Bool := false
  trimAcc : Nat := 0
  lock : Bool := false
  refloss : Bool := false
  ndiv : Nat := 4
  fdiv : Nat := 8
  capDiv : Tbl Nat := []
  thDiv : Tbl Nat := []
  holdP : Bool := false
  holdT : List Nat := []
  swallow : Bool := false
  capSteps : List Nat := []
  overCnt : Nat := 0
  floor : Bool := false
  watts : Nat := 0
  vset : Nat := 700
  vconf : Nat := 700
  vnom : Nat := 700
  margin : Nat := 0
  avserr : Bool := false
  avsTry : Nat := 0
  railMv : Tbl Nat := []
  railA : Tbl Nat := []
  railFault : List Nat := []
  dom : Tbl Nat := []
  temp : Tbl Nat := []
  tmax : Tbl Nat := []
  tripAt : List Nat := []
  alert : Bool := false
  trip : Bool := false
  stage : Nat := 0
  berr : Nat := 0
  recBoot : Bool := false
  flashErr : Bool := false
  warmBoot : Bool := false
  ready5 : Bool := false
  ready6 : Bool := false
  flash : Nat := 0
  image : Nat := 0
  digest : Nat := 0
  recBytes : Nat := 0
  recSt : Nat := 0
  recErr : Nat := 0
  updSt : Nat := 0
  updErr : Nat := 0
  updBytes : Nat := 0
  scribeDown : List Nat := []
  failLatch : List Nat := []
  i3cDyn : Option Nat := none
  i3cOut : W64 := 0
  tapIr : Nat := 1
  fieldLife : Bool := true
  dbistBusy : Bool := false
  dbistFail : Bool := false
  deriving DecidableEq, Repr

/-- A word that an error code protects (12 R419): a 32 B word of DRAM, an 8 B word of the cluster stores, the metadata of a pool, an
entry of the router's tables or of a logical node table, a 256 B line of a core's image in its save area (by the core's key,
10 R380), an entry of the snoop filter, a record of the Blot Log, a journal entry, and an addition: that of a group's collective for one chunk key at level 0
(cluster l), 1 (chip) or 2 (vertex), whose result fails the residue check (09 R349). -/
inductive ErrAt where
  | dram (word : Nat)
  | cstore (word : Nat)
  | metadata (pool : Nat)
  | route (i : Nat)
  | tree (i : Nat)
  | circ (i : Nat)
  | node (p n : Nat)
  | image (core line : Nat)
  | snoop (f line : Nat)
  | blot (i : Nat)
  | journal (i : Nat)
  | adder (entry k key level l : Nat)
  deriving DecidableEq, Repr

/-- An error that has struck and has not been met yet; `hard` when its code cannot correct it (12 R419). No command brings one
about: reset holds none, and every statement about a state covers those that hold some (log 109). -/
structure Upset where
  at_ : ErrAt
  hard : Bool
  deriving DecidableEq, Repr

/-- Checkpoint bookkeeping of the always-on island (12 R445-R447). -/
structure CkpPart where
  cost : Nat := 0
  interval : Nat := 30000
  due : Bool := false
  last : Nat := 0
  op : Nat := 0
  code : Nat := 0
  blocks : Nat := 0
  deriving DecidableEq, Repr

/-- The device. `cores` holds each core's state, on its core or in its image; `saved` the images from which the resident contexts
were restored (10 R378, R382, R386). `mesh` holds the packets in the device that wait to be taken, in their order; `mq` those in the
queues of the mesh ports, keyed by their input number, and `marb` the turns of the mesh links (key 4 cluster + link); `passed` the
requests that have passed their checks and wait at their home (08 R311), `waitq` the operations that wait for a slot (08 R317). `pending` is the queue of waiting commands and `free` the model's own count of free values used; every
other field is the spec's. -/
structure State where
  pending : List Instr
  free : Nat
  plat : Plat
  reg : Tbl W64
  stage128 : Tbl W64
  ctr : Tbl W64
  parts : Tbl Part
  cores : Tbl CoreSt
  saved : Tbl CoreSt
  duc : Tbl Ductus
  fe : Tbl FrontEnd
  pools : Tbl Pool
  reqs : Tbl Requester
  inkq : List InkReq
  inkWait : List InkReq
  freeWait : List InkReq
  metaUsed : Nat
  tm : Tbl TierMover
  dram : Mem
  dramPoison : List Nat
  cstore : Mem
  cstorePoison : List Nat
  clearing : List (Nat × Nat)
  mesh : List Packet
  meshPoison : Tbl Nat
  ops : Tbl Op
  use : Tbl Nat
  quar : Tbl Nat
  ports : Tbl Port
  srcEpoch : Nat
  verA : Version
  verB : Version
  epochErr : Bool
  route : Tbl W16
  tree : Tbl (BitVec 128)
  circ : Tbl (BitVec 128)
  tdm : Tbl W16
  mslot : Tbl W16
  mframe : Tbl Nat
  aggs : List Agg
  nqHead : Nat
  nqEnt : Tbl Nat
  mgmtOut : List Packet
  grps : Tbl Group
  lfree : Nat
  lrfree : Nat
  ligLast : W64
  ligSkew : Nat
  jsBusy : Bool
  jsDone : Bool
  jsStatus : Nat
  jsTick : Nat
  jsRec : Tbl W64
  link : PortState
  linkWidth : Nat
  sf : List SfEnt
  recalls : List (Nat × Nat)
  blocked : List Blocked
  hreqs : List HostReq
  hostId : Nat
  hostTx : List HostMsg
  far : List FarBlk
  farNext : Nat
  wl : Mem
  rings : Tbl Ring
  turnRing : Nat
  turnTaken : Nat
  cmds : List Cmd
  order : List Nat
  jrn : Tbl Nat
  jrnHead : Nat
  jrnWait : Bool
  jrnWseq : Nat
  blt : Tbl Nat
  bltHead : Nat
  bltq : List Event
  bltNote : NoticeSt
  satCur : W64
  satUtil : W64
  satStall : W64
  satHist : Tbl W64
  satCfg : Nat
  ckp : Tbl CkpPart
  mtbf : Nat
  lastFail : Nat
  hasPrev : Bool
  upsets : List Upset
  mq : Tbl MeshPort
  marb : Tbl Arb
  owes : List Owe
  passed : List Packet
  waitq : List Waiting
  deriving DecidableEq, Repr

/-- The device right after a power-on reset, PWR_GOOD not yet asserted (14 R477, 15 R502). -/
def State.reset : State where
  pending := []
  free := 0
  plat := {}
  reg := []
  stage128 := []
  ctr := []
  parts := []
  cores := []
  saved := []
  duc := []
  fe := []
  pools := []
  reqs := []
  inkq := []
  inkWait := []
  freeWait := []
  metaUsed := 0
  tm := []
  dram := []
  dramPoison := []
  cstore := []
  cstorePoison := []
  clearing := []
  mesh := []
  meshPoison := []
  ops := []
  use := []
  quar := []
  ports := []
  srcEpoch := 0
  verA := {}
  verB := {}
  epochErr := false
  route := []
  tree := []
  circ := []
  tdm := []
  mslot := []
  mframe := []
  aggs := []
  nqHead := 1
  nqEnt := []
  mgmtOut := []
  grps := []
  lfree := 240
  lrfree := 16
  ligLast := 0
  ligSkew := 0
  jsBusy := false
  jsDone := false
  jsStatus := 0
  jsTick := 0
  jsRec := []
  link := .disabled
  linkWidth := 0
  sf := []
  recalls := []
  blocked := []
  hreqs := []
  hostId := 0
  hostTx := []
  far := []
  farNext := 0
  wl := []
  rings := []
  turnRing := 0
  turnTaken := 0
  cmds := []
  order := []
  jrn := []
  jrnHead := 1
  jrnWait := false
  jrnWseq := 0
  blt := []
  bltHead := 1
  bltq := []
  bltNote := {}
  satCur := 0
  satUtil := 0
  satStall := 0
  satHist := []
  satCfg := 0x39A
  ckp := []
  mtbf := 10800
  lastFail := 0
  hasPrev := false
  upsets := []
  mq := []
  marb := []
  owes := []
  passed := []
  waitq := []

/-- Why the machine would stop with a fault: no command of this device does, so there is no constructor. -/
inductive Fault where
  deriving DecidableEq, Repr

/-- Why a command has no meaning. -/
inductive Refusal where
  /-- Raised by an arm of exec whose command has no meaning yet; safe, since no claim can be proved of it. -/
  | notModelled (mnemonic : String)
  deriving DecidableEq, Repr

end Sys2Proof.Machine
end

