-- ==== Sys2Proof/Machine/Bits.lean ====
section
/-! DEFINITION. Bit fields (00 R6), sparse tables and byte stores, and the plain reads and writes of the parts of
State. -/

namespace Sys2Proof.Machine

/-- Bits [lo + n - 1 : lo] of a number (00 R6). -/
def bits (v lo n : Nat) : Nat := (v >>> lo) % 2 ^ n

/-- The same field of a word. -/
def fld {w : Nat} (v : BitVec w) (lo n : Nat) : Nat := bits v.toNat lo n

/-- Bit i of a number. -/
def bit (v i : Nat) : Bool := v.testBit i

/-- v with bits [lo + n - 1 : lo] replaced by x. -/
def setBits (v lo n x : Nat) : Nat := v - bits v lo n * 2 ^ lo + x % 2 ^ n * 2 ^ lo

/-- A 64-bit word of a number. -/
def w64 (n : Nat) : W64 := BitVec.ofNat 64 n

/-- The low n bits of v as a two's complement number. -/
def sgn (v n : Nat) : Int := let u := v % 2 ^ n; if 2 * u < 2 ^ n then (u : Int) else (u : Int) - (2 ^ n : Nat)

/-- An integer modulo 2^n. -/
def wrap (i : Int) (n : Nat) : Nat := (i % ((2 ^ n : Nat) : Int)).toNat

def b2n (b : Bool) : Nat := if b then 1 else 0

/-- A value rounded down to a multiple of n. -/
def roundDown (v n : Nat) : Nat := v / n * n

def roundUp (v n : Nat) : Nat := (v + n - 1) / n * n

def tget {V : Type} : Tbl V → Nat → Option V
  | [], _ => none
  | (j, w) :: t, k => if j = k then some w else tget t k

def tgetD {V : Type} (t : Tbl V) (k : Nat) (d : V) : V := (tget t k).getD d

def tput {V : Type} : Tbl V → Nat → V → Tbl V
  | [], k, v => [(k, v)]
  | (j, w) :: t, k, v =>
    if k < j then (k, v) :: (j, w) :: t
    else if k = j then (k, v) :: t
    else (j, w) :: tput t k v

def tdel {V : Type} (t : Tbl V) (k : Nat) : Tbl V := t.filter (fun e => e.1 != k)

/-- Entries with a key in [lo, lo + n) removed. -/
def tdelRange {V : Type} (t : Tbl V) (lo n : Nat) : Tbl V := t.filter (fun e => !(lo ≤ e.1 && e.1 < lo + n))

/-- The byte at an address: an unlisted byte reads as zero (10 R366, 14 R480: stores are cleared; log 17). -/
def mget (m : Mem) (a : Nat) : Byte := tgetD m a 0

/-- One byte written, keeping only non-zero bytes listed. -/
def mput (m : Mem) (a : Nat) (b : Byte) : Mem := if b = 0 then tdel m a else tput m a b

/-- n bytes at a as a little-endian number (00 R6). -/
def mread (m : Mem) (a : Nat) : Nat → Nat
  | 0 => 0
  | n + 1 => (mget m a).toNat + 256 * mread m (a + 1) n

/-- The low n bytes of v at a, little-endian. -/
def mwrite (m : Mem) (a : Nat) : Nat → Nat → Mem
  | 0, _ => m
  | n + 1, v => mwrite (mput m a (BitVec.ofNat 8 v)) (a + 1) n (v / 256)

def mclear (m : Mem) (a n : Nat) : Mem := tdelRange m a n

/-- Scratchpad addresses wrap modulo 2^18 (02 R31). -/
def spadSize : Nat := 2 ^ 18

def sread (m : Mem) (a : Nat) : Nat → Nat
  | 0 => 0
  | n + 1 => (mget m (a % spadSize)).toNat + 256 * sread m (a + 1) n

def swrite (m : Mem) (a : Nat) : Nat → Nat → Mem
  | 0, _ => m
  | n + 1, v => swrite (mput m (a % spadSize) (BitVec.ofNat 8 v)) (a + 1) n (v / 256)

/-- The canonical form of a byte store: addresses strictly rising, no zero byte listed. -/
def Memory.wf (m : Mem) : Bool :=
  decide ((m.map Prod.fst).Pairwise (· < ·)) && m.all (fun e => e.2 != 0)

def addOnce (l : List Nat) (a : Nat) : List Nat := if l.contains a then l else a :: l

def addAll (l : List Nat) (as : List Nat) : List Nat := as.foldl addOnce l

/-- Units of n bytes that [a, a + len) touches, as unit numbers. -/
def unitsOf (a len n : Nat) : List Nat :=
  if len = 0 then [] else List.range' (a / n) ((a + len - 1) / n + 1 - a / n)

def listSum (l : List Nat) : Nat := l.foldl (· + ·) 0

/-! Reads and writes of the parts of State: a missing table entry stands for the reset entry. -/

def Loc.key (l : Loc) : Nat := ((l.p * 8 + l.s) * 64 + l.l) * 64 + l.k

def State.part (s : State) (p : Nat) : Part := tgetD s.parts p {}

def State.setPart (s : State) (p : Nat) (v : Part) : State := { s with parts := tput s.parts p v }

def State.ctx (s : State) (p c : Nat) : Ctx := tgetD (s.part p).ctxs c {}

def State.setCtx (s : State) (p c : Nat) (v : Ctx) : State :=
  s.setPart p { s.part p with ctxs := tput (s.part p).ctxs c v }

def State.core (s : State) (l : Loc) : CoreSt := tgetD s.cores l.key {}

def State.setCore (s : State) (l : Loc) (v : CoreSt) : State := { s with cores := tput s.cores l.key v }

def State.ductus (s : State) (n : Nat) : Ductus := tgetD s.duc n {}

def State.setDuctus (s : State) (n : Nat) (v : Ductus) : State := { s with duc := tput s.duc n v }

def State.port (s : State) (n : Nat) : Port := tgetD s.ports n {}

def State.setPort (s : State) (n : Nat) (v : Port) : State := { s with ports := tput s.ports n v }

def State.pool (s : State) (k : Nat) : Pool := tgetD s.pools k {}

def State.setPool (s : State) (k : Nat) (v : Pool) : State := { s with pools := tput s.pools k v }

/-- Whether an entry of a table holds an error that its code cannot correct: it is read as empty or dead (12 R419). -/
def State.ruined (s : State) (x : ErrAt) : Bool := s.upsets.any (fun u => u.hard && u.at_ == x)

/-- An entry is written: its error is gone (12 R419). -/
def State.mend (s : State) (x : ErrAt) : State := { s with upsets := s.upsets.filter (fun u => u.at_ != x) }

def State.reqr (s : State) (k : Nat) : Requester := tgetD s.reqs k {}

def State.setReqr (s : State) (k : Nat) (v : Requester) : State := { s with reqs := tput s.reqs k v }

def State.front (s : State) (n : Nat) : FrontEnd := tgetD s.fe n {}

def State.setFront (s : State) (n : Nat) (v : FrontEnd) : State := { s with fe := tput s.fe n v }

def State.mover (s : State) (q : Nat) : TierMover := tgetD s.tm q {}

def State.setMover (s : State) (q : Nat) (v : TierMover) : State := { s with tm := tput s.tm q v }

def State.grp (s : State) (e : Nat) : Group := tgetD s.grps e {}

def State.setGrp (s : State) (e : Nat) (v : Group) : State := { s with grps := tput s.grps e v }

def State.ring (s : State) (k : Nat) : Ring := tgetD s.rings k {}

def State.setRing (s : State) (k : Nat) (v : Ring) : State := { s with rings := tput s.rings k v }

/-- The value of a free value and the state after it is used (log 3). -/
def State.freeVal (s : State) : W64 := Config.freeValue s.free

def State.useFree (s : State) : State := { s with free := s.free + 1 }

/-- The timebase (14 R490). -/
def State.now (s : State) : Nat := s.plat.tb

end Sys2Proof.Machine
end

