-- ==== Sys2Proof/Machine/Keccak.lean ====
section
/-! DEFINITION. SHA3-256, SHA3-512 and the SHAKE functions (00 R13: FIPS 202), over byte strings held as little-endian
numbers. PRESUMED from the published standard (log 21): the round constants come from its shift register and the rotations
from its walk over the lanes, so that no table of either stands here. -/

namespace Sys2Proof.Machine

def m64 : Nat := 2 ^ 64

def rotl64 (v n : Nat) : Nat := ((v <<< n) % m64) + (v >>> (64 - n))

/-- The standard's shift register (x^8 + x^6 + x^5 + x^4 + 1): its next n output bits, the first lowest. -/
def rcStream : Nat → Nat → Nat
  | 0, _ => 0
  | n + 1, r => r % 2 + 2 * rcStream n (if r < 128 then 2 * r else Nat.xor (2 * r) 0x171)

/-- The round constant of a round: output bit 7 i + j at bit 2^j - 1. -/
def roundConst (i : Nat) : Nat :=
  listSum ((List.range 7).map (fun j => bits (rcStream 168 1) (7 * i + j) 1 * 2 ^ (2 ^ j - 1)))

/-- The lanes of the walk from column x of plane y, n of them, as x + 5 y. -/
def walk : Nat → Nat → Nat → List Nat
  | 0, _, _ => []
  | n + 1, x, y => (x + 5 * y) :: walk n y ((2 * x + 3 * y) % 5)

/-- How far lane x of plane y turns: the t-th of the walk by (t + 1)(t + 2) / 2, the first lane not at all. -/
def turnOf (x y : Nat) : Nat :=
  match (walk 24 1 0).findIdx? (· == x + 5 * y) with
  | some t => (t + 1) * (t + 2) / 2 % 64
  | none => 0

/-- Five lanes of equal y. -/
abbrev Plane := List Nat

def Plane.xor (p q : Plane) : Plane := List.zipWith Nat.xor p q

/-- A plane read from lane n on, wrapping. -/
def Plane.from (p : Plane) (n : Nat) : Plane := p.drop n ++ p.take n

/-- The column parities spread to both neighbours. -/
def theta (a : List Plane) : List Plane :=
  let c := a.foldl Plane.xor (List.replicate 5 0)
  a.map (Plane.xor (Plane.xor (c.from 4) ((c.from 1).map (fun v => rotl64 v 1))))

/-- The lanes turned and moved: plane y takes lane x from lane x + 3 y of plane x. -/
def rhoPi (a : List Plane) : List Plane :=
  (List.range 5).map (fun y => (a.zip (List.range 5)).map (fun e =>
    let x := (e.2 + 3 * y) % 5
    rotl64 (e.1.getD x 0) (turnOf x e.2)))

/-- The non-linear step within a plane. -/
def chi (p : Plane) : Plane :=
  Plane.xor p (List.zipWith (fun u v => Nat.land (m64 - 1 - u) v) (p.from 1) (p.from 2))

/-- One round. -/
def sponge1 (a : List Plane) (i : Nat) : List Plane :=
  match (rhoPi (theta a)).map chi with
  | (h :: p) :: r => (Nat.xor h (roundConst i) :: p) :: r
  | r => r

def permute (a : List Plane) : List Plane := (List.range 24).foldl sponge1 a

/-- A state as 25 lanes of a number, lane 0 lowest, and back. -/
def planesOf (v : Nat) : List Plane :=
  (List.range 5).map (fun y => (List.range 5).map (fun x => bits v (64 * (x + 5 * y)) 64))

def planesNum (a : List Plane) : Nat := a.flatten.foldr (fun v n => v + m64 * n) 0

/-- n blocks of `rate` bytes of m absorbed. -/
def absorb (rate : Nat) : Nat → Nat → Nat → Nat
  | 0, _, st => st
  | n + 1, m, st =>
    absorb rate n (m >>> (8 * rate)) (planesNum (permute (planesOf (Nat.xor st (m % 2 ^ (8 * rate))))))

/-- n blocks of output, the first lowest. -/
def squeeze (rate : Nat) : Nat → Nat → Nat
  | 0, _ => 0
  | n + 1, st => st % 2 ^ (8 * rate) + 2 ^ (8 * rate) * squeeze rate n (planesNum (permute (planesOf st)))

/-- The function of a rate and a suffix (6 for SHA3, 31 for SHAKE, with the first pad bit) of the len low bytes of m: `out` bytes. -/
def keccak (rate suffix out m len : Nat) : Nat :=
  let nb := len / rate + 1
  let q := m % 2 ^ (8 * len) + suffix * 2 ^ (8 * len) + 2 ^ (8 * rate * nb - 1)
  squeeze rate ((out + rate - 1) / rate) (absorb rate nb q 0) % 2 ^ (8 * out)

/-- SHA3-256 of the len low bytes of m: 32 bytes. -/
def sha3x256 (m len : Nat) : Nat := keccak 136 6 32 m len

/-- SHA3-512: 64 bytes. -/
def sha3x512 (m len : Nat) : Nat := keccak 72 6 64 m len

/-- SHAKE128 and SHAKE256: `out` bytes. -/
def shake128 (out m len : Nat) : Nat := keccak 168 31 out m len

def shake256 (out m len : Nat) : Nat := keccak 136 31 out m len

end Sys2Proof.Machine
end

