-- ==== Sys2Proof/Machine/Flags.lean ====
section
/-! DEFINITION. Status codes (15 R507), event counters (12 R423), the Blot Log's queue (12 R426) and the fields of
SW_ESTAT (03 R75). -/

namespace Sys2Proof.Machine

/-! Status codes (00 R9, 15 R507). -/

def cILLEGAL : Nat := 0x0101
def cRESFIELD : Nat := 0x0102
def cFORMAT : Nat := 0x0103
def cADDR : Nat := 0x0104
def cALIGN : Nat := 0x0105
def cCOUNT : Nat := 0x0106
def cVGROUP : Nat := 0x0107
def cDESC : Nat := 0x0108
def cBREAK : Nat := 0x0109
def cTRAP : Nat := 0x010A
def cWAIT : Nat := 0x010B
def cDATAUE : Nat := 0x010C
def cMMAFMTPAIR : Nat := 0x0110
def cMMAOFMT : Nat := 0x0111
def cMMAKDEPTH : Nat := 0x0112
def cMMAHEADER : Nat := 0x0113
def cSPARSEOVF : Nat := 0x0118
def cVECFMTUSE : Nat := 0x0120
def cVECMXLEN : Nat := 0x0121
def cVECKRANGE : Nat := 0x0122
def cVECGLYPH : Nat := 0x0123
def cVECGMX : Nat := 0x0124
def cFABTIMEOUT : Nat := 0x0401
def cFABDEAD : Nat := 0x0402
def cFABPERM : Nat := 0x0403
def cFABNOCIRC : Nat := 0x0404
def cFABAGENT : Nat := 0x0405
def cLIGRESIDUE : Nat := 0x0502
def cPOISON : Nat := 0x0805

/-! Event counters: COUNT in bits [47:0], SAT in bit 63 (06 R232), keyed by control-window offset (15 R505). -/

/-- The counter register of a unit's code (15 R505): bases of the CNT arrays by unit. -/
def cntOff (code : Nat) : Nat :=
  let i := 8 * (code % 256)
  match code / 256 with
  | 2 => 0x00A01000 + i
  | 4 => 0x00D01000 + i
  | 5 => 0x00E01000 + i
  | 6 => 0x00601000 + i
  | 7 => 0x00B01000
  | _ => 0x00801000 + i

/-- The CLU block of a cluster (01 R17). -/
def cluBase (n : Nat) : Nat := 0x01000000 + 0x40000 * n

def satBit : Nat := 2 ^ 63

def cntMax : Nat := 2 ^ 48 - 1

/-- A counter after n more events (12 R423). -/
def cntAdd (v n : Nat) : Nat :=
  if v ≥ satBit then v
  else if v + n > cntMax then satBit + cntMax
  else v + n

/-- A counter after a register write (12 R423). -/
def cntWrite (old v : Nat) : Nat :=
  if v ≥ satBit then v % 2 ^ 48
  else if old ≥ satBit then old
  else v % 2 ^ 48

def State.cnt (s : State) (off : Nat) : Nat := (tgetD s.ctr off 0).toNat

def State.setCnt (s : State) (off v : Nat) : State := { s with ctr := tput s.ctr off (w64 v) }

/-- Add without the saturation report. -/
def State.rawCount (s : State) (off n : Nat) : State := s.setCnt off (cntAdd (s.cnt off) n)

/-- Whether adding n sets SAT. -/
def State.newSat (s : State) (off n : Nat) : Bool :=
  s.cnt off < satBit && s.cnt off + n > cntMax

/-- An event reaches the log queue of 64 entries, or is lost and counted in PLT_LOG_LOST, whose own saturation adds to
PLT_CNT_SAT (12 R426, R422, R423). -/
def State.logEvent (s : State) (e : Event) : State :=
  if s.bltq.length < 64 then { s with bltq := s.bltq ++ [e] }
  else if s.newSat (cntOff 0x0811) 1 then (s.rawCount (cntOff 0x0811) 1).rawCount (cntOff 0x0810) 1
  else s.rawCount (cntOff 0x0811) 1

/-- An event record without a logical name. -/
def State.event (s : State) (code cls srck srcid : Nat) (d0 d1 d2 : Nat) : Event :=
  { code, cls, srck, srcid, lnode := 0, part := 0, ctx := 0, pv := false,
    d0 := w64 d0, d1 := w64 d1, d2 := w64 d2, time := s.now }

/-- n events on the counter at a window offset, with the record of a saturation (12 R423); `code` is what the counter
counts. -/
def State.countAt (s : State) (off code n : Nat) : State :=
  if s.newSat off n then
    let s1 := s.rawCount off n
    if off = cntOff 0x0810 then s1
    else (s1.rawCount (cntOff 0x0810) 1).logEvent (s1.event 0x0810 5 0 0 off code 0)
  else s.rawCount off n

/-- One event of a code counted in its unit's own block. -/
def State.count (s : State) (code : Nat) : State := s.countAt (cntOff code) code 1

def State.countN (s : State) (code n : Nat) : State := s.countAt (cntOff code) code n

/-- An enabled core's physical position, counting the spare (01 R16, 12 R428). The spec fixes that positions count the spare; that
enabled numbers stand in ascending positions, skipping it, is the model's choice (DESIGN CHOICE, log 19). -/
def physCore (clu core : Nat) : Nat := if core < (Config.sparePos clu).toNat % 65 then core else core + 1

/-- SRCID of a core (12 R428). -/
def coreSrc (clu core : Nat) : Nat := clu + physCore clu core * 64

/-- SW_ESTAT (03 R75). -/
def estat (c : CoreSt) : Nat := b2n c.inh + 2 * b2n c.asyncB + 4 * min c.more 255

end Sys2Proof.Machine
end

