-- ==== Sys2Proof/Machine/RegFile.lean ====
section
/-! DEFINITION. Stored control registers (15 R505): the values that software writes, keyed by window offset, with their
reset values, and the fields other units read from them. -/

namespace Sys2Proof.Machine

/-- Reset value of a stored register (15 R505); 0 where the table gives 0. -/
def regReset (o : Nat) : Nat :=
  if o = 0x00200008 then 0x4E2
  else if o = 0x00300000 then 0x3E803700320
  else if o = 0x00400100 ∨ o = 0x00400110 ∨ o = 0x00400120 then 0x64
  else if o = 0x00800008 then 1
  else if o = 0x00800018 then 0xBE8
  else if 0x00900000 ≤ o ∧ o < 0x00900400 ∧ o % 0x40 = 0x20 then 0x1388000007D0
  else if 0x00A00100 ≤ o ∧ o < 0x00A00180 then 3
  else if 0x00A00200 ≤ o ∧ o ≤ 0x00A00260 then 0x10
  else if o = 0x00B02008 then 0xA0003
  else if o = 0x00B02010 then 0xE100000001E
  else if o = 0x00D00020 then 0x19A28
  else if o = 0x00D00028 then 0xC14
  else if o = 0x00D00030 then 0x184
  else if o = 0x00D00058 then 1
  else if 0x00D00200 ≤ o ∧ o < 0x00D00300 ∧ o % 0x10 = 8 then 0x7D0
  else if o = 0x00E00008 then 0x200B20
  else if o = 0x00F00008 then 0x64
  else if o = 0x02010000 then 0x39A
  else 0

/-- A stored register's value. -/
def State.rg (s : State) (o : Nat) : Nat := ((tget s.reg o).getD (w64 (regReset o))).toNat

def State.setRg (s : State) (o v : Nat) : State := { s with reg := tput s.reg o (w64 v) }

/-! Fields. -/

def oFabNode : Nat := 0x00D00000
def oFabFm : Nat := 0x00D00008
def oPartCfg (p : Nat) : Nat := 0x00D00200 + 0x10 * p
def oPartTmo (p : Nat) : Nat := 0x00D00208 + 0x10 * p
def oPartTime (p : Nat) : Nat := 0x00900020 + 0x40 * p
def oInkPart (p : Nat) : Nat := 0x00A00100 + 8 * p
def oFeDepth (c : Nat) : Nat := 0x00A00200 + 8 * c
def oSaves (p c : Nat) : Nat := 0x00920008 + 0x100 * p + 0x10 * c

/-- This device's physical node number (08 R287). -/
def State.pnode (s : State) : Nat := bits (s.rg oFabNode) 0 16
def State.nodeValid (s : State) : Bool := bit (s.rg oFabNode) 16
def State.fmNode (s : State) : Nat := bits (s.rg oFabFm) 0 16
def State.fmValid (s : State) : Bool := bit (s.rg oFabFm) 16

def State.job (s : State) (p : Nat) : Nat := bits (s.rg (oPartCfg p)) 0 16
def State.jepoch (s : State) (p : Nat) : Nat := bits (s.rg (oPartCfg p)) 16 16
def State.wg (s : State) (p : Nat) : Nat := bits (s.rg (oPartCfg p)) 32 4
def State.torn (s : State) (p : Nat) : Bool := bit (s.rg (oPartCfg p)) 36

def State.setTorn (s : State) (p : Nat) : State := s.setRg (oPartCfg p) (setBits (s.rg (oPartCfg p)) 36 1 1)

def clampN (lo hi v : Nat) : Nat := max lo (min hi v)

/-- Ticks in a count of microseconds (08 R314: 1,050 per microsecond). -/
def usTicks (us : Nat) : Nat := 1050 * us

/-- FAB_PART_TMO in ticks (08 R314). -/
def State.tmo (s : State) (p : Nat) : Nat := usTicks (clampN 10 1000000 (bits (s.rg (oPartTmo p)) 0 20))

/-- The longest timeout of the device's partitions (08 R317). -/
def State.maxTmo (s : State) : Nat := (List.range 16).foldl (fun m p => max m (s.tmo p)) 0

/-- PRT_PART_TIME in ticks (10 R391). -/
def State.quantum (s : State) (p : Nat) : Nat := usTicks (clampN 100 1000000 (bits (s.rg (oPartTime p)) 0 20))
def State.drainLimit (s : State) (p : Nat) : Nat := usTicks (clampN 100 1000000 (bits (s.rg (oPartTime p)) 32 20))

/-- Ring registers (11 R417). -/
def oRing (f r : Nat) : Nat := 0x00610000 + 0x800 * f + 0x20 * r
def State.ringCtl (s : State) (f r : Nat) : Nat := s.rg (oRing f r + 0x10)
def ringKey (f r : Nat) : Nat := 64 * f + r

end Sys2Proof.Machine
end

