-- ==== Sys2Proof/Machine/Journal.lean ====
section
/-! DEFINITION. Commands and the Command Journal (11 R404, R412-R416): accepted commands, their journal entries, and
how a command ends. -/

namespace Sys2Proof.Machine

/-! Record fields (11 R404, R405). -/

def Cmd.op (c : Cmd) : Nat := bits c.body 0 8
def Cmd.atomic (c : Cmd) : Bool := bit c.body 8
def Cmd.barrier (c : Cmd) : Bool := bit c.body 9
def Cmd.quiet (c : Cmd) : Bool := bit c.body 10
def Cmd.user (c : Cmd) : Nat := bits c.body 32 32
/-- n bytes of the record from byte i. -/
def Cmd.at_ (c : Cmd) (i n : Nat) : Nat := bits c.body (8 * i) (8 * n)
def Cmd.ctxNo (c : Cmd) : Nat := bits c.body 64 3

/-- Whether a command's journal state is final: DONE, ABORTED or PARTIAL (11 R412). -/
def Cmd.final (c : Cmd) : Bool := c.st ≥ 2

/-- The 64 B journal entry of a command whose record digests to `dig` (11 R412). -/
def Cmd.entry (c : Cmd) (dig : Nat) : Nat :=
  c.seq + dig % 2 ^ 64 * 2 ^ 64 + c.accept % 2 ^ 64 * 2 ^ 128 + c.parts % 2 ^ 64 * 2 ^ 192
    + c.code % 2 ^ 16 * 2 ^ 256 + c.f % 16 * 2 ^ 272 + c.r % 64 * 2 ^ 280 + c.st % 8 * 2 ^ 288
    + c.op * 2 ^ 296 + c.ridx % 2 ^ 32 * 2 ^ 320 + c.user * 2 ^ 352 + c.fin % 2 ^ 64 * 2 ^ 384
    + c.seq % 2 ^ 64 * 2 ^ 448

def jrnIndex (seq : Nat) : Nat := seq % 262144

/-- A journal entry updated in place, its digest kept (11 R413). -/
def State.jrnUpdate (s : State) (c : Cmd) : State :=
  { s.mend (.journal (jrnIndex c.seq)) with jrn := tput s.jrn (jrnIndex c.seq) (c.entry (bits (tgetD s.jrn (jrnIndex c.seq) 0) 64 64)) }

def State.cmd (s : State) (seq : Nat) : Option Cmd := s.cmds.find? (fun c => c.seq == seq)

/-- A command replaced, in the journal too. -/
def State.setCmd (s : State) (c : Cmd) : State :=
  ({ s with cmds := s.cmds.map (fun (d : Cmd) => if d.seq = c.seq then c else d) } : State).jrnUpdate c

/-- A command starts: its entry becomes RUNNING (11 R413). -/
def State.startCmd (s : State) (c : Cmd) : State := s.setCmd { c with st := 1 }

/-- The state of a ring (11 R417): 0 DISABLED, 1 ACTIVE, 2 ERROR. -/
def State.ringActive (s : State) (f r : Nat) : Bool := (s.ring (ringKey f r)).st == 1

/-- A command ends with a code, part bitmap and detail: the journal entry becomes final and the completion falls due,
in the order in which commands finish; on a ring that is not ACTIVE none is written (11 R403, R413). The command unit counts
its own status codes (11 R409; log 48). -/
def State.finishCmd (s : State) (seq code parts detail : Nat) : State :=
  match s.cmd seq with
  | none => s
  | some c =>
    if c.final then s
    else
      let st := if code = 0x0601 then 3 else if code = 0x0602 then 4 else 2
      let d := { c with st, code, parts, detail, fin := s.now }
      let s0 := s.setCmd d
      let s1 := if 0x0601 ≤ code ∧ code ≤ 0x0608 then s0.count code else s0
      if s1.ringActive c.f c.r then { s1 with order := s1.order ++ [seq] }
      else { s1 with cmds := s1.cmds.filter (fun e => e.seq != seq) }

/-- A command that runs as one part ends (11 R410). -/
def State.doneCmd (s : State) (seq code detail : Nat) : State :=
  s.finishCmd seq code (if code = 0 then 1 else 0) detail

/-- A command refused for its partition's or context's state (11 R406). -/
def State.stateCmd (s : State) (seq : Nat) : State := s.doneCmd seq 0x0604 0

/-- Commands of a function that are not final (11 R402). -/
def State.liveCmds (s : State) (f : Nat) : List Cmd := s.cmds.filter (fun c => c.f == f && !c.final)

end Sys2Proof.Machine
end

