-- ==== Sys2Proof/Machine/Errors.lean ====
section
/-! DEFINITION. Errors in protected stores (12 R419, 07 R266): where a DRAM line lies, and what meeting an error does. -/

namespace Sys2Proof.Machine

/-- The quad of a cluster (01 R18). -/
def quadOf (n : Nat) : Nat := n / 16 * 4 + n % 8 / 2

/-- DPA granules of a quad in the QUAD layout (07 R265). -/
def quadGrans : Nat := 6144

/-- DRM_LAYOUT: whether the QUAD layout is selected (07 R268). -/
def State.quadLayout (s : State) : Bool := bit (s.rg 0x00C00000) 0

/-- The clusters of a quad in ascending number (01 R18). -/
def quadClus (q : Nat) : List Nat :=
  let n := q / 4 * 16 + q % 4 * 2
  [n, n + 1, n + 8, n + 9]

/-! Where a DRAM line lies (07 R264, R265). Its bytes are kept by DPA, which the hash maps one to one. -/

/-- XOR of k chunks of n bits. -/
def xorChunks (n : Nat) : Nat → Nat → Nat
  | 0, _ => 0
  | k + 1, v => v % 2 ^ n ^^^ xorChunks n k (v / 2 ^ n)

/-- Channel and channel byte address of a DPA. -/
def State.dramPlace (s : State) (dpa : Nat) : Nat × Nat :=
  if s.quadLayout then
    let q := dpa / (12 * 2 ^ 30)
    let l := dpa % (12 * 2 ^ 30) / 256
    (3 * (quadClus q).getD (xorChunks 2 18 (l / 3)) 0 + l % 3, 256 * (l / 3 / 4) + dpa % 256)
  else
    let l := dpa / 256
    (3 * xorChunks 6 7 (l / 3) + l % 3, 256 * (l / 3 / 64) + dpa % 256)

/-- The DRAM die of a channel byte address, 0 next to the compute die. -/
def dramDie (a : Nat) : Nat := bits a 27 3

/-! Errors met. -/

def State.upsetsIn (s : State) (pr : ErrAt → Bool) : List Upset := s.upsets.filter (fun u => pr u.at_)

/-- An error is met: it is gone, counted under `ce` when corrected and `ue` when not (0: without a count of its own), and recorded
with its place and a syndrome, which the spec leaves open (12 R422, R428). -/
def State.found (s : State) (u : Upset) (ce ue srck srcid addr : Nat) : State :=
  let code := if u.hard then ue else ce
  let s1 : State := { s with upsets := s.upsets.erase u }
  if code = 0 then s1
  else
    let s2 : State := s1.count code
    let cls := if code < 0x0803 then 0 else if code < 0x0805 then 1 else 3
    let d1 := if code = 0x0806 then 0 else s2.freeVal.toNat % 2 ^ 33
    (s2.logEvent (s2.event code cls srck srcid addr d1 0)).useFree

/-- Words of u bytes that [a, a + n) touches. -/
def inWords (u a n w : Nat) : Bool := n != 0 && decide (a / u ≤ w) && decide (w ≤ (a + n - 1) / u)

/-- Words of u bytes that [a, a + n) covers whole. -/
def coversWord (u a n w : Nat) : Bool := decide (a ≤ u * w) && decide (u * w + u ≤ a + n)

/-- An access to DRAM meets the errors of its words: a single-bit error is corrected and written back, another poisons its 256 B line
(07 R266). -/
def State.eccDram (s : State) (a n : Nat) : State :=
  (s.upsetsIn (fun x => match x with
    | .dram w => inWords 32 a n w
    | _ => false)).foldl (fun (s : State) u => match u.at_ with
      | .dram w =>
        let pl := s.dramPlace (32 * w)
        let s1 := s.found u 0x0802 0x0804 4 (pl.1 + 256 * dramDie pl.2) (32 * w)
        if u.hard then { s1 with dramPoison := addAll s1.dramPoison [w / 8] } else s1
      | _ => s) s

/-- An access to a cluster store meets the errors of its words (12 R419); a store holds two granules. -/
def State.eccStore (s : State) (a n : Nat) : State :=
  (s.upsetsIn (fun x => match x with
    | .cstore w => inWords 8 a n w
    | _ => false)).foldl (fun (s : State) u => match u.at_ with
      | .cstore w =>
        let s1 := s.found u 0x0801 0x0803 1 (8 * w / 2 ^ 22) (8 * w % 2 ^ 22)
        if u.hard then { s1 with cstorePoison := addAll s1.cstorePoison [w / 32] } else s1
      | _ => s) s

/-- An entry of a table or metadata is read: an error that its code cannot correct is counted and recorded at device unit `unit`,
and the entry is to be taken as empty or dead (12 R419, R428). -/
def State.eccEntry (s : State) (x : ErrAt) (unit : Nat) : State × Bool :=
  let us := s.upsetsIn (fun y => y == x)
  (us.foldl (fun (s : State) u => s.found u 0 0x0806 8 unit 0) s, us.any Upset.hard)

/-- An entry of the router's tables or of a logical node table is read: an error that cannot be corrected is counted and recorded at
the router, and the entry is empty or dead from then on (12 R419, R428). -/
def State.eccAt (s : State) (x : ErrAt) : State :=
  if s.upsets.isEmpty then s
  else
    let r := s.eccEntry x 0
    if !r.2 then r.1
    else
      match x with
      | .route i => { r.1 with route := tdel r.1.route i }
      | .tree i => { r.1 with tree := tdel r.1.tree i }
      | .circ i => { r.1 with circ := tdel r.1.circ i }
      | .node p n => r.1.setPart p { r.1.part p with lnt := tdel (r.1.part p).lnt n }
      | _ => r.1

/-- An operation names a node whose entry is dead (08 R288), or is taken as dead (12 R419). -/
def State.deadNode (s : State) (p n : Nat) : State := (s.eccAt (.node p n)).count cFABDEAD

end Sys2Proof.Machine
end

