-- ==== Sys2Proof/Machine/Numeric.lean ====
section
/-! DEFINITION. Number formats and exact arithmetic: element encodings (00 R12, 04 R133), exact values, one rounding into
a format (04 R134, 05 R164), MX blocks (04 R135), and the Philox4x32-10 generator (02 R64; PRESUMED from its
publication, log 21). -/

namespace Sys2Proof.Machine

/-- An exact value: (-1)^neg * m * 2^e, where st says that the true magnitude lies strictly between m and m + 1 units
(quotients, roots and transcendental values, which are irrational where st is set by a function). -/
inductive Num where
  | nan
  | inf (neg : Bool)
  | fin (neg : Bool) (m : Nat) (e : Int) (st : Bool)
  deriving DecidableEq, Repr

/-- What special codes a floating format has: all-ones exponent as in IEEE 754, one NaN code (E4M3), or none. -/
inductive Special where
  | ieee
  | nanOnly
  | none
  deriving DecidableEq, Repr

/-- A floating element format: exponent bits, fraction bits, bias, specials (04 R133). -/
structure FFmt where
  eb : Nat
  mb : Nat
  bias : Nat
  sp : Special
  deriving DecidableEq, Repr

/-- The floating format of a code, with the element format for MX codes (00 R12); none for the integer formats. -/
def ffmt (code : Nat) : Option FFmt :=
  match code with
  | 0 => some ⟨8, 23, 127, .ieee⟩
  | 1 => some ⟨8, 7, 127, .ieee⟩
  | 2 => some ⟨5, 10, 15, .ieee⟩
  | 3 | 5 => some ⟨4, 3, 7, .nanOnly⟩
  | 4 | 6 => some ⟨5, 2, 15, .ieee⟩
  | 7 => some ⟨3, 2, 3, .none⟩
  | 8 => some ⟨2, 3, 1, .none⟩
  | 9 => some ⟨2, 1, 1, .none⟩
  | _ => none

/-- Bits per element (00 R12). -/
def fmtBits (code : Nat) : Nat :=
  match code with
  | 0 | 12 => 32
  | 1 | 2 => 16
  | 7 | 8 => 6
  | 9 => 4
  | _ => 8

def isMx (code : Nat) : Bool := 5 ≤ code && code ≤ 10

def isRegFmt (code : Nat) : Bool := code ≤ 4 || code == 11 || code == 12

/-- The value of a floating code. -/
def FFmt.decode (f : FFmt) (c : Nat) : Num :=
  let neg := bit c (f.eb + f.mb)
  let x := bits c f.mb f.eb
  let y := bits c 0 f.mb
  let ones := 2 ^ f.eb - 1
  if f.sp = .ieee ∧ x = ones then (if y = 0 then .inf neg else .nan)
  else if f.sp = .nanOnly ∧ x = ones ∧ y = 2 ^ f.mb - 1 then .nan
  else if x = 0 then .fin neg y (1 - (f.bias : Int) - f.mb) false
  else .fin neg (y + 2 ^ f.mb) ((x : Int) - f.bias - f.mb) false

/-- An integer as an exact value. -/
def Num.ofInt (i : Int) : Num := .fin (decide (i < 0)) i.natAbs 0 false

/-- The value of an element code of a format (04 R133); MX elements without their scale. -/
def toNum (fmt c : Nat) : Num :=
  match ffmt fmt with
  | some f => f.decode c
  | none =>
    if fmt = 10 then
      (let i := sgn c 8; .fin (decide (i < 0)) i.natAbs (-6) false)
    else .ofInt (sgn c (fmtBits fmt))

/-- A value times 2^k. -/
def Num.scale (x : Num) (k : Int) : Num :=
  match x with
  | .fin n m e st => .fin n m (e + k) st
  | y => y

def Num.neg (x : Num) : Num :=
  match x with
  | .nan => .nan
  | .inf n => .inf !n
  | .fin n m e st => .fin (!n) m e st

def Num.abs (x : Num) : Num :=
  match x with
  | .nan => .nan
  | .inf _ => .inf false
  | .fin _ m e st => .fin false m e st

def Num.isNan (x : Num) : Bool :=
  match x with
  | .nan => true
  | _ => false

def Num.isZero (x : Num) : Bool :=
  match x with
  | .fin _ m _ st => m == 0 && !st
  | _ => false

def Num.sign (x : Num) : Bool :=
  match x with
  | .nan => false
  | .inf n => n
  | .fin n _ _ _ => n

def sgnMag (n : Bool) (m : Nat) : Int := if n then -(m : Int) else m

/-- The exact sum; an exact zero is -0 only when both are (IEEE 754 round to nearest, 04 R130). -/
def Num.add (x y : Num) : Num :=
  match x, y with
  | .nan, _ => .nan
  | _, .nan => .nan
  | .inf a, .inf b => if a = b then .inf a else .nan
  | .inf a, .fin _ _ _ _ => .inf a
  | .fin _ _ _ _, .inf b => .inf b
  | .fin a m e _, .fin b n f _ =>
    if m = 0 ∧ n = 0 then .fin (a && b) 0 0 false
    else
      let l := min e f
      let i := sgnMag a (m <<< (e - l).toNat) + sgnMag b (n <<< (f - l).toNat)
      .fin (decide (i < 0)) i.natAbs l false

def Num.sub (x y : Num) : Num := x.add y.neg

/-- The exact product (05 R159: zero times infinity is a NaN). -/
def Num.mul (x y : Num) : Num :=
  match x, y with
  | .nan, _ => .nan
  | _, .nan => .nan
  | .inf a, .inf b => .inf (a != b)
  | .inf a, .fin b m _ _ => if m = 0 then .nan else .inf (a != b)
  | .fin a m _ _, .inf b => if m = 0 then .nan else .inf (a != b)
  | .fin a m e _, .fin b n f _ => .fin (a != b) (m * n) (e + f) false

/-- The quotient to more than 64 bits beyond both operands. -/
def Num.div (x y : Num) : Num :=
  match x, y with
  | .nan, _ => .nan
  | _, .nan => .nan
  | .inf _, .inf _ => .nan
  | .inf a, .fin b _ _ _ => .inf (a != b)
  | .fin a _ _ _, .inf b => .fin (a != b) 0 0 false
  | .fin a m e _, .fin b n f _ =>
    if n = 0 then (if m = 0 then .nan else .inf (a != b))
    else
      let k := 96 + Nat.log2 n
      .fin (a != b) ((m <<< k) / n) (e - f - k) ((m <<< k) % n != 0)

/-- Strictly less, with -0 < +0; callers exclude NaNs. -/
def Num.lt (x y : Num) : Bool :=
  match x, y with
  | .nan, _ => false
  | _, .nan => false
  | .inf a, .inf b => a && !b
  | .inf a, .fin _ _ _ _ => a
  | .fin _ _ _ _, .inf b => !b
  | .fin a m e _, .fin b n f _ =>
    let l := min e f
    let i := sgnMag a (m <<< (e - l).toNat)
    let j := sgnMag b (n <<< (f - l).toNat)
    decide (i < j) || (i == j && a && !b)

/-- Equal as numbers: +0 equals -0, a NaN nothing. -/
def Num.eq (x y : Num) : Bool :=
  match x, y with
  | .nan, _ => false
  | _, .nan => false
  | .inf a, .inf b => a == b
  | .inf _, .fin _ _ _ _ => false
  | .fin _ _ _ _, .inf _ => false
  | .fin a m e _, .fin b n f _ =>
    let l := min e f
    sgnMag a (m <<< (e - l).toNat) == sgnMag b (n <<< (f - l).toNat)

def Num.min (x y : Num) : Num := if x.isNan || y.isNan then .nan else if y.lt x then y else x

def Num.max (x y : Num) : Num := if x.isNan || y.isNan then .nan else if x.lt y then y else x

/-- The exact sum of a list with the special cases of R165: -0 is the unit of `add`. -/
def Num.sum (l : List Num) : Num := l.foldl Num.add (.fin true 0 0 false)

/-- How a conversion rounds: to nearest even, or stochastically with a random word (05 R164). -/
inductive Rnd where
  | rne
  | sto (u : Nat)
  deriving DecidableEq, Repr

/-- The magnitude m * 2^e as a multiple of 2^q, rounded; neg is the sign of the value. -/
def roundMag (r : Rnd) (neg : Bool) (m : Nat) (e q : Int) (st : Bool) : Nat :=
  if e ≥ q then m <<< (e - q).toNat
  else
    let k := (q - e).toNat
    let lo := m >>> k
    let rem := m % 2 ^ k
    match r with
    | .rne =>
      let half := 2 ^ (k - 1)
      if rem > half || (rem == half && (st || lo % 2 == 1)) then lo + 1 else lo
    | .sto u =>
      if rem = 0 then lo
      else if neg then (if u * 2 ^ k < (2 ^ k - rem) * 2 ^ 32 then lo else lo + 1)
      else (if u * 2 ^ k < rem * 2 ^ 32 then lo + 1 else lo)

/-- The code of the largest finite value of a floating format. -/
def FFmt.maxCode (f : FFmt) : Nat :=
  match f.sp with
  | .ieee => (2 ^ f.eb - 1) * 2 ^ f.mb - 1
  | .nanOnly => 2 ^ (f.eb + f.mb) - 2
  | .none => 2 ^ (f.eb + f.mb) - 1

/-- ⌊log2⌋ of a non-zero magnitude. -/
def magLog (m : Nat) (e : Int) : Int := (Nat.log2 m : Int) + e

/-- The magnitude code of a finite value, before the overflow rule. -/
def FFmt.magCode (f : FFmt) (r : Rnd) (neg : Bool) (m : Nat) (e : Int) (st : Bool) : Nat :=
  if m = 0 then 0
  else
    let q0 : Int := 1 - (f.bias : Int) - f.mb
    let q := max (magLog m e - f.mb) q0
    (q - q0).toNat * 2 ^ f.mb + roundMag r neg m e q st

/-- Conversion of a value into a floating format (04 R134). `sat` says that overflow saturates (FP8 and MX elements). -/
def FFmt.encode (f : FFmt) (r : Rnd) (sat : Bool) (x : Num) : Nat :=
  let sb := 2 ^ (f.eb + f.mb)
  let infCode := (2 ^ f.eb - 1) * 2 ^ f.mb
  match x with
  | .nan =>
    match f.sp with
    | .ieee => infCode + 2 ^ (f.mb - 1)
    | .nanOnly => sb - 1
    | .none => 0
  | .inf n => b2n n * sb + (if f.sp = .ieee then infCode else f.maxCode)
  | .fin n m e st =>
    let ovf : Nat := if sat then f.maxCode else infCode
    let exact := f.magCode .rne n m e st
    let big := match r with
      | .rne => decide (exact > f.maxCode)
      | .sto _ => (f.decode f.maxCode).lt (.fin false m e st)
    b2n n * sb + (if big then ovf else f.magCode r n m e st)

/-- Conversion into an integer of w bits (04 R134). -/
def intEncode (w : Nat) (r : Rnd) (x : Num) : Nat :=
  let hi := 2 ^ (w - 1) - 1
  let lo := 2 ^ (w - 1)
  match x with
  | .nan => 0
  | .inf n => if n then lo else hi
  | .fin n m e st =>
    let v := if (match r with
        | .rne => false
        | .sto _ => (Num.ofInt hi).lt (.fin false m e st)) then lo
      else roundMag r n m e 0 st
    if n then (if v ≥ lo then lo else wrap (-(v : Int)) w) else (if v > hi then hi else v)

/-- Conversion of a value into a register format (04 R134, 05 R164). -/
def ofNum (fmt : Nat) (r : Rnd) (x : Num) : Nat :=
  match ffmt fmt with
  | some f => f.encode r (decide (fmt ≥ 3)) x
  | none => intEncode (fmtBits fmt) r x

/-- The exponent E of the largest normal of an MX element format (04 R135). -/
def mxEmax (fmt : Nat) : Int :=
  match fmt with
  | 5 => 8
  | 6 => 15
  | 7 => 4
  | 8 => 2
  | 9 => 2
  | _ => 0

def Num.isFin (x : Num) : Bool :=
  match x with
  | .fin _ _ _ _ => true
  | _ => false

/-- The shared exponent of a block (04 R135), none for a block with a NaN or an infinity. -/
def mxExp (fmt : Nat) (vs : List Num) : Option Int :=
  if vs.all Num.isFin then
    let m := vs.foldl (fun a v => if a.lt v.abs then v.abs else a) (.fin false 0 0 false)
    match m with
    | .fin _ k e _ => if k = 0 then some (-127) else some (max (-127) (min 127 (magLog k e - mxEmax fmt)))
    | _ => none
  else none

/-- One element of an MX block with shared exponent x. -/
def mxElem (fmt : Nat) (x : Int) (r : Rnd) (v : Num) : Nat :=
  match ffmt fmt with
  | some f => f.encode r true (v.scale (-x))
  | none =>
    let w := v.scale (6 - x)
    if (Num.ofInt 127).lt w.abs then intEncode 8 .rne w else intEncode 8 r w

/-- A block of values converted into an MX format: scale byte and element codes (04 R135). -/
def mxBlock (fmt : Nat) (vs : List (Num × Rnd)) : Nat × List Nat :=
  match mxExp fmt (vs.map Prod.fst) with
  | none => (255, vs.map (fun _ => 0))
  | some x => ((x + 127).toNat, vs.map (fun v => mxElem fmt x v.2 v.1))

/-- The value of an MX element under its scale byte (04 R129, R133). -/
def mxNum (fmt scale c : Nat) : Num :=
  if scale = 255 then .nan else (toNum fmt c).scale ((scale : Int) - 127)

/-! FP32 shorthands. -/

def f32 (c : Nat) : Num := toNum 0 c

def toF32 (x : Num) : Nat := ofNum 0 .rne x

/-! Philox4x32-10 (00 R13, 02 R64). -/

def philoxRound (k0 k1 : Nat) (c : Nat × Nat × Nat × Nat) : Nat × Nat × Nat × Nat :=
  let p0 := 0xD2511F53 * c.1
  let p1 := 0xCD9E8D57 * c.2.2.1
  let m := 2 ^ 32
  (((p1 / m) ^^^ c.2.1) ^^^ k0, p1 % m, ((p0 / m) ^^^ c.2.2.2) ^^^ k1, p0 % m)

def philoxIter : Nat → Nat → Nat → Nat × Nat × Nat × Nat → Nat × Nat × Nat × Nat
  | 0, _, _, c => c
  | n + 1, k0, k1, c =>
    philoxIter n ((k0 + 0x9E3779B9) % 2 ^ 32) ((k1 + 0xBB67AE85) % 2 ^ 32) (philoxRound k0 k1 c)

/-- The block at a 128-bit counter (c3 its top word), as words x0 to x3. -/
def philox (seed : Nat) (ctr : Nat) : Nat × Nat × Nat × Nat :=
  philoxIter 10 (bits seed 0 32) (bits seed 32 32) (bits ctr 0 32, bits ctr 32 32, bits ctr 64 32, bits ctr 96 32)

/-- Counter word c3 (02 R64). -/
def philoxC3 (lnode lclu unit stream : Nat) : Nat :=
  lnode % 2 ^ 16 * 2 ^ 16 + lclu % 64 * 2 ^ 10 + unit % 64 * 2 ^ 4 + stream % 16

/-- Word i of the words an instruction consumes from a stream whose next block is `seq` (02 R66, 05 R164). -/
def philoxWord (seed c3 seq i : Nat) : Nat :=
  let x := philox seed ((seq + i / 4) % 2 ^ 96 + c3 * 2 ^ 96)
  match i % 4 with
  | 0 => x.1
  | 1 => x.2.1
  | 2 => x.2.2.1
  | _ => x.2.2.2

end Sys2Proof.Machine
end

