-- ==== Sys2Proof/Machine/Transcend.lean ====
section
/-! DEFINITION. Roots and transcendental functions (05 R158, R159): each is evaluated in fixed point to 2^-1000 or
better, and is exact or irrational, so that the one rounding of R134 is the correct one (DEDUCED, log 22). -/

namespace Sys2Proof.Machine

/-- Fraction bits of the fixed-point evaluation. -/
def fxP : Nat := 1024

def fxOne : Int := (2 ^ fxP : Nat)

/-- Integer square root, one bit of the root at a time. -/
def isqrtGo (n : Nat) : Nat → Nat → Nat
  | 0, r => r
  | b + 1, r => let t := r + 2 ^ b; isqrtGo n b (if t * t ≤ n then t else r)

def isqrt (n : Nat) : Nat := isqrtGo n (Nat.log2 n / 2 + 1) 0

/-- √a (05 R159). -/
def Num.sqrt (x : Num) : Num :=
  match x with
  | .nan => .nan
  | .inf n => if n then .nan else .inf false
  | .fin n m e _ =>
    if m = 0 then .fin n 0 0 false
    else if n then .nan
    else
      let k : Nat := 160 + (e % 2).toNat
      let v := m <<< k
      let r := isqrt v
      .fin false r ((e - k) / 2) (r * r != v)

/-- 1/a. -/
def Num.recip (x : Num) : Num := (Num.fin false 1 0 false).div x

/-- 1/√a; 1/√(±0) is the infinity of 1/(±0) through √ (05 R159). -/
def Num.rsqrt (x : Num) : Num :=
  match x with
  | .nan => .nan
  | .inf n => if n then .nan else .fin false 0 0 false
  | .fin n m e _ =>
    if m = 0 then .inf n
    else if n then .nan
    else
      let k : Nat := 320 + (e % 2).toNat + 2 * Nat.log2 m
      let r := isqrt (2 ^ k / m)
      .fin false r ((-e - k) / 2) (r * r * m != 2 ^ k)

def fxMul (a b : Int) : Int := (a * b) / fxOne

def fxDiv (a b : Int) : Int := (a * fxOne) / b

/-- A finite value in fixed point. -/
def fxOf (n : Bool) (m : Nat) (e : Int) : Int :=
  let k := e + fxP
  let v : Nat := if k ≥ 0 then m <<< k.toNat else m >>> (-k).toNat
  sgnMag n v

/-- A fixed-point result, not exactly representable. -/
def fxNum (i : Int) : Num := .fin (decide (i < 0)) i.natAbs (-(fxP : Int)) true

/-- ln 2 as the sum of 1 / (k 2^k). -/
def fxLn2Go : Nat → Nat → Int
  | 0, _ => 0
  | n + 1, k => fxOne / ((k * 2 ^ k : Nat) : Int) + fxLn2Go n (k + 1)

def fxLn2 : Int := fxLn2Go 1024 1

/-- Terms of e^r. -/
def fxExpGo (r : Int) : Nat → Nat → Int → Int
  | 0, _, _ => 0
  | n + 1, k, t => t + fxExpGo r n (k + 1) (fxMul t r / (k : Int))

/-- e^x for x in fixed point, |x| at most a few hundred. -/
def fxExp (x : Int) : Int :=
  let k := x / fxLn2
  let r := x - k * fxLn2
  let y := fxExpGo r 240 1 fxOne
  if k ≥ 0 then y * (2 ^ k.toNat : Nat) else y / (2 ^ (-k).toNat : Nat)

/-- Terms of atanh z, for |z| at most 1/3. -/
def fxAtanhGo (z2 : Int) : Nat → Nat → Int → Int
  | 0, _, _ => 0
  | n + 1, k, t => t / (k : Int) + fxAtanhGo z2 n (k + 2) (fxMul t z2)

/-- ln of m 2^e, m not zero. -/
def fxLn (m : Nat) (e : Int) : Int :=
  let l := Nat.log2 m
  let y := fxOf false m (-(l : Int))
  let z := fxDiv (y - fxOne) (y + fxOne)
  2 * fxAtanhGo (fxMul z z) 340 1 z + ((l : Int) + e) * fxLn2

/-- Terms of the series of erf z / (2 / √π). -/
def fxErfGo (z2 : Int) : Nat → Nat → Int → Int
  | 0, _, _ => 0
  | n + 1, k, t => t / ((2 * k + 1 : Nat) : Int) + fxErfGo z2 n (k + 1) (-(fxMul t z2) / ((k + 1 : Nat) : Int))

/-- arctan 1/n, for Machin's formula. -/
def fxAtanInvGo (n2 : Int) : Nat → Nat → Int → Int
  | 0, _, _ => 0
  | i + 1, k, t => t / (k : Int) - fxAtanInvGo n2 i (k + 2) (t / n2)

def fxPi : Int := 4 * (4 * fxAtanInvGo 25 240 1 (fxOne / 5) - fxAtanInvGo (239 * 239) 240 1 (fxOne / 239))

def fxSqrt (x : Int) : Int := (isqrt (x.toNat * 2 ^ fxP) : Nat)

/-- erf z in fixed point for |z| at most 13. -/
def fxErf (z : Int) : Int := fxDiv (2 * fxErfGo (fxMul z z) 1100 0 z) (fxSqrt fxPi)

/-- A positive value below every rounding boundary. -/
def numTiny (neg : Bool) : Num := .fin neg 1 (-2000) true

/-- Whether |x| is above 2^k. -/
def magAbove (m : Nat) (e k : Int) : Bool := m != 0 && decide (magLog m e ≥ k)

/-- e^a. -/
def Num.exp (x : Num) : Num :=
  match x with
  | .nan => .nan
  | .inf n => if n then .fin false 0 0 false else .inf false
  | .fin n m e _ =>
    if m = 0 then .fin false 1 0 false
    else if magAbove m e 8 then (if n then numTiny false else .fin false 1 2000 true)
    else fxNum (fxExp (fxOf n m e))

/-- 2^a. -/
def Num.exp2 (x : Num) : Num :=
  match x with
  | .nan => .nan
  | .inf n => if n then .fin false 0 0 false else .inf false
  | .fin n m e _ =>
    if m = 0 then .fin false 1 0 false
    else if magAbove m e 8 then (if n then numTiny false else .fin false 1 2000 true)
    else
      let v := fxOf n m e
      if v % fxOne = 0 then .fin false 1 (v / fxOne) false
      else fxNum (fxExp (fxMul v fxLn2))

/-- ln a. -/
def Num.ln (x : Num) : Num :=
  match x with
  | .nan => .nan
  | .inf n => if n then .nan else .inf false
  | .fin n m e _ =>
    if m = 0 then .inf true
    else if n then .nan
    else
      let l := Nat.log2 m
      if m = 2 ^ l ∧ (l : Int) + e = 0 then .fin false 0 0 false else fxNum (fxLn m e)

/-- log2 a. -/
def Num.log2 (x : Num) : Num :=
  match x with
  | .nan => .nan
  | .inf n => if n then .nan else .inf false
  | .fin n m e _ =>
    if m = 0 then .inf true
    else if n then .nan
    else
      let l := Nat.log2 m
      if m = 2 ^ l then .ofInt ((l : Int) + e) else fxNum (fxDiv (fxLn m e) fxLn2)

/-- tanh a. -/
def Num.tanh (x : Num) : Num :=
  match x with
  | .nan => .nan
  | .inf n => .fin n 1 0 false
  | .fin n m e _ =>
    if m = 0 then .fin n 0 0 false
    else
      let v := if magAbove m e 6 then sgnMag n (64 * 2 ^ fxP) else fxOf n m e
      let y := fxExp (2 * v)
      fxNum (fxDiv (y - fxOne) (y + fxOne))

/-- 1/(1 + e^-a) in fixed point, the argument held within ±256. -/
def fxSigmoid (n : Bool) (m : Nat) (e : Int) : Int :=
  let v := if magAbove m e 8 then sgnMag n (256 * 2 ^ fxP) else fxOf n m e
  fxDiv fxOne (fxOne + fxExp (-v))

/-- The sigmoid. -/
def Num.sigmoid (x : Num) : Num :=
  match x with
  | .nan => .nan
  | .inf n => if n then .fin false 0 0 false else .fin false 1 0 false
  | .fin n m e _ => if m = 0 then .fin false 1 (-1) false else fxNum (fxSigmoid n m e)

/-- SiLU, a / (1 + e^-a). -/
def Num.silu (x : Num) : Num :=
  match x with
  | .nan => .nan
  | .inf n => if n then .fin true 0 0 false else .inf false
  | .fin n m e _ =>
    if m = 0 then .fin n 0 0 false
    else if n && magAbove m e 8 then numTiny true
    else .fin n (m * (fxSigmoid n m e).natAbs) (e - fxP) true

/-- erf a. -/
def Num.erf (x : Num) : Num :=
  match x with
  | .nan => .nan
  | .inf n => .fin n 1 0 false
  | .fin n m e _ =>
    if m = 0 then .fin n 0 0 false
    else fxNum (fxErf (if magAbove m e 3 then sgnMag n (8 * 2 ^ fxP) else fxOf n m e))

/-- GELU, a (1 + erf(a/√2)) / 2. -/
def Num.gelu (x : Num) : Num :=
  match x with
  | .nan => .nan
  | .inf n => if n then .fin true 0 0 false else .inf false
  | .fin n m e _ =>
    if m = 0 then .fin n 0 0 false
    else if n && magAbove m e 4 then numTiny true
    else
      let v := if magAbove m e 4 then sgnMag n (16 * 2 ^ fxP) else fxOf n m e
      let y := fxOne + fxErf (fxDiv v (fxSqrt (2 * fxOne)))
      .fin n (m * y.natAbs) (e - fxP - 1) true

end Sys2Proof.Machine
end

