-- ==== Sys2Proof/Machine/VecEngine.lean ====
section
/-! DEFINITION. What the vector engine computes (05 R148-R172) and what a glyph program computes (05 R173-R176), as
functions of one core's state. -/

namespace Sys2Proof.Machine

/-- What a core's engines know of their context: logical coordinates and seed (02 R39, R64), and the index of the next
free value. -/
structure Env where
  lnode : Nat
  lclu : Nat
  core : Nat
  seed : Nat
  free : Nat
  deriving DecidableEq, Repr

/-- Random word i of a core's stream whose next block is seq. -/
def Env.word (v : Env) (stream seq i : Nat) : Nat :=
  philoxWord v.seed (philoxC3 v.lnode v.lclu v.core stream) seq i

/-! Glyph programs. An image is its 528 bytes as one little-endian number (05 R174). -/

def glyOp (img p : Nat) : Nat := bits img (8 * (16 + 4 * p)) 32
def glyConst (img q : Nat) : Nat := bits img (8 * (272 + 4 * q)) 32
def glyNops (img : Nat) : Nat := bits img 0 6 + 1
def glyOfmt (img : Nat) : Nat := bits img 8 4
def glySr (img : Nat) : Bool := bit img 12

/-- Whether an OPC is assigned (05 R175). -/
def glyAssigned (opc : Nat) : Bool := (1 ≤ opc && opc ≤ 0x13) || (0x18 ≤ opc && opc ≤ 0x20)

/-- The result of one operation word on temporaries t (05 R175). -/
def glyEval (img w op : Nat) (t : List Nat) : Nat :=
  let opc := bits op 0 6
  let a := t.getD (bits op 9 3) 0
  let b := t.getD (bits op 12 3) 0
  let c := t.getD (bits op 15 3) 0
  let imm := bits op 18 6
  match opc with
  | 0x01 => toF32 ((f32 a).add (f32 b))
  | 0x02 => toF32 ((f32 a).sub (f32 b))
  | 0x03 => toF32 ((f32 a).mul (f32 b))
  | 0x04 => toF32 (((f32 a).mul (f32 b)).add (f32 c))
  | 0x05 => toF32 ((f32 a).min (f32 b))
  | 0x06 => toF32 ((f32 a).max (f32 b))
  | 0x07 => toF32 ((f32 a).div (f32 b))
  | 0x08 => toF32 (f32 a).neg
  | 0x09 => toF32 (f32 a).abs
  | 0x0A => toF32 (f32 a).sqrt
  | 0x0B => toF32 (f32 a).recip
  | 0x0C => toF32 (f32 a).rsqrt
  | 0x0D => toF32 (f32 a).exp
  | 0x0E => toF32 (f32 a).ln
  | 0x0F => toF32 (f32 a).tanh
  | 0x10 => toF32 (f32 a).sigmoid
  | 0x11 => toF32 (f32 a).silu
  | 0x12 => toF32 (f32 a).erf
  | 0x13 => toF32 (f32 a).gelu
  | 0x18 => glyConst img imm
  | 0x19 => glyConst img ((imm + a) % 64)
  | 0x1A => if c = 0 ∨ c = 2 ^ 31 then b else a
  | 0x1B => if (f32 a).lt (f32 b) && !((f32 a).eq (f32 b)) then 0x3F800000 else 0
  | 0x1C => if (f32 a).eq (f32 b) then 0x3F800000 else 0
  | 0x1D => toF32 (toNum 12 a)
  | 0x1E => ofNum 12 .rne (f32 a)
  | 0x1F => (a + b) % 2 ^ 32
  | 0x20 => toF32 (.fin false (w / 256) (-24) false)
  | _ => t.getD (bits op 6 3) 0

/-- The temporaries after n more operations from position p (05 R176). -/
def glyRun (img w : Nat) : Nat → Nat → List Nat → List Nat
  | 0, _, t => t
  | n + 1, p, t =>
    let op := glyOp img p
    glyRun img w n (p + 1) (t.set (bits op 6 3) (glyEval img w op t))

/-- The result of a glyph on inputs t0 to t3 with random word w: t0 after the last operation. -/
def glyph (img w t0 t1 t2 t3 : Nat) : Nat :=
  (glyRun img w (glyNops img) 0 [t0, t1, t2, t3, 0, 0, 0, 0]).getD 0 0

/-! Poison of 8 B words (12 R420): a write clears it from the words it covers whole. -/

def cleanWords (ps : List Nat) (a n : Nat) : List Nat :=
  if ps.isEmpty then ps
  else ps.filter (fun u => !((unitsOf a n 8).any (fun v => v % 32768 == u && decide (a ≤ 8 * v) && decide (8 * v + 8 ≤ a + n))))

/-- Scratchpad ranges written. -/
def CoreSt.clean (c : CoreSt) (rs : List (Nat × Nat)) : CoreSt :=
  { c with spadPoison := rs.foldl (fun ps r => cleanWords ps r.1 r.2) c.spadPoison }

/-! Vector registers: byte 1,024 N + i is byte i of the group that starts at register N (05 R149). -/

/-- n elements of `sz` bytes from address a of a byte store. -/
def elems (m : Mem) (sz : Nat) : Nat → Nat → List Nat
  | 0, _ => []
  | n + 1, a => mread m a sz :: elems m sz n (a + sz)

def putElems (m : Mem) (sz : Nat) : Nat → List Nat → Mem
  | _, [] => m
  | a, v :: vs => putElems (mwrite m a sz v) sz (a + sz) vs

/-- The same in the scratchpad, wrapping. -/
def selems (m : Mem) (sz : Nat) : Nat → Nat → List Nat
  | 0, _ => []
  | n + 1, a => sread m a sz :: selems m sz n (a + sz)

def putSelems (m : Mem) (sz : Nat) : Nat → List Nat → Mem
  | _, [] => m
  | a, v :: vs => putSelems (swrite m a sz v) sz (a + sz) vs

/-- The n elements of format fmt of the group at register r. -/
def vget (c : CoreSt) (r fmt n : Nat) : List Nat := elems c.vr (fmtBits fmt / 8) n (1024 * r)

def vput (c : CoreSt) (r fmt : Nat) (vs : List Nat) : CoreSt :=
  { c with
    vr := putElems c.vr (fmtBits fmt / 8) (1024 * r) vs
    vrPoison := cleanWords c.vrPoison (1024 * r) (fmtBits fmt / 8 * vs.length) }

/-- The mask register r as one number: element i is its bit i (05 R161). -/
def vmask (c : CoreSt) (r : Nat) : Nat := mread c.vr (1024 * r) 1024

/-- Registers in a group of n elements of fmt (05 R149). -/
def vgroup (fmt n : Nat) : Nat := (n * fmtBits fmt + 8191) / 8192

def nums (fmt : Nat) (vs : List Nat) : List Num := vs.map (toNum fmt)

/-! Functions by FN8 (05 R158). -/

def vfpFn (fn : Nat) (a b : Num) : Num :=
  match fn with
  | 0 => a.add b
  | 1 => a.sub b
  | 2 => a.mul b
  | 3 => a.div b
  | 4 => a.min b
  | 5 => a.max b
  | _ => if a.isNan || b.isNan then .nan else if a.sign = b.sign then a else a.neg

def vfmaFn (fn : Nat) (a b c : Num) : Num :=
  match fn with
  | 0 => (a.mul b).add c
  | 1 => (a.mul b).sub c
  | _ => (a.mul b).neg.add c

def vunFn (fn : Nat) (a : Num) : Num :=
  match fn with
  | 0x00 => a.neg
  | 0x01 => a.abs
  | 0x02 => a.sqrt
  | 0x03 => a.recip
  | 0x04 => a.rsqrt
  | 0x05 => a.exp
  | 0x06 => a.exp2
  | 0x07 => a.ln
  | 0x08 => a.log2
  | 0x09 => a.tanh
  | 0x0A => a.sigmoid
  | 0x0B => a.silu
  | 0x0C => a.erf
  | _ => a.gelu

/-- VINT modulo 2^w (05 R158, R160). -/
def vintFn (fn w a b : Nat) : Nat :=
  let sa := sgn a w
  let sb := sgn b w
  match fn with
  | 0 => (a + b) % 2 ^ w
  | 1 => wrap ((a : Int) - b) w
  | 2 => a * b % 2 ^ w
  | 3 => if sb < sa then b else a
  | 4 => if sa < sb then b else a
  | 5 => Nat.land a b
  | 6 => Nat.lor a b
  | 7 => Nat.xor a b
  | 8 => (a <<< (b % w)) % 2 ^ w
  | 9 => a >>> (b % w)
  | _ => wrap (sa / ((2 ^ (b % w) : Nat) : Int)) w

def vcmpFn (fn : Nat) (int : Bool) (a b : Num) : Bool :=
  match fn with
  | 0 => a.eq b
  | 1 => a.lt b && !(a.eq b)
  | 2 => a.lt b || a.eq b
  | _ => !int && (a.isNan || b.isNan)

/-- Bits of a Boolean list, element 0 lowest. -/
def packBits : List Bool → Nat
  | [] => 0
  | b :: bs => b2n b + 2 * packBits bs

/-- The key order of R168: NaNs highest and equal, zeros equal. -/
def keyLt (a b : Num) : Bool :=
  if a.isNan then false
  else if b.isNan then true
  else a.lt b && !(a.eq b)

/-- Which of two indexed keys comes first in a selection (05 R169, R170). -/
def ahead (asc : Bool) (x y : Num × Nat) : Bool :=
  if keyLt x.1 y.1 then asc
  else if keyLt y.1 x.1 then !asc
  else x.2 < y.2

def insertBy {α : Type} (lt : α → α → Bool) (x : α) : List α → List α
  | [] => [x]
  | y :: ys => if lt y x then y :: insertBy lt x ys else x :: y :: ys

def sortBy {α : Type} (lt : α → α → Bool) : List α → List α
  | [] => []
  | x :: xs => insertBy lt x (sortBy lt xs)

/-- The elements in selection order with their indices. -/
def keyOrder (asc : Bool) (ks : List Num) : List Nat :=
  (sortBy (ahead asc) (ks.zip (List.range ks.length))).map Prod.snd

/-- Running exact sums (05 R166). -/
def prefixSums : Num → List Num → List Num
  | _, [] => []
  | a, x :: xs => let b := a.add x; b :: prefixSums b xs

/-- SMAX (05 R167): outputs, maximum, sum and status word. -/
def smax (fmt : Nat) (xs : List (Num × Bool)) : List Nat × Nat × Nat × Nat :=
  let kept := (xs.filter Prod.snd).map Prod.fst
  let nought := ofNum fmt .rne (.fin false 0 0 false)
  if kept.any Num.isNan then
    (xs.map (fun _ => ofNum fmt .rne .nan), toF32 .nan, toF32 .nan, 2)
  else if kept.all (fun x => x == .inf true) then
    (xs.map (fun _ => nought), toF32 (.inf true), 0, 1)
  else if kept.any (fun x => x == .inf false) then
    let k := (kept.filter (fun x => x == .inf false)).length
    let v := ofNum fmt .rne ((Num.fin false 1 0 false).div (.ofInt k))
    (xs.map (fun x => if x.2 && x.1 == .inf false then v else nought), toF32 (.inf false), toF32 (.ofInt k), 4)
  else
    let m := kept.foldl Num.max (.inf true)
    let es := xs.map (fun x => if x.2 && x.1 != .inf true then toF32 ((x.1.sub m).exp) else 0)
    let s := toF32 (Num.sum (es.map f32))
    (es.map (fun e => ofNum fmt .rne ((f32 e).div (f32 s))), toF32 m, s, 0)

/-- HIST (05 R171). -/
def histGo (nb : Nat) : List Nat → List Nat → List Nat
  | [], bins => bins
  | v :: vs, bins => let i := v % nb; histGo nb vs (bins.set i ((bins.getD i 0 + 1) % 2 ^ 32))

/-- The word of element i under SR, or round to nearest even. -/
def rndOf (sr : Bool) (w : Nat) : Rnd := if sr then .sto w else .rne

/-- Elements of an MX linear stream packed into one number, w bits each (05 R163). -/
def packElems (w : Nat) : List Nat → Nat
  | [] => 0
  | v :: vs => v % 2 ^ w + 2 ^ w * packElems w vs

/-- Lists of 32. -/
def chunks32 {α : Type} : Nat → List α → List (List α)
  | 0, _ => []
  | n + 1, l => l.take 32 :: chunks32 n (l.drop 32)

/-- The effect of one vector instruction (05 R155-R172) on its core. It is one step: every 8 B word of a local access that races
a remote write is old, or every one is new, where 02 R50 lets each aligned word differ (DESIGN CHOICE, log 102). Sources are
read before any write (05 R151); of two destination groups that overlap, which the spec does not speak of, vd is written
first and the group of D over it (DESIGN CHOICE, log 103). -/
def vexec (v : Env) (c : CoreSt) (o : VOp) : CoreSt :=
  let w := o.w
  let f := w.fmt.toNat
  let n := o.n
  let sz := fmtBits f / 8
  let fn := w.fn8.toNat
  let rd := w.a.toNat
  let r1 := w.b.toNat
  let r2 := w.c.toNat
  let r3 := w.d.toNat
  let x := o.xv.toNat
  let base := roundDown (x % spadSize) sz
  let sr := w.sr = 1
  let a := vget c r1 f n
  let b := vget c r2 f n
  match o.op with
  | 0x30 => vput c rd f (selems c.spad sz n base)
  | 0x31 => ({ c with spad := putSelems c.spad sz base (vget c rd f n) } : CoreSt).clean [(base, n * sz)]
  | 0x32 =>
    let ad := (vget c r2 12 n).map (fun i => roundDown ((x + i * sz) % spadSize) sz)
    vput c rd f (ad.map (fun p => sread c.spad p sz))
  | 0x33 =>
    let ad := (vget c r2 12 n).map (fun i => roundDown ((x + i * sz) % spadSize) sz)
    { c with spad := (ad.zip (vget c rd f n)).foldl (fun m e => swrite m e.1 sz e.2) c.spad }
  | 0x34 => vput c rd f (List.replicate n (x % 2 ^ fmtBits f))
  | 0x35 => vput c rd f ((List.range n).map (fun (i : Nat) => if f = 0 then toF32 (.ofInt (i : Int)) else i))
  | 0x38 => vput c rd f ((nums f a).zipWith (fun p q => ofNum f .rne (vfpFn fn p q)) (nums f b))
  | 0x39 =>
    let d := vget c r3 f n
    vput c rd f ((((nums f a).zip (nums f b)).zip (nums f d)).map
      (fun e => ofNum f .rne (vfmaFn fn e.1.1 e.1.2 e.2)))
  | 0x3A => vput c rd f ((nums f a).map (fun p => ofNum f .rne (vunFn fn p)))
  | 0x3B => vput c rd f (a.zipWith (vintFn fn (fmtBits f)) b)
  | 0x3C =>
    let m := packBits ((nums f a).zipWith (vcmpFn fn (f ≥ 11)) (nums f b))
    { c with vr := mwrite c.vr (1024 * rd) 1024 (setBits (vmask c rd) 0 n m) }
  | 0x3D =>
    let m := vmask c r3
    vput c rd f (((a.zip b).zip (List.range n)).map (fun e => if m.testBit e.2 then e.1.1 else e.1.2))
  | 0x3E =>
    let src := fn % 16
    let xs := (vget c r1 src n).zip (List.range n)
    let c1 := vput c rd f (xs.map (fun e =>
      ofNum f (rndOf sr (v.word 0 c.seq0 e.2)) (toNum src e.1)))
    if sr then { c1 with seq0 := c.seq0 + (n + 3) / 4 } else c1
  | 0x3F =>
    let mf := fn / 16
    let ew := fmtBits mf
    let sa := x + 8 * ((n * ew + 63) / 64)
    if fn % 2 = 0 then
      let vs := ((vget c rd f n).zip (List.range n)).map (fun e =>
        (toNum f e.1, rndOf sr (v.word 0 c.seq0 e.2)))
      let bs := (chunks32 (n / 32) vs).map (mxBlock mf)
      let el := packElems ew (bs.map Prod.snd).flatten
      let m1 := swrite c.spad x (n * ew / 8) el
      let c1 := ({ c with spad := putSelems m1 1 sa (bs.map Prod.fst) } : CoreSt).clean [(x, n * ew / 8), (sa, n / 32)]
      if sr then { c1 with seq0 := c.seq0 + (n + 3) / 4 } else c1
    else
      let el := sread c.spad x (n * ew / 8)
      vput c rd f ((List.range n).map (fun i =>
        ofNum f .rne (mxNum mf (sread c.spad (sa + i / 32) 1) (bits el (ew * i) ew))))
  | 0x40 =>
    let r := match fn with
      | 0 => if f = 12 then listSum a % 2 ^ 32 else ofNum f .rne (Num.sum (nums f a))
      | 1 => ofNum f .rne ((nums f a).foldl Num.max (.inf true))
      | _ => ofNum f .rne ((nums f a).foldl Num.min (.inf false))
    vput c rd f [r]
  | 0x41 =>
    let s0 := if f = 12 then prefixSums (.ofInt 0) (a.map (fun (i : Nat) => Num.ofInt (i : Int)))
      else prefixSums (.fin true 0 0 false) (nums f a)
    let out := s0.map (fun p => if f = 12 then
        (match p with
          | .fin _ m e _ => (m <<< e.toNat) % 2 ^ 32
          | _ => 0)
      else ofNum f .rne p)
    vput c rd f (if fn % 2 = 0 then out else 0 :: out.take (n - 1))
  | 0x42 =>
    let m := vmask c r2
    let xs := ((nums f a).zip (List.range n)).map (fun e => (e.1, fn % 2 == 0 || m.testBit e.2))
    let r := smax f xs
    vput (vput c rd f r.1) r3 0 [r.2.1, r.2.2.1, r.2.2.2]
  | 0x43 =>
    let k := fn % 64 + 1
    let ix := (keyOrder (bit fn 6) (nums f a)).take k
    vput (vput c rd f (ix.map (fun i => a.getD i 0))) r3 12 ix
  | 0x44 =>
    let ix := keyOrder (!bit fn 0) (nums f a)
    let pl := vget c r2 12 n
    vput (vput c rd f (ix.map (fun i => a.getD i 0))) r3 12
      (if bit fn 1 then ix else ix.map (fun i => pl.getD i 0))
  | 0x45 =>
    let nb := 2 ^ (fn % 16)
    vput c rd 12 (histGo nb a (if bit fn 4 then vget c rd 12 nb else List.replicate nb 0))
  | 0x46 =>
    let us := (List.range n).map (fun i => v.word 2 c.seq2 i)
    { vput c rd f (us.map (fun u => if f = 12 then u else toF32 (.fin false (u / 256) (-24) false))) with
      seq2 := c.seq2 + (n + 3) / 4 }
  | _ => c

/-- The vector queue run to its end in order (05 R185). -/
def vdrain (v : Env) (c : CoreSt) : CoreSt :=
  { c.vq.foldl (vexec v) c with vq := [], vBusy := false }

end Sys2Proof.Machine
end

