-- ==== Sys2Proof/Machine/MatEngine.lean ====
section
/-! DEFINITION. What an array computes (04 R107-R144): engine-ready tiles (07 R257), dense and sparse operands, block
accumulation, the drain path with its glyphs (05 R178-R183), and SPARSIFY. -/

namespace Sys2Proof.Machine

/-- Bytes of an engine-ready tile (04 R116, 07 R257). -/
def tileSize (f : Nat) : Nat := 128 * fmtBits f + (if isMx f then 32 else 0)

/-- A line's bit string in the scratchpad: element i of width w from byte address a. -/
def bitElem (m : Mem) (a w i : Nat) : Nat :=
  bits (sread m (a + w * i / 8) (w / 8 + 2)) (w * i % 8) w

/-- Element k of line r of an operand of tiles at a, with its scale (04 R116, R129). -/
def tileNum (m : Mem) (a f r k : Nat) : Num :=
  let t := a + k / 128 * tileSize f
  let e := bitElem m (t + 16 * fmtBits f * r) (fmtBits f) (k % 128)
  if isMx f then mxNum f (sread m (t + 128 * fmtBits f + 4 * r + k % 128 / 32) 1) e
  else toNum f e

/-! The weight header (04 R117). -/

def hdrFmt (h : Nat) : Nat := bits h 0 4
def hdrSparse (h : Nat) : Bool := bit h 4
def hdrSoff (h : Nat) : Nat := bits h 32 18
def hdrMoff (h : Nat) : Nat := bits h 64 18

/-- Bytes of the value region of a sparse operand (04 R136). -/
def sparseVals (f k : Nat) : Nat := (k + 255) / 256 * (128 * fmtBits f)

/-- The metadata of group g of line j (04 R136). -/
def metaOf (m : Mem) (wgt moff k j g : Nat) : Nat :=
  bits (sread m (wgt + moff + j * (k / 8) + g / 2) 1) (4 * (g % 2)) 4

/-- Compressed element i of line j of a sparse operand. -/
def sparseElem (m : Mem) (wgt f j i : Nat) : Nat :=
  bitElem m (wgt + 16 + i / 128 * (128 * fmtBits f) + 16 * fmtBits f * j) (fmtBits f) (i % 128)

/-- Element k of column j of a weight operand of header h and depth kk, as the dense operand it stands for (04 R137). -/
def wgtNum (m : Mem) (h wgt kk j k : Nat) : Num :=
  let f := hdrFmt h
  if hdrSparse h then
    let md := metaOf m wgt (hdrMoff h) kk j (k / 4)
    let c := if md % 4 = k % 4 then sparseElem m wgt f j (2 * (k / 4))
      else if md / 4 = k % 4 then sparseElem m wgt f j (2 * (k / 4) + 1)
      else 0
    if isMx f then mxNum f (sread m (wgt + hdrSoff h + j * (kk / 32) + k / 32) 1) c else toNum f c
  else tileNum m (wgt + 16) f j k

/-- The ranges a weight operand of header h occupies, header included (04 R117, R136). -/
def wgtRanges (h wgt kk : Nat) : List (Nat × Nat) :=
  let f := hdrFmt h
  if hdrSparse h then
    [(wgt, 16 + sparseVals f kk), (wgt + hdrMoff h, kk)]
      ++ (if isMx f then [(wgt + hdrSoff h, kk / 4)] else [])
  else [(wgt, 16 + (kk + 127) / 128 * tileSize f)]

/-- The bytes of some scratchpad ranges, as a store of their own. -/
def copyRanges (m : Mem) (rs : List (Nat × Nat)) : Mem :=
  m.filter (fun e => rs.any (fun r => (e.1 + spadSize - r.1 % spadSize) % spadSize < r.2))

/-- Columns whose metadata is inconsistent (04 R138). -/
def badCols (m : Mem) (h wgt kk : Nat) : List Nat :=
  if hdrSparse h then
    (List.range 8).filter (fun j => (List.range (kk / 4)).any (fun g =>
      let md := metaOf m wgt (hdrMoff h) kk j g
      md % 4 == md / 4))
  else []

def MOp.depth (o : MOp) : Nat := 32 * (o.kb + 1)

/-- The start of the group of 8 rows that holds row r (04 R125). -/
def MOp.groupAt (o : MOp) (g : Nat) : Nat := o.row + g * ((o.depth + 127) / 128 * tileSize o.fmt)

/-- Element k of row r of the row operand; a batcher group gathers its rows (03 R105). Where an MX row's K / 32 scale bytes
lie the spec leaves open: here they follow the row's K elements (DESIGN CHOICE, log 96). -/
def MOp.rowNum (o : MOp) (m : Mem) (r k : Nat) : Num :=
  match o.breqs with
  | none => tileNum m (o.groupAt (r / 8)) o.fmt (r % 8) k
  | some reqs =>
    match reqs[r]? with
    | none => toNum o.fmt 0
    | some q =>
      let e := bitElem m q.row (fmtBits o.fmt) k
      if isMx o.fmt then
        mxNum o.fmt (sread m (q.row + (o.depth * fmtBits o.fmt + 7) / 8 + k / 32) 1) e
      else toNum o.fmt e

def MOp.isSparsify (o : MOp) : Bool := o.kind == .sparsify || o.kind == .sparsifyT

/-- Whether the operation runs on the integer path (04 R120). -/
def MOp.isInt (o : MOp) : Bool := o.fmt == 11

/-- One block added to an accumulator (04 R129, R130). -/
def accBlock (int : Bool) (xs : List (Num × Num)) (acc : Nat) : Nat :=
  let s := Num.sum (xs.map (fun e => e.1.mul e.2))
  if int then
    match s with
    | .fin n m e _ => (acc + wrap (sgnMag n (m <<< e.toNat)) 32) % 2 ^ 32
    | _ => acc
  else toF32 ((f32 acc).add s)

/-- Blocks b, b + 1, ... of a cell in ascending order. -/
def accBlocks (int : Bool) (x y : Nat → Num) : Nat → Nat → Nat → Nat
  | 0, _, acc => acc
  | n + 1, b, acc =>
    accBlocks int x y n (b + 1)
      (accBlock int ((List.range 32).map (fun i => (x (32 * b + i), y (32 * b + i)))) acc)

/-- The accumulators of row r: row operands from m, weights from wm (04 R129). -/
def MOp.rowVals (o : MOp) (m wm : Mem) (r : Nat) : List W32 :=
  (List.range 8).map (fun j =>
    let a0 := match o.acc with
      | some a => sread m (a + 4 * (8 * r + j)) 4
      | none => 0
    BitVec.ofNat 32 (accBlocks o.isInt (o.rowNum m r) (wgtNum wm o.hdr o.wgt o.depth j) (o.kb + 1) 0 a0))

/-- Rows r0, r0 + 1, ... of an operation. -/
def MOp.vals (o : MOp) (m wm : Mem) (r0 n : Nat) : List W32 :=
  ((List.range' r0 n).map (o.rowVals m wm)).flatten

/-- The streaming rate of a format, in quarters of a product per cell and ACLK (04 R122). -/
def rate4 (f : Nat) : Nat :=
  match f with
  | 0 => 1
  | 1 | 2 => 2
  | 9 => 8
  | _ => 4

/-- Streaming time of one pass in ACLK (04 R122, R143). -/
def MOp.pass (o : MOp) : Nat :=
  match o.kind with
  | .sparsify => o.depth / 4 + 12
  | .sparsifyT => o.depth / 2 + 16
  | _ => o.depth * 4 / min (rate4 o.fmt) (rate4 (hdrFmt o.hdr)) / (if hdrSparse o.hdr then 2 else 1)

/-- The scratchpad ranges whose elements an operation reads (04 R124; 03 R105). -/
def MOp.reads (o : MOp) : List (Nat × Nat) :=
  let kk := o.depth
  match o.kind with
  | .sparsify | .sparsifyT => [(o.row, 16 + (kk + 127) / 128 * tileSize (hdrFmt o.hdr))]
  | _ =>
    wgtRanges o.hdr o.wgt kk ++ (match o.acc with
        | some a => [(a, 256)]
        | none => [])
      ++ (match o.breqs with
        | some rs => rs.map (fun r => (r.row, kk * fmtBits o.fmt / 8 + (if isMx o.fmt then kk / 32 else 0)))
        | none => [(o.row, ((if o.kind = .mmaS then o.rows else 8) + 7) / 8 * ((kk + 127) / 128 * tileSize o.fmt))])

/-- Poisoned scratchpad words that [a, a + n) touches: the first, as a byte address. -/
def CoreSt.poisonIn (c : CoreSt) (a n : Nat) : Option Nat :=
  if c.spadPoison.isEmpty then none
  else ((unitsOf a n 8).find? (fun u => c.spadPoison.contains (u % 32768))).map (fun u => u % 32768 * 8)

/-- The first poisoned word that the feeders of an operation read (04 R145). -/
def MOp.poison (o : MOp) (c : CoreSt) : Option Nat := o.reads.findSome? (fun r => c.poisonIn r.1 r.2)

/-- A matrix operation starts streaming (04 R110): its accumulators from the operands as they stand, its recirculating
buffers (04 R126). SPARSIFY computes at completion. Every element is taken at MATRIX_STREAM_START, so a remote write that
lands on an operand later leaves the old words read: which of the two a streaming element is the spec leaves open (04 R124,
R147; DESIGN CHOICE, log 97). -/
def MOp.start (o : MOp) (c : CoreSt) : MAct :=
  match o.kind with
  | .mmaF => { op := o, vals := o.vals c.spad c.spad 0 8, noGuar := badCols c.spad o.hdr o.wgt o.depth,
               drained := 0, wbuf := [], bad := o.poison c }
  | .mmaS => { op := o, vals := o.vals c.spad c.spad 0 o.rows, noGuar := badCols c.spad o.hdr o.wgt o.depth,
               drained := 0, wbuf := copyRanges c.spad (wgtRanges o.hdr o.wgt o.depth), bad := o.poison c }
  | .sparsify => { op := o, vals := [], noGuar := [], drained := 0, wbuf := [], bad := o.poison c }
  | .sparsifyT => { op := o, vals := [], noGuar := [], drained := 0, wbuf := [], bad := o.poison c }

/-- The buffers of an MMA.S after a remote write into its weight range, with the groups after the first formed from
them (04 R126); `c` holds the scratchpad after the write. -/
def MAct.rewrite (a : MAct) (c : CoreSt) : MAct :=
  let rs := wgtRanges a.op.hdr a.op.wgt a.op.depth
  let buf := copyRanges c.spad rs
  let from8 := max 8 (a.drained / 8 * 8 + (if a.drained % 8 = 0 then 0 else 8))
  if from8 ≥ a.op.rows then { a with wbuf := buf }
  else { a with
    wbuf := buf
    noGuar := addAll a.noGuar (badCols buf a.op.hdr a.op.wgt a.op.depth)
    vals := a.vals.take (8 * from8) ++ a.op.vals c.spad buf from8 (a.op.rows - from8)
    bad := match a.bad with
      | some x => some x
      | none => rs.findSome? (fun r => c.poisonIn r.1 r.2) }

/-- Where output row r starts (04 R119, 03 R105); none for a zero row of a batcher group. -/
def MOp.rowAt (o : MOp) (ofmt r : Nat) : Option Nat :=
  match o.breqs with
  | some reqs => (reqs[r]?).map BReq.out
  | none => some (o.out + r * (if o.ostride = 0 then fmtBits ofmt else o.ostride))

/-- Rows of an operation that the drain handles. -/
def MOp.nrows (o : MOp) : Nat := if o.kind = .mmaS then o.rows else 8

/-- The bytes that rows r0, r0 + 1, ... write. -/
def MOp.outRanges (o : MOp) (ofmt r0 n : Nat) : List (Nat × Nat) :=
  ((List.range' r0 n).filterMap (o.rowAt ofmt)).map (fun a => (a, fmtBits ofmt))

/-- Where block b of row r of the tile at `at_` lies: its elements of w bits and its scale byte (07 R257, 05 R182). -/
def mxTile (at_ w b r : Nat) : Option (Nat × Nat) := some (at_ + 16 * w * r + 4 * w * b, at_ + 128 * w + 4 * r + b)

/-- Where an operation's MX row r goes: its line of the tile at the output address; for a batcher group line 0 of the tile at
the request's own output address, and nowhere for a zero row (03 R105, 05 R182; DESIGN CHOICE which line, log 29). -/
def MOp.mxAt (o : MOp) (w b r : Nat) : Option (Nat × Nat) :=
  match o.breqs with
  | none => mxTile o.out w b r
  | some reqs => (reqs[r]?).bind (fun q => mxTile q.out w b 0)

/-- The element bytes that block b of 8 rows takes. -/
def mxRanges (at_ : Nat → Nat → Nat → Option (Nat × Nat)) (f b : Nat) : List (Nat × Nat) :=
  let w := fmtBits (f % 16)
  ((List.range 8).filterMap (at_ w b)).map (fun e => (e.1, 4 * w))

/-- The array states of a core by index. -/
def CoreSt.arr (c : CoreSt) (i : Nat) : ArrSt :=
  match i with
  | 0 => c.a0
  | 1 => c.a1
  | 2 => c.a2
  | _ => c.a3

def CoreSt.setArr (c : CoreSt) (i : Nat) (a : ArrSt) : CoreSt :=
  match i with
  | 0 => { c with a0 := a }
  | 1 => { c with a1 := a }
  | 2 => { c with a2 := a }
  | _ => { c with a3 := a }

/-- The image attached to an array, if any. -/
def CoreSt.drainGlyph (c : CoreSt) (i : Nat) : Option Nat :=
  match (c.arr i).att with
  | some sl => tget c.glyph sl
  | none => none

/-- Output codes of row r without a glyph: the drain converter (04 R114), free values in columns without guarantee. -/
def plainRow (a : MAct) (r fr : Nat) : List Nat :=
  (List.range 8).map (fun j =>
    if a.noGuar.contains j then (Config.freeValue (fr + 8 * r + j)).toNat % 2 ^ fmtBits a.op.ofmt
    else ofNum a.op.ofmt .rne (toNum (if a.op.isInt then 12 else 0) (a.vals.getD (8 * r + j) 0).toNat))

/-- All rows written without a glyph. -/
def writeRows (row : Nat → List Nat) (at_ : Nat → Option Nat) (sz : Nat) : Nat → Nat → Mem → Mem
  | 0, _, m => m
  | n + 1, r, m =>
    writeRows row at_ sz n (r + 1)
      (match at_ r with
        | some a => putSelems m sz a (row r)
        | none => m)

/-- The MX block of row r of a buffer with format and rounding f (05 R182): values not in the buffer count as +0. -/
def mxRow (mx : Tbl (W32 × W32)) (f r : Nat) : Nat × List Nat :=
  mxBlock (f % 16) ((List.range 32).map (fun i =>
    match tget mx (32 * r + i) with
    | some e => (f32 e.1.toNat, rndOf (bit f 4) e.2.toNat)
    | none => (.fin false 0 0 false, .rne)))

/-- The buffer written as block b of 8 rows (05 R182), each where `at_` puts it. -/
def mxWrite (m : Mem) (mx : Tbl (W32 × W32)) (f : Nat) (at_ : Nat → Nat → Nat → Option (Nat × Nat)) (b : Nat) : Mem :=
  let w := fmtBits (f % 16)
  (List.range 8).foldl (fun m r =>
    match at_ w b r with
    | none => m
    | some e =>
      let x := mxRow mx f r
      swrite (swrite m e.1 (4 * w) (packElems w x.2)) e.2 1 x.1) m

/-- One glyph result of row r, column j, with its random word (05 R179, R176). -/
def glyCell (v : Env) (c : CoreSt) (img dseq : Nat) (a : MAct) (r j i : Nat) : Nat × Nat :=
  let w := v.word 1 c.seq1 i
  if a.noGuar.contains j then ((Config.freeValue (v.free + 8 * r + j)).toNat % 2 ^ 32, w)
  else (glyph img w (a.vals.getD (8 * r + j) 0).toNat j r (8 * (dseq % 8) + j), w)

/-- A result converted as a drain glyph's OFMT and SR say (05 R176). -/
def glyOut (img : Nat) (e : Nat × Nat) : Nat := ofNum (glyOfmt img) (rndOf (glySr img) e.2) (f32 e.1)

/-- Row r of the tile of 8 rows from row r0 through the glyph: results with their words. -/
def glyRow (v : Env) (c : CoreSt) (img dseq : Nat) (a : MAct) (r0 r : Nat) : List (Nat × Nat) :=
  (List.range 8).map (fun j => glyCell v c img dseq a r j (8 * (r - r0) + j))

/-- One tile of the oldest instruction in an array's sets through its drain glyph (05 R179-R182); the instruction's
last tile ends its drain, advances DSEQ and writes a full MX block buffer. A decode batcher group with GLY = 1 that issues
after GATT detached its array finds no glyph: the spec does not say what its drain is, and the group stays undrained
(05 R178; DESIGN CHOICE, log 98). -/
def drainTile (v : Env) (c : CoreSt) (i : Nat) : CoreSt :=
  let ar := c.arr i
  match ar.act with
  | [] => c
  | a :: rest =>
    match c.drainGlyph i with
    | none => c
    | some img =>
      let r0 := a.drained
      let n := min 8 (a.op.nrows - r0)
      let f := glyOfmt img
      let done := r0 + n ≥ a.op.nrows
      let a1 := { a with drained := r0 + n }
      let row := glyRow v c img ar.dseq a r0
      let c1 := { c with seq1 := c.seq1 + 2 * n }
      if isMx f then
        let col := 8 * (ar.dseq % 4)
        let buf := (List.range' r0 n).foldl (fun b r =>
          ((row r).zip (List.range 8)).foldl (fun b e =>
            tput b (32 * r + col + e.2) (BitVec.ofNat 32 e.1.1, BitVec.ofNat 32 e.1.2)) b) ar.mx
        let full := done && ar.dseq % 4 == 3
        let mf := if ar.mx.isEmpty then f + 16 * b2n (glySr img) else ar.mxf
        let ar1 := { ar with
          act := a1 :: rest
          dseq := if done then (ar.dseq + 1) % 2 ^ 16 else ar.dseq
          mx := if full then [] else buf
          mxf := if full then 0 else mf }
        let sp := if full then mxWrite c.spad buf mf a.op.mxAt (ar.dseq / 4 % 4) else c.spad
        let c2 := { c1.setArr i ar1 with spad := sp }
        if full then c2.clean (mxRanges a.op.mxAt mf (ar.dseq / 4 % 4)) else c2
      else
        let ar1 := { ar with
          act := a1 :: rest
          dseq := if done then (ar.dseq + 1) % 2 ^ 16 else ar.dseq }
        ({ c1.setArr i ar1 with
          spad := writeRows (fun r => (row r).map (glyOut img)) (a.op.rowAt f) (fmtBits f / 8) n r0 c.spad } : CoreSt).clean
          (a.op.outRanges f r0 n)

/-! SPARSIFY (04 R139-R142). -/

/-- Whether |x| ranks above |y|: a NaN above every magnitude (04 R140). -/
def magGt (x y : Num) : Bool :=
  if x.isNan then !y.isNan else if y.isNan then false else y.abs.lt x.abs

def pick (p : Nat → Bool) (v : Nat → Num) : Option Nat :=
  (List.range 4).foldl (fun b i =>
    if p i then (match b with
      | none => some i
      | some k => if magGt (v i) (v k) then some i else b) else b) none

/-- One group of four: kept indices in ascending order and whether a non-zero was dropped (04 R140). -/
def sparsifyGroup (v : Nat → Num) : Nat × Nat × Bool :=
  let b := (pick (fun _ => true) v).getD 0
  let s := (pick (fun i => i != b) v).getD 0
  let nz := ((List.range 4).filter (fun i => !(v i).isZero)).length
  (min b s, max b s, decide (nz > 2))

/-- One 4 x 4 block: kept block indices and whether a non-zero was dropped (04 R141). -/
def sparsifyBlock (e : Nat → Num) : List Nat × Bool :=
  let order := sortBy (fun i j => magGt (e i) (e j) || (!magGt (e j) (e i) && decide (i < j))) (List.range 16)
  let keep := order.foldl (fun (k : List Nat) i =>
    if (k.filter (fun x => x / 4 == i / 4)).length < 2 && (k.filter (fun x => x % 4 == i % 4)).length < 2
    then k ++ [i] else k) []
  (keep, (List.range 16).any (fun i => !keep.contains i && !(e i).isZero))

/-- The two indices a group names and whether each is kept (04 R142). -/
def groupNames (kept : List Nat) : (Nat × Bool) × (Nat × Bool) :=
  let free := (List.range 4).filter (fun i => !kept.contains i)
  match (List.range 4).filter (fun i => kept.contains i) with
  | [] => ((0, false), (1, false))
  | [a] =>
    let z := free.headD 0
    if a < z then ((a, true), (z, false)) else ((z, false), (a, true))
  | a :: b :: _ => ((a, true), (b, true))

/-- What group g of line j keeps. -/
def groupKeep (t : Bool) (v : Nat → Nat → Num) (j g : Nat) : (Nat × Bool) × (Nat × Bool) :=
  if t then
    let l0 := j / 4 * 4
    let k := (sparsifyBlock (fun i => v (l0 + i % 4) (4 * g + i / 4))).1
    groupNames ((k.filter (fun i => i % 4 == j % 4)).map (fun i => i / 4))
  else
    let r := sparsifyGroup (fun i => v j (4 * g + i))
    ((r.1, true), (r.2.1, true))

/-- Overflows (04 R144). -/
def sparsifyCount (t : Bool) (v : Nat → Nat → Num) (kk : Nat) : Nat :=
  if t then
    (((List.range (kk / 4)).map (fun g => ((List.range 2).filter (fun h =>
      (sparsifyBlock (fun i => v (4 * h + i % 4) (4 * g + i / 4))).2)).length))).foldl (· + ·) 0
  else
    (((List.range (kk / 4)).map (fun g => ((List.range 8).filter (fun j =>
      (sparsifyGroup (fun i => v j (4 * g + i))).2.2)).length))).foldl (· + ·) 0

/-- The sparse operand written (04 R139) and the overflow count. -/
def sparsifyRun (m : Mem) (t : Bool) (h src dst kk : Nat) : Mem × Nat :=
  let f := hdrFmt h
  let w := fmtBits f
  let code := fun j k => bitElem m (src + 16 + k / 128 * tileSize f + 16 * w * j) w (k % 128)
  let v := fun j k => toNum f (code j k)
  let keep := groupKeep t v
  let soff := if isMx f then 16 + sparseVals f kk else 0
  let moff := 16 + sparseVals f kk + (if isMx f then kk / 4 else 0)
  let head := f + 16 + (if t then 32 else 0) + soff * 2 ^ 32 + moff * 2 ^ 64
  let line := fun j => ((List.range (kk / 4)).map (fun g =>
    let k := keep j g
    [if k.1.2 then code j (4 * g + k.1.1) else 0, if k.2.2 then code j (4 * g + k.2.1) else 0])).flatten
  let m1 := swrite m dst 16 head
  let m2 := (List.range 8).foldl (fun m j =>
    let l := line j
    (List.range ((kk + 255) / 256)).foldl (fun m b =>
      let part := (l.drop (128 * b)).take 128
      swrite m (dst + 16 + b * (128 * w) + 16 * w * j) (part.length * w / 8) (packElems w part)) m) m1
  let m3 := if isMx f then (List.range 8).foldl (fun s j => (List.range (kk / 32)).foldl (fun s b =>
      swrite s (dst + soff + j * (kk / 32) + b) 1
        (sread m (src + 16 + b / 4 * tileSize f + 128 * w + 4 * j + b % 4) 1)) s) m2 else m2
  let m4 := (List.range 8).foldl (fun s j =>
    swrite s (dst + moff + j * (kk / 8)) (kk / 8) (packElems 4 ((List.range (kk / 4)).map (fun g =>
      let k := keep j g
      k.1.1 + 4 * k.2.1)))) m3
  (m4, sparsifyCount t v kk)

/-- The bytes SPARSIFY writes. -/
def MOp.sparseOut (o : MOp) : List (Nat × Nat) :=
  let f := hdrFmt o.hdr
  let v := sparseVals f o.depth
  [(o.out, 16 + v + (if isMx f then o.depth / 4 else 0) + o.depth)]

/-! Completion (04 R123, R144; 03 R105). -/

def CoreSt.getX (c : CoreSt) (r : Nat) : W64 := if r = 0 then 0 else tgetD c.x r 0

/-- x0 discards writes (03 R73); a write clears the register's poison. -/
def CoreSt.setX (c : CoreSt) (r : Nat) (v : W64) : CoreSt :=
  if r = 0 then c else { c with x := tput c.x r v, xPoison := c.xPoison.filter (· != r) }

def CoreSt.getCnt (c : CoreSt) (n : Nat) : W32 := tgetD c.cnt n 0

def CoreSt.addCnt (c : CoreSt) (n : Nat) (v : W32) : CoreSt := { c with cnt := tput c.cnt n (c.getCnt n + v) }

/-- What a completion reports beyond the core: overflows counted, free values used, and a poisoned operand word with the
first word of the instruction whose feeders read it. -/
structure EngOut where
  c : CoreSt
  ovf : Nat
  used : Nat
  ue : Option (Nat × W64)
  deriving DecidableEq, Repr

/-- The oldest instruction in an array's sets completes; one through a glyph has drained every tile before. One whose
feeders read a poisoned word, or whose accumulators or feeders were restored with poison, ends without effect (04 R145, 10 R380);
poison that is at no scratchpad address reports a free value for it. -/
def completeHead (v : Env) (c : CoreSt) (i : Nat) : EngOut :=
  let ar := c.arr i
  match ar.act with
  | [] => ⟨c, 0, 0, none⟩
  | a :: rest =>
    let c1 := c.setArr i { ar with act := rest }
    let bad := match a.bad with
      | some x => some x
      | none => if a.op.isSparsify then a.op.poison c else none
    match bad with
    | some x => ⟨{ c1 with xPend := c1.xPend.filter (fun r => r != a.op.dst || !a.op.isSparsify) },
        0, b2n (decide (spadSize ≤ x)),
        some (if x < spadSize then x else (Config.freeValue v.free).toNat % spadSize, a.op.w0)⟩
    | none =>
      match a.op.kind with
      | .sparsify =>
        let r := sparsifyRun c.spad false a.op.hdr a.op.row a.op.out a.op.depth
        ⟨(({ c1 with spad := r.1, xPend := c1.xPend.filter (· != a.op.dst) } : CoreSt).clean a.op.sparseOut).setX
          a.op.dst (w64 r.2), r.2, 0, none⟩
      | .sparsifyT =>
        let r := sparsifyRun c.spad true a.op.hdr a.op.row a.op.out a.op.depth
        ⟨(({ c1 with spad := r.1, xPend := c1.xPend.filter (· != a.op.dst) } : CoreSt).clean a.op.sparseOut).setX
          a.op.dst (w64 r.2), r.2, 0, none⟩
      | _ =>
        let c2 := if a.op.gly then c1 else
          let sp := writeRows (fun r => plainRow a r v.free) (a.op.rowAt a.op.ofmt) (fmtBits a.op.ofmt / 8)
            a.op.nrows 0 c1.spad
          ({ c1 with spad := sp } : CoreSt).clean (a.op.outRanges a.op.ofmt 0 a.op.nrows)
        ⟨((a.op.breqs.getD []).foldl (fun (c : CoreSt) q => c.addCnt q.cnt 1) c2), 0, 8 * a.op.nrows, none⟩

/-- The queue's head starts streaming (04 R110); poison that a restore left in the array is its own (10 R380). -/
def startHead (c : CoreSt) (i : Nat) : CoreSt :=
  let ar := c.arr i
  match ar.q with
  | [] => c
  | o :: rest =>
    let a := o.start c
    c.setArr i { ar with
      q := rest
      act := ar.act ++ [if ar.bad then { a with bad := some (a.bad.getD spadSize) } else a]
      bad := false }

/-- Two reports, the first poison kept. -/
def EngOut.and_ (e r : EngOut) : EngOut := ⟨r.c, e.ovf + r.ovf, e.used + r.used, e.ue.or r.ue⟩

/-- An array runs on until it has drained one more tile through its glyph: instructions before it complete. -/
def drainNext (v : Env) (i : Nat) : Nat → EngOut → EngOut
  | 0, e => e
  | n + 1, e =>
    let c0 := if (e.c.arr i).act.isEmpty then startHead e.c i else e.c
    match (c0.arr i).act with
    | [] => e
    | a :: _ =>
      let v1 := { v with free := v.free + e.used }
      if a.op.gly && a.bad.isNone && decide (a.drained < a.op.nrows) then
        ⟨drainTile v1 c0 i, e.ovf, e.used + 8 * a.op.nrows, e.ue⟩
      else drainNext v i n (e.and_ (completeHead v1 c0 i))

/-- The instructions an array has, oldest first, with the tiles already drained. -/
def ArrSt.ops (a : ArrSt) : List (MOp × Nat) := a.act.map (fun x => (x.op, x.drained)) ++ a.q.map (fun o => (o, 0))

/-- When row 0 of each tile that array i has yet to drain becomes final, in ACLK (04 R123, R127, 05 R181): the instructions
stream back to back from ACLK t. -/
def tileTimes (i : Nat) : Nat → List (MOp × Nat) → List (Nat × Nat)
  | _, [] => []
  | t, (o, d) :: r =>
    let g := if o.isSparsify then 1 else (o.nrows + 7) / 8
    ((if o.gly then (List.range' (d / 8) (g - d / 8)).map (fun k => (t + (k + 1) * o.pass + 11, i)) else []) : List (Nat × Nat))
      ++ tileTimes i (t + g * o.pass) r

/-- The arrays whose tiles the vector engine serves, in the order in which their row 0 becomes final, ties by array index
(05 R181). The ACLK of each stream's start is no state here: every array's streams are taken to begin together (DESIGN CHOICE,
log 99). -/
def drainOrder (c : CoreSt) : List Nat :=
  (sortBy (fun (x y : Nat × Nat) => decide (x.1 < y.1) || (x.1 == y.1 && decide (x.2 < y.2)))
    ((List.range 4).map (fun i => tileTimes i 0 (c.arr i).ops)).flatten).map Prod.snd

/-- One instruction of an array run to its end, its tiles drained. -/
def finishOne (v : Env) (i : Nat) (e : EngOut) : EngOut :=
  let c0 := if (e.c.arr i).act.isEmpty then startHead e.c i else e.c
  e.and_ (completeHead { v with free := v.free + e.used } c0 i)

/-- An array run until it is empty. -/
def finishArr (v : Env) (e : EngOut) (i : Nat) : EngOut :=
  (List.range (e.c.arr i).ops.length).foldl (fun e _ => finishOne v i e) e

/-- Every earlier instruction of the core completes its local effects (03 R97): the vector engine's, the arrays' tiles in the
order of their drains, then what is left on each array. -/
def drainLocal (v : Env) (c : CoreSt) : EngOut :=
  let c1 := vdrain v c
  (List.range 4).foldl (finishArr v) ((drainOrder c1).foldl (fun e i => drainNext v i ((c1.arr i).ops.length + 1) e) ⟨c1, 0, 0, none⟩)

end Sys2Proof.Machine
end

