-- ==== Sys2Proof/Machine/Sched.lean ====
section
/-! DEFINITION. Contexts and partitions in motion (10 R372-R376, R385, R386): the choice of the resident context, saves,
ends and stops of contexts, the batcher's flush at a save, and what ends with a partition. -/

namespace Sys2Proof.Machine

def slots8 : List Nat := List.range 8

/-- First slot of a list after `l`, ascending and wrapping (10 R373). -/
def nextAfter (l : Nat) (cs : List Nat) : Option Nat :=
  match cs.find? (fun c => l < c) with
  | some c => some c
  | none => cs.head?

/-- The slots of a priority that may be chosen. -/
def State.candidates (s : State) (p pr : Nat) : List Nat :=
  slots8.filter (fun c =>
    let x := s.ctx p c
    x.prio == pr && (x.st == .ready || x.st == .running))

/-- The context the command processor chooses at a decision point, with its priority (10 R373). -/
def State.chooseAt (s : State) (p : Nat) (expired : Bool) : List Nat → Option (Nat × Nat)
  | [] => none
  | pr :: prs =>
    let cand := s.candidates p pr
    if cand.isEmpty then s.chooseAt p expired prs
    else
      let part := s.part p
      let others := cand.filter (fun c => part.resident != some c)
      let run := match part.resident with
        | some r => if cand.contains r && !expired then some r else none
        | none => none
      match run with
      | some r => some (r, pr)
      | none =>
        match nextAfter (tgetD part.lastAt pr 7) others with
        | some c => some (c, pr)
        | none => part.resident.map (fun r => (r, pr))

def State.choose (s : State) (p : Nat) : Option (Nat × Nat) :=
  let q := match (s.part p).resident with
    | some r => (s.ctx p r).quantumOut
    | none => false
  s.chooseAt p q [0, 1, 2, 3]

/-! The decode batcher (03 R104, R105). -/

/-- The matrix operation of an issuing group: its template with the requests' rows (03 R103, R105, 04 R115). -/
def BGroup.op (g : BGroup) (pcAt : Nat) : MOp :=
  let w1 := g.t1.toNat
  { kind := .mmaF, out := (g.reqs.head?.map BReq.out).getD 0, row := (g.reqs.head?.map BReq.row).getD 0, wgt := g.wgt
    acc := none, rows := 8, fmt := bits g.t0.toNat 40 4, ofmt := bits w1 7 4, kb := bits w1 0 7, ostride := 0
    gly := bit g.t0.toNat 35, dst := 0, breqs := some g.reqs, pcAt, hdr := g.hdr, w0 := g.t0 }

/-- The array a group's template names. -/
def BGroup.arr (g : BGroup) : Nat := bits g.t0.toNat 32 2

/-- A group enters its array's queue. -/
def CoreSt.issueGroup (c : CoreSt) (g : BGroup) : CoreSt :=
  let a := c.arr g.arr
  c.setArr g.arr { a with q := a.q ++ [g.op c.pc] }

/-- Every open group issues, in the order in which they opened. -/
def CoreSt.flush (c : CoreSt) : CoreSt := { c.batch.foldl CoreSt.issueGroup c with batch := [] }

/-! Saves, ends and stops. -/

/-- A context's cores, as table keys: those of (p, c). -/
def inCtx (p c k : Nat) : Bool := k / 4096 == p * 8 + c

/-- A core at a save (10 R376): the vector instruction in progress finished, the batcher flushed, a stall given up. -/
def CoreSt.atSave (c : CoreSt) : CoreSt := { c.flush with vBusy := false, stall := none }

def State.mapCtxCores (s : State) (p c : Nat) (f : CoreSt → CoreSt) : State :=
  { s with cores := s.cores.map (fun e => if inCtx p c e.1 then (e.1, f e.2) else e) }

/-- The unit that runs a Ductus instruction (06 R188): 0 selection, 1 count, 2 exchange, 3 combine. -/
def ductusUnit (op : Nat) : Nat :=
  match op with
  | 0xB0 | 0xB1 | 0xB2 => 0
  | 0xB3 | 0xB4 | 0xBA => 1
  | 0xB8 => 3
  | _ => 2

/-- The Ductus instructions of a context that are queued and not started go into the save of their cores, in order (06 R233,
10 R376, R377). -/
def State.holdDuctus (s : State) (p c : Nat) : State :=
  let mine := fun (o : DOp) => o.loc.p == p && o.loc.s == c
  let os := (s.duc.map (fun e => (e.2.q.map (fun x => x.2.filter mine)).flatten)).flatten
  let s1 : State := { s with
    duc := s.duc.map (fun e => (e.1, { e.2 with q := e.2.q.map (fun x => (x.1, x.2.filter (fun o => !mine o))) })) }
  os.foldl (fun (s : State) o => let x := s.core o.loc; s.setCore o.loc { x with held := x.held ++ [o] }) s1

/-- The resume issues the held instructions again, in order core by core (06 R233; DESIGN CHOICE, log 105). -/
def State.reissueDuctus (s : State) (p c : Nat) : State :=
  (s.cores.filter (fun e => inCtx p c e.1 && !e.2.held.isEmpty)).foldl (fun (s : State) e =>
    let l := e.1 / 64 % 64
    let loc : Loc := ⟨p, c, l, e.1 % 64⟩
    let n := (s.part p).clus.getD l 0
    e.2.held.foldl (fun (s : State) o =>
      let d := s.ductus n
      let u := ductusUnit o.op
      s.setDuctus n { d with q := tput d.q u (tgetD d.q u [] ++ [{ o with loc }]) }) (s.setCore loc { e.2 with held := [] })) s

/-- What a save does to the units of a context's cores (10 R376). -/
def State.quiesce (s : State) (p c : Nat) : State := (s.mapCtxCores p c CoreSt.atSave).holdDuctus p c

/-- The images of a context are written whole: errors of their lines in the save area are gone (10 R380, 07 R266). -/
def State.freshImages (s : State) (p c : Nat) : State :=
  { s with upsets := s.upsets.filter (fun u => match u.at_ with
      | .image k _ => !inCtx p c k
      | _ => true) }

/-- The resident context begins to be saved (10 R376). -/
def State.startSave (s : State) (p c : Nat) : State :=
  let x := s.ctx p c
  ((s.quiesce p c).freshImages p c).setCtx p c { x with st := .saving, saveTick := s.now }

/-! What a restore carries from the save area (10 R380). -/

/-- An array whose accumulators, feeders or buffer were restored with poison: the instructions in it take it, and with the block
buffer the next one. -/
def ArrSt.poisoned (a : ArrSt) : ArrSt :=
  { a with act := a.act.map (fun x => { x with bad := some (x.bad.getD spadSize) }), bad := true }

/-- A core whose image line was poisoned (10 R377, R380): the words of the line are; an array by the quarter of its accumulators,
feeders, instructions or buffers that the line lies in (log 37). -/
def CoreSt.poisonLine (c : CoreSt) (line : Nat) : CoreSt :=
  let us := List.range' (32 * line) 32
  let arr := fun (i : Nat) => c.setArr (i % 4) (c.arr (i % 4)).poisoned
  if line < 1024 then { c with spadPoison := addAll c.spadPoison us }
  else if line < 1152 then { c with vrPoison := addAll c.vrPoison (us.map (· - 32768)) }
  else if line < 1154 then { c with xPoison := addAll c.xPoison ((us.map (· - 36864)).filter (· != 0)) }
  else if line < 1155 then { c with cntPoison := List.range 64 }
  else if line < 1156 then { c with ctlPoison := true }
  else if line < 1164 then arr ((line - 1156) / 2)
  else if line < 1196 then arr ((line - 1164) / 8)
  else if line < 1200 then arr (line - 1196)
  else if line < 1216 then arr ((line - 1200) / 4)
  else { c with ctlPoison := true }

/-- The restored images meet the errors of their lines: one that cannot be corrected poisons what is restored (10 R380). -/
def State.carryImages (s : State) (p c : Nat) : State :=
  (s.upsetsIn (fun x => match x with
    | .image k _ => inCtx p c k
    | _ => false)).foldl (fun (s : State) u => match u.at_ with
      | .image k line =>
        let s1 : State := s.found u 0x0802 0x0804 0 0 0
        if u.hard then { s1 with cores := s1.cores.map (fun e => if e.1 = k then (e.1, e.2.poisonLine line) else e) } else s1
      | _ => s) s

/-! Held clocks (10 R387, R390; 13 R463, R464). -/

/-- Whether a power domain is ON (13 R466, R476). -/
def Plat.domOn (x : Plat) (d : Nat) : Bool := tgetD x.dom d 0 == 2

/-- Domains that go OFF (13 R467). -/
def Plat.domsOff (x : Plat) (ds : List Nat) : Plat := { x with dom := x.dom.filter (fun e => !ds.contains e.1) }

/-- The firmware divider of a cluster: the larger of its cap and thermal dividers (14 R493). -/
def Plat.fdivOf (x : Plat) (n : Nat) : Nat := max (tgetD x.capDiv n 6) (tgetD x.thDiv n 6)

/-- The divider in force on a cluster's ACLK. -/
def Plat.adiv (x : Plat) (n : Nat) : Nat := if x.holdP || x.holdT.any (fun k => k / 3 == n) then 12 else x.fdivOf n

/-- Whether a protection throttle acts now on a domain of a Ruled partition: the di/dt throttle, or a clock below the one it was
created at (10 R387, R390). -/
def State.throttleActs (s : State) (p : Nat) : Bool :=
  let x := s.part p
  x.ruled && (s.plat.swallow || x.clus.any (fun n => decide (tgetD x.clk n 6 < s.plat.adiv n)) || decide (x.nclk < s.plat.ndiv))

/-- The chosen context begins to be restored (10 R372, R382); its images stay in the save area. A protection throttle that already
acts reaches it (10 R390). -/
def State.startRestore (s : State) (p c pr : Nat) : State :=
  let part := s.part p
  let s1 : State := s.setPart p { part with resident := some c, lastAt := tput part.lastAt pr c }
  let x := s1.ctx p c
  let images := s1.saved.filter (fun e => decide (e.1 / 32768 < p)) ++ s1.cores.filter (fun e => inCtx p c e.1)
    ++ s1.saved.filter (fun e => decide (p < e.1 / 32768))
  let s2 : State := { s1.carryImages p c with saved := images }
  (s2.reissueDuctus p c).setCtx p c
    { x with st := .restoring, started := [], quantumOut := false, rtb := x.rtb || s.throttleActs p }

/-- Whether every core of the resident context has been started: its restore is over (10 R382, R392). -/
def State.restored (s : State) (p c : Nat) : Bool := decide ((s.ctx p c).started.length ≥ 64 * (s.part p).clus.length)

/-- A decision point (10 R373). Nothing happens while a save or restore of the partition runs, nor in ABORTING, in which no context
runs (10 R385). -/
def State.decision (s : State) (p : Nat) : State :=
  if (s.part p).st = .aborting then s
  else match s.choose p with
    | none => s
    | some (c, pr) =>
      match (s.part p).resident with
      | none => s.startRestore p c pr
      | some r =>
        let x := s.ctx p r
        if x.st = .running && s.restored p r then
          if c = r then
            let s1 : State := s.setPart p { s.part p with lastAt := tput (s.part p).lastAt pr r }
            if x.quantumOut then s1.setCtx p r { x with quantumOut := false, runTick := s.now } else s1
          else s.startSave p r
        else s

/-- The resident context leaves its cores. -/
def State.unseat (s : State) (p : Nat) : State :=
  ({ s with saved := s.saved.filter (fun e => e.1 / 32768 != p) } : State).setPart p { s.part p with resident := none }

/-- The LAUNCH of a context completes (11 R408): DETAIL bit 0 is RULED_TIMING_BROKEN. -/
def State.endLaunch (s : State) (p c code : Nat) : State :=
  let x := s.ctx p c
  match x.launchSeq with
  | none => s
  | some q => (s.setCtx p c { x with launchSeq := none }).doneCmd q code (b2n x.rtb)

/-- The CTX_PAUSE commands that wait for a context end, and with them its mark (10 R375). -/
def State.endPauses (s : State) (p c code : Nat) : State :=
  if (s.ctx p c).pausing then
    ((s.liveCmds p).filter (fun d => d.op == 0x1A && d.st == 1 && d.ctxNo == c)).foldl
      (fun (s : State) d => s.doneCmd d.seq code 0) (s.setCtx p c { s.ctx p c with pausing := false })
  else s

/-- A group's reduction memory returned (09 R360). -/
def Group.free (g : Group) (s : State) : State := { s with lfree := s.lfree + g.slots, lrfree := s.lrfree + g.rslots }

/-- Ligature groups that a predicate names close without status (09 R354, 10 R385). -/
def State.closeGroups (s : State) (pr : Group → Bool) : State :=
  let gone := s.grps.filter (fun e => e.2.st != 0 && pr e.2)
  let s1 : State := gone.foldl (fun (s : State) e => e.2.free s) s
  { s1 with grps := s1.grps.filter (fun e => !(e.2.st != 0 && pr e.2)) }

/-- Outstanding operations that a predicate names end without a response: their slots stay unused (08 R317) and what
they have queued is discarded. -/
def State.dropOps (s : State) (pr : Op → Bool) : State :=
  let gone := (s.ops.filter (fun e => pr e.2)).map Prod.fst
  let till := s.now + s.maxTmo
  let mine := fun (k : Packet) => fld k.w0 32 16 == s.pnode && bits (fld k.w0 0 4) 0 4 < 8
    && gone.contains (fld k.w3 0 22)
  { s with
    ops := s.ops.filter (fun e => !pr e.2)
    quar := gone.foldl (fun q i => tput q i till) s.quar
    mesh := s.mesh.filter (fun k => !mine k)
    waitq := s.waitq.filter (fun x => !pr { use := 0, owner := x.owner, dest := x.dest, part := x.part, lnode := x.lnode
                                            space := x.req.space, off := x.req.off, pnode := 0, epoch := 0, tick := 0, circ := none })
    ports := s.ports.map (fun e => (e.1, { e.2 with outq := e.2.outq.filter (fun k => !mine k.pkt) })) }

/-- Whether the end of a partition ends an operation (08 R316, 10 R385): its own, but not a multicast's copy for a member context
of it, which is refused in its turn (08 R298). -/
def State.endsWith (s : State) (p : Nat) (o : Op) : Bool :=
  o.part == p && !(o.pnode == s.pnode && (match o.owner with
    | .fwd _ => true
    | _ => false))

/-- Collect entries of the partition's clusters close without status (06 R222, 10 R385). -/
def State.closeCollects (s : State) (p : Nat) : State :=
  { s with duc := s.duc.map (fun e => if (s.part p).clus.contains e.1 then (e.1, { e.2 with ct := [] }) else e) }

/-- A command that PART_DISABLE ends with CMD_ABORTED: a LAUNCH reports RULED_TIMING_BROKEN, a COPY or FILL the parts that succeeded
(10 R385, 11 R408, R410). -/
def State.abortCmd (s : State) (c : Cmd) : State :=
  if c.op = 1 then s.finishCmd c.seq 0x0601 0 (b2n ((s.ctx c.f c.ctxNo).launchSeq == some c.seq && (s.ctx c.f c.ctxNo).rtb))
  else if c.op = 2 ∨ c.op = 3 then s.finishCmd c.seq 0x0601 c.parts 0
  else s.finishCmd c.seq 0x0601 0 0

def State.ckpPart (s : State) (p : Nat) : CkpPart := tgetD s.ckp p {}

def State.setCkpPart (s : State) (p : Nat) (v : CkpPart) : State := { s with ckp := tput s.ckp p v }

/-- A CHECKPOINT or RESTORE that PART_DISABLE ends: its registers show CMD_ABORTED, and a RESTORE leaves its context STOPPED (12 R447,
R451). -/
def State.abortCkpt (s : State) (p : Nat) : State :=
  match (s.part p).ckpt with
  | none => s
  | some k =>
    let s1 : State := s.setCkpPart p { s.ckpPart p with op := 0, code := 0x0601 }
    if k.restore then s1.setCtx p k.s { s1.ctx p k.s with st := .stopped, stopcode := 0x0601 } else s1

/-- Steps 4 and 5 of R385: the partition enters ABORTING, and every command of it but the PART_DISABLE itself ends. -/
def State.abortPart (s0 : State) (p : Nat) : State :=
  let s := s0.abortCkpt p
  let part := s.part p
  let s1 : State := match part.resident with
    | some c => s.setCtx p c { s.ctx p c with st := .stopped, stopcode := 0x0601 }
    | none => s
  let s2 : State := ((s1.unseat p).setPart p
    { s1.part p with st := .aborting, resident := none, migs := [], ckpt := none }).setTorn p
  let s3 : State := (s2.dropOps (s2.endsWith p)).closeCollects p
  let s4 : State := s3.closeGroups (fun g => g.p == p)
  let s5 : State := { s4 with
    far := s4.far.filter (fun e => e.part != p)
    cores := s4.cores.map (fun e => if e.1 / 32768 == p then (e.1, { e.2 with dmas := [], held := [] }) else e)
    duc := s4.duc.map (fun e => if part.clus.contains e.1 then (e.1, { e.2 with run := [], q := [], loads := [] }) else e)
    tm := s4.tm.map (fun e => (e.1, { e.2 with
      q := e.2.q.filter (fun o => o.p != p)
      run := e.2.run.filter (fun r => r.op.p != p) })) }
  ((s5.liveCmds p).filter (fun c => part.cmdSeq != some c.seq)).foldl (fun (s : State) (c : Cmd) => s.abortCmd c) s5

/-- The drain has ended because nothing of the partition runs (10 R385 step 3). -/
def State.drained (s : State) (p : Nat) : Bool :=
  slots8.all (fun c => match (s.ctx p c).st with
    | .running | .ready | .restoring | .saving => false
    | _ => true)
  && (s.liveCmds p).all (fun c => c.op == 0x11 || c.st != 1)

/-- What follows when a context or a command of the partition ends: a decision point, and the end of a drain. -/
def State.settle (s : State) (p : Nat) : State :=
  let s1 : State := s.decision p
  if (s1.part p).st = .draining && s1.drained p then s1.abortPart p else s1

/-- The resident context's part of a run is over on every core (10 R374). -/
def State.allEnded (s : State) (p c : Nat) : Bool :=
  s.cores.all (fun e => !inCtx p c e.1 || e.2.run == .ended || e.2.run == .idle)

/-- CONTEXT_END: the context becomes IDLE and its LAUNCH completes with success (10 R374); a CTX_PAUSE that waited for its
save no longer applies (log 33). -/
def State.contextEnd (s : State) (p c : Nat) : State :=
  if s.allEnded p c then
    let s1 : State := (s.setCtx p c { s.ctx p c with st := .idle }).unseat p
    ((s1.endLaunch p c 0).endPauses p c 0x0604).settle p
  else s

/-- CONTEXT_STOP: the context becomes STOPPED with the stop code; a save in progress completes first (10 R374, R392). -/
def State.contextStop (s : State) (p c code : Nat) : State :=
  let x := s.ctx p c
  match x.st with
  | .saving => if x.stopcode = 0 then s.setCtx p c { x with stopcode := code } else s
  | .running | .restoring =>
    let s1 : State := s.quiesce p c
    let s2 : State := (s1.setCtx p c { s1.ctx p c with st := .stopped, stopcode := code }).unseat p
    ((s2.endLaunch p c code).endPauses p c 0x0604).settle p
  | .stopped => s
  | _ =>
    ((s.setCtx p c { x with st := .stopped, stopcode := code }).endLaunch p c code).settle p

/-- A protection throttle acts on a domain that a RUNNING or RESTORING Ruled context uses (10 R390). -/
def State.throttleCtx (s : State) (p : Nat) : State :=
  match (s.part p).resident with
  | none => s
  | some c =>
    let x := s.ctx p c
    if (s.part p).ruled && (x.st == .running || x.st == .restoring) then s.setCtx p c { x with rtb := true } else s

/-- A protection throttle acted: counted and recorded, and marked in the Ruled contexts of the partitions it reaches (10 R390,
12 R422). -/
def State.throttled (s : State) (srck srcid : Nat) (ps : List Nat) : State :=
  let s1 : State := s.count 0x0821
  ps.foldl (fun (s : State) p => s.throttleCtx p) (s1.logEvent (s1.event 0x0821 5 srck srcid 0 0 0))

end Sys2Proof.Machine
end

