-- ==== Sys2Proof/Machine/Operands.lean ====
section
/-! DEFINITION. Instruction words and their fields (03 R70-R72, R84), descriptors and packets (08 R282, R284), and the
opcode map (03 R74). -/

namespace Sys2Proof

open Sys2Proof.Machine

/-! First words (03 R70, R71). -/

def FormR.w0 (op : Nat) (w : FormR) : Nat :=
  op + w.a.toNat * 2 ^ 8 + w.b.toNat * 2 ^ 14 + w.c.toNat * 2 ^ 20 + w.d.toNat * 2 ^ 26
    + w.fn8.toNat * 2 ^ 32 + w.fmt.toNat * 2 ^ 40 + w.rsv.toNat * 2 ^ 44

def FormI.w0 (op : Nat) (w : FormI) : Nat :=
  op + w.a.toNat * 2 ^ 8 + w.b.toNat * 2 ^ 14 + w.fn12.toNat * 2 ^ 20 + w.imm.toNat * 2 ^ 32

def FormB.w0 (op : Nat) (w : FormB) : Nat :=
  op + w.a.toNat * 2 ^ 8 + w.b.toNat * 2 ^ 14 + w.cond.toNat * 2 ^ 20 + w.d.toNat * 2 ^ 26 + w.off.toNat * 2 ^ 32

def FormV.w0 (op : Nat) (w : FormV) : Nat :=
  op + w.a.toNat * 2 ^ 8 + w.b.toNat * 2 ^ 14 + w.c.toNat * 2 ^ 20 + w.d.toNat * 2 ^ 26
    + w.fn8.toNat * 2 ^ 32 + w.fmt.toNat * 2 ^ 40 + w.sr.toNat * 2 ^ 44 + w.cnt.toNat * 2 ^ 45
    + w.cr.toNat * 2 ^ 57 + w.rsv.toNat * 2 ^ 58

/-! Packets (08 R282, R284). -/

def Packet.ptype (k : Packet) : Nat := fld k.w0 0 4
def Packet.cls (k : Packet) : Nat := fld k.w0 4 2
def Packet.epoch (k : Packet) : Nat := fld k.w0 6 1
def Packet.ext (k : Packet) : Bool := k.w0.toNat.testBit 7
def Packet.slots (k : Packet) : Nat := fld k.w0 8 5 + 1
def Packet.dnode (k : Packet) : Nat := fld k.w0 16 16
def Packet.snode (k : Packet) : Nat := fld k.w0 32 16
def Packet.hops (k : Packet) : Nat := fld k.w0 48 8
def Packet.offset (k : Packet) : Nat := fld k.w1 0 48
def Packet.sub (k : Packet) : Nat := fld k.w1 0 8
def Packet.space (k : Packet) : Nat := fld k.w1 48 2
def Packet.atype (k : Packet) : Nat := fld k.w1 50 2
def Packet.aop (k : Packet) : Nat := fld k.w1 52 2
def Packet.size (k : Packet) : Nat := 8 * (fld k.w1 54 5 + 1)
def Packet.nt (k : Packet) : Bool := k.w1.toNat.testBit 59
def Packet.comb (k : Packet) : Bool := k.w1.toNat.testBit 60
def Packet.dpart (k : Packet) : Nat := fld k.w2 0 4
def Packet.dctx (k : Packet) : Nat := fld k.w2 4 3
def Packet.wgrp (k : Packet) : Nat := fld k.w2 8 4
def Packet.ncnt (k : Packet) : Nat := fld k.w2 12 6
def Packet.ncore (k : Packet) : Nat := fld k.w2 18 6
def Packet.nclu (k : Packet) : Nat := fld k.w2 24 6
def Packet.circ (k : Packet) : Nat := fld k.w2 30 12
def Packet.tree (k : Packet) : Nat := fld k.w2 42 10
def Packet.slot (k : Packet) : Nat := fld k.w3 0 22
def Packet.use (k : Packet) : Nat := fld k.w3 22 10
def Packet.job (k : Packet) : Nat := fld k.w3 32 16
def Packet.jepoch (k : Packet) : Nat := fld k.w3 48 16

/-- A response's fields (08 R284). -/
def Packet.rslot (k : Packet) : Nat := fld k.w1 0 22
def Packet.ruse (k : Packet) : Nat := fld k.w1 22 10
def Packet.status (k : Packet) : Nat := fld k.w1 32 16
/-- SUB of a MGMT response, in [55:48] (08 R318; DESIGN CHOICE, log 24). -/
def Packet.rsub (k : Packet) : Nat := fld k.w1 48 8

/-- A MGMT request that travels on a tree: a JOBSTART, or a TEARDOWN that names one (08 R318, 09 R356; log 23). -/
def Packet.onTree (k : Packet) : Bool := k.ptype == 12 && (k.sub == 6 || (k.sub == 5 && k.tree != 0))

/-- Whether a packet is a request (08 R285). -/
def Packet.isReq (k : Packet) : Bool := k.ptype < 8 || k.ptype == 12

/-- The virtual channel of a packet (08 R279). -/
def Packet.vc (k : Packet) : Nat := 2 * k.cls + b2n (!k.isReq)

/-- Non-zero reserved header fields, or a reserved type (08 R285). -/
def Packet.bad (k : Packet) : Bool :=
  [0, 7, 14, 15].contains k.ptype || fld k.w0 13 3 != 0 || fld k.w0 56 8 != 0
    || (if k.isReq then
          fld k.w1 61 3 != 0 || fld k.w2 7 1 != 0 || fld k.w2 52 12 != 0
            || (k.ptype == 12 && fld k.w1 8 40 != 0) || (k.ptype == 3 && k.aop == 3)
            || (k.ext && fld k.x1 6 58 != 0)
        else fld k.w1 48 (if k.ptype = 13 then 0 else 8) != 0 || fld k.w1 56 8 != 0)

/-- The response to a request (08 R284): type, slots, status, data; EXT as the request has it. -/
def Packet.reply (k : Packet) (ptype epoch status words data : Nat) (snode : Nat) : Packet :=
  { w0 := w64 (ptype + k.cls * 2 ^ 4 + epoch * 2 ^ 6 + b2n k.ext * 2 ^ 7 + ((words + 1) / 2) * 2 ^ 8 + k.snode * 2 ^ 16 + snode * 2 ^ 32)
    w1 := w64 (fld k.w3 0 32 + status * 2 ^ 32)
    w2 := 0, w3 := 0, x0 := 0, x1 := 0, data }

end Sys2Proof

namespace Sys2Proof.Machine

/-- The first failing check's code, in the order given (03 R96). -/
def firstErr : List (Bool × Nat) → Option Nat
  | [] => none
  | (b, c) :: t => if b then some c else firstErr t

/-- x[B] + IMM32, the immediate sign-extended. -/
def immAdd (x : W64) (imm : BitVec 32) : Nat := (x + imm.signExtend 64).toNat

/-! The second word of remote instructions (03 R84): bit 64 + i of the instruction is bit i here. -/

def rSZ (w : W64) : Nat := fld w 0 5
def rSPACE (w : W64) : Nat := fld w 5 2
def rREG (w : W64) : Bool := w.toNat.testBit 7
def rNT (w : W64) : Bool := w.toNat.testBit 8
def rNCNT (w : W64) : Nat := fld w 9 6
def rNCORE (w : W64) : Nat := fld w 15 6
def rNCLU (w : W64) : Nat := fld w 21 6
def rCLASS (w : W64) : Nat := fld w 27 2
def rCIRC (w : W64) : Nat := fld w 29 12
def rATYPE (w : W64) : Nat := fld w 41 2
def rRSV (w : W64) : Nat := fld w 43 21

/-- The wire class of an instruction's CLASS (08 R282): C2, C1, C3. -/
def wireClass (c : Nat) : Nat :=
  match c with
  | 0 => 2
  | 1 => 1
  | _ => 3

/-- A field of a header word replaced. -/
def putFld (w : W64) (lo n x : Nat) : W64 := w64 (setBits w.toNat lo n x)

/-- Slots of a request packet: header, extension, data (08 R281); `words` is its data in 8 B units. -/
def RReq.slots (r : RReq) : Nat := 2 + b2n r.ext + (r.words + 1) / 2

/-- The packet of a request on a source device: node, partition, context from the logical node entry (08 R282, R288). -/
def RReq.packet (r : RReq) (epoch snode dnode dpart dctx wg slot use job jepoch : Nat) : Packet :=
  { w0 := w64 (r.ptype + r.cls * 2 ^ 4 + epoch * 2 ^ 6 + b2n r.ext * 2 ^ 7 + (r.slots - 1) * 2 ^ 8
      + dnode * 2 ^ 16 + snode * 2 ^ 32)
    w1 := w64 (r.off % 2 ^ 48 + r.space * 2 ^ 48 + r.atype * 2 ^ 50 + r.aop * 2 ^ 52 + r.size * 2 ^ 54
      + b2n r.nt * 2 ^ 59 + b2n r.comb * 2 ^ 60)
    w2 := w64 (dpart + dctx * 2 ^ 4 + wg * 2 ^ 8 + r.ncnt * 2 ^ 12 + r.ncore * 2 ^ 18 + r.nclu * 2 ^ 24
      + r.circ * 2 ^ 30 + r.tree * 2 ^ 42)
    w3 := w64 (slot + use * 2 ^ 22 + job * 2 ^ 32 + jepoch * 2 ^ 48)
    x0 := w64 r.x0
    x1 := w64 r.x1
    data := r.data }

/-! The logical node table (08 R288). -/

def lnPnode (e : W64) : Nat := fld e 0 16
def lnPart (e : W64) : Nat := fld e 16 4
def lnCtx (e : W64) : Nat := fld e 20 3
def lnLive (e : W64) : Bool := e.toNat.testBit 24
def lnDcirc (e : W64) : Nat := fld e 32 12
def lnDcv (e : W64) : Bool := e.toNat.testBit 44

def State.lnt (s : State) (p n : Nat) : W64 := if s.ruined (.node p n) then 0 else tgetD (s.part p).lnt n 0

/-! The opcode map (03 R74): opcodes with an assigned meaning. -/

def opAssigned (op : Nat) : Bool :=
  [0x01, 0x02, 0x03, 0x04, 0x08, 0x09, 0x10, 0x11, 0x12, 0x18, 0x19, 0x1A, 0x1B, 0x1C, 0x1D, 0x20, 0x21, 0x22, 0x23,
   0x28, 0x29, 0x30, 0x31, 0x32, 0x33, 0x34, 0x35, 0x38, 0x39, 0x3A, 0x3B, 0x3C, 0x3D, 0x3E, 0x3F, 0x40, 0x41, 0x42,
   0x43, 0x44, 0x45, 0x46, 0x80, 0x81, 0x82, 0x83, 0x84, 0x85, 0x88, 0x90, 0x91, 0x92, 0x93, 0xA0, 0xB0, 0xB1, 0xB2,
   0xB3, 0xB4, 0xB5, 0xB6, 0xB7, 0xB8, 0xB9, 0xBA, 0xC0, 0xC1, 0xC2, 0xC8, 0xC9, 0xCA].contains op

/-- Whether a function code of an assigned opcode is unassigned (03 R71, R74 and the home of each opcode). -/
def illegalFn (w0 : Nat) : Bool :=
  let op := bits w0 0 8
  let fn8 := bits w0 32 8
  let fn12 := bits w0 20 12
  let alu := fun n => !((n ≤ 0x0D) || (0x10 ≤ n && n ≤ 0x12) || (0x14 ≤ n && n ≤ 0x17))
  match op with
  | 0x02 => alu fn8
  | 0x03 => fn12 ≥ 256 || alu (fn12 % 256)
  | 0x04 | 0x11 | 0x12 | 0x18 | 0x19 | 0x1C | 0x20 | 0x21 | 0x22 | 0x23 => fn12 != 0
  | 0x08 => fn12 ≥ 8
  | 0x09 => fn12 ≥ 4
  | 0x01 | 0x1A | 0x1B | 0x1D | 0x28 | 0x29 => fn8 != 0
  | 0x30 | 0x31 | 0x32 | 0x33 | 0x34 | 0x35 | 0x3D | 0x46 => fn8 != 0
  | 0x38 => fn8 > 6
  | 0x39 => fn8 > 2
  | 0x3A => fn8 > 0x0D
  | 0x3B => fn8 > 0x0A
  | 0x3C => fn8 > 3
  | 0x40 => fn8 > 2
  | 0x45 => fn8 % 16 > 12
  | 0x80 | 0x81 | 0x83 | 0x84 | 0x85 | 0xA0 => fn8 != 0
  | 0x82 => fn8 > 2
  | 0x88 => fn8 > 1
  | 0xB2 => fn8 % 4 ≥ 2
  | _ => false

/-- Whether a first word is unassigned (03 R74). -/
def illegalWord (w0 : Nat) : Bool := !opAssigned (bits w0 0 8) || illegalFn w0

end Sys2Proof.Machine
end

