-- ==== Sys2Proof/WellFormed.lean ====
section
/-! DEFINITION. Well-formed commands: operands that name something the device has (01 R14-R20, 07 R234, 08 R275, R281,
13 R457, 14 R499). -/

namespace Sys2Proof

/-- A packet's data fit its largest payload of 256 B (08 R281, R282). -/
def Packet.wf (k : Packet) : Bool := k.data < 2 ^ 2048

/-- A size class (07 R234). -/
def classWf (c : BitVec 5) : Bool := c.toNat ≤ 22

/-- A DRAM channel (01 R19). -/
def channelWf (c : BitVec 8) : Bool := c.toNat < 192

/-- A scribe: Scribe-B, Scribe-P or Scribe-M (01 R20). -/
def scribeWf (s : BitVec 2) : Bool := s.toNat ≤ 2

/-- A power domain (13 R457). -/
def domainWf (d : BitVec 7) : Bool := d.toNat < 92

/-- A loopback interface: sixteen ports and DynerLink (14 R499). -/
def loopWf (i : BitVec 5) : Bool := i.toNat ≤ 16

/-- A mesh link direction is one of four by its width; a rail is one of ten (13 R454). -/
def railWf (r : BitVec 4) : Bool := r.toNat ≤ 9

/-- A flit carries at most fifteen data slots (08 R275). -/
def slotsWf (l : List Slot) : Bool := l.length ≤ 15

/-- Well-formedness of a command. -/
def Instr.wf : Instr → Bool
  | .dallocAttemptReply p | .returnStoreArrival p | .tmvPortStore p | .rldRequest p | .rstRequest p
  | .postedAtomicRequest p | .fetchAddRequest p | .casRequest p | .multicastStore p | .ackResponse p
  | .dataResponse p | .nakResponse p | .mackResponse p | .packetForward p | .circuitForward p | .regrd p | .regwr p
  | .lntwr p | .notice p | .teardown p | .jobstart p | .mgmtUnknownSub p | .noticeResponse p | .openReport p
  | .rankMessage p => p.wf
  | .chunkUp p b | .chunkDown p b => p.wf && b.all Packet.wf
  | .feRefill _ c => classWf c
  | .poolEnable _ c | .poolEnableDone _ c | .poolDrain _ c | .poolDisable _ c | .poolReclaim _ c
  | .poolReclaimDone _ c => classWf c
  | .dramRefresh c | .refreshCatchup c => channelWf c
  | .watchdogExpiry s | .scribeRestartDone s | .scribeMemoryUe s => scribeWf s
  | .domainWake d | .domainWakeDone d => domainWf d
  | .loopbackDepth i _ | .loopbackRun i _ _ => loopWf i
  | .railFault r _ => railWf r
  | .dataFlit _ _ l => slotsWf l
  | .dbistDone l => l.all (fun e => channelWf e.1)
  | _ => true

end Sys2Proof
end

