-- ==== Sys2Proof/Decode.lean ====
section
/-! DEFINITION. Decoding. No row of the opcode table gives its command a bit pattern, so no word spells a command (log 1). The
instructions of a core have the words of 03 R69-R74: the first word's OP picks the instruction, and `encodeWords` writes the
words of an instruction back. -/

namespace Sys2Proof

open Sys2Proof.Machine

/-- The command that a word spells by the opcode table's bits: the table gives none. -/
def decodeTableWord (_nbits _w : Nat) : Option Instr := none

/-! The first word's fields by form (03 R70, R71). -/

def FormR.of (w : BitVec 64) : FormR :=
  { a := w.extractLsb' 8 6, b := w.extractLsb' 14 6, c := w.extractLsb' 20 6, d := w.extractLsb' 26 6
    fn8 := w.extractLsb' 32 8, fmt := w.extractLsb' 40 4, rsv := w.extractLsb' 44 20 }

def FormI.of (w : BitVec 64) : FormI :=
  { a := w.extractLsb' 8 6, b := w.extractLsb' 14 6, fn12 := w.extractLsb' 20 12, imm := w.extractLsb' 32 32 }

def FormB.of (w : BitVec 64) : FormB :=
  { a := w.extractLsb' 8 6, b := w.extractLsb' 14 6, cond := w.extractLsb' 20 6, d := w.extractLsb' 26 6
    off := w.extractLsb' 32 32 }

def FormV.of (w : BitVec 64) : FormV :=
  { a := w.extractLsb' 8 6, b := w.extractLsb' 14 6, c := w.extractLsb' 20 6, d := w.extractLsb' 26 6
    fn8 := w.extractLsb' 32 8, fmt := w.extractLsb' 40 4, sr := w.extractLsb' 44 1, cnt := w.extractLsb' 45 12
    cr := w.extractLsb' 57 1, rsv := w.extractLsb' 58 6 }

/-- The instruction of an assigned opcode (03 R74); DSEND and DCOMBINE have two forms each, told by FN8 (06 R213, R220, R224,
R225). -/
def decodeOp (c : CoreId) (op : Nat) (w0 w1 : BitVec 64) : Option Instr :=
  let x : FormX := { r := .of w0, w1 }
  match op with
  | 0x01 => some (.nop c (.of w0))
  | 0x02 => some (.alu c (.of w0))
  | 0x03 => some (.alui c (.of w0))
  | 0x04 => some (.lih c (.of w0))
  | 0x08 => some (.ld c (.of w0))
  | 0x09 => some (.st c (.of w0))
  | 0x10 => some (.br c (.of w0))
  | 0x11 => some (.jal c (.of w0))
  | 0x12 => some (.jalr c (.of w0))
  | 0x18 => some (.srd c (.of w0))
  | 0x19 => some (.swr c (.of w0))
  | 0x1A => some (.eret c (.of w0))
  | 0x1B => some (.brk c (.of w0))
  | 0x1C => some (.trap c (.of w0))
  | 0x1D => some (.ifence c (.of w0))
  | 0x20 => some (.cset c (.of w0))
  | 0x21 => some (.cadd c (.of w0))
  | 0x22 => some (.crd c (.of w0))
  | 0x23 => some (.cwait c (.of w0))
  | 0x28 => some (.rfence c (.of w0))
  | 0x29 => some (.bflush c (.of w0))
  | 0x30 => some (.vld c (.of w0))
  | 0x31 => some (.vst c (.of w0))
  | 0x32 => some (.vldx c (.of w0))
  | 0x33 => some (.vstx c (.of w0))
  | 0x34 => some (.vmovx c (.of w0))
  | 0x35 => some (.viota c (.of w0))
  | 0x38 => some (.vfp c (.of w0))
  | 0x39 => some (.vfma c (.of w0))
  | 0x3A => some (.vun c (.of w0))
  | 0x3B => some (.vint c (.of w0))
  | 0x3C => some (.vcmp c (.of w0))
  | 0x3D => some (.vsel c (.of w0))
  | 0x3E => some (.vcvt c (.of w0))
  | 0x3F => some (.vcvtm c (.of w0))
  | 0x40 => some (.vred c (.of w0))
  | 0x41 => some (.scan c (.of w0))
  | 0x42 => some (.smax c (.of w0))
  | 0x43 => some (.topk c (.of w0))
  | 0x44 => some (.sortk c (.of w0))
  | 0x45 => some (.hist c (.of w0))
  | 0x46 => some (.vrand c (.of w0))
  | 0x80 => some (.rld c x)
  | 0x81 => some (.rst c x)
  | 0x82 => some (.ratom c x)
  | 0x83 => some (.ratomF c x)
  | 0x84 => some (.rcas c x)
  | 0x85 => some (.rmcst c x)
  | 0x88 => some (.tdma c x)
  | 0x90 => some (.mmaF c x)
  | 0x91 => some (.mmaS c x)
  | 0x92 => some (.sparsify c x)
  | 0x93 => some (.sparsifyT c x)
  | 0xA0 => some (.bput c x)
  | 0xB0 => some (.dscore c x)
  | 0xB1 => some (.dtopk c x)
  | 0xB2 => some (.dnorm c x)
  | 0xB3 => some (.dhist c x)
  | 0xB4 => some (.dscan c x)
  | 0xB5 => some (.dalloc c x)
  | 0xB7 => some (.dcollect c x)
  | 0xB9 => some (.dcancel c x)
  | 0xBA => some (.dsplit c x)
  | 0xC0 => some (.lopen c x)
  | 0xC1 => some (.lcoll c x)
  | 0xC2 => some (.lclose c x)
  | 0xC8 => some (.gload c x)
  | 0xC9 => some (.gatt c x)
  | 0xCA => some (.gdrain c x)
  | 0xB6 => some (if x.r.fn8.getLsbD 1 then .dsendReturn c x else .dsendDispatch c x)
  | 0xB8 => some (if x.r.fn8.getLsbD 0 then .dcombineSeg c x else .dcombineGate c x)
  | _ => none

/-- The instruction that a core reads from a first word and, for an extended one, its second (03 R69, R74): CORE_ILLEGAL for
every opcode and function code without a meaning, the all-zero word among them. -/
def decodeWords (c : CoreId) (w0 w1 : BitVec 64) : Instr :=
  if illegalWord w0.toNat then .illegalInstruction c w0 w1
  else (decodeOp c (fld w0 0 8) w0 w1).getD (.illegalInstruction c w0 w1)

/-- The words of a core's instruction; none for a command that is no instruction, or whose FN8 is the other form's. -/
def encodeWords (i : Instr) : Option (CoreId × BitVec 64 × BitVec 64) :=
  match i with
  | .nop c w => some (c, w64 (w.w0 0x01), 0)
  | .alu c w => some (c, w64 (w.w0 0x02), 0)
  | .alui c w => some (c, w64 (w.w0 0x03), 0)
  | .lih c w => some (c, w64 (w.w0 0x04), 0)
  | .ld c w => some (c, w64 (w.w0 0x08), 0)
  | .st c w => some (c, w64 (w.w0 0x09), 0)
  | .br c w => some (c, w64 (w.w0 0x10), 0)
  | .jal c w => some (c, w64 (w.w0 0x11), 0)
  | .jalr c w => some (c, w64 (w.w0 0x12), 0)
  | .srd c w => some (c, w64 (w.w0 0x18), 0)
  | .swr c w => some (c, w64 (w.w0 0x19), 0)
  | .eret c w => some (c, w64 (w.w0 0x1A), 0)
  | .brk c w => some (c, w64 (w.w0 0x1B), 0)
  | .trap c w => some (c, w64 (w.w0 0x1C), 0)
  | .ifence c w => some (c, w64 (w.w0 0x1D), 0)
  | .cset c w => some (c, w64 (w.w0 0x20), 0)
  | .cadd c w => some (c, w64 (w.w0 0x21), 0)
  | .crd c w => some (c, w64 (w.w0 0x22), 0)
  | .cwait c w => some (c, w64 (w.w0 0x23), 0)
  | .rfence c w => some (c, w64 (w.w0 0x28), 0)
  | .bflush c w => some (c, w64 (w.w0 0x29), 0)
  | .vld c w => some (c, w64 (w.w0 0x30), 0)
  | .vst c w => some (c, w64 (w.w0 0x31), 0)
  | .vldx c w => some (c, w64 (w.w0 0x32), 0)
  | .vstx c w => some (c, w64 (w.w0 0x33), 0)
  | .vmovx c w => some (c, w64 (w.w0 0x34), 0)
  | .viota c w => some (c, w64 (w.w0 0x35), 0)
  | .vfp c w => some (c, w64 (w.w0 0x38), 0)
  | .vfma c w => some (c, w64 (w.w0 0x39), 0)
  | .vun c w => some (c, w64 (w.w0 0x3A), 0)
  | .vint c w => some (c, w64 (w.w0 0x3B), 0)
  | .vcmp c w => some (c, w64 (w.w0 0x3C), 0)
  | .vsel c w => some (c, w64 (w.w0 0x3D), 0)
  | .vcvt c w => some (c, w64 (w.w0 0x3E), 0)
  | .vcvtm c w => some (c, w64 (w.w0 0x3F), 0)
  | .vred c w => some (c, w64 (w.w0 0x40), 0)
  | .scan c w => some (c, w64 (w.w0 0x41), 0)
  | .smax c w => some (c, w64 (w.w0 0x42), 0)
  | .topk c w => some (c, w64 (w.w0 0x43), 0)
  | .sortk c w => some (c, w64 (w.w0 0x44), 0)
  | .hist c w => some (c, w64 (w.w0 0x45), 0)
  | .vrand c w => some (c, w64 (w.w0 0x46), 0)
  | .rld c w => some (c, w64 (w.r.w0 0x80), w.w1)
  | .rst c w => some (c, w64 (w.r.w0 0x81), w.w1)
  | .ratom c w => some (c, w64 (w.r.w0 0x82), w.w1)
  | .ratomF c w => some (c, w64 (w.r.w0 0x83), w.w1)
  | .rcas c w => some (c, w64 (w.r.w0 0x84), w.w1)
  | .rmcst c w => some (c, w64 (w.r.w0 0x85), w.w1)
  | .tdma c w => some (c, w64 (w.r.w0 0x88), w.w1)
  | .mmaF c w => some (c, w64 (w.r.w0 0x90), w.w1)
  | .mmaS c w => some (c, w64 (w.r.w0 0x91), w.w1)
  | .sparsify c w => some (c, w64 (w.r.w0 0x92), w.w1)
  | .sparsifyT c w => some (c, w64 (w.r.w0 0x93), w.w1)
  | .bput c w => some (c, w64 (w.r.w0 0xA0), w.w1)
  | .dscore c w => some (c, w64 (w.r.w0 0xB0), w.w1)
  | .dtopk c w => some (c, w64 (w.r.w0 0xB1), w.w1)
  | .dnorm c w => some (c, w64 (w.r.w0 0xB2), w.w1)
  | .dhist c w => some (c, w64 (w.r.w0 0xB3), w.w1)
  | .dscan c w => some (c, w64 (w.r.w0 0xB4), w.w1)
  | .dalloc c w => some (c, w64 (w.r.w0 0xB5), w.w1)
  | .dcollect c w => some (c, w64 (w.r.w0 0xB7), w.w1)
  | .dcancel c w => some (c, w64 (w.r.w0 0xB9), w.w1)
  | .dsplit c w => some (c, w64 (w.r.w0 0xBA), w.w1)
  | .lopen c w => some (c, w64 (w.r.w0 0xC0), w.w1)
  | .lcoll c w => some (c, w64 (w.r.w0 0xC1), w.w1)
  | .lclose c w => some (c, w64 (w.r.w0 0xC2), w.w1)
  | .gload c w => some (c, w64 (w.r.w0 0xC8), w.w1)
  | .gatt c w => some (c, w64 (w.r.w0 0xC9), w.w1)
  | .gdrain c w => some (c, w64 (w.r.w0 0xCA), w.w1)
  | .dsendDispatch c w => if w.r.fn8.getLsbD 1 then none else some (c, w64 (w.r.w0 0xB6), w.w1)
  | .dsendReturn c w => if w.r.fn8.getLsbD 1 then some (c, w64 (w.r.w0 0xB6), w.w1) else none
  | .dcombineGate c w => if w.r.fn8.getLsbD 0 then none else some (c, w64 (w.r.w0 0xB8), w.w1)
  | .dcombineSeg c w => if w.r.fn8.getLsbD 0 then some (c, w64 (w.r.w0 0xB8), w.w1) else none
  | _ => none

end Sys2Proof
end

