-- ==== Sys2Proof/Machine/Mesh.lean ====
section
/-! DEFINITION. The mesh: where Reservoir bytes lie (07 R253, R254, R256), the mesh ports and paths (08 R291, R292), the order in which
an output serves packets (08 R306) and the frames of mesh links (10 R388). -/

namespace Sys2Proof.Machine

/-! The object descriptor (07 R253). -/

def dGran (d : Nat) : Nat := bits d 21 27
def dNgran (d : Nat) : Nat := bits d 64 32
def dPolicy (d : Nat) : Nat := bits d 96 2
def dRO (d : Nat) : Bool := bit d 98
def dCkpt (d : Nat) : Bool := bit d 99
def dTier (d i : Nat) : Nat := bits d (104 + 3 * i) 3
def dQuads (d : Nat) : Nat := bits d 128 16
def dBack (d : Nat) : Nat := bits d 192 48
def dBnode (d : Nat) : Nat := bits d 240 16
def dSwin (d : Nat) : Nat := bits d 256 16

def granSize : Nat := 2 ^ 21

/-- The first granule of the port area (07 R241). -/
def portGran : Nat := 2 ^ 27 - 1

def Obj.holds (o : Obj) (g : Nat) : Bool := decide (dGran o.desc ≤ g) && decide (g < dGran o.desc + dNgran o.desc)

/-- The object that maps a granule. -/
def State.objAt (s : State) (p g : Nat) : Option Obj := (s.part p).objs.find? (fun o => o.holds g)

/-- Where a Reservoir byte lives: DRAM or a cluster store on this device, host memory, another node, the staging ring of a
STREAM object, or a STREAM block that has yet to be staged. -/
inductive Home where
  | mem (dram : Bool) (a : Nat)
  | host (a : Nat)
  | node (n off : Nat)
  | ring (p id a : Nat)
  | unstaged (id block : Nat)
  deriving DecidableEq, Repr

def Place.home (pl : Place) (o : Nat) : Home :=
  match pl with
  | .t1 h => .mem false (h * granSize + o)
  | .t2 n => .mem true (n * granSize + o)
  | .t3 a => .host (a + o)
  | .t4 n a => .node n (a + o)

/-- The home of byte `off` of a partition's Reservoir, none where it is not mapped (02 R35, 07 R254, R256). -/
def State.homeOf (s : State) (p off : Nat) : Option Home :=
  let g := off / granSize
  let o := off % granSize
  match s.objAt p g with
  | none => none
  | some ob =>
    if dPolicy ob.desc = 2 then
      let b := (off - dGran ob.desc * granSize) / 65536
      some (if ob.staged.contains b then .ring p ob.id (b * 65536 + off % 65536) else .unstaged ob.id b)
    else
      match (s.part p).migs.find? (fun m => m.gran == g) with
      | some m => some ((if o / 65536 < m.next then m.dst else m.src).home o)
      | none => (tget ob.place (g - dGran ob.desc)).map (fun pl => pl.home o)

/-! Places on the mesh. -/

/-- The physical cluster of a logical one (10 R365). -/
def State.phys (s : State) (p l : Nat) : Nat := (s.part p).clus.getD l 0

/-- The cluster at whose mesh port traffic between cluster n and the router joins (08 R291). -/
def meshPort (n : Nat) : Nat := 8 * (if n / 8 ≤ 3 then 3 else 4) + max 2 (min 5 (n % 8))

/-- The cluster to which the DynerLink port attaches (08 R291). -/
def hostCluster : Nat := 60

/-- The number of a mesh port among the inputs of an output: after the fabric ports 0 to 15, in cluster order (DEDUCED, log 112). -/
def meshInput (c : Nat) : Nat := 16 + (c / 8 - 3) * 4 + (c % 8 - 2)

/-- The input by which the management agent's packets come. -/
def agentInput : Nat := 24

/-- The mesh link by which a packet leaves a cluster for another (10 R388): 0 toward the higher column, 1 the lower column, 2 the
higher row, 3 the lower row; along the mesh row first, or along the column first (08 R292). -/
def firstLink (src dst : Nat) (col : Bool) : Option Nat :=
  let x := if src % 8 < dst % 8 then some 0 else if dst % 8 < src % 8 then some 1 else none
  let y := if src / 8 < dst / 8 then some 2 else if dst / 8 < src / 8 then some 3 else none
  ((if col then y <|> x else x <|> y)).map (fun d => 4 * src + d)

/-- The core or engine that issued an operation, as the context it belongs to. -/
def Owner.loc (o : Owner) : Option Loc :=
  match o with
  | .core l _ => some l
  | .dma l _ _ => some l
  | .ductus _ _ _ l _ _ => some l
  | _ => none

/-- The operation of this device that a request packet carries, while its slot still holds it. -/
def State.opOf (s : State) (k : Packet) : Option Op :=
  if k.snode = s.pnode then (tget s.ops k.slot).filter (fun o => o.use == k.use) else none

/-- The cluster from which an operation enters the mesh: that of a core, its tile DMA or a Ductus engine. -/
def State.srcCluster (s : State) (o : Owner) : Option Nat :=
  match o with
  | .core l _ => some (s.phys l.p l.l)
  | .dma l _ _ => some (s.phys l.p l.l)
  | .ductus n .. => some n
  | _ => none

/-- The cluster on this device where a byte of a partition is served: a core's, a store's, the one above a DRAM channel (07 R264),
the DynerLink port's; none for another node's or where nothing lies. -/
def State.homeCluster (s : State) (p space off : Nat) : Option Nat :=
  if space ≠ 0 then some (s.phys p (bits off 24 6))
  else
    match s.homeOf p off with
    | some (.mem false a) => some (a / granSize / 2)
    | some (.mem true a) => some ((s.dramPlace a).1 / 3)
    | some (.host _) => some hostCluster
    | _ => none

/-- Slots of a channel that wait to leave by a mesh link. -/
def State.linkLoad (s : State) (link vc : Nat) : Nat :=
  listSum (s.mesh.map (fun k => if k.vc == vc && (s.opOf k).any (fun o => !o.crossed && o.way.any (fun w => w.1 == link)) then k.slots
    else 0))

/-- The path of an operation that a cluster sends (08 R292): its first mesh link and whether it goes along the column first. In a
Ruled partition row-first; else as an earlier unacknowledged operation of the same core to the same block; else by the link with more
free credit on its channel, which is the one with less waiting, ties row-first. -/
def State.wayFor (s : State) (p : Nat) (o : Owner) (lnode : Nat) (e : W64) (r : RReq) : Option (Nat × Bool) :=
  match s.srcCluster o with
  | none => none
  | some c =>
    let far := meshPort c
    let dst := if lnPnode e == s.pnode then (s.homeCluster (lnPart e) r.space r.off).getD far else far
    let row := firstLink c dst false
    let col := firstLink c dst true
    let same := s.ops.find? (fun x => s.srcCluster x.2.owner == some c && x.2.owner.loc == o.loc && x.2.lnode == lnode
      && x.2.space == r.space && x.2.off / 256 == r.off / 256)
    let load := fun (l : Option Nat) => (l.map (fun i => s.linkLoad i (2 * r.cls))).getD 0
    let byCol := !(s.part p).ruled && (match same.bind (fun x => x.2.way) with
      | some w => w.2
      | none => decide (load col < load row))
    (if byCol then col else row).map (fun l => (l, byCol))

/-! The order of service (08 R306). -/

/-- Weights of classes 1 to 3 (08 R324). -/
def State.weight (s : State) (c : Nat) : Nat := max 1 (bits (s.rg 0x00D00030) (4 * (c - 1)) 4)

/-- The first element with the least key. -/
def bestBy {α : Type} (key : α → Nat) : List α → Option α
  | [] => none
  | x :: xs =>
    match bestBy key xs with
    | none => some x
    | some y => if key y < key x then some y else some x

/-- The place of an input in the rotation, then of a circuit by its number (08 R306, R326). -/
def turnKey (rot inp : Nat) (circ : Option Nat) : Nat :=
  (inp + 25 - rot % 25) % 25 * 8192 + (circ.map (· + 1)).getD 0

def dropEnt (q : QEnt) : List QEnt → List QEnt
  | [] => []
  | x :: xs => if x = q then xs else x :: dropEnt q xs

/-- Requests and responses take turns; among those whose turn it is, the inputs do. -/
def Arb.turn (a : Arb) (l : List QEnt) : Option QEnt :=
  let mine := l.filter (fun q => q.pkt.vc % 2 == a.rr % 2)
  bestBy (fun q => turnKey a.rot q.inp q.circ) (if mine.isEmpty then l else mine)

/-- The packet an output serves next: C0, then C1 to C3 by their weights, counted in slots; and its turns after. -/
def Arb.pick (a : Arb) (weights : Tbl Nat) (l : List QEnt) : Option (QEnt × Arb) :=
  let of := fun c => l.filter (fun q => q.pkt.cls == c)
  let w := if [1, 2, 3].any (fun c => tgetD a.wrr c 0 != 0 && !(of c).isEmpty) then a.wrr else weights
  let next := fun (t : Tbl Nat) => ({ rr := a.rr + 1, wrr := t, rot := (a.rot + 1) % 25 } : Arb)
  match a.turn (of 0) with
  | some q => some (q, next a.wrr)
  | none => ([1, 2, 3].findSome? (fun c => if tgetD w c 0 = 0 then none else a.turn (of c))).map (fun q =>
      (q, next (tput w q.pkt.cls (tgetD w q.pkt.cls 0 - q.pkt.slots))))

def State.weights (s : State) : Tbl Nat := [1, 2, 3].foldl (fun t c => tput t c (s.weight c)) []

def State.meshQ (s : State) (n : Nat) : MeshPort := tgetD s.mq n {}

def State.setMeshQ (s : State) (n : Nat) (m : MeshPort) : State := { s with mq := tput s.mq n m }

/-! Frames of mesh links (10 R388). -/

/-- The packets that wait at a mesh link, as its queue. -/
def State.atLink (s : State) (link : Nat) : List QEnt :=
  (s.mesh.filter (fun k => (s.opOf k).any (fun o => !o.crossed && o.way.any (fun w => w.1 == link)))).map
    (fun k => { pkt := k, at_ := 0, inp := 0, circ := none })

/-- The partition of a packet of this device. -/
def State.partOf (s : State) (k : Packet) : Option Nat := (s.opOf k).map Op.part

/-- The owner of a slot of a mesh link. -/
def State.meshOwner (s : State) (link i : Nat) : Option Nat :=
  let e := tgetD s.mslot (1024 * link + i) 0
  if e.toNat.testBit 4 then some (fld e 0 4) else none

/-- The slots of a frame from one on: in each the owner's next packet, else the next by R306. A slot carries 256 B of a packet; one of
more takes the slot after it too. The packets carried, and the partitions whose packet went after a slot of theirs (10 R390). -/
def State.linkFrame (s : State) (link : Nat) : Nat → Bool → Arb → List QEnt → List Packet × List Nat × Arb
  | 0, _, a, _ => ([], [], a)
  | n + 1, busy, a, l =>
    if l.isEmpty then ([], [], a)
    else if busy then s.linkFrame link n false a l
    else
      let i := 1023 - n
      let own := (s.meshOwner link i).bind (fun p => l.find? (fun q => s.partOf q.pkt == some p))
      match (match own with
        | some q => some (q, a)
        | none => a.pick s.weights l) with
      | none => ([], [], a)
      | some (q, b) =>
        let late := match own, s.partOf q.pkt with
          | none, some p => if (List.range i).any (fun j => s.meshOwner link j == some p) then [p] else []
          | _, _ => []
        let r := s.linkFrame link n (decide (q.pkt.slots > 16)) b (dropEnt q l)
        (q.pkt :: r.1, late ++ r.2.1, r.2.2)

/-- A frame of a mesh link: the packets that wait there cross it in its slots. -/
def State.serveLink (s : State) (link : Nat) : State :=
  let r := s.linkFrame link 1024 false (tgetD s.marb link {}) (s.atLink link)
  if r.1.isEmpty then s
  else
    let s1 : State := { s with
      marb := tput s.marb link r.2.2
      ops := s.ops.map (fun e => if r.1.any (fun k => k.slot == e.1 && k.use == e.2.use) then (e.1, { e.2 with crossed := true }) else e) }
    if r.2.1.isEmpty then s1 else s1.throttled 1 (link / 4) r.2.1

end Sys2Proof.Machine
end

