-- ==== Sys2Proof/Machine/Ops.lean ====
section
/-! DEFINITION. The operations every family shares: finding the core an instruction issues on, hazards, the issue of an
instruction (03 R92-R97), taking an exception and returning from one (03 R97-R101), arrival counters (02 R51-R54), and
the outstanding-operation table (08 R317). -/

namespace Sys2Proof.Machine

/-! Where an instruction issues. -/

/-- Whether a context's core has been started since it became resident (10 R382). -/
def Ctx.startedAt (x : Ctx) (l k : Nat) : Bool := x.started.contains (64 * l + k)

/-- The core of the resident RUNNING context of the partition that holds the cluster (10 R363, R371). -/
def State.locate (s : State) (c : CoreId) : Option Loc :=
  let clu := c.clu.toNat
  match (List.range 16).find? (fun p => (s.part p).clus.contains clu) with
  | none => none
  | some p =>
    match (s.part p).resident, (s.part p).clus.findIdx? (· == clu) with
    | some x, some l =>
      if (s.ctx p x).st = .running ∧ (s.ctx p x).startedAt l c.core.toNat then some ⟨p, x, l, c.core.toNat⟩ else none
    | _, _ => none

def State.nclu (s : State) (p : Nat) : Nat := (s.part p).clus.length

/-- The logical node number of a context: the lowest live entry of its partition's table that names this device, the
partition and the slot, loaded at LAUNCH (02 R39; DEDUCED, log 12). -/
def State.ownNode (s : State) (p c : Nat) : Nat :=
  match (s.part p).lnt.find? (fun e =>
    lnLive e.2 && lnPnode e.2 == s.pnode && lnPart e.2 == p && lnCtx e.2 == c) with
  | some e => e.1
  | none => 0

/-- What a core's engines know (02 R39, R64). -/
def State.env (s : State) (l : Loc) : Env :=
  let x := s.ctx l.p l.s
  { lnode := x.lnode, lclu := l.l, core := l.k, seed := x.seed.toNat, free := s.free }

/-- Whether a core runs now: its context is RUNNING and it has been started. -/
def State.onCore (s : State) (l : Loc) : Bool :=
  let x := s.ctx l.p l.s
  x.st == .running && (s.part l.p).resident == some l.s && x.startedAt l.l l.k

/-! Arrival counters (02 R51-R53, 03 R82). -/

/-- The condition of CWAIT (02 R53). -/
def waitHolds (c v : W32) : Bool := (c - v).toNat < 2 ^ 31

/-- Codes whose handling is "Stops the core" (03 R96, R100, 08 R322, 09 R358, 12 R421). -/
def stopsCore (code : Nat) : Bool := [cDATAUE, cFABDEAD, cFABTIMEOUT, cLIGRESIDUE, cPOISON].contains code

/-- Whether a pending asynchronous failure must be taken before the next instruction issues (03 R98, R100): the first one
while INH is 0, one that stops the core at any time. -/
def CoreSt.mustTake (c : CoreSt) : Bool := (!c.inh && !c.pend.isEmpty) || c.pend.any (fun f => stopsCore f.code)

/-- The pending failure that is taken now (03 R98, R100): one that stops the core before any other. -/
def CoreSt.taken (c : CoreSt) : Option Fail :=
  match c.pend.find? (fun f => stopsCore f.code) with
  | some f => some f
  | none => if c.inh then none else c.pend.head?

/-- A stalled CWAIT whose condition has come to hold issues (03 R83), unless a failure is to be taken at the boundary
before it (03 R98). -/
def CoreSt.wakeWait (c : CoreSt) : CoreSt :=
  match c.stall with
  | some w =>
    if waitHolds (c.getCnt w.cnt) w.v && !c.mustTake then { c with stall := none, pc := (c.pc + 8) % spadSize } else c
  | none => c

/-- v added to a counter of a core, wherever the core is (02 R52, R56). -/
def State.addCounter (s : State) (l : Loc) (n : Nat) (v : W32) : State := s.setCore l ((s.core l).addCnt n v).wakeWait

/-! Exceptions. -/

/-- The record of a failure at a core (12 R427, R428). -/
def State.coreEvent (s : State) (l : Loc) (f : Fail) (cls : Nat) : Event :=
  { code := f.code, cls, srck := 2, srcid := coreSrc (s.phys l.p l.l) l.k, lnode := (s.ctx l.p l.s).lnode, part := l.p
    ctx := l.s, pv := true, d0 := f.e0, d1 := f.e1, d2 := f.e2, time := s.now }

/-- A core stops with a failure, and its context with it (03 R99, 10 R374). -/
def State.coreStop (s : State) (l : Loc) (f : Fail) : State :=
  let s1 := s.setCore l { s.core l with run := .stopped f.code }
  (s1.logEvent (s1.coreEvent l f 2)).contextStop l.p l.s f.code

/-- A core ends its part of a run (10 R374). -/
def State.coreEnd (s : State) (l : Loc) : State :=
  (s.setCore l { s.core l with run := .ended }).contextEnd l.p l.s

/-- TAKING AN EXCEPTION (03 R99): SW_EPC, SW_ECODE, SW_EINFO0 to 2, INH and ASYNC are set and the core continues at
SW_EVEC. -/
def CoreSt.enter (c : CoreSt) (f : Fail) (async : Bool) : CoreSt :=
  { c with epc := w64 c.pc, ecode := f.code, einfo0 := f.e0, einfo1 := f.e1, einfo2 := f.e2, inh := true
           asyncB := async, pc := c.evec.toNat % spadSize, stall := none }

/-- RETURN FROM AN EXCEPTION (03 R81): INH and MORE cleared, on at SW_EPC. -/
def CoreSt.leave (c : CoreSt) : CoreSt :=
  { c with inh := false, more := 0, pc := c.epc.toNat % spadSize }

/-- Whether a handler may take a code now (03 R99). -/
def CoreSt.handles (c : CoreSt) (code : Nat) : Bool := !stopsCore code && c.evec.toNat != 0 && !c.inh

/-- What an engine's completion reports reaches the core, the free values and the SPARSE_OVF counter (04 R144, R146); a
poisoned operand stops the core (04 R145; log 97). -/
def State.engOut (s : State) (l : Loc) (o : EngOut) : State :=
  let s1 : State := { s.setCore l o.c with free := s.free + o.used }
  let s2 := if o.ovf = 0 then s1
    else s1.countAt (cluBase (s.phys l.p l.l) + 0x8000 + 8 * l.k) cSPARSEOVF o.ovf
  match o.ue with
  | none => s2
  | some u => s2.coreStop l ⟨cDATAUE, w64 u.1, 0, u.2, false⟩

/-- A failure at a core that is taken or stops it (03 R99, R100); TRAP 0 ends the core's part (10 R374). -/
def State.takeFail (s : State) (l : Loc) (f : Fail) (async : Bool) : State :=
  let c := s.core l
  if c.handles f.code then s.setCore l (c.enter f async)
  else if f.code = cTRAP ∧ f.e0 = 0 then s.coreEnd l
  else s.coreStop l f

/-- A synchronous exception (03 R97): earlier instructions complete their local effects, then it is raised. -/
def State.syncExc (s : State) (l : Loc) (code e0 e1 e2 : Nat) : State :=
  let o := drainLocal (s.env l) (s.core l)
  let s1 := s.engOut l o
  if o.ue.isSome then s1 else s1.takeFail l ⟨code, w64 e0, w64 e1, w64 e2, false⟩ false

/-- An asynchronous failure reaches its core (03 R98, R100, 10 R374): kept for the next boundary; counted in MORE and
logged while INH is 1, the first such being kept; a stopping one stops the core at once then; logged only when the core
has already ended its part. -/
def State.asyncFail (s : State) (l : Loc) (code e0 e1 e2 : Nat) : State :=
  let c := s.core l
  let f : Fail := ⟨code, w64 e0, w64 e1, w64 e2, c.inh⟩
  let ended := c.run != .running || (match (s.ctx l.p l.s).st with
    | .free | .idle | .stopped => true
    | _ => false)
  if ended then s.logEvent (s.coreEvent l f (if stopsCore code then 2 else 5))
  else if c.inh then
    if stopsCore code then s.coreStop l f
    else
      let keep := !c.pend.any Fail.late
      let s1 := s.setCore l { c with more := min 255 (c.more + 1), pend := if keep then c.pend ++ [f] else c.pend }
      s1.logEvent (s1.coreEvent l f 5)
  else s.setCore l { c with pend := c.pend ++ [f] }

/-! Hazards (03 R92, R93). -/

/-- A scratchpad range in flight or about to be used: start, length, whether it is written, whether the instruction keeps
it in the tracker after it has issued (03 R93). -/
structure Rng where
  a : Nat
  n : Nat
  w : Bool
  kept : Bool := true
  deriving DecidableEq, Repr

/-- Whether two ranges share a 64 B granule modulo 2^18 and one of them writes it. -/
def Rng.meets (x y : Rng) : Bool :=
  (x.w || y.w) && x.n != 0 && y.n != 0 &&
    (let a := x.a % spadSize / 64 * 64
     let b := y.a % spadSize / 64 * 64
     let m := x.a % spadSize + x.n - a
     let n := y.a % spadSize + y.n - b
     (b + spadSize - a) % spadSize < m || (a + spadSize - b) % spadSize < n)

def Rng.rd (a n : Nat) : Rng := { a, n, w := false }

def Rng.wr (a n : Nat) : Rng := { a, n, w := true }

/-- A range used at issue alone. -/
def Rng.now (a n : Nat) (w : Bool) : Rng := { a, n, w, kept := false }

def wholeSpad (w : Bool) : Rng := { a := 0, n := spadSize, w }

/-- The scratchpad ranges of a vector instruction (05 R157, R163). -/
def VOp.rngs (o : VOp) : List Rng :=
  let f := o.w.fmt.toNat
  let sz := fmtBits f / 8
  let x := o.xv.toNat
  match o.op with
  | 0x30 => [.rd (roundDown (x % spadSize) sz) (o.n * sz)]
  | 0x31 => [.wr (roundDown (x % spadSize) sz) (o.n * sz)]
  | 0x32 => [wholeSpad false]
  | 0x33 => [wholeSpad true]
  | 0x3F =>
    let mf := o.w.fn8.toNat / 16
    let d := 8 * ((o.n * fmtBits mf + 63) / 64)
    [{ a := x, n := d + o.n / 32, w := o.w.fn8.toNat % 2 == 0 }]
  | _ => []

/-- The scratchpad range that a matrix operation writes (04 R119, R124, R139; 03 R105, 05 R182); `img` is the glyph attached
to its array. -/
def MOp.writes (o : MOp) (img : Option Nat) : List Rng :=
  match o.kind with
  | .sparsify | .sparsifyT => o.sparseOut.map (fun r => .wr r.1 r.2)
  | _ =>
    let f := if o.gly then glyOfmt (img.getD 0) else o.ofmt
    let per := if o.ostride = 0 then fmtBits f else o.ostride
    match o.breqs with
    | some rs => rs.map (fun r => .wr r.out (if isMx f then tileSize f else fmtBits f))
    | none => [.wr o.out (if isMx f then tileSize f else (o.nrows - 1) * per + fmtBits f)]

/-- The scratchpad ranges of a matrix operation that waits (04 R124, R143). -/
def MOp.rngs (o : MOp) (img : Option Nat) : List Rng := o.reads.map (fun r => .rd r.1 r.2) ++ o.writes img

/-- The ranges an operation in an array's sets still has in flight (04 R124, R143): those it reads until its last element has
been read. An MMA.F has read every element when it starts (log 97); the elements of an MMA.S are read while no later
instruction of the array streams; those of a SPARSIFY until it is complete. -/
def MAct.rngs (a : MAct) (img : Option Nat) (last : Bool) : List Rng :=
  (if a.op.isSparsify || (a.op.kind == .mmaS && last) then a.op.reads.map (fun r => Rng.rd r.1 r.2) else []) ++ a.op.writes img

/-- The ranges of an array's instructions. -/
def ArrSt.rngs (a : ArrSt) (img : Option Nat) : List Rng :=
  (a.q.map (fun o => o.rngs img)).flatten
    ++ ((a.act.zip (List.range a.act.length)).map (fun e => e.1.rngs img (e.2 + 1 == a.act.length))).flatten

/-- What the open groups of the decode batcher read, and where they will write (03 R103, R105). -/
def BGroup.reads (g : BGroup) : List Rng := ((g.op 0).reads).map (fun r => .rd r.1 r.2)

def BGroup.writes (g : BGroup) (img : Option Nat) : List Rng := (g.op 0).writes img

/-- The range a tile DMA transfer holds (03 R93). -/
def dmaRng (desc : Nat) (store : Bool) : Rng :=
  let rows := bits desc 80 12 + 1
  let rb := bits desc 96 32
  let st := bits desc 160 18
  { a := bits desc 128 18, n := min spadSize ((rows - 1) * st + rb), w := !store }

/-- Whether an operation was issued by a core itself. -/
def Owner.isCore (o : Owner) (l : Loc) : Bool :=
  match o with
  | .core m _ => m == l
  | _ => false

def Owner.isDma (o : Owner) (l : Loc) : Bool :=
  match o with
  | .dma m _ _ => m == l
  | _ => false

/-- The ranges a core has in flight (03 R93). -/
def State.inflight (s : State) (l : Loc) : List Rng :=
  let c := s.core l
  (c.vq.map VOp.rngs).flatten
    ++ ((List.range 4).map (fun i => (c.arr i).rngs (c.drainGlyph i))).flatten
    ++ c.dmas.map (fun d => dmaRng d.desc d.store)
    ++ (s.ops.filterMap (fun e =>
      match e.2.owner, e.2.dest with
      | .core m _, .spad _ a n => if m = l then some (.wr a n) else none
      | _, _ => none))

/-- The ranges of the requests that wait in a core's batcher: instructions that have issued but whose group has not
(03 R33, R93, R105). They hold no place of the tracker's 32 until their group issues (DESIGN CHOICE, log 100). -/
def CoreSt.batchRngs (c : CoreSt) : List Rng :=
  (c.batch.map (fun g => g.reads ++ g.writes (c.drainGlyph g.arr))).flatten

/-- Whether an instruction that uses ranges rs must wait (03 R93): an overlap with a write, or a tracker without room for
the ranges it keeps. -/
def State.hazard (s : State) (l : Loc) (rs : List Rng) : Bool :=
  let fl := s.inflight l
  let keep := rs.filter Rng.kept
  rs.any (fun r => (fl ++ (s.core l).batchRngs).any r.meets) || (!keep.isEmpty && decide (fl.length + keep.length > 32))

/-- A write of [a, a + n) clears the poison of the words it covers whole (12 R420). -/
def CoreSt.unpoison (c : CoreSt) (a n : Nat) : CoreSt := c.clean [(a, n)]

/-! Issue. -/

/-- What the body of an instruction answers: it stalls, fails a check (code and detail words), names a dead node
(08 R288), or has its effect. -/
inductive Iss where
  | stall
  | exc (code e0 e1 : Nat)
  | dead (lnode space off : Nat)
  | eff (s : State)

/-- A register that is still pending, or poisoned, among those an instruction names (03 R87, R92, 12 R420). -/
def CoreSt.pendingAny (c : CoreSt) (rs : List Nat) : Bool := rs.any (fun r => c.xPend.contains r)

def CoreSt.poisonReg (c : CoreSt) (rs : List Nat) : Option Nat := rs.find? (fun r => c.xPoison.contains r)

/-- CORE_DATA_UE for a poisoned register or scratchpad word that an instruction read (03 R96, R101). -/
def CoreSt.dataUe (c : CoreSt) (rs : List Nat) (ranges : List (Nat × Nat)) : Option (Nat × Nat) :=
  match c.poisonReg rs with
  | some r => some (2 ^ 63 + r, 0)
  | none => (ranges.findSome? (fun r => c.poisonIn r.1 r.2)).map (fun a => (a, 0))

/-- The poisoned word that the fetch of n bytes meets: one of the instruction, or the program counter itself, whose fetch address it
is then (03 R96, R101; 10 R380). -/
def CoreSt.fetchBad (c : CoreSt) (n : Nat) : Option Nat := if c.ctlPoison then some (c.pc % spadSize) else c.poisonIn c.pc n

/-- An instruction at issue on a core (03 R92, R96-R98): fetch checks first, then the body. Where no core runs there, or
the core waits, nothing happens (log 2). -/
def State.issue (s : State) (c : CoreId) (w0 : Nat) (ext : Bool) (body : Loc → CoreSt → Iss) : State :=
  if s.plat.power ≠ .running then s
  else
    match s.locate c with
    | none => s
    | some l =>
      let cs := s.core l
      if cs.run ≠ .running || cs.stall.isSome || cs.mustTake then s
      else if cs.pc % 8 ≠ 0 || (ext && cs.pc % 16 ≠ 0) then s.syncExc l cALIGN 0 0 w0
      else if (cs.fetchBad (if ext then 16 else 8)).isSome then
        s.syncExc l cDATAUE ((cs.fetchBad (if ext then 16 else 8)).getD 0) 0 0
      else
        match body l cs with
        | .stall => s
        | .exc code e0 e1 => s.syncExc l code e0 e1 w0
        | .dead n sp off => (s.deadNode l.p n).syncExc l cFABDEAD (n + sp * 2 ^ 16) off cs.pc
        | .eff t => t

/-- A core with a new program counter. -/
def CoreSt.goto (c : CoreSt) (pc : Nat) : CoreSt := { c with pc := pc % spadSize }

/-- The core's state after an instruction of n bytes. -/
def CoreSt.adv (c : CoreSt) (n : Nat) : CoreSt := c.goto (c.pc + n)

/-- A body that checks, reads registers rs and ranges, uses the tracked ranges, and then acts (03 R96); `dead` is the
check of the logical node table, between the alignment checks and the data. -/
def State.checkedDead (s : State) (l : Loc) (cs : CoreSt) (errs : List (Bool × Nat)) (dead : Option Iss)
    (rs : List Nat) (ranges : List (Nat × Nat)) (track : List Rng) (act : Unit → Iss) : Iss :=
  if cs.pendingAny rs then .stall
  else if s.hazard l track then .stall
  else
    match firstErr errs with
    | some code => .exc code 0 0
    | none =>
      match dead with
      | some i => i
      | none =>
        match cs.dataUe rs ranges with
        | some e => .exc cDATAUE e.1 e.2
        | none => act ()

def State.checked (s : State) (l : Loc) (cs : CoreSt) (errs : List (Bool × Nat)) (rs : List Nat)
    (ranges : List (Nat × Nat)) (track : List Rng) (act : Unit → Iss) : Iss :=
  s.checkedDead l cs errs none rs ranges track act

/-! The outstanding-operation table (08 R317). -/

/-- The lowest slot that neither holds an operation nor stays unused. -/
def freeSlotGo (used : List Nat) : Nat → Nat → Nat
  | 0, i => i
  | n + 1, i => if used.contains i then freeSlotGo used n (i + 1) else i

def State.freeSlot (s : State) : Nat :=
  let used := s.ops.map Prod.fst ++ s.quar.map Prod.fst
  freeSlotGo used used.length 0

def State.slotsFull (s : State) : Bool := s.ops.length + s.quar.length ≥ 4194304

/-- An operation sent (02 R41, 08 R282, R317): a slot taken, its use count advanced, its packet on the mesh. `e` is its
logical node entry; a multicast goes to node 0. -/
def State.send (s : State) (p : Nat) (owner : Owner) (dest : Dest) (lnode : Nat) (e : W64) (r : RReq) : State :=
  let sl := s.freeSlot
  let u := (tgetD s.use sl 0 + 1) % 1024
  let k := r.packet s.srcEpoch s.pnode (if r.ptype = 6 then 0 else lnPnode e) (lnPart e) (lnCtx e) (s.wg p) sl u
    (s.job p) (s.jepoch p)
  { s with
    ops := tput s.ops sl
      { use := u, owner, dest, part := p, lnode, space := r.space, off := r.off, pnode := lnPnode e, epoch := s.srcEpoch
        tick := s.now, circ := none, way := s.wayFor p owner lnode e r }
    use := tput s.use sl u
    mesh := s.mesh ++ [k] }

/-- The operation just sent from a slot carries poisoned data (12 R420), noted under its TID. -/
def State.markSent (s : State) (sl : Nat) : State :=
  { s with meshPoison := tput s.meshPoison (sl + tgetD s.use sl 0 * 2 ^ 22) 1 }

/-- Whether a logical node is this device (02 R38). -/
def State.isOwn (s : State) (e : W64) : Bool := lnPnode e == s.pnode

/-- A core's own operations in flight, and those of its tile DMA (03 R75 SW_INFLIGHT, 02 R48). -/
def State.coreOps (s : State) (l : Loc) : Nat := (s.ops.filter (fun e => e.2.owner.isCore l)).length

def State.dmaOps (s : State) (l : Loc) : Nat := (s.ops.filter (fun e => e.2.owner.isDma l)).length

/-- RFENCE completes when nothing earlier of the core is in flight (02 R47). -/
def State.fenceCheck (s : State) (l : Loc) : State :=
  let c := s.core l
  if c.fence && s.coreOps l == 0 && c.dmas.isEmpty then s.setCore l { c with fence := false } else s

end Sys2Proof.Machine
end

