-- ==== Sys2Proof/Machine/Scalar.lean ====
section
/-! DEFINITION. Scalar instructions (03 R74-R81): arithmetic, scratchpad access, branches, state words, exceptions. -/

namespace Sys2Proof.Machine

/-- The ALU operations (03 R76); an unassigned code is refused before. -/
def aluFn (code : Nat) (a b : W64) : W64 :=
  match code with
  | 0x00 => a + b
  | 0x01 => a - b
  | 0x02 => a &&& b
  | 0x03 => a ||| b
  | 0x04 => a ^^^ b
  | 0x05 => a <<< fld b 0 6
  | 0x06 => a >>> fld b 0 6
  | 0x07 => a.sshiftRight (fld b 0 6)
  | 0x08 => if a.slt b then 1 else 0
  | 0x09 => if a.ult b then 1 else 0
  | 0x0A => if b.slt a then b else a
  | 0x0B => if a.slt b then b else a
  | 0x0C => if b.ult a then b else a
  | 0x0D => if a.ult b then b else a
  | 0x10 => a * b
  | 0x11 => w64 (wrap (a.toInt * b.toInt / ((2 ^ 64 : Nat) : Int)) 64)
  | 0x12 => w64 (a.toNat * b.toNat / 2 ^ 64)
  | 0x14 => if b = 0 then -1 else w64 (wrap (a.toInt.tdiv b.toInt) 64)
  | 0x15 => if b = 0 then -1 else w64 (a.toNat / b.toNat)
  | 0x16 => if b = 0 then a else w64 (wrap (a.toInt.tmod b.toInt) 64)
  | _ => if b = 0 then a else w64 (a.toNat % b.toNat)

/-- The whole tail of a form R instruction but FN8 is reserved where FMT is not used (03 R71, log 4). -/
def FormR.tailRsv (w : FormR) : Bool := w.fmt != 0 || w.rsv != 0

/-- Every field of form R but the opcode and FN8 is zero. -/
def FormR.allRsv (w : FormR) : Bool := w.a != 0 || w.b != 0 || w.c != 0 || w.d != 0 || w.fmt != 0 || w.rsv != 0

/-- A form R instruction that uses no field (03 R71): the illegal and reserved checks. -/
def bareErrs (op : Nat) (w : FormR) : List (Bool × Nat) :=
  [(illegalFn (FormR.w0 op w), cILLEGAL), (FormR.allRsv w, cRESFIELD)]

/-- NOP (03 R74). -/
def execNop (c : CoreId) (w : FormR) (s : State) : Host.Outcome State Fault Refusal :=
  .next (s.issue c (w.w0 0x01) false (fun l cs =>
    s.checked l cs (bareErrs 0x01 w) [] [] [] (fun _ => .eff (s.setCore l (cs.adv 8)))))

/-- ALU (03 R76). -/
def execAlu (c : CoreId) (w : FormR) (s : State) : Host.Outcome State Fault Refusal :=
  .next (s.issue c (w.w0 0x02) false (fun l cs =>
    if cs.xPend.contains w.a.toNat then .stall
    else s.checked l cs [(illegalFn (w.w0 0x02), cILLEGAL), (w.d != 0 || FormR.tailRsv w, cRESFIELD)]
      [w.b.toNat, w.c.toNat] [] [] (fun _ =>
        .eff (s.setCore l ((cs.setX w.a.toNat
          (aluFn w.fn8.toNat (cs.getX w.b.toNat) (cs.getX w.c.toNat))).adv 8)))))

/-- ALUI (03 R76). -/
def execAlui (c : CoreId) (w : FormI) (s : State) : Host.Outcome State Fault Refusal :=
  .next (s.issue c (w.w0 0x03) false (fun l cs =>
    if cs.xPend.contains w.a.toNat then .stall
    else s.checked l cs [(illegalFn (w.w0 0x03), cILLEGAL)] [w.b.toNat] [] [] (fun _ =>
        .eff (s.setCore l ((cs.setX w.a.toNat
          (aluFn w.fn12.toNat (cs.getX w.b.toNat) (w.imm.signExtend 64))).adv 8)))))

/-- LIH (03 R77). -/
def execLih (c : CoreId) (w : FormI) (s : State) : Host.Outcome State Fault Refusal :=
  .next (s.issue c (w.w0 0x04) false (fun l cs =>
    s.checked l cs [(illegalFn (w.w0 0x04), cILLEGAL), (w.b != 0, cRESFIELD)] [w.a.toNat] [] [] (fun _ =>
      .eff (s.setCore l ((cs.setX w.a.toNat
        (w64 (w.imm.toNat * 2 ^ 32 + fld (cs.getX w.a.toNat) 0 32))).adv 8)))))

/-- Access size of LD and ST (03 R78). -/
def accSize (fn : Nat) : Nat := 2 ^ (fn % 4)

/-- The scratchpad address of LD and ST: wrapped, then rounded down (03 R78). -/
def accAddr (x : W64) (imm : BitVec 32) (sz : Nat) : Nat := roundDown (immAdd x imm % spadSize) sz

/-- The value LD gives. -/
def ldValue (fn v : Nat) : W64 := if bit fn 2 then w64 (wrap (sgn v (8 * accSize fn)) 64) else w64 v

/-- LD (03 R78). -/
def execLd (c : CoreId) (w : FormI) (s : State) : Host.Outcome State Fault Refusal :=
  .next (s.issue c (w.w0 0x08) false (fun l cs =>
    let sz := accSize w.fn12.toNat
    let ad := accAddr (cs.getX w.b.toNat) w.imm sz
    if cs.xPend.contains w.a.toNat then .stall
    else s.checked l cs [(illegalFn (w.w0 0x08), cILLEGAL)] [w.b.toNat] [(ad, sz)] [.now ad sz false] (fun _ =>
      .eff (s.setCore l ((cs.setX w.a.toNat (ldValue w.fn12.toNat (sread cs.spad ad sz))).adv 8)))))

/-- ST (03 R78). -/
def execSt (c : CoreId) (w : FormI) (s : State) : Host.Outcome State Fault Refusal :=
  .next (s.issue c (w.w0 0x09) false (fun l cs =>
    let sz := accSize w.fn12.toNat
    let ad := accAddr (cs.getX w.b.toNat) w.imm sz
    s.checked l cs [(illegalFn (w.w0 0x09), cILLEGAL)] [w.a.toNat, w.b.toNat] [] [.now ad sz true] (fun _ =>
      .eff (s.setCore l (({ cs with spad := swrite cs.spad ad sz (cs.getX w.a.toNat).toNat } : CoreSt).unpoison ad sz
        |>.adv 8)))))

/-- The condition of BR (03 R79). -/
def brHolds (cond : Nat) (a b : W64) : Bool :=
  match cond with
  | 0 => a == b
  | 1 => a != b
  | 2 => a.slt b
  | 3 => !a.slt b
  | 4 => a.ult b
  | _ => !a.ult b

/-- PC + 8 times a signed offset, modulo 2^18 (03 R79). -/
def brTarget (pc : Nat) (off : BitVec 32) : Nat := wrap (pc + 8 * off.toInt) 18

/-- BR (03 R79); reserved COND values are reserved-field errors (DEDUCED, log 5). -/
def execBr (c : CoreId) (w : FormB) (s : State) : Host.Outcome State Fault Refusal :=
  .next (s.issue c (w.w0 0x10) false (fun l cs =>
    s.checked l cs [(w.d != 0 || decide (w.cond.toNat > 5), cRESFIELD)] [w.a.toNat, w.b.toNat] [] [] (fun _ =>
      .eff (s.setCore l (if brHolds w.cond.toNat (cs.getX w.a.toNat) (cs.getX w.b.toNat)
        then cs.goto (brTarget cs.pc w.off) else cs.adv 8)))))

/-- JAL (03 R79). -/
def execJal (c : CoreId) (w : FormI) (s : State) : Host.Outcome State Fault Refusal :=
  .next (s.issue c (w.w0 0x11) false (fun l cs =>
    if cs.xPend.contains w.a.toNat then .stall
    else s.checked l cs [(illegalFn (w.w0 0x11), cILLEGAL), (w.b != 0, cRESFIELD)] [] [] [] (fun _ =>
      .eff (s.setCore l ((cs.setX w.a.toNat (w64 (cs.pc + 8))).goto (brTarget cs.pc w.imm))))))

/-- JALR (03 R79). -/
def execJalr (c : CoreId) (w : FormI) (s : State) : Host.Outcome State Fault Refusal :=
  .next (s.issue c (w.w0 0x12) false (fun l cs =>
    let t := immAdd (cs.getX w.b.toNat) w.imm % spadSize
    if cs.xPend.contains w.a.toNat then .stall
    else s.checked l cs [(illegalFn (w.w0 0x12), cILLEGAL), (t % 8 != 0, cALIGN)] [w.b.toNat] [] [] (fun _ =>
      .eff (s.setCore l ((cs.setX w.a.toNat (w64 (cs.pc + 8))).goto t)))))

/-- The state word at an index, none for an index the table does not list (03 R75). -/
def State.readSw (s : State) (l : Loc) (idx : Nat) : Option Nat :=
  let c := s.core l
  match idx with
  | 0x000 => some ((s.ctx l.p l.s).lnode % 2 ^ 16)
  | 0x001 => some l.l
  | 0x002 => some l.k
  | 0x003 => some (s.nclu l.p)
  | 0x004 => some (b2n (s.part l.p).ruled)
  | 0x005 => some s.now
  | 0x006 => some (s.coreOps l + s.dmaOps l * 2 ^ 16)
  | 0x010 => some c.evec.toNat
  | 0x011 => some c.epc.toNat
  | 0x012 => some c.ecode
  | 0x013 => some c.einfo0.toNat
  | 0x014 => some c.einfo1.toNat
  | 0x015 => some c.einfo2.toNat
  | 0x016 => some (estat c)
  | 0x017 => some c.escratch.toNat
  | 0x020 => some c.batwait
  | _ => none

/-- A write of a state word whose access is RW (03 R75). -/
def CoreSt.writeSw (c : CoreSt) (idx : Nat) (v : W64) : Option CoreSt :=
  match idx with
  | 0x010 => some { c with evec := w64 (fld v 3 15 * 8) }
  | 0x011 => some { c with epc := w64 (fld v 0 18) }
  | 0x017 => some { c with escratch := v }
  | 0x020 => some { c with batwait := fld v 0 24 }
  | _ => none

/-- SRD (03 R75). -/
def execSrd (c : CoreId) (w : FormI) (s : State) : Host.Outcome State Fault Refusal :=
  .next (s.issue c (w.w0 0x18) false (fun l cs =>
    let v := s.readSw l w.imm.toNat
    if cs.xPend.contains w.a.toNat then .stall
    else s.checked l cs [(illegalFn (w.w0 0x18) || v.isNone, cILLEGAL), (w.b != 0, cRESFIELD)] [] [] [] (fun _ =>
      .eff (s.setCore l ((cs.setX w.a.toNat (w64 (v.getD 0))).adv 8)))))

/-- SWR: the data register is field A (03 R71, R75). -/
def execSwr (c : CoreId) (w : FormI) (s : State) : Host.Outcome State Fault Refusal :=
  .next (s.issue c (w.w0 0x19) false (fun l cs =>
    let t := cs.writeSw w.imm.toNat (cs.getX w.a.toNat)
    s.checked l cs [(illegalFn (w.w0 0x19) || t.isNone, cILLEGAL), (w.b != 0, cRESFIELD)] [w.a.toNat] [] [] (fun _ =>
      .eff (s.setCore l ((t.getD cs).adv 8)))))

/-- ERET (03 R81). -/
def execEret (c : CoreId) (w : FormR) (s : State) : Host.Outcome State Fault Refusal :=
  .next (s.issue c (w.w0 0x1A) false (fun l cs =>
    s.checked l cs [(illegalFn (w.w0 0x1A) || !cs.inh, cILLEGAL), (FormR.allRsv w, cRESFIELD)] [] [] [] (fun _ =>
      .eff (s.setCore l cs.leave))))

/-- BRK (03 R81). -/
def execBrk (c : CoreId) (w : FormR) (s : State) : Host.Outcome State Fault Refusal :=
  .next (s.issue c (w.w0 0x1B) false (fun l cs =>
    s.checked l cs (bareErrs 0x1B w) [] [] [] (fun _ => .exc cBREAK 0 0)))

/-- TRAP (03 R81, R101). -/
def execTrap (c : CoreId) (w : FormI) (s : State) : Host.Outcome State Fault Refusal :=
  .next (s.issue c (w.w0 0x1C) false (fun l cs =>
    s.checked l cs [(illegalFn (w.w0 0x1C), cILLEGAL), (w.a != 0 || w.b != 0 || fld w.imm 16 16 != 0, cRESFIELD)]
      [] [] [] (fun _ => .exc cTRAP (fld w.imm 0 16) 0)))

/-- IFENCE (03 R80): the fetched instructions it discards are not state here (log 6). -/
def execIfence (c : CoreId) (w : FormR) (s : State) : Host.Outcome State Fault Refusal :=
  .next (s.issue c (w.w0 0x1D) false (fun l cs =>
    s.checked l cs (bareErrs 0x1D w) [] [] [] (fun _ => .eff (s.setCore l (cs.adv 8)))))

/-- ILLEGAL_INSTRUCTION: an unassigned opcode or function code (03 R74); any other word is not this event. -/
def execIllegalInstruction (c : CoreId) (w0 _w1 : BitVec 64) (s : State) : Host.Outcome State Fault Refusal :=
  .next (s.issue c w0.toNat (w0.toNat.testBit 7) (fun _ _ =>
    if illegalWord w0.toNat then .exc cILLEGAL 0 0 else .stall))

end Sys2Proof.Machine
end

