-- ==== Sys2Proof/Machine/Counters.lean ====
section
/-! DEFINITION. Arrival-counter instructions (03 R82, R83), the fence (03 R88) and asynchronous exceptions (03 R98). -/

namespace Sys2Proof.Machine

/-- CSET (03 R82). -/
def execCset (c : CoreId) (w : FormI) (s : State) : Host.Outcome State Fault Refusal :=
  .next (s.issue c (w.w0 0x20) false (fun l cs =>
    s.checked l cs [(illegalFn (w.w0 0x20), cILLEGAL)] [w.b.toNat] [] [] (fun _ =>
      .eff (s.setCore l (({ cs with cnt := tput cs.cnt w.a.toNat ((cs.getX w.b.toNat).setWidth 32), cntPoison := cs.cntPoison.filter (· != w.a.toNat) } : CoreSt).adv 8)))))

/-- An instruction that reads a poisoned counter raises CORE_DATA_UE, naming the counter as the register (03 R96, R101; 12 R419). -/
def CoreSt.readsCnt (c : CoreSt) (i : Nat) (act : Iss) : Iss := if c.cntPoison.contains i then .exc cDATAUE (2 ^ 63 + i) 0 else act

/-- CADD (03 R82). -/
def execCadd (c : CoreId) (w : FormI) (s : State) : Host.Outcome State Fault Refusal :=
  .next (s.issue c (w.w0 0x21) false (fun l cs =>
    s.checked l cs [(illegalFn (w.w0 0x21), cILLEGAL)] [w.b.toNat] [] [] (fun _ =>
      cs.readsCnt w.a.toNat <| .eff (s.setCore l ((cs.addCnt w.a.toNat ((cs.getX w.b.toNat).setWidth 32 + w.imm)).adv 8)))))

/-- CRD: field B is the destination (03 R82). -/
def execCrd (c : CoreId) (w : FormI) (s : State) : Host.Outcome State Fault Refusal :=
  .next (s.issue c (w.w0 0x22) false (fun l cs =>
    if cs.xPend.contains w.b.toNat then .stall
    else s.checked l cs [(illegalFn (w.w0 0x22), cILLEGAL)] [] [] [] (fun _ =>
      cs.readsCnt w.a.toNat <| .eff (s.setCore l ((cs.setX w.b.toNat ((cs.getCnt w.a.toNat).setWidth 64)).adv 8)))))

/-- CWAIT (02 R53, 03 R83): it issues when its condition holds, and otherwise starts to stall. -/
def execCwait (c : CoreId) (w : FormI) (s : State) : Host.Outcome State Fault Refusal :=
  .next (s.issue c (w.w0 0x23) false (fun l cs =>
    s.checked l cs [(illegalFn (w.w0 0x23), cILLEGAL)] [w.b.toNat] [] [] (fun _ =>
      let v := (cs.getX w.b.toNat).setWidth 32
      cs.readsCnt w.a.toNat <| if waitHolds (cs.getCnt w.a.toNat) v then .eff (s.setCore l (cs.adv 8))
      else
        let st : CStall := { cnt := w.a.toNat, v, start := s.now, tmo := w.imm.toNat, w0 := w64 (w.w0 0x23) }
        .eff (s.setCore l { cs with stall := some st }))))

/-- A time-driven event says that its tick has come: the timebase stands there at least (log 8). -/
def State.reach (s : State) (t : Nat) : State :=
  if s.plat.tbRun && s.plat.tb < t then { s with plat := { s.plat with tb := t } } else s

/-- CORE_WAIT_TIMEOUT: a stalled CWAIT with a timeout has waited for it (03 R83, R101). -/
def execCoreWaitTimeout (c : CoreId) (s : State) : Host.Outcome State Fault Refusal :=
  .next (match s.locate c with
    | none => s
    | some l =>
      let cs := s.core l
      match cs.stall with
      | none => s
      | some w =>
        if w.tmo = 0 || cs.run ≠ .running || cs.mustTake || s.plat.power ≠ .running then s
        else
          let s1 := s.reach (w.start + w.tmo)
          s1.syncExc l cWAIT w.cnt (cs.getCnt w.cnt).toNat w.w0.toNat)

/-- RFENCE (02 R47, 03 R88): only the core's later remote instructions wait behind it. -/
def execRfence (c : CoreId) (w : FormR) (s : State) : Host.Outcome State Fault Refusal :=
  .next (s.issue c (w.w0 0x28) false (fun l cs =>
    s.checked l cs (bareErrs 0x28 w) [] [] [] (fun _ =>
      .eff ((s.setCore l (({ cs with fence := true } : CoreSt).adv 8)).fenceCheck l))))

/-- ASYNC_EXCEPTION_TAKE: a pending failure is taken at the boundary (03 R98-R100): one that stops the core first, else the
first that arrived. -/
def execAsyncExceptionTake (c : CoreId) (s : State) : Host.Outcome State Fault Refusal :=
  .next (match s.locate c with
    | none => s
    | some l =>
      let cs := s.core l
      match cs.taken with
      | none => s
      | some f =>
        if cs.run ≠ .running || s.plat.power ≠ .running then s
        else
          let s1 := s.setCore l { cs with pend := cs.pend.erase f, stall := none }
          s1.takeFail l { f with late := false } true)

end Sys2Proof.Machine
end

