-- ==== Sys2Proof/Machine/Remote.lean ====
section
/-! DEFINITION. Remote instructions and the tile DMA (02 R40-R48, 03 R84-R91). -/

namespace Sys2Proof.Machine

/-- An offset with a reserved space, bits above the implemented ones, or a non-zero reserved field (02 R34, R37, R40). -/
def offsetBad (space off : Nat) : Bool :=
  space == 3 || decide (off ≥ 2 ^ 48)
    || (space == 1 && bits off 30 18 != 0)
    || (space == 2 && (bits off 30 18 != 0 || bits off 6 12 != 0))

/-- On the issuing device itself the logical cluster, and the notify cluster, are checked at issue (03 R86). -/
def State.ownClusterBad (s : State) (e : W64) (space off : Nat) (nt : Bool) (nclu : Nat) : Bool :=
  let n := s.nclu (lnPart e)
  lnLive e && s.isOwn e && ((space != 0 && decide (bits off 24 6 ≥ n)) || (nt && decide (nclu ≥ n)))

/-- Alignment of a load or store of n bytes (02 R42). -/
def blockBad (off n : Nat) : Bool := off % 8 != 0 || decide (off % 256 + n > 256)

/-- Bytes of an atomic element type (02 R43, 03 R84): INT32, INT64, FP32, BF16. -/
def atomBytes (t : Nat) : Nat :=
  match t with
  | 0 => 4
  | 1 => 8
  | 2 => 4
  | _ => 2

def atomBad (space off t : Nat) : Bool := space != 2 && off % atomBytes t != 0

/-- Reserved fields of the second word that depend on others (03 R84): the notify fields without NT, CIRC outside C1,
class 0b11. -/
def w1Rsv (w : W64) : Bool :=
  rRSV w != 0 || rCLASS w == 3 || (rCLASS w != 1 && rCIRC w != 0)
    || (!rNT w && (rNCNT w != 0 || rNCORE w != 0 || rNCLU w != 0))

/-- An earlier operation of the core or of its tile DMA to the same block is unacknowledged under the other epoch (08 R296, 03
R91). -/
def State.flipWait (s : State) (l : Loc) (lnode space off : Nat) : Bool :=
  s.ops.any (fun e => (e.2.owner.isCore l || e.2.owner.isDma l) && e.2.lnode == lnode && e.2.space == space && e.2.off / 256 == off / 256
    && e.2.epoch != s.srcEpoch)

/-- A Ruled partition's operation that leaves the device travels on its node's default circuit (08 R305). -/
def State.onCircuit (s : State) (p : Nat) (e : W64) (r : RReq) : RReq :=
  if (s.part p).ruled && !s.isOwn e && r.cls != 1 && r.ptype != 6 && lnDcv e then { r with cls := 1, circ := lnDcirc e }
  else r

/-- An operation of a partition sent, on its circuit where it needs one. It waits while no slot is free (08 R317). -/
def State.sendOn (s : State) (p : Nat) (o : Owner) (d : Dest) (lnode : Nat) (r : RReq) : State :=
  let e := if r.ptype = 6 then 0 else s.lnt p lnode
  if s.slotsFull then { s with waitq := s.waitq ++ [{ part := p, owner := o, dest := d, lnode, req := r }] }
  else s.send p o d lnode e (s.onCircuit p e r)

/-- Fields common to the remote instructions (03 R84). -/
def w1Req (w : W64) (ptype off : Nat) : RReq :=
  { ptype, cls := wireClass (rCLASS w), size := rSZ w, off, space := rSPACE w, atype := rATYPE w
    nt := rNT w, ncnt := rNCNT w, ncore := rNCORE w, nclu := rNCLU w, circ := rCIRC w }

/-- What a remote instruction may have to wait for (02 R47, R48, 08 R296, R317). -/
def State.remoteStall (s : State) (l : Loc) (cs : CoreSt) (lnode space off : Nat) : Bool :=
  cs.fence || decide (s.coreOps l ≥ 256) || s.slotsFull || s.flipWait l lnode space off

/-- A remote instruction at issue (03 R86): reserved fields, then space and offset, alignment, the node table. -/
def State.remote (s : State) (c : CoreId) (op : Nat) (w : FormX) (rsv : Bool) (alignBad : Nat → Bool)
    (srcs : List Nat) (ranges : CoreSt → List (Nat × Nat)) (track : CoreSt → List Rng) (dst : Option Nat)
    (mk : Loc → CoreSt → Nat → RReq) (dest : Loc → CoreSt → Dest) : State :=
  let w0 := w.r.w0 op
  s.issue c w0 true (fun l cs =>
    let node := fld (cs.getX w.r.b.toNat) 0 16
    let off := (cs.getX w.r.c.toNat).toNat
    let sp := rSPACE w.w1
    let e := s.lnt l.p node
    if s.remoteStall l cs node sp off || (match dst with
      | some r => cs.xPend.contains r
      | none => false) then .stall
    else s.checkedDead l cs
      [(illegalFn w0, cILLEGAL), (rsv || FormR.tailRsv w.r || w1Rsv w.w1, cRESFIELD),
       (offsetBad sp off || (op != 0x85 && s.ownClusterBad e sp off (rNT w.w1) (rNCLU w.w1)), cADDR), (alignBad off, cALIGN)]
      (if op = 0x85 || lnLive e then none else some (.dead node sp off))
      ([w.r.b.toNat, w.r.c.toNat] ++ srcs) (ranges cs) (track cs) (fun _ =>
        let cs1 := (match dst with
          | some r => if r = 0 then cs else { cs with xPend := addOnce cs.xPend r }
          | none => cs).adv 16
        .eff ((s.setCore l cs1).sendOn l.p (.core l cs.pc) (dest l cs) node (mk l cs off))))

/-- Reserved fields of RLD, RST and RMCST by the table of R85: NT, ATYPE, and the register field that is not used. -/
def ldstRsv (w : FormX) (load : Bool) : Bool :=
  let reg := rREG w.w1
  rATYPE w.w1 != 0 || (reg && rSZ w.w1 != 0)
    || (if load then rNT w.w1 || (if reg then w.r.d != 0 else w.r.a != 0) else w.r.a != 0)

def szBytes (w : W64) : Nat := 8 * (rSZ w + 1)

/-- RLD (03 R85, R87). -/
def execRld (c : CoreId) (w : FormX) (s : State) : Host.Outcome State Fault Refusal :=
  let reg := rREG w.w1
  let n := szBytes w.w1
  let at_ := fun (cs : CoreSt) => (cs.getX w.r.d.toNat).toNat % spadSize
  .next (s.remote c 0x80 w (ldstRsv w true) (fun off => blockBad off n)
    (if reg then [] else [w.r.d.toNat]) (fun _ => [])
    (fun cs => if reg then [] else [.wr (at_ cs) n])
    (if reg then some w.r.a.toNat else none)
    (fun _ _ off => w1Req w.w1 1 off)
    (fun l cs => if reg then .reg l w.r.a.toNat else .spad l (at_ cs) n))

/-- The data of RST and RMCST (03 R85). -/
def storeReq (w : FormX) (ptype : Nat) (cs : CoreSt) (off : Nat) : RReq :=
  let n := szBytes w.w1
  let x := cs.getX w.r.d.toNat
  { w1Req w.w1 ptype off with
    data := if rREG w.w1 then x.toNat else sread cs.spad x.toNat n
    words := rSZ w.w1 + 1 }

/-- RST (03 R85). -/
def execRst (c : CoreId) (w : FormX) (s : State) : Host.Outcome State Fault Refusal :=
  let n := szBytes w.w1
  let rg := fun (cs : CoreSt) => if rREG w.w1 then [] else [((cs.getX w.r.d.toNat).toNat % spadSize, n)]
  .next (s.remote c 0x81 w (ldstRsv w false) (fun off => blockBad off n) [w.r.d.toNat] rg
    (fun cs => (rg cs).map (fun e => .now e.1 e.2 false)) none
    (fun _ cs off => storeReq w 2 cs off) (fun _ _ => .none))

/-- RATOM: a posted ADD, MIN or MAX (03 R85). -/
def execRatom (c : CoreId) (w : FormX) (s : State) : Host.Outcome State Fault Refusal :=
  let rsv := rREG w.w1 || rSZ w.w1 != 0 || w.r.a != 0
  .next (s.remote c 0x82 w rsv (fun off => atomBad (rSPACE w.w1) off (rATYPE w.w1)) [w.r.d.toNat] (fun _ => [])
    (fun _ => []) none
    (fun _ cs off => { w1Req w.w1 3 off with
      aop := w.r.fn8.toNat, data := (cs.getX w.r.d.toNat).toNat, words := 1 })
    (fun _ _ => .none))

/-- RATOM.F: fetch-add into x[A] (03 R85). -/
def execRatomF (c : CoreId) (w : FormX) (s : State) : Host.Outcome State Fault Refusal :=
  let rsv := rREG w.w1 || rSZ w.w1 != 0
  .next (s.remote c 0x83 w rsv (fun off => atomBad (rSPACE w.w1) off (rATYPE w.w1)) [w.r.d.toNat] (fun _ => [])
    (fun _ => []) (some w.r.a.toNat)
    (fun _ cs off => { w1Req w.w1 4 off with data := (cs.getX w.r.d.toNat).toNat, words := 1 })
    (fun l _ => .reg l w.r.a.toNat))

/-- RCAS: compare value then new value; the old value into x[A] or over the compare value (03 R85). -/
def execRcas (c : CoreId) (w : FormX) (s : State) : Host.Outcome State Fault Refusal :=
  let reg := rREG w.w1
  let n := szBytes w.w1
  let rsv := rNT w.w1 || rATYPE w.w1 != 0 || decide (rSZ w.w1 > 1) || (reg && rSZ w.w1 != 0) || (!reg && w.r.a != 0)
  let at_ := fun (cs : CoreSt) => (cs.getX w.r.d.toNat).toNat % spadSize
  .next (s.remote c 0x84 w rsv (fun off => rSPACE w.w1 != 2 && off % n != 0)
    (if reg then [w.r.a.toNat, w.r.d.toNat] else [w.r.d.toNat])
    (fun cs => if reg then [] else [(at_ cs, 2 * n)])
    (fun cs => if reg then [] else [.wr (at_ cs) n, .now (at_ cs + n) n false])
    (if reg then some w.r.a.toNat else none)
    (fun _ cs off => { w1Req w.w1 5 off with
      data := if reg then (cs.getX w.r.a.toNat).toNat + (cs.getX w.r.d.toNat).toNat * 2 ^ 64
        else sread cs.spad (at_ cs) (2 * n)
      words := 2 * (rSZ w.w1 + 1) })
    (fun l cs => if reg then .reg l w.r.a.toNat else .spad l (at_ cs) n))

/-- RMCST: a store to every member of the tree x[B] names (03 R84, R85). -/
def execRmcst (c : CoreId) (w : FormX) (s : State) : Host.Outcome State Fault Refusal :=
  let n := szBytes w.w1
  let rg := fun (cs : CoreSt) => if rREG w.w1 then [] else [((cs.getX w.r.d.toNat).toNat % spadSize, n)]
  .next (s.remote c 0x85 w (ldstRsv w false) (fun off => blockBad off n) [w.r.d.toNat] rg
    (fun cs => (rg cs).map (fun e => .now e.1 e.2 false)) none
    (fun _ cs off => { storeReq w 6 cs off with tree := fld (cs.getX w.r.b.toNat) 0 10 }) (fun _ _ => .none))

/-! The tile DMA (03 R89-R91). -/

def dmaRoff (d : Nat) : Nat := bits d 0 48
def dmaSpace (d : Nat) : Nat := bits d 48 2
def dmaNode (d : Nat) : Nat := bits d 64 16
def dmaRows (d : Nat) : Nat := bits d 80 12 + 1
def dmaRbytes (d : Nat) : Nat := bits d 96 32
def dmaLaddr (d : Nat) : Nat := bits d 128 18
def dmaLstride (d : Nat) : Nat := bits d 160 18
def dmaRstride (d : Nat) : Nat := bits d 192 48

/-- A descriptor that breaks the table of R89. -/
def dmaDescBad (d : Nat) : Bool :=
  dmaRoff d % 8 != 0 || bits d 50 14 != 0 || bits d 92 4 != 0
    || dmaRbytes d % 8 != 0 || decide (dmaRbytes d < 8) || decide (dmaRbytes d > 262144)
    || dmaLaddr d % 8 != 0 || bits d 146 14 != 0 || dmaLstride d % 8 != 0 || bits d 178 14 != 0
    || dmaRstride d % 8 != 0 || bits d 240 16 != 0

/-- The last remote byte of a transfer. -/
def dmaLast (d : Nat) : Nat := dmaRoff d + (dmaRows d - 1) * dmaRstride d + dmaRbytes d - 1

/-- A remote range that breaks R34 or R37 (03 R90): in the CTR space every row must stay within the 64 counters of a core, below
the reserved bits; in the others the first and last byte decide. -/
def dmaRangeBad (d : Nat) : Bool :=
  if dmaSpace d = 2 then (List.range (dmaRows d)).any (fun i =>
    let o := dmaRoff d + i * dmaRstride d
    offsetBad 2 o || decide (o % 64 + dmaRbytes d > 64))
  else offsetBad (dmaSpace d) (dmaRoff d) || offsetBad (dmaSpace d) (dmaLast d)

/-- Reserved fields of word 1 of TDMA (03 R89). -/
def tdmaRsv (w : FormX) : Bool :=
  w.r.c != 0 || w.r.d != 0 || FormR.tailRsv w.r || w1Rsv w.w1 || rSZ w.w1 != 0 || rSPACE w.w1 != 0 || rREG w.w1
    || rATYPE w.w1 != 0

/-- A transfer with pieces not yet issued occupies the DMA unit (DEDUCED, log 7). -/
def Dma.left (d : Dma) : Bool := !d.failed && decide (d.row < dmaRows d.desc)

/-- TDMA (03 R89, R90): the descriptor is read and checked at issue; the pieces issue one by one. -/
def execTdma (c : CoreId) (w : FormX) (s : State) : Host.Outcome State Fault Refusal :=
  let w0 := w.r.w0 0x88
  .next (s.issue c w0 true (fun l cs =>
    let ad := (cs.getX w.r.b.toNat).toNat % spadSize
    let d := sread cs.spad ad 32
    let store := w.r.fn8 = 1
    let node := dmaNode d
    let e := s.lnt l.p node
    if cs.fence || cs.dmas.any Dma.left then .stall
    else s.checkedDead l cs
      [(illegalFn w0, cILLEGAL), (tdmaRsv w, cRESFIELD), (dmaDescBad d, cDESC),
       (dmaRangeBad d || s.ownClusterBad e (dmaSpace d) (dmaRoff d) (rNT w.w1) (rNCLU w.w1)
         || s.ownClusterBad e (dmaSpace d) (dmaLast d) false 0, cADDR)]
      (if lnLive e then none else some (.dead node (dmaSpace d) (dmaRoff d)))
      [w.r.b.toNat] [(ad, 32)] [.now ad 32 false, dmaRng d store] (fun _ =>
        let id := cs.dmas.foldl (fun m x => max m (x.id + 1)) 0
        let x : Dma := { desc := d, store, w1 := w.w1, cnt := w.r.a.toNat, pcAt := cs.pc, row := 0, byte := 0, out := 0
                         failed := false, id }
        .eff (s.setCore l (({ cs with dmas := cs.dmas ++ [x] } : CoreSt).adv 16)))))

/-- The next piece of a transfer: remote offset, scratchpad address, bytes (03 R90, R91). -/
def Dma.piece (x : Dma) : Nat × Nat × Nat :=
  let r := dmaRoff x.desc + x.row * dmaRstride x.desc + x.byte
  (r, (dmaLaddr x.desc + x.row * dmaLstride x.desc + x.byte) % spadSize,
    min (dmaRbytes x.desc - x.byte) (256 - r % 256))

/-- The transfer after a piece of n bytes has been issued. -/
def Dma.next (x : Dma) (n : Nat) : Dma :=
  if x.byte + n ≥ dmaRbytes x.desc then { x with row := x.row + 1, byte := 0, out := x.out + 1 }
  else { x with byte := x.byte + n, out := x.out + 1 }

def replaceDma (x : Dma) (l : List Dma) : List Dma := l.map (fun y => if y.id = x.id then x else y)

/-- A transfer whose pieces have all resolved: cntA rises by 1 unless one failed (03 R91). -/
def State.dmaDone (s : State) (l : Loc) (x : Dma) : State :=
  if x.out = 0 && !x.left then
    let cs := s.core l
    let s1 := s.setCore l { cs with dmas := cs.dmas.filter (fun y => y.id != x.id) }
    (if x.failed then s1 else s1.addCounter l x.cnt 1).fenceCheck l
  else s

/-- One piece of a transfer failed (03 R91): no further piece issues. -/
def State.dmaFail (s : State) (l : Loc) (x : Dma) (code off : Nat) : State :=
  let cs := s.core l
  let y := { x with failed := true }
  let s1 := s.setCore l { cs with dmas := replaceDma y cs.dmas }
  (s1.asyncFail l code (dmaNode x.desc + dmaSpace x.desc * 2 ^ 16) off (x.pcAt + 2 ^ 63)).dmaDone l y

/-- TDMA_PIECE_ISSUE: the next piece of the core's transfer is sent (03 R91). A store of poisoned data that leaves the
device is not sent and fails (12 R420); within the device it carries its poison. -/
def execTdmaPieceIssue (c : CoreId) (s : State) : Host.Outcome State Fault Refusal :=
  .next (match s.locate c with
    | none => s
    | some l =>
      let cs := s.core l
      match cs.dmas.find? Dma.left with
      | none => s
      | some x =>
        if s.plat.power ≠ .running || s.slotsFull || decide (s.dmaOps l ≥ 256) then s
        else
          let pc := x.piece
          let e := s.lnt l.p (dmaNode x.desc)
          let pz := x.store && (cs.poisonIn pc.2.1 pc.2.2).isSome
          if s.flipWait l (dmaNode x.desc) (dmaSpace x.desc) pc.1 then s
          else if !lnLive e then (s.deadNode l.p (dmaNode x.desc)).dmaFail l x cFABDEAD pc.1
          else if pz && !s.isOwn e then
            let y := x.next pc.2.2
            let y1 := { y with out := x.out }
            (s.setCore l { cs with dmas := replaceDma y1 cs.dmas }).dmaFail l y1 cPOISON pc.1
          else
            let r : RReq := { w1Req x.w1 (if x.store then 2 else 1) pc.1 with
              size := pc.2.2 / 8 - 1, space := dmaSpace x.desc
              data := if x.store then sread cs.spad pc.2.1 pc.2.2 else 0
              words := if x.store then pc.2.2 / 8 else 0 }
            let sl := s.freeSlot
            let s1 := s.setCore l { cs with dmas := replaceDma (x.next pc.2.2) cs.dmas }
            let s2 := s1.sendOn l.p (.dma l x.pcAt x.id)
              (if x.store then .none else .spad l pc.2.1 pc.2.2) (dmaNode x.desc) r
            if pz then s2.markSent sl else s2)

end Sys2Proof.Machine
end

