-- ==== Sys2Proof/Machine/Batcher.lean ====
section
/-! DEFINITION. The decode batcher (03 R103-R106). -/

namespace Sys2Proof.Machine

/-- Whether an array's queue takes another instruction: two behind the one that streams (04 R110). -/
def CoreSt.room (c : CoreSt) (i : Nat) : Bool :=
  let a := c.arr i
  a.q.length < (if a.act.isEmpty then 3 else 2)

/-- Format pairs (04 R120). -/
def pairBad (f g : Nat) : Bool :=
  f == 12 || g == 12 || (f == 11) != (g == 11)

/-- Output formats without a glyph (04 R121). -/
def ofmtBad (int gly : Bool) (o : Nat) : Bool :=
  if gly then o != 0 else if int then !(o == 12 || o == 0) else decide (o > 4)

/-- A weight header that breaks R118; its regions wrap modulo 2^18 (02 R31). -/
def hdrBad (h kk : Nat) : Bool :=
  let f := hdrFmt h
  let soff := hdrSoff h
  let moff := hdrMoff h
  let rsv := bits h 6 26 != 0 || bits h 50 14 != 0 || bits h 82 14 != 0 || bits h 96 32 != 0
  let v := sparseVals f kk
  let hit := fun (a n b m : Nat) => n != 0 && m != 0
    && (decide ((b + spadSize - a) % spadSize < n) || decide ((a + spadSize - b) % spadSize < m))
  rsv || (if hdrSparse h then
      (!isMx f && soff != 0) || soff % 8 != 0 || moff % 8 != 0
        || hit 0 (16 + v) moff kk
        || (isMx f && (hit 0 (16 + v) soff (kk / 4) || hit soff (kk / 4) moff kk))
    else soff != 0 || moff != 0)

/-- A template that is not a valid MMA.F, or whose reserved bytes are not zero (03 R103, 04 R112; log 9). -/
def templateBad (t : Nat) : Bool :=
  let f := bits t 40 4
  bits t 0 8 != 0x90 || bits t 36 4 != 0 || bits t 44 20 != 0 || bits t 91 37 != 0 || bits t 128 128 != 0
    || decide (f > 12) || f == 12 || ofmtBad (f == 11) (bit t 35) (bits t 71 4)

/-- A request joins its open group, or opens one. -/
def joinGroup (t : Nat) (g : BGroup) (q : BReq) : List BGroup → List BGroup
  | [] => [{ g with reqs := [q] }]
  | h :: r => if h.tmpl = t then { h with reqs := h.reqs ++ [q] } :: r else h :: joinGroup t g q r

/-- Whether the group a request has just joined issues at once (03 R104): it is full, or the wait is 0. -/
def BGroup.goes (g : BGroup) (tmpl : Nat) (zero : Bool) : Bool := g.tmpl == tmpl && (zero || decide (g.reqs.length ≥ 8))

/-- The group that a request has just joined issues where it is ready. -/
def CoreSt.issueReady (c : CoreSt) (tmpl : Nat) (zero : Bool) : CoreSt :=
  let rdy := c.batch.filter (fun g => g.goes tmpl zero)
  { rdy.foldl CoreSt.issueGroup c with batch := c.batch.filter (fun g => !g.goes tmpl zero) }

/-- The limit of SW_BATWAIT in ticks (03 R104). -/
def batLimit (c : CoreSt) : Nat := min c.batwait 10500000

/-- The range of a request's row: its K elements, then the scale bytes of an MX row (03 R103; log 96). -/
def BGroup.rowRng (g : BGroup) (q : BReq) : List Rng :=
  (({ g with reqs := [q] } : BGroup).op 0).reads.getLast?.elim [] (fun r => [.now r.1 r.2 false])

/-- Whether a request must wait for the place of its outputs: an instruction in flight uses it, or a waiting request reads it.
Outputs of waiting requests do not hold each other up, as each is written on its own (03 R93, R105; log 100). -/
def State.outBusy (s : State) (l : Loc) (cs : CoreSt) (g : BGroup) (q : BReq) : Bool :=
  let fl := s.inflight l ++ (cs.batch.map BGroup.reads).flatten
  (({ g with reqs := [q] } : BGroup).writes (cs.drainGlyph g.arr)).any (fun r => fl.any r.meets)

/-- BPUT (03 R103, R104): the group's MMA.F is checked as 04 R113, R118 and R145 say when it opens, each request's output
address with the request. -/
def execBput (c : CoreId) (w : FormX) (s : State) : Host.Outcome State Fault Refusal :=
  let w0 := w.r.w0 0xA0
  .next (s.issue c w0 true (fun l cs =>
    let ta := (cs.getX w.r.d.toNat).toNat % spadSize
    let t := sread cs.spad ta 32
    let q : BReq := { row := (cs.getX w.r.b.toNat).toNat % spadSize, out := (cs.getX w.r.c.toNat).toNat % spadSize
                      cnt := w.r.a.toNat }
    let wr := bits t 20 6
    let wgt := (cs.getX wr).toNat % spadSize
    let h := sread cs.spad wgt 16
    let old := cs.batch.find? (fun g => g.tmpl == ta)
    let known := old.isSome
    let g : BGroup := old.getD { tmpl := ta, t0 := w64 (bits t 0 64), t1 := w64 (bits t 64 64)
                                 wgt, hdr := h, reqs := [], opened := s.now }
    let regs := [w.r.b.toNat, w.r.c.toNat, w.r.d.toNat] ++ (if known then [] else [wr])
    if !cs.pendingAny regs && s.outBusy l cs g q then .stall
    else s.checked l cs
      [(illegalFn w0, cILLEGAL), (FormR.tailRsv w.r || w.w1 != 0, cRESFIELD),
       (!known && !templateBad t && decide (hdrFmt h > 12), cFORMAT), (!known && templateBad t, cDESC),
       (!known && pairBad (bits t 40 4) (hdrFmt h), cMMAFMTPAIR),
       (!known && hdrBad h (32 * (bits t 64 7 + 1)), cMMAHEADER),
       (!known && bit t 35 && (cs.drainGlyph (bits t 32 2)).isNone, cVECGLYPH),
       ((!known && wgt % 16 != 0) || q.out % 8 != 0, cALIGN)]
      regs (if known then [] else [(ta, 32)])
      (g.rowRng q ++ (if known then [] else .now ta 32 false :: (wgtRanges h wgt (32 * (bits t 64 7 + 1))).map (fun r =>
        .now r.1 r.2 false))) (fun _ =>
        -- a fifth group makes the earliest issue first
        let fifth := !known && decide (cs.batch.length ≥ 4)
        let c1 := match cs.batch with
          | h :: r => if fifth then { cs.issueGroup h with batch := r } else cs
          | [] => cs
        let blocked := fifth && (match cs.batch with
          | h :: _ => !cs.room h.arr
          | [] => false)
        let c2 : CoreSt := { c1 with batch := joinGroup ta g q c1.batch }
        let zero := !(s.part l.p).ruled && batLimit cs == 0
        let c3 := c2.issueReady ta zero
        let grp := c2.batch.find? (fun g => g.tmpl == ta)
        let full := match grp with
          | some g => g.goes ta zero && !c1.room g.arr
          | none => false
        if blocked || full then .stall else .eff (s.setCore l (c3.adv 16)))))

/-- Open groups issued in order as far as their queues have room. -/
def CoreSt.flushRoom (c : CoreSt) : Nat → CoreSt
  | 0 => c
  | n + 1 =>
    match c.batch with
    | [] => c
    | g :: r => if c.room g.arr then ({ c.issueGroup g with batch := r } : CoreSt).flushRoom n else c

/-- BFLUSH (03 R104): it stalls while a group finds its queue full. -/
def execBflush (c : CoreId) (w : FormR) (s : State) : Host.Outcome State Fault Refusal :=
  .next (s.issue c (w.w0 0x29) false (fun l cs =>
    s.checked l cs (bareErrs 0x29 w) [] [] [] (fun _ =>
      let c1 := cs.flushRoom cs.batch.length
      .eff (s.setCore l (if c1.batch.isEmpty then c1.adv 8 else c1)))))

/-- The first open group that finds room in its array's queue, and the groups left (03 R104). -/
def CoreSt.takeRoom (c : CoreSt) : List BGroup → Option (BGroup × List BGroup)
  | [] => none
  | g :: r => if c.room g.arr then some (g, r) else (c.takeRoom r).map (fun x => (x.1, g :: x.2))

/-- BATCH_WAIT_EXPIRY: in Freehand mode SW_BATWAIT has passed since the first request of the earliest group whose array's
queue has room, and it issues (03 R104). -/
def execBatchWaitExpiry (c : CoreId) (s : State) : Host.Outcome State Fault Refusal :=
  .next (match s.locate c with
    | none => s
    | some l =>
      let cs := s.core l
      match cs.takeRoom cs.batch with
      | none => s
      | some (g, r) =>
        if (s.part l.p).ruled || s.plat.power ≠ .running then s
        else (s.reach (g.opened + batLimit cs)).setCore l { cs.issueGroup g with batch := r })

end Sys2Proof.Machine
end

