-- ==== Sys2Proof/Machine/Matrix.lean ====
section
/-! DEFINITION. Matrix instructions at issue, and their start and completion on an array (04 R110-R146). -/

namespace Sys2Proof.Machine

/-- The operation an instruction word stands for, with the register values it reads at issue (04 R111, R112). -/
def mmaOp (kind : MKind) (cs : CoreSt) (w : FormX) (w0 : Nat) : MOp :=
  let x := fun (r : BitVec 6) => (cs.getX r.toNat).toNat % spadSize
  let t := w.w1.toNat
  let fn := w.r.fn8.toNat
  { kind, out := x w.r.a, row := x w.r.b, wgt := x w.r.c
    acc := if kind = .mmaF ∧ bit fn 2 = true then some (x w.r.d) else none
    rows := if kind = .mmaS then (cs.getX w.r.d.toNat).toNat else 8
    fmt := w.r.fmt.toNat, ofmt := bits t 7 4, kb := bits t 0 7, ostride := bits t 11 16, gly := bit fn 3
    dst := w.r.c.toNat, breqs := none, pcAt := cs.pc
    hdr := sread cs.spad (if kind = .mmaF ∨ kind = .mmaS then x w.r.c else x w.r.b) 16, w0 := w64 w0 }

/-- The largest depth of an MMA.S by weight format (04 R126). -/
def kMax (f : Nat) : Nat :=
  match f with
  | 0 => 256
  | 1 | 2 => 512
  | _ => 1024

/-- Reserved fields of MMA.F and MMA.S (04 R111, R112). -/
def mmaRsv (kind : MKind) (w : FormX) : Bool :=
  let fn := w.r.fn8.toNat
  bits fn 4 4 != 0 || w.r.rsv != 0 || fld w.w1 27 37 != 0
    || (if kind = .mmaS then bit fn 2 else !bit fn 2 && w.r.d != 0)

/-- The checks of a multiply, in the order of R96, R145 and R186. -/
def mmaErrs (kind : MKind) (cs : CoreSt) (w : FormX) : List (Bool × Nat) :=
  let o := mmaOp kind cs w 0
  let h := o.hdr
  let img := cs.drainGlyph (w.r.fn8.toNat % 4)
  [(mmaRsv kind w, cRESFIELD),
   (decide (o.fmt > 12) || decide (o.ofmt > 12) || decide (hdrFmt h > 12), cFORMAT),
   (decide (kind = .mmaS) && (o.rows == 0 || decide (o.rows > 65535)), cCOUNT),
   (pairBad o.fmt (hdrFmt h), cMMAFMTPAIR),
   (ofmtBad o.isInt o.gly o.ofmt, cMMAOFMT),
   (decide (kind = .mmaS) && decide (o.depth > kMax (hdrFmt h)), cMMAKDEPTH),
   (hdrBad h o.depth, cMMAHEADER),
   (o.gly && img.isNone, cVECGLYPH),
   (decide (kind = .mmaS) && o.gly && isMx (glyOfmt (img.getD 0)), cVECGMX),
   (o.row % 16 != 0 || o.wgt % 16 != 0 || o.acc.getD 0 % 16 != 0 || o.out % 8 != 0 || o.ostride % 8 != 0, cALIGN)]

/-- A matrix operation enters its array's queue, or stalls on a full one (04 R110). -/
def State.enqueue (s : State) (l : Loc) (cs : CoreSt) (i : Nat) (o : MOp) : Iss :=
  if cs.room i then
    let a := cs.arr i
    .eff (s.setCore l ((cs.setArr i { a with q := a.q ++ [o] }).adv 16))
  else .stall

/-- MMA.F and MMA.S at issue. -/
def State.mma (s : State) (c : CoreId) (op : Nat) (kind : MKind) (w : FormX) : State :=
  s.issue c (w.r.w0 op) true (fun l cs =>
    let i := w.r.fn8.toNat % 4
    let o := mmaOp kind cs w (w.r.w0 op)
    let rg := o.rngs (cs.drainGlyph i)
    let srcs := [w.r.a.toNat, w.r.b.toNat, w.r.c.toNat]
      ++ (if kind = .mmaS ∨ o.acc.isSome = true then [w.r.d.toNat] else [])
    s.checked l cs (mmaErrs kind cs w) srcs ((rg.filter (fun r => !r.w)).map (fun r => (r.a, r.n))) rg
      (fun _ => s.enqueue l cs i o))

/-- MMA.F (04 R107-R123). -/
def execMmaF (c : CoreId) (w : FormX) (s : State) : Host.Outcome State Fault Refusal :=
  .next (s.mma c 0x90 .mmaF w)

/-- MMA.S (04 R125-R128). -/
def execMmaS (c : CoreId) (w : FormX) (s : State) : Host.Outcome State Fault Refusal :=
  .next (s.mma c 0x91 .mmaS w)

/-- SPARSIFY and SPARSIFY.T at issue (04 R111, R112, R139, R143): field C is the number of the register that receives
the overflow count, interlocked until then. A dense operand in INT32, a format whose tiles R116 does not size, runs with 32-bit
elements (DESIGN CHOICE, log 101). -/
def State.sparsifyIssue (s : State) (c : CoreId) (op : Nat) (kind : MKind) (w : FormX) : State :=
  s.issue c (w.r.w0 op) true (fun l cs =>
    let i := w.r.fn8.toNat % 4
    let o := mmaOp kind cs w (w.r.w0 op)
    let h := o.hdr
    let rg := o.rngs none
    if cs.xPend.contains o.dst then .stall
    else s.checked l cs
      [(bits w.r.fn8.toNat 2 6 != 0 || w.r.d != 0 || FormR.tailRsv w.r || fld w.w1 7 57 != 0, cRESFIELD),
       (decide (hdrFmt h > 12), cFORMAT), (hdrSparse h || hdrBad h o.depth, cMMAHEADER),
       (o.row % 16 != 0 || o.out % 16 != 0, cALIGN)]
      [w.r.a.toNat, w.r.b.toNat] ((rg.filter (fun r => !r.w)).map (fun r => (r.a, r.n))) rg
      (fun _ =>
        s.enqueue l (if o.dst = 0 then cs else { cs with xPend := addOnce cs.xPend o.dst }) i o))

/-- SPARSIFY (04 R139, R140). -/
def execSparsify (c : CoreId) (w : FormX) (s : State) : Host.Outcome State Fault Refusal :=
  .next (s.sparsifyIssue c 0x92 .sparsify w)

/-- SPARSIFY.T (04 R141, R142). -/
def execSparsifyT (c : CoreId) (w : FormX) (s : State) : Host.Outcome State Fault Refusal :=
  .next (s.sparsifyIssue c 0x93 .sparsifyT w)

/-- What an engine of a core does: nothing where no core runs. -/
def State.onEngine (s : State) (c : CoreId) (f : Loc → State) : State :=
  if s.plat.power ≠ .running then s
  else match s.locate c with
    | none => s
    | some l => f l

/-- MATRIX_STREAM_START (04 R110, R143): the array takes its queue's head when a set is free and no SPARSIFY holds it. -/
def execMatrixStreamStart (c : CoreId) (arr : BitVec 2) (s : State) : Host.Outcome State Fault Refusal :=
  .next (s.onEngine c (fun l =>
    let cs := s.core l
    let a := cs.arr arr.toNat
    if a.act.length ≥ 2 || a.act.any (fun x => x.op.isSparsify) then s
    else s.setCore l (startHead cs arr.toNat)))

/-- The core's stalled CWAIT looked at again. -/
def State.wake (s : State) (l : Loc) : State := s.setCore l (s.core l).wakeWait

/-- Whether the oldest operation of an array may complete: one with a glyph has drained every tile (05 R180); one whose feeders
read a poisoned word ends at once (04 R145). -/
def MAct.ready (a : MAct) : Bool := a.bad.isSome || !a.op.gly || decide (a.drained ≥ a.op.nrows)

/-- MATRIX_COMPLETE (04 R123, R127; 03 R105). -/
def execMatrixComplete (c : CoreId) (arr : BitVec 2) (s : State) : Host.Outcome State Fault Refusal :=
  .next (s.onEngine c (fun l =>
    let cs := s.core l
    match (cs.arr arr.toNat).act with
    | [] => s
    | a :: _ =>
      if a.op.isSparsify || !a.ready then s
      else (s.engOut l (completeHead (s.env l) cs arr.toNat)).wake l))

/-- SPARSIFY_COMPLETE (04 R144). -/
def execSparsifyComplete (c : CoreId) (arr : BitVec 2) (s : State) : Host.Outcome State Fault Refusal :=
  .next (s.onEngine c (fun l =>
    let cs := s.core l
    match (cs.arr arr.toNat).act with
    | [] => s
    | a :: _ => if a.op.isSparsify then s.engOut l (completeHead (s.env l) cs arr.toNat) else s))

end Sys2Proof.Machine
end

