-- ==== Sys2Proof/Machine/Vector.lean ====
section
/-! DEFINITION. Vector instructions at issue (05 R148-R172): their checks, the engine's queue (05 R185), and the start of
a queued instruction. What each computes is `vexec`. -/

namespace Sys2Proof.Machine

/-! Fields. -/

/-- The count register's number, when CR is 1 (03 R72). -/
def cntReg (w : FormV) : Nat := bits w.cnt.toNat 0 6

/-- The count: the field plus 1, or the register's value (03 R72). -/
def vcount (cs : CoreSt) (w : FormV) : Nat :=
  if w.cr = 1 then (cs.getX (cntReg w)).toNat else w.cnt.toNat + 1

/-- Field B names a scalar register (05 R153). -/
def scalarB (op : Nat) : Bool := [0x30, 0x31, 0x32, 0x33, 0x34, 0x3F].contains op

/-- The register fields an instruction uses, as (A, B, C, D) flags (05 R152, R153, R171). -/
def vused (op fn : Nat) : Bool × Bool × Bool × Bool :=
  match op with
  | 0x30 | 0x31 | 0x34 | 0x3F => (true, true, false, false)
  | 0x32 | 0x33 => (true, true, true, false)
  | 0x35 | 0x46 => (true, false, false, false)
  | 0x39 | 0x3D => (true, true, true, true)
  | 0x38 | 0x3B | 0x3C => (true, true, true, false)
  | 0x42 => (true, true, fn % 2 == 1, true)
  | 0x43 => (true, true, false, true)
  | 0x44 => (true, true, !bit fn 1, true)
  | _ => (true, true, false, false)

/-- A register field's reserved bits: bit 5, or all of them when the field is not used (03 R71). -/
def vfldRsv (used : Bool) (r : BitVec 6) : Bool := if used then decide (r.toNat > 31) else r != 0

/-- Function-code bits that are reserved (05 R162-R171). -/
def vfnRsv (op fn : Nat) : Bool :=
  match op with
  | 0x3E => bits fn 4 4 != 0
  | 0x3F => bits fn 1 3 != 0
  | 0x41 | 0x42 => bits fn 1 7 != 0
  | 0x43 => bit fn 7
  | 0x44 => bits fn 2 6 != 0
  | 0x45 => bits fn 5 3 != 0
  | _ => false

/-- A floating register format (00 R12). -/
def isFlt (f : Nat) : Bool := decide (f ≤ 4)

/-- Whether SR may be 1 (05 R154). -/
def srOk (op fn f : Nat) : Bool :=
  match op with
  | 0x3E =>
    let src := fn % 16
    isRegFmt src && isRegFmt f
      && (decide (fmtBits f < fmtBits src) || (decide (f ≥ 11) && isFlt src))
  | 0x3F => fn % 2 == 0
  | _ => false

/-- The formats a function accepts (05 R154). -/
def vfmtOk (op f : Nat) : Bool :=
  match op with
  | 0x30 | 0x31 | 0x32 | 0x33 | 0x34 | 0x3D | 0x3E => isRegFmt f
  | 0x38 | 0x39 | 0x3A | 0x42 | 0x3F => decide (f ≤ 2)
  | 0x40 | 0x43 | 0x44 => decide (f ≤ 2) || f == 12
  | 0x3B => f == 11 || f == 12
  | 0x3C => decide (f ≤ 2) || f == 11 || f == 12
  | 0x35 | 0x41 | 0x46 => f == 0 || f == 12
  | _ => f == 12

/-- The register groups an instruction names: first register, elements, width, whether it is read (05 R149); masks and
the side outputs of SMAX are one register. -/
def vgroups (op : Nat) (w : FormV) (n : Nat) : List (Nat × Nat × Nat × Bool) :=
  let fn := w.fn8.toNat
  let a := w.a.toNat
  let b := w.b.toNat
  let c := w.c.toNat
  let d := w.d.toNat
  let k := fmtBits w.fmt.toNat
  match op with
  | 0x30 | 0x34 | 0x35 | 0x46 => [(a, n, k, false)]
  | 0x31 => [(a, n, k, true)]
  | 0x32 => [(a, n, k, false), (c, n, 32, true)]
  | 0x33 => [(a, n, k, true), (c, n, 32, true)]
  | 0x38 | 0x3B => [(a, n, k, false), (b, n, k, true), (c, n, k, true)]
  | 0x39 => [(a, n, k, false), (b, n, k, true), (c, n, k, true), (d, n, k, true)]
  | 0x3A | 0x41 => [(a, n, k, false), (b, n, k, true)]
  | 0x3C => [(a, 1, 32, false), (b, n, k, true), (c, n, k, true)]
  | 0x3D => [(a, n, k, false), (b, n, k, true), (c, n, k, true), (d, 1, 8192, true)]
  | 0x3E => [(a, n, k, false), (b, n, fmtBits (fn % 16), true)]
  | 0x3F => [(a, n, k, fn % 2 == 0)]
  | 0x40 => [(a, 1, k, false), (b, n, k, true)]
  | 0x42 => [(a, n, k, false), (b, n, k, true), (d, 3, 32, false)]
      ++ (if fn % 2 = 1 then [(c, 1, 8192, true)] else [])
  | 0x43 => [(a, fn % 64 + 1, k, false), (b, n, k, true), (d, fn % 64 + 1, 32, false)]
  | 0x44 => [(a, n, k, false), (b, n, k, true), (d, n, 32, false)]
      ++ (if bit fn 1 then [] else [(c, n, 32, true)])
  | _ => [(a, 2 ^ (fn % 16), 32, bit fn 4), (b, n, 32, true)]

/-- A group that runs past vr31 (05 R149). -/
def pastEnd (g : Nat × Nat × Nat × Bool) : Bool := decide (g.1 + (g.2.1 * g.2.2.1 + 8191) / 8192 > 32)

/-- The checks of a vector instruction, in the order of R96 and R186. -/
def vErrs (op : Nat) (cs : CoreSt) (w : FormV) : List (Bool × Nat) :=
  let fn := w.fn8.toNat
  let f := w.fmt.toNat
  let n := vcount cs w
  let u := vused op fn
  let cntOk := decide (1 ≤ n) && decide (n ≤ 4096)
  let src := fn % 16
  let mx := fn / 16
  [(illegalFn (w.w0 op), cILLEGAL),
   (vfldRsv u.1 w.a || vfldRsv u.2.1 w.b || vfldRsv u.2.2.1 w.c || vfldRsv u.2.2.2 w.d || vfnRsv op fn || w.rsv != 0
     || (w.sr == 1 && !srOk op fn f) || (w.cr == 1 && bits w.cnt.toNat 6 6 != 0), cRESFIELD),
   (decide (f > 12) || (op == 0x3E && decide (src > 12)) || (op == 0x3F && decide (mx > 12)), cFORMAT),
   (cntOk && (vgroups op w n).any pastEnd, cVGROUP),
   (!cntOk, cCOUNT),
   (!vfmtOk op f || (op == 0x3E && !isRegFmt src) || (op == 0x3F && !isMx mx), cVECFMTUSE),
   (op == 0x3F && n % 32 != 0, cVECMXLEN),
   (op == 0x43 && decide (fn % 64 + 1 > n), cVECKRANGE)]

/-- Scratchpad bytes an instruction reads, for their poison; an indexed load reads what its indices name. -/
def VOp.reads (o : VOp) (v : Env) (cs : CoreSt) : List (Nat × Nat) :=
  if cs.spadPoison.isEmpty then []
  else if o.op = 0x32 then
    let sz := fmtBits o.w.fmt.toNat / 8
    (vget (vdrain v cs) o.w.c.toNat 12 o.n).map (fun i => (roundDown ((o.xv.toNat + i * sz) % spadSize) sz, sz))
  else (o.rngs.filter (fun r => !r.w)).map (fun r => (r.a, r.n))

/-- The first register of a group that holds a poisoned word (12 R419). -/
def CoreSt.vrPoisoned (cs : CoreSt) (gs : List (Nat × Nat × Nat × Bool)) : Option Nat :=
  if cs.vrPoison.isEmpty then none
  else (gs.filter (fun g => g.2.2.2)).findSome? (fun g =>
    ((unitsOf (1024 * g.1) ((g.2.1 * g.2.2.1 + 7) / 8) 8).find? (fun u => cs.vrPoison.contains u)).map (fun u => u / 128))

/-- A vector instruction at issue: it starts at once on an idle engine, or waits in the queue of four (05 R185). -/
def State.vissue (s : State) (c : CoreId) (op : Nat) (w : FormV) : State :=
  s.issue c (w.w0 op) false (fun l cs =>
    let n := vcount cs w
    let xr := if scalarB op then [w.b.toNat] else []
    let o : VOp := { op, w, n, xv := if scalarB op then cs.getX w.b.toNat else 0 }
    let srcs := xr ++ (if w.cr = 1 then [cntReg w] else [])
    let errs := vErrs op cs w
    let ok := (firstErr errs).isNone
    s.checked l cs errs srcs (if ok then o.reads (s.env l) cs else []) (if ok then o.rngs else []) (fun _ =>
      match cs.vrPoisoned (vgroups op w n) with
      | some r => .exc cDATAUE (2 ^ 63 + r) 0
      | none =>
        if !cs.vBusy && cs.vq.isEmpty then
          .eff (s.setCore l (({ vexec (s.env l) cs o with vBusy := true } : CoreSt).adv 8))
        else if cs.vq.length ≥ 4 then .stall
        else .eff (s.setCore l (({ cs with vq := cs.vq ++ [o] } : CoreSt).adv 8))))

/-- VLD (05 R155). -/
def execVld (c : CoreId) (w : FormV) (s : State) : Host.Outcome State Fault Refusal := .next (s.vissue c 0x30 w)

/-- VST (05 R155). -/
def execVst (c : CoreId) (w : FormV) (s : State) : Host.Outcome State Fault Refusal := .next (s.vissue c 0x31 w)

/-- VLDX (05 R156). -/
def execVldx (c : CoreId) (w : FormV) (s : State) : Host.Outcome State Fault Refusal := .next (s.vissue c 0x32 w)

/-- VSTX (05 R156). -/
def execVstx (c : CoreId) (w : FormV) (s : State) : Host.Outcome State Fault Refusal := .next (s.vissue c 0x33 w)

/-- VMOVX (05 R161). -/
def execVmovx (c : CoreId) (w : FormV) (s : State) : Host.Outcome State Fault Refusal := .next (s.vissue c 0x34 w)

/-- VIOTA (05 R161). -/
def execViota (c : CoreId) (w : FormV) (s : State) : Host.Outcome State Fault Refusal := .next (s.vissue c 0x35 w)

/-- VFP (05 R158, R159). -/
def execVfp (c : CoreId) (w : FormV) (s : State) : Host.Outcome State Fault Refusal := .next (s.vissue c 0x38 w)

/-- VFMA (05 R158, R159). -/
def execVfma (c : CoreId) (w : FormV) (s : State) : Host.Outcome State Fault Refusal := .next (s.vissue c 0x39 w)

/-- VUN (05 R158, R159). -/
def execVun (c : CoreId) (w : FormV) (s : State) : Host.Outcome State Fault Refusal := .next (s.vissue c 0x3A w)

/-- VINT (05 R158, R160). -/
def execVint (c : CoreId) (w : FormV) (s : State) : Host.Outcome State Fault Refusal := .next (s.vissue c 0x3B w)

/-- VCMP (05 R161). -/
def execVcmp (c : CoreId) (w : FormV) (s : State) : Host.Outcome State Fault Refusal := .next (s.vissue c 0x3C w)

/-- VSEL (05 R161). -/
def execVsel (c : CoreId) (w : FormV) (s : State) : Host.Outcome State Fault Refusal := .next (s.vissue c 0x3D w)

/-- VCVT (05 R162, R164). -/
def execVcvt (c : CoreId) (w : FormV) (s : State) : Host.Outcome State Fault Refusal := .next (s.vissue c 0x3E w)

/-- VCVTM (05 R163, R164). -/
def execVcvtm (c : CoreId) (w : FormV) (s : State) : Host.Outcome State Fault Refusal := .next (s.vissue c 0x3F w)

/-- VRED (05 R165). -/
def execVred (c : CoreId) (w : FormV) (s : State) : Host.Outcome State Fault Refusal := .next (s.vissue c 0x40 w)

/-- SCAN (05 R166). -/
def execScan (c : CoreId) (w : FormV) (s : State) : Host.Outcome State Fault Refusal := .next (s.vissue c 0x41 w)

/-- SMAX (05 R167). -/
def execSmax (c : CoreId) (w : FormV) (s : State) : Host.Outcome State Fault Refusal := .next (s.vissue c 0x42 w)

/-- TOPK (05 R168, R169). -/
def execTopk (c : CoreId) (w : FormV) (s : State) : Host.Outcome State Fault Refusal := .next (s.vissue c 0x43 w)

/-- SORTK (05 R168, R170). -/
def execSortk (c : CoreId) (w : FormV) (s : State) : Host.Outcome State Fault Refusal := .next (s.vissue c 0x44 w)

/-- HIST (05 R171). -/
def execHist (c : CoreId) (w : FormV) (s : State) : Host.Outcome State Fault Refusal := .next (s.vissue c 0x45 w)

/-- VRAND (05 R172). -/
def execVrand (c : CoreId) (w : FormV) (s : State) : Host.Outcome State Fault Refusal := .next (s.vissue c 0x46 w)

/-- The instruction in progress has finished: the queue's head starts (05 R185). -/
def vstart (v : Env) (cs : CoreSt) : CoreSt :=
  match cs.vq with
  | [] => { cs with vBusy := false }
  | o :: r => { vexec v { cs with vq := r } o with vBusy := true }

/-- VECTOR_QUEUE_START (05 R185). -/
def execVectorQueueStart (c : CoreId) (s : State) : Host.Outcome State Fault Refusal :=
  .next (s.onEngine c (fun l => s.setCore l (vstart (s.env l) (s.core l))))

end Sys2Proof.Machine
end

