-- ==== Sys2Proof/Machine/Glyph.lean ====
section
/-! DEFINITION. Glyph programs: loading, attaching, draining (05 R173-R184). -/

namespace Sys2Proof.Machine

/-- Whether any of the operations an image runs satisfies p. -/
def glyAny (img : Nat) (p : Nat → Bool) : Bool := (List.range (glyNops img)).any (fun i => p (glyOp img i))

/-- The checks of an image (05 R174, R175, R177): CORE_FORMAT for a reserved OFMT, VEC_GLYPH for the rest. -/
def glyErrs (img : Nat) (gate : Bool) : List (Bool × Nat) :=
  [(decide (glyOfmt img > 12), cFORMAT),
   (bits img 6 2 != 0 || bits img 13 3 != 0 || bits img 16 112 != 0
     || glyAny img (fun op => !glyAssigned (bits op 0 6) || bits op 24 8 != 0)
     || (glySr img && glyAny img (fun op => bits op 0 6 == 0x20))
     || (gate && (glyOfmt img != 0 || glySr img)), cVECGLYPH)]

/-- Whether an array still holds an instruction that the predicate names. -/
def ArrSt.holds (a : ArrSt) (p : MOp → Bool) : Bool := a.q.any p || a.act.any (fun x => p x.op)

/-- Fields of the glyph instructions that are not used (05 R177, R178, R183): B only where it names an address. -/
def glyRsv (w : FormX) (b : Bool) : Bool :=
  w.r.a != 0 || (!b && w.r.b != 0) || w.r.c != 0 || w.r.d != 0 || FormR.tailRsv w.r || w.w1 != 0

/-- GLOAD (05 R177, R184): a drain slot takes the image at once, once no instruction through it is left; a gating slot's
image travels to the cluster's Ductus engine. -/
def execGload (c : CoreId) (w : FormX) (s : State) : Host.Outcome State Fault Refusal :=
  .next (s.issue c (w.r.w0 0xC8) true (fun l cs =>
    let fn := w.r.fn8.toNat
    let slot := fn % 4
    let gate := bit fn 2
    let ad := roundDown ((cs.getX w.r.b.toNat).toNat % spadSize) 16
    let img := sread cs.spad ad 528
    let busy := !gate && (List.range 4).any (fun i =>
      (cs.arr i).att == some slot && (cs.arr i).holds (fun o => o.gly))
    if busy || decide (cs.vq.length ≥ 4) then .stall
    else s.checked l cs ([(bits fn 3 5 != 0 || glyRsv w true, cRESFIELD)] ++ glyErrs img gate)
      [w.r.b.toNat] [(ad, 528)] [.now ad 528 false] (fun _ =>
        if gate then
          let n := s.phys l.p l.l
          let d := s.ductus n
          .eff ((s.setDuctus n { d with loads := d.loads ++ [{ p := l.p, s := l.s, l := l.l, slot, image := img }] }).setCore l
            (cs.adv 16))
        else .eff (s.setCore l (({ cs with glyph := tput cs.glyph slot img } : CoreSt).adv 16)))))

/-- The gating slot a Ductus instruction uses, if any (06 R199). -/
def DOp.gateSlot (o : DOp) : Option Nat :=
  if o.op = 0xB0 ∨ (o.op = 0xB1 ∧ bit o.fn8 0 = true) then some (bits o.desc 668 2) else none

/-- Whether an instruction of a context that reached the engine, queued or running, still needs a gating slot. -/
def Ductus.gateBusy (d : Ductus) (c slot : Nat) : Bool :=
  let uses := fun (o : DOp) => o.loc.s == c && o.gateSlot == some slot
  d.run.any (fun e => uses e.2.op) || d.q.any (fun e => e.2.any uses)

/-- GATING_GLYPH_LOAD: the earliest load at a cluster's Ductus engine takes effect once no instruction of its context
that reached the engine before it still needs the slot (05 R184; log 73). -/
def execGatingGlyphLoad (clu : BitVec 6) (s : State) : Host.Outcome State Fault Refusal :=
  let d := s.ductus clu.toNat
  .next (match d.loads with
    | [] => s
    | g :: rest =>
      if s.plat.power ≠ .running || d.gateBusy g.s g.slot then s
      else
        let s1 := s.setDuctus clu.toNat { d with loads := rest }
        let x := s1.ctx g.p g.s
        s1.setCtx g.p g.s { x with gates := tput x.gates (4 * g.l + g.slot) g.image })

/-- GATT (05 R178, R184). -/
def execGatt (c : CoreId) (w : FormX) (s : State) : Host.Outcome State Fault Refusal :=
  .next (s.issue c (w.r.w0 0xC9) true (fun l cs =>
    let fn := w.r.fn8.toNat
    let i := fn % 4
    let a := cs.arr i
    let off := bit fn 4
    if a.holds (fun o => o.gly) then .stall
    else s.checked l cs [(bits fn 5 3 != 0 || (off && bits fn 2 2 != 0) || glyRsv w false, cRESFIELD)] [] [] [] (fun _ =>
      let b : ArrSt := if off then { a with att := none, mx := [], mxf := 0 }
        else { a with att := some (bits fn 2 2), dseq := 0, mx := [], mxf := 0 }
      .eff (s.setCore l ((cs.setArr i b).adv 16)))))

/-- GDRAIN (05 R183). -/
def execGdrain (c : CoreId) (w : FormX) (s : State) : Host.Outcome State Fault Refusal :=
  .next (s.issue c (w.r.w0 0xCA) true (fun l cs =>
    let fn := w.r.fn8.toNat
    let i := fn % 4
    let a := cs.arr i
    let ad := (cs.getX w.r.b.toNat).toNat % spadSize
    let b := a.dseq / 4 % 4
    if a.holds (fun _ => true) then .stall
    else s.checked l cs [(bits fn 2 6 != 0 || glyRsv w true, cRESFIELD)] [w.r.b.toNat] []
      (if a.mx.isEmpty then [] else [.now ad (tileSize (a.mxf % 16)) true]) (fun _ =>
        if a.mx.isEmpty then .eff (s.setCore l (cs.adv 16))
        else if a.bad then .exc cDATAUE (s.freeVal.toNat % spadSize) 0
        else
          let a1 := { a with mx := [], mxf := 0, dseq := roundUp (a.dseq + 1) 4 % 2 ^ 16 }
          let c1 : CoreSt := { cs.setArr i a1 with spad := mxWrite cs.spad a.mx a.mxf (mxTile ad) b }
          .eff (s.setCore l ((c1.clean (mxRanges (mxTile ad) a.mxf b)).adv 16)))))

/-- DRAIN_GLYPH_TILE: one tile of the oldest instruction in an array's sets passes its drain glyph (05 R179-R182). -/
def execDrainGlyphTile (c : CoreId) (arr : BitVec 2) (s : State) : Host.Outcome State Fault Refusal :=
  .next (s.onEngine c (fun l =>
    let cs := s.core l
    match (cs.arr arr.toNat).act with
    | [] => s
    | a :: _ =>
      if !a.op.gly || a.ready then s
      else
        let s1 : State := { s with free := s.free + 8 * a.op.nrows }
        s1.setCore l (drainTile (s.env l) cs arr.toNat)))

end Sys2Proof.Machine
end

