-- ==== Sys2Proof/Machine/MemPath.lean ====
section
/-! DEFINITION. The bytes of a partition at their homes: permissions (08 R310), scratchpads as targets (02 R56), atomics (02 R43), the snoop filter's recalls (11 R397), and
the table accesses of engines (06 R195). -/

namespace Sys2Proof.Machine

/-- The permission of a writer group on a granule (08 R310): 0 NONE, 1 SHARED, 2 OWNED. -/
def State.permOf (s : State) (p g wg : Nat) : Nat := tgetD (s.part p).perm (16 * g + wg) 0

/-- Whether an access finds a granule mapped, and no RO or STREAM object where it writes; host memory is refused while the link is
down (11 R399). -/
def State.mapOk (s : State) (p off : Nat) (write : Bool) : Bool :=
  (s.objAt p (off / granSize)).any (fun ob => !write || (!dRO ob.desc && dPolicy ob.desc != 2))
    && (match s.homeOf p off with
        | some (.host _) => s.link == .up
        | _ => true)

/-- Whether an access to a granule passes step 4 of R309: mapped, and permitted. -/
def State.resOk (s : State) (p wg off : Nat) (write : Bool) : Bool :=
  s.mapOk p off write && (if write then s.permOf p (off / granSize) wg == 2 else s.permOf p (off / granSize) wg != 0)

/-! Bytes at a home. -/

def State.hread (s : State) (h : Home) (n : Nat) : Nat :=
  match h with
  | .mem true a => mread s.dram a n
  | .mem false a => mread s.cstore a n
  | .ring q id a => mread (((s.part q).objs.find? (fun o => o.id == id)).elim [] Obj.ring) a n
  | _ => s.freeVal.toNat % 2 ^ (8 * n)

/-- Whether a line of the home is poisoned (12 R420): lines of 256 B, and words with an error that cannot be corrected (07 R266). -/
def State.hpoison (s : State) (h : Home) (n : Nat) : Bool :=
  match h with
  | .mem true a => (!s.dramPoison.isEmpty && (unitsOf a n 256).any s.dramPoison.contains)
      || s.upsets.any (fun u => u.hard && (match u.at_ with
        | .dram w => inWords 32 a n w
        | _ => false))
  | .mem false a => (!s.cstorePoison.isEmpty && (unitsOf a n 256).any s.cstorePoison.contains)
      || s.upsets.any (fun u => u.hard && (match u.at_ with
        | .cstore w => inWords 8 a n w
        | _ => false))
  | .ring q id a => (unitsOf a n 256).any (((s.part q).objs.find? (fun o => o.id == id)).elim [] Obj.rpois).contains
  | _ => false

/-- Lines that [a, a + n) covers whole. -/
def wholeLines (a n : Nat) : List Nat := (unitsOf a n 256).filter (fun l => decide (a ≤ 256 * l) && decide (256 * l + 256 ≤ a + n))

/-- n bytes written; whole lines lose their poison and whole words their errors (07 R266). -/
def State.hwrite (s : State) (h : Home) (n v : Nat) : State :=
  match h with
  | .mem true a =>
    { s with dram := mwrite s.dram a n v
             dramPoison := s.dramPoison.filter (fun l => !(wholeLines a n).contains l)
             upsets := s.upsets.filter (fun u => match u.at_ with
               | .dram w => !coversWord 32 a n w
               | _ => true) }
  | .mem false a =>
    { s with cstore := mwrite s.cstore a n v
             cstorePoison := s.cstorePoison.filter (fun l => !(wholeLines a n).contains l)
             upsets := s.upsets.filter (fun u => match u.at_ with
               | .cstore w => !coversWord 8 a n w
               | _ => true) }
  | _ => s

/-- An access to a home meets the errors of its words (07 R266). -/
def State.eccHome (s : State) (h : Home) (n : Nat) : State :=
  if s.upsets.isEmpty then s
  else match h with
    | .mem true a => s.eccDram a n
    | .mem false a => s.eccStore a n
    | _ => s

/-- The lines of a written range become poisoned (12 R420). -/
def State.hmark (s : State) (h : Home) (n : Nat) : State :=
  match h with
  | .mem true a => { s with dramPoison := addAll s.dramPoison (unitsOf a n 256) }
  | .mem false a => { s with cstorePoison := addAll s.cstorePoison (unitsOf a n 256) }
  | _ => s

/-- A write reached a granule that a CHECKPOINT watches (12 R438). -/
def State.noteWrite (s : State) (p off : Nat) : State :=
  match (s.part p).ckpt with
  | some k => if k.watched.contains (off / granSize) then s.setPart p { s.part p with ckpt := some { k with torn := true } } else s
  | none => s

/-! Scratchpads and counters as targets (02 R37, R56). -/

/-- The core an SPD or CTR offset names. -/
def offLoc (p c off : Nat) : Loc := ⟨p, c, bits off 24 6, bits off 18 6⟩

/-- Every MMA.S that streams from a written range [a, a + n) takes the write into its buffers (04 R126). -/
def CoreSt.refill (c : CoreSt) (a n : Nat) : CoreSt :=
  (List.range 4).foldl (fun d i =>
    let ar := d.arr i
    d.setArr i { ar with act := ar.act.map (fun x =>
      if x.op.kind = .mmaS ∧ (wgtRanges x.op.hdr x.op.wgt x.op.depth).any (fun r => (Rng.rd r.1 r.2).meets (.wr a n)) = true
      then x.rewrite c else x) }) c

/-- A remote write into a scratchpad (02 R41, 04 R126). -/
def CoreSt.take (c : CoreSt) (a n v : Nat) : CoreSt :=
  (({ c with spad := swrite c.spad a n v } : CoreSt).clean [(a, n)]).refill a n

def State.spadWrite (s : State) (l : Loc) (a n v : Nat) : State := s.setCore l ((s.core l).take a n v)

/-- Words of a scratchpad that a poisoned write leaves poisoned (12 R420). -/
def State.spadMark (s : State) (l : Loc) (a n : Nat) : State :=
  let c := s.core l
  s.setCore l (({ c with spadPoison := addAll c.spadPoison ((unitsOf a n 8).map (· % 32768)) } : CoreSt).refill a n)

/-! Atomics (02 R43). -/

/-- The value an atomic leaves: operation 0 ADD, 1 MIN, 2 MAX on element type t. -/
def atomFn (aop t old x : Nat) : Nat :=
  let w := 8 * atomBytes t
  let f := if t = 2 then 0 else 1
  if t ≤ 1 then
    match aop with
    | 0 => (old + x) % 2 ^ w
    | 1 => if sgn (x % 2 ^ w) w < sgn old w then x % 2 ^ w else old
    | _ => if sgn old w < sgn (x % 2 ^ w) w then x % 2 ^ w else old
  else
    let a := toNum f old
    let b := toNum f (x % 2 ^ w)
    ofNum f .rne (match aop with
      | 0 => a.add b
      | 1 => a.min b
      | _ => a.max b)

/-! Recalls of lines the host holds (11 R397). -/

def State.sfEntry (s : State) (f line : Nat) : Option SfEnt := s.sf.find? (fun e => e.f == f && e.line == line)

/-- Whether a device access to a line must wait for a recall. -/
def State.mustRecall (s : State) (f line : Nat) (write : Bool) : Bool :=
  match s.sfEntry f line with
  | some e => write || e.claimed
  | none => false

/-- A Recall sent, unless one is on its way. -/
def State.sendRecall (s : State) (f line : Nat) : State :=
  if s.recalls.contains (f, line) then s
  else
    let r : HostReq := { id := s.hostId, kind := 3, addr := 64 * line, size := 64, data := 0, wait := .recall f line }
    { s with recalls := s.recalls ++ [(f, line)], hostId := s.hostId + 1, hostTx := s.hostTx ++ [.request r] }

/-- The lines of [off, off + n) of a partition's Reservoir whose host copies must come back first. -/
def State.held (s : State) (p off n : Nat) (write : Bool) : List Nat :=
  if s.sf.isEmpty then [] else (unitsOf off n 64).filter (fun l => s.mustRecall p l write)

def State.recallAll (s : State) (p : Nat) (ls : List Nat) : State := ls.foldl (fun s l => s.sendRecall p l) s

/-! Requests to the host (11 R398). -/

/-- The StoreMasks of a write of [a, a + n): one for each 64 B line, with its mask and the line's bytes in place (11 R396, R398). -/
def storeMasks (a n v : Nat) : List (Nat × Nat × Nat) :=
  (unitsOf a n 64).map (fun l =>
    let lo := max a (64 * l)
    let hi := min (a + n) (64 * l + 64)
    (64 * l, (2 ^ (hi - lo) - 1) * 2 ^ (lo - 64 * l), bits v (8 * (lo - a)) (8 * (hi - lo)) * 2 ^ (8 * (lo - 64 * l))))

/-- One request sent. -/
def State.hostSend (s : State) (r : HostReq) : State :=
  { s with hreqs := s.hreqs ++ [{ r with id := s.hostId }], hostId := s.hostId + 1
           hostTx := s.hostTx ++ [.request { r with id := s.hostId }] }

/-- A LoadPeek or an Atomic, or the StoreMasks of a write. -/
def State.hostAsk (s : State) (kind addr size data : Nat) (w : HostWait) : State :=
  if kind = 1 then
    (storeMasks addr size data).foldl (fun (t : State) e =>
      t.hostSend { id := 0, kind, addr := e.1, size := 64, data := e.2.2, wait := w, mask := e.2.1, grp := s.hostId }) s
  else s.hostSend { id := 0, kind, addr, size, data, wait := w, grp := s.hostId }

/-! Blocks being migrated (07 R256). -/

/-- Transfers of a migration in flight. -/
def State.moving (s : State) (p g : Nat) : Bool :=
  s.hreqs.any (fun r => match r.wait with
    | .move q h _ => q == p && h == g
    | _ => false)
  || s.ops.any (fun e => match e.2.owner with
    | .move q h _ => q == p && h == g
    | _ => false)

/-- Whether a block of a granule that is being copied from outside the device holds an offset. -/
def State.migBusy (s : State) (p off : Nat) : Bool :=
  (s.part p).migs.any (fun m => m.gran == off / granSize && m.next == off % granSize / 65536 && s.moving p m.gran)

/-! Table accesses of engines to their own node (06 R195): an address with its space in [49:48], and a byte offset. -/

def tblSpace (a : Nat) : Nat := bits a 48 2
def tblOff (a i : Nat) : Nat := (bits a 0 48 + i) % 2 ^ 48

/-- Cuts [off, off + n) at the multiples of u. -/
def cutAt (u : Nat) : Nat → Nat → Nat → List (Nat × Nat)
  | 0, _, _ => []
  | k + 1, off, n =>
    if n = 0 then []
    else
      let m := min n (u - off % u)
      (off, m) :: cutAt u k (off + m) (n - m)

def blocksOf (off n : Nat) : List (Nat × Nat) := cutAt 256 (n / 256 + 2) off n

/-- The first offset of a table range that its home refuses (06 R195, 08 R309). -/
def State.tblBad (s : State) (p a i n : Nat) (write : Bool) : Option Nat :=
  let off := tblOff a i
  if tblSpace a = 1 then
    (if off + n > 2 ^ 30 || decide ((off + n - 1) / 2 ^ 24 ≥ s.nclu p) && n != 0 then
      some (max off (s.nclu p * 2 ^ 24)) else none)
  else
    ((unitsOf off n granSize).find? (fun g => !s.resOk p (s.wg p) (g * granSize) write)).map (fun g => max off (g * granSize))

/-- The home a COPY or a ring record reads: a STREAM block that is not staged is read at its backing, which holds the same bytes
(log 13). -/
def State.srcHome (s : State) (p off : Nat) : Option Home :=
  match s.homeOf p off with
  | some (.unstaged id b) =>
    (((s.part p).objs.find? (fun o => o.id == id)).bind (fun o => tget o.place (b / 32))).map (fun pl => pl.home (off % granSize))
  | h => h

/-- Whether a home is outside the device. -/
def Home.away (h : Home) : Bool :=
  match h with
  | .host _ => true
  | .node _ _ => true
  | _ => false

/-- Whether an engine must fetch what it reads at a home before it runs: what lies outside the device, and the blocks of a STREAM
object, which stay in the ring for a time only (07 R254). -/
def Home.fetched (h : Home) : Bool :=
  match h with
  | .mem .. => false
  | _ => true

/-! Tables outside the device (06 R195; 07 R254): their pieces are asked for before an engine runs, and it runs once they have
come (log 13). -/

/-- The piece that holds an engine's words of one block. -/
def State.farAt (s : State) (w : Who) (p off n : Nat) : Option FarBlk :=
  s.far.find? (fun e => e.who == w && e.part == p && decide (e.st < 3) && decide (e.off ≤ off) && decide (off + n ≤ e.off + e.len))

/-- Whether a piece waits for its block to be staged. -/
def State.farWaits (s : State) (w : Who) (p off n : Nat) : Bool :=
  s.far.any (fun e => e.who == w && e.part == p && e.st == 6 && e.off == off && e.len == n)

/-- The pieces of a readable table range that are fetched, in whole 8 B words. -/
def State.tblFar (s : State) (p a i n : Nat) : List (Nat × Nat) :=
  if tblSpace a = 1 then []
  else ((blocksOf (tblOff a i) n).filter (fun b => (s.homeOf p b.1).any Home.fetched && s.resOk p (s.wg p) b.1 false)).map
    (fun b => (b.1 / 8 * 8, roundUp (b.1 + b.2) 8 - b.1 / 8 * 8))

/-- The first piece of a range whose read failed: its code, and its offset. -/
def State.tblLost (s : State) (w : Who) (p a i n : Nat) : Option (Nat × Nat) :=
  (s.tblFar p a i n).findSome? (fun b => (s.farAt w p b.1 b.2).bind (fun e => if e.st = 2 then some (e.code, b.1) else none))

/-- What an engine must have before it uses a range: a line that the host holds, a piece from outside the device, or the end of a
block's copy (07 R256). -/
inductive Need where
  | line (l : Nat)
  | far (off n : Nat)
  | busy
  deriving DecidableEq, Repr

/-- The words of another node that a range to be written covers in part: remote operations carry whole 8 B words, so an
engine reads them first (02 R42; log 13). -/
def State.tblEdges (s : State) (p a i n : Nat) : List (Nat × Nat) :=
  let off := tblOff a i
  if tblSpace a = 1 then []
  else ((if off % 8 = 0 then [] else [off / 8 * 8]) ++ (if (off + n) % 8 = 0 then [] else [(off + n) / 8 * 8])).filterMap
    (fun o => match s.homeOf p o with
      | some (.node _ _) => some (o, 8)
      | _ => none)

/-- What a table range still lacks. -/
def State.tblHeld (s : State) (w : Who) (p a i n : Nat) (write : Bool) : List Need :=
  if tblSpace a = 1 then []
  else (if (blocksOf (tblOff a i) n).any (fun b => s.migBusy p b.1) then [Need.busy] else []) ++
    (s.held p (tblOff a i) n write).map Need.line ++
    ((if write then s.tblEdges p a i n else s.tblFar p a i n).filter
      (fun b => (s.farAt w p b.1 b.2).all (fun e => e.st == 0))).map (fun b => Need.far b.1 b.2)

/-- Whose work a table access is, for the engine that R30 orders and R191 limits: a Ductus engine, a Tier Mover, the Ligature
engines, a command. -/
def State.whoEng (s : State) (w : Who) : Nat × Nat :=
  match w with
  | .ductus l _ _ => (1, s.phys l.p l.l)
  | .mover q => (2, q)
  | .lig .. => (3, 0)
  | .cmd q => (4, q)
  | .ring k => (5, k)

/-- The remote operations a Ductus engine has in flight: its exchange unit's own, and the pieces of tables outside the device
(06 R191). -/
def State.engFlying (s : State) (clu : Nat) : Nat :=
  (s.ops.filter (fun e => match e.2.owner with
    | .ductus n .. => n == clu
    | _ => false)).length
    + (s.far.filter (fun e => (e.st == 0 || e.st == 3) && s.whoEng e.who == (1, clu))).length

/-- Whether an engine must wait before it issues an operation: no slot is free (08 R317), or a Ductus engine has 512 in flight
(06 R191). -/
def State.engFull (s : State) (w : Who) : Bool :=
  s.slotsFull || (match w with
    | .ductus l _ _ => decide (s.engFlying (s.phys l.p l.l) ≥ 512)
    | _ => false)

/-- A piece asked for: of the host, of the node of a REMOTE object in class C2, or of a STREAM's ring, where a block that is not
staged is waited for (07 R254). -/
def State.farAsk (s : State) (w : Who) (p off n : Nat) : State :=
  let e : FarBlk := { id := s.farNext, who := w, part := p, off, len := n, st := 0 }
  let t : State := { s with far := s.far ++ [e], farNext := s.farNext + 1 }
  if (s.farAt w p off n).isSome || s.farWaits w p off n || s.engFull w then s
  else match s.homeOf p off with
    | some (.host a) => t.hostAsk 0 a n 0 (.far s.farNext)
    | some (.node k x) =>
      if !lnLive (s.lnt p k) then
        { (match w with
            | .lig .. => s.eccAt (.node p k)
            | _ => s.deadNode p k) with far := s.far ++ [{ e with st := 2, code := cFABDEAD }], farNext := s.farNext + 1 }
      else t.sendOn p (.far s.farNext) .none k { ptype := 1, cls := 2, size := n / 8 - 1, off := x, space := 0 }
    | some (.ring q id a) =>
      { t with far := s.far ++ [{ e with st := 1, data := s.hread (.ring q id a) n, pz := s.hpoison (.ring q id a) n }] }
    | some (.unstaged ..) => { t with far := s.far ++ [{ e with st := 6 }] }
    | _ => s

/-- Whether a need has been asked for, or cannot be now. -/
def State.asked (s : State) (w : Who) (p : Nat) (x : Need) : Bool :=
  match x with
  | .line l => s.recalls.contains (p, l)
  | .far off n => (s.farAt w p off n).isSome || s.farWaits w p off n || s.engFull w
  | .busy => true

/-- One thing a range lacks is asked for: a Recall for a line, a read for a piece. -/
def State.ask (s : State) (w : Who) (p : Nat) (x : Need) : State :=
  match x with
  | .line l => s.sendRecall p l
  | .far off n => s.farAsk w p off n
  | .busy => s

/-- Everything a range lacks is asked for. -/
def State.gather (s : State) (w : Who) (p : Nat) (xs : List Need) : State := xs.foldl (fun (s : State) x => s.ask w p x) s

/-- An engine is done with its tables: what it fetched is dropped, and the free values its reads may have used are spent. -/
def State.tblEnd (s : State) (w : Who) : State :=
  { s with free := s.free + 2 ^ 48, far := s.far.filter (fun e => e.who != w || e.st == 3 || e.st == 4 || e.st == 5) }

/-- n open bytes for offset `off`. -/
def State.openBytes (s : State) (off n : Nat) : Nat :=
  (List.range (n / 8 + 1)).foldl (fun v i => v + (Config.freeValue (s.free + off / 8 + i)).toNat * 2 ^ (64 * i)) 0 % 2 ^ (8 * n)

/-- One block of a table as bytes: on the device, or as it was fetched. A block that has moved out of the device since the
engine started is open (log 13). -/
def State.tblBlock (s : State) (w : Who) (p c a : Nat) (b : Nat × Nat) : Nat :=
  if tblSpace a = 1 then mread (s.core (offLoc p c b.1)).spad (b.1 % 2 ^ 18) b.2
  else match s.homeOf p b.1 with
    | some h =>
      if !h.fetched then s.hread h b.2
      else match s.farAt w p b.1 b.2 with
        | some e => if e.st = 1 then bits e.data (8 * (b.1 - e.off)) (8 * b.2) else s.openBytes b.1 b.2
        | none => s.openBytes b.1 b.2
    | none => 0

/-- n bytes of a table from byte i, little-endian. -/
def State.tblRead (s : State) (w : Who) (p c a i n : Nat) : Nat :=
  let off := tblOff a i
  (blocksOf off n).foldl (fun v b => v + s.tblBlock w p c a b * 2 ^ (8 * (b.1 - off))) 0

/-- An engine's access to a table range meets the errors of its words. -/
def State.eccTbl (s : State) (p a i n : Nat) : State :=
  if s.upsets.isEmpty || tblSpace a == 1 then s
  else (blocksOf (tblOff a i) n).foldl (fun (s : State) b => match s.homeOf p b.1 with
    | some h => s.eccHome h b.2
    | none => s) s

/-- Whether a table range holds poison (12 R420). -/
def State.tblPoison (s : State) (w : Who) (p c a i n : Nat) : Bool :=
  (blocksOf (tblOff a i) n).any (fun b =>
    if tblSpace a = 1 then ((s.core (offLoc p c b.1)).poisonIn (b.1 % 2 ^ 18) b.2).isSome
    else match s.homeOf p b.1 with
      | some h => if h.fetched then (s.farAt w p b.1 b.2).any FarBlk.pz else s.hpoison h b.2
      | none => false)

/-- A write that will leave the device for an engine, which learns of its failure. -/
def State.farQueue (s : State) (w : Who) (p off n v : Nat) : State :=
  { s with far := s.far ++ [{ id := s.farNext, who := w, part := p, off, len := n, st := 5, data := v }], farNext := s.farNext + 1 }

/-- An engine's last view of the 8 B word at `off` of another node: as it wrote it, or as it read it. -/
def State.farWord (s : State) (w : Who) (p off : Nat) : Nat :=
  (s.far.reverse.find? (fun e => e.who == w && e.part == p && (e.st == 1 || e.st == 3 || e.st == 5) && decide (e.off ≤ off)
    && decide (off + 8 ≤ e.off + e.len))).elim 0 (fun e => bits e.data (8 * (off - e.off)) 64)

/-- n bytes at `off` widened to whole words: first byte, bytes, data. -/
def State.farWords (s : State) (w : Who) (p off n v : Nat) : Nat × Nat × Nat :=
  let lo := off / 8 * 8
  let m := roundUp (off + n) 8 - lo
  let old := (List.range (m / 8)).foldl (fun x i => x + s.farWord w p (lo + 8 * i) * 2 ^ (64 * i)) 0
  (lo, m, if m = n then v else setBits old (8 * (off - lo)) (8 * n) v)

/-- The store of n bytes at offset x of another node, in class C2 (07 R255). -/
def farStore (x n v : Nat) : RReq := { ptype := 2, cls := 2, size := n / 8 - 1, off := x, space := 0, data := v, words := n / 8 }

/-- A queued write sent to its home. -/
def State.farSend (s : State) (e : FarBlk) : State :=
  let s1 : State := { s with far := s.far.map (fun y => if y.id = e.id then { y with st := 3 } else y) }
  match s.homeOf e.part e.off with
  | some (.host x) => s1.hostAsk 1 x e.len e.data (.far e.id)
  | some (.node k x) =>
    if lnLive (s.lnt e.part k) then s1.sendOn e.part (.far e.id) .none k (farStore x e.len e.data)
    else
      let s2 : State := ({ s with far := s.far.filter (fun y => y.id != e.id) } : State).deadNode e.part k
      match e.who with
      | .ductus l _ pcAt => s2.asyncFail l cFABDEAD k x pcAt
      | .mover q =>
        let m := s2.mover q
        s2.setMover q { m with run := m.run.map (fun r => if r.status = 0 then { r with status := cFABDEAD } else r) }
      | _ => s2
  | some h => (({ s with far := s.far.filter (fun y => y.id != e.id) } : State).hwrite h e.len e.data).noteWrite e.part e.off
  | none => { s with far := s.far.filter (fun y => y.id != e.id) }

/-- Queued writes are sent in order, as far as their engines may (06 R191, 08 R317). -/
def State.farPump (s : State) : State :=
  (s.far.filter (fun e => e.st == 5)).foldl (fun (s : State) e => if s.engFull e.who then s else s.farSend e) s

/-- One block of a table written; a host or remote home is sent the write, unless it is poisoned (12 R420). -/
def State.tblPut (s : State) (w : Option Who) (p c a off n v : Nat) (pz : Bool) : State :=
  if tblSpace a = 1 then
    let l := offLoc p c off
    let s1 := s.spadWrite l (off % 2 ^ 18) n v
    if pz then s1.spadMark l (off % 2 ^ 18) n else s1
  else match s.homeOf p off with
    | some (.host x) =>
      if pz then s
      else match w with
        | some y => s.farQueue y p off n v
        | none => s.hostAsk 1 x n v .complete
    | some (.node k x) =>
      if pz then s
      else
        match w with
        | some y =>
          let u := s.farWords y p off n v
          s.farQueue y p u.1 u.2.1 u.2.2
        | none => s.sendOn p .free .none k (farStore x n v)
    | some h =>
      let s1 := (s.hwrite h n v).noteWrite p off
      if pz then s1.hmark h n else s1
    | none => s

/-- n bytes of a table written from byte i. -/
def State.tblWrite (s : State) (w : Option Who) (p c a i n v : Nat) (pz : Bool) : State :=
  let off := tblOff a i
  ((blocksOf off n).foldl (fun s b => s.tblPut w p c a b.1 b.2 (bits v (8 * (b.1 - off)) (8 * b.2)) pz) s).farPump

/-- Whether part of a range to be written lies outside the device. -/
def State.tblAway (s : State) (p a i n : Nat) : Bool :=
  tblSpace a == 0 && (blocksOf (tblOff a i) n).any (fun b => (s.homeOf p b.1).any Home.away)

/-- Whether part of a range to be written lies on a node that the partition does not reach. -/
def State.tblDead (s : State) (p a i n : Nat) : Bool :=
  tblSpace a == 0 && (blocksOf (tblOff a i) n).any (fun b => match s.homeOf p b.1 with
    | some (.node k _) => !lnLive (s.lnt p k)
    | _ => false)

/-- Whether writes of an engine are still on their way out of the device. -/
def State.farBusy (s : State) (w : Who) : Bool := s.far.any (fun e => e.who == w && (e.st == 3 || e.st == 5))

end Sys2Proof.Machine
end

