-- ==== Sys2Proof/Machine/DuctusSel.lean ====
section
/-! DEFINITION. The Ductus engine (06): descriptors and their checks, issue and queues, the collect table, and the
selection, count and combine units, whose instructions take effect when they start (log 14). -/

namespace Sys2Proof.Machine

def cDUCDESC : Nat := 0x0310
def cDUCKRANGE : Nat := 0x0311
def cDUCCTFULL : Nat := 0x0312
def cDUCGEN : Nat := 0x0313
def cDUCENTRY : Nat := 0x0314
def cDUCNOGLYPH : Nat := 0x0315

/-! The layer descriptor (06 R196). -/

def lySCORES (d : Nat) : Nat := bits d 0 64
def lySEL (d : Nat) : Nat := bits d 64 64
def lyCNT (d : Nat) : Nat := bits d 128 64
def lyOFFS (d : Nat) : Nat := bits d 192 64
def lyEMAP (d : Nat) : Nat := bits d 256 64
def lyTOK (d : Nat) : Nat := bits d 320 64
def lyRET (d : Nat) : Nat := bits d 384 64
def lyOUT (d : Nat) : Nat := bits d 448 64
def lyDROP (d : Nat) : Nat := bits d 512 64
def lyN (d : Nat) : Nat := bits d 576 24 + 1
def lyTBASE (d : Nat) : Nat := bits d 608 24
def lyE (d : Nat) : Nat := bits d 640 16 + 1
def lyK (d : Nat) : Nat := bits d 656 5 + 1
def lyTFMT (d : Nat) : Nat := bits d 664 4
def lySlot (d : Nat) : Nat := bits d 668 2
def lyHalves (d : Nat) : Bool := bit d 670
def lyKDIM (d : Nat) : Nat := bits d 672 32
def lyAB (d : Nat) : Nat := bits d 704 32
def lyAFMT (d : Nat) : Nat := bits d 736 4
def lyOFMT (d : Nat) : Nat := bits d 740 4
def lyREQ (d : Nat) : Nat := bits d 744 8
def lyBATCH (d : Nat) : Nat := bits d 752 16
def lyGEN (d : Nat) : Nat := bits d 768 16
def lyALLOC (d : Nat) : Nat := bits d 784 64

/-- A table address that breaks R195. -/
def taBad (a : Nat) : Bool := a % 16 != 0 || bits a 50 14 != 0 || decide (tblSpace a > 1)

/-- A layer descriptor that breaks R194 to R196. -/
def layerBad (d : Nat) : Bool :=
  ([lySCORES d, lySEL d, lyCNT d, lyOFFS d, lyEMAP d, lyTOK d, lyRET d, lyOUT d, lyDROP d, lyALLOC d].any taBad)
    || bits d 600 8 != 0 || bits d 632 8 != 0 || bits d 661 3 != 0 || bit d 671 || bits d 848 176 != 0
    || decide (lyTBASE d + lyN d > 2 ^ 24) || lyTFMT d == 12
    || lyKDIM d % 128 != 0 || lyKDIM d == 0 || decide (lyKDIM d > 65536)
    || lyAB d % 8 != 0 || lyAB d == 0 || decide (lyAB d > 65536)
    || decide (lyAFMT d > 2) || decide (lyOFMT d > 2)

/-- The half a token belongs to (06 R202). -/
def lyHalf (d t : Nat) : Nat := if lyHalves d && decide (t ≥ lyN d / 2) then 1 else 0

/-! The split descriptor (06 R216). -/

def spHOME (d : Nat) : Nat := bits d 0 64
def spWL (d : Nat) : Nat := bits d 64 64
def spCOST (d : Nat) : Nat := bits d 128 64
def spBUDGET (d : Nat) : Nat := bits d 192 32
def spNCORE (d : Nat) : Nat := bits d 224 16
def spHalf (d : Nat) : Bool := bit d 240
def spNnz (d : Nat) : Bool := bit d 241
def spConsume (d : Nat) : Bool := bit d 242
def spSTRIDE (d : Nat) : Nat := bits d 256 32
def spNHOME (d : Nat) : Nat := bits d 288 32

def splitBad (d : Nat) : Bool :=
  taBad (spHOME d) || taBad (spWL d) || (spNnz d && taBad (spCOST d))
    || (if spNnz d then spBUDGET d == 0 || decide (spBUDGET d > 2 ^ 24) else spBUDGET d != 0)
    || spNCORE d == 0 || decide (spNCORE d > 64) || bits d 243 13 != 0
    || spSTRIDE d % 32 != 0 || decide (spSTRIDE d < 64)
    || spNHOME d == 0 || decide (spNHOME d > 65536) || bits d 320 192 != 0

/-! A work item (06 R219). -/

def itREC (d : Nat) : Nat := bits d 0 48
def itFIRST (d : Nat) : Nat := bits d 64 32
def itROWS (d : Nat) : Nat := bits d 96 32
def itSEG (d : Nat) : Nat := bits d 192 16
def itSEGS (d : Nat) : Nat := bits d 208 16

/-! Generations and the collect table (06 R222, R226). -/

def genLive (g f : Nat) : Bool := let x := (g + 65536 - f) % 65536; decide (1 ≤ x) && decide (x ≤ 32768)

def Ductus.floorOf (d : Ductus) (c : Nat) : Nat := tgetD d.floor c 0xFFFF

def Ductus.entry (d : Ductus) (i : Nat) : CtEntry := tgetD d.ct i {}

/-- The entry of context slot c with a key, open or complete. -/
def Ductus.find (d : Ductus) (c b g h : Nat) : Option Nat :=
  (List.range' (16 * c) 16).find? (fun i =>
    let e := d.entry i
    e.st != 0 && e.batch == b && e.gen == g && e.half == h)

def Ductus.freeEntry (d : Ductus) (c : Nat) : Option Nat := (List.range' (16 * c) 16).find? (fun i => (d.entry i).st == 0)

/-- A key register (06 R193). -/
def keyOf (x : Nat) : Nat × Nat × Nat := (bits x 0 16, bits x 16 16, bits x 32 1)

/-- The counters of a cluster's engine (06 R232). -/
def oDuc (clu code : Nat) : Nat := cluBase clu + 0x10000 + 8 * (code - 0x0301)

def State.ducCount (s : State) (clu code n : Nat) : State := if n = 0 then s else s.countAt (oDuc clu code) code n

/-- An entry whose bytes have all come (06 R222, R223): its counter rises once. -/
def State.ctCheck (s : State) (clu i : Nat) : State :=
  let d := s.ductus clu
  let e := d.entry i
  if e.st = 1 ∧ e.got ≥ e.expect then
    let s1 := s.setDuctus clu { d with ct := tput d.ct i { e with st := 2, armed := none } }
    match e.armed with
    | some (l, n) => s1.addCounter l n 1
    | none => s1
  else s

/-! Failures and completion. -/

/-- A failure of the engine's remote operations reaches the issuing core (06 R231). -/
def State.ductusFault (s : State) (o : DOp) (code lnode space off : Nat) : State :=
  s.asyncFail o.loc code (lnode + space * 2 ^ 16) off o.pcAt

/-- The engine's instruction, where its tables lie outside the device. -/
def DOp.who (o : DOp) : Who := .ductus o.loc o.op o.pcAt

/-- Completion: the counter field A names rises by 1 (06 R189), once every write that left the device has been performed
(log 13). -/
def State.ductusDone (s : State) (o : DOp) : State :=
  if s.farBusy o.who then
    { s with far := s.far ++ [{ id := s.farNext, who := o.who, part := o.loc.p, off := 0, len := 0, st := 4, data := o.cnt }]
             farNext := s.farNext + 1 }
  else s.addCounter o.loc o.cnt 1

/-- Whether an instruction could start: it did and left this state, or it waits. -/
inductive Start where
  | wait (s : State)
  | went (s : State)

/-- Whether an operation that the engine issued earlier to a block of a table is still in flight (02 R30, R44). -/
def State.tblBehind (s : State) (o : DOp) (rs : List (Nat × Nat × Nat × Bool)) : Bool :=
  let mine := s.ops.filter (fun e => e.2.part == o.loc.p && e.2.pnode == s.pnode && (match e.2.owner with
    | .ductus n .. => n == s.phys o.loc.p o.loc.l
    | _ => false))
  mine.any (fun e => rs.any (fun r =>
    tblSpace r.1 == e.2.space && decide (tblOff r.1 r.2.1 / 256 ≤ e.2.off / 256)
      && decide (e.2.off / 256 * 256 < tblOff r.1 r.2.1 + r.2.2.1)))

/-- A check of table ranges (address, byte, length, written): refused at its home, failed outside the device, or waiting for
lines the host holds and pieces from outside the device, or not to be written outside it, or
behind the engine's own operations (02 R44). -/
inductive TblCheck where
  | ok
  | bad (space off : Nat)
  | lost (code off : Nat)
  | leak (code off : Nat)
  | held (ls : List Need)
  | behind
  deriving DecidableEq, Repr

/-- Whether one of the read ranges holds poison. -/
def State.tblsPoison (s : State) (o : DOp) (rs : List (Nat × Nat × Nat × Bool)) : Bool :=
  rs.any (fun r => !r.2.2.2 && s.tblPoison o.who o.loc.p o.loc.s r.1 r.2.1 r.2.2.1)

/-- Why a written range outside the device cannot be written: its node is not reached, or poison would leave the device
(12 R420). -/
def State.tblsLeak (s : State) (o : DOp) (rs : List (Nat × Nat × Nat × Bool)) : Option (Nat × Nat) :=
  let p := o.loc.p
  match rs.find? (fun r => r.2.2.2 && s.tblDead p r.1 r.2.1 r.2.2.1) with
  | some r => some (cFABDEAD, tblOff r.1 r.2.1)
  | none =>
    match rs.find? (fun r => r.2.2.2 && s.tblAway p r.1 r.2.1 r.2.2.1) with
    | some r => if s.tblsPoison o rs then some (cPOISON, tblOff r.1 r.2.1) else none
    | none => none

def State.tblCheck (s : State) (o : DOp) (rs : List (Nat × Nat × Nat × Bool)) : TblCheck :=
  let p := o.loc.p
  match rs.findSome? (fun r => (s.tblBad p r.1 r.2.1 r.2.2.1 r.2.2.2).map (fun x => (tblSpace r.1, x))) with
  | some e => .bad e.1 e.2
  | none =>
    match rs.findSome? (fun r => if r.2.2.2 then none else s.tblLost o.who p r.1 r.2.1 r.2.2.1) with
    | some e => .lost e.1 e.2
    | none =>
      match (rs.map (fun r => s.tblHeld o.who p r.1 r.2.1 r.2.2.1 r.2.2.2)).flatten with
      | [] => match s.tblsLeak o rs with
        | some e => .leak e.1 e.2
        | none => if s.tblBehind o rs then .behind else .ok
      | ls => .held ls

/-- An instruction over known tables: refused tables fail it, what it lacks delays it. -/
def State.overTables (s : State) (o : DOp) (rs : List (Nat × Nat × Nat × Bool)) (f : State → Start) : Start :=
  match s.tblCheck o rs with
  | .bad sp off => .went ((((s.count 0x0417).count cFABPERM).ductusFault o cFABPERM (s.ctx o.loc.p o.loc.s).lnode sp off).tblEnd o.who)
  | .lost code off => .went ((s.ductusFault o code (s.ctx o.loc.p o.loc.s).lnode 0 off).tblEnd o.who)
  | .leak code off => .went (((s.count code).ductusFault o code (s.ctx o.loc.p o.loc.s).lnode 0 off).tblEnd o.who)
  | .held ls => .wait (s.gather o.who o.loc.p ls)
  | .behind => .wait s
  | .ok => f (rs.foldl (fun (s : State) r => s.eccTbl o.loc.p r.1 r.2.1 r.2.2.1) s)

def State.rdT (s : State) (o : DOp) (a i n : Nat) : Nat := s.tblRead o.who o.loc.p o.loc.s a i n

def State.wrT (s : State) (o : DOp) (a i n v : Nat) (pz : Bool) : State :=
  s.tblWrite (some o.who) o.loc.p o.loc.s a i n v pz

/-- n fields of w bits. -/
def splitN (w n v : Nat) : List Nat := (List.range n).map (fun i => bits v (w * i) w)

/-! Selection (06 R199-R201). -/

/-- The gating glyph over the scores in token-major order (06 R199). -/
def gateScores (img seed c3 seq e : Nat) (xs : List Nat) : List Nat :=
  (xs.zip (List.range xs.length)).map (fun x => glyph img (philoxWord seed c3 seq x.2) x.1 (x.2 % e) (x.2 / e) 0)

/-- Stream 8 of a cluster (02 R65) after n elements. -/
def State.spend8 (s : State) (l : Loc) (n : Nat) : State :=
  let x := s.ctx l.p l.s
  s.setCtx l.p l.s { x with seq8 := tput x.seq8 l.l (tgetD x.seq8 l.l 0 + (n + 3) / 4) }

/-- The scores through the context's gating glyph, and the state after. -/
def State.gate (s : State) (o : DOp) (xs : List Nat) : State × List Nat :=
  let l := o.loc
  let x := s.ctx l.p l.s
  let img := tgetD x.gates (4 * l.l + lySlot o.desc) 0
  (s.spend8 l xs.length,
    gateScores img x.seed.toNat (philoxC3 x.lnode l.l 0 8) (tgetD x.seq8 l.l 0) (lyE o.desc) xs)

def State.runDscore (s : State) (o : DOp) : Start :=
  let d := o.desc
  let m := lyN d * lyE d
  let rs := [(lySCORES d, 0, 4 * m, false), (lySCORES d, 0, 4 * m, true)]
  s.overTables o rs (fun s =>
    let pz := s.tblsPoison o rs
    let g := s.gate o (splitN 32 m (s.rdT o (lySCORES d) 0 (4 * m)))
    .went (((g.1.wrT o (lySCORES d) 0 (4 * m) (packElems 32 g.2) pz).tblEnd o.who).ductusDone o))

def State.runDtopk (s : State) (o : DOp) : Start :=
  let d := o.desc
  let n := lyN d
  let e := lyE d
  let k := lyK d
  let rs := [(lySCORES d, 0, 4 * (n * e), false), (lySEL d, 0, 16 * n * k, true)]
  s.overTables o rs (fun s =>
    let pz := s.tblsPoison o rs
    let xs := splitN 32 (n * e) (s.rdT o (lySCORES d) 0 (4 * (n * e)))
    let g := if bit o.fn8 0 then s.gate o xs else (s, xs)
    let s1 := (List.range n).foldl (fun (s : State) t =>
      let row := (g.2.drop (t * e)).take e
      (((keyOrder false (nums 0 row)).take k).zip (List.range k)).foldl (fun (s : State) x =>
        s.wrT o (lySEL d) (16 * (t * k + x.2)) 8 (x.1 + row.getD x.1 0 * 2 ^ 32) pz) s) g.1
    .went ((s1.tblEnd o.who).ductusDone o))

/-- The weights of one token and its NORM bits (06 R201). -/
def normWeights (mode : Nat) (ws : List Nat) : List Nat × Nat :=
  if mode = 0 then
    let r := smax 0 ((nums 0 ws).map (fun x => (x, true)))
    (r.1, r.2.2.2)
  else
    let t := f32 (toF32 (Num.sum (nums 0 ws)))
    ((nums 0 ws).map (fun w => toF32 (w.div t)), 0)

def State.runDnorm (s : State) (o : DOp) : Start :=
  let d := o.desc
  let n := lyN d
  let k := lyK d
  let rs := [(lySEL d, 0, 16 * n * k, false), (lySEL d, 0, 16 * n * k, true)]
  s.overTables o rs (fun s =>
    let pz := s.tblsPoison o rs
    let recs := splitN 128 (n * k) (s.rdT o (lySEL d) 0 (16 * n * k))
    let out := ((List.range n).map (fun t =>
      let row := (recs.drop (t * k)).take k
      let w := normWeights (o.fn8 % 4) (row.map (fun r => bits r 32 32))
      (row.zip w.1).map (fun x => setBits (setBits x.1 32 32 x.2) 98 3 w.2))).flatten
    .went (((s.wrT o (lySEL d) 0 (16 * n * k) (packElems 128 out) pz).tblEnd o.who).ductusDone o))

/-! Counting (06 R203, R204). -/

/-- One record visited (06 R203): counts keyed 2 e + h, records so far in reverse, pairs without an expert. -/
def histStep (e : Nat) (st : Tbl Nat × List Nat × Nat) (x : Nat × Nat) : Tbl Nat × List Nat × Nat :=
  let ex := bits x.1 0 32
  let r := setBits x.1 96 1 0
  if ex ≥ e then (st.1, setBits r 97 1 1 :: st.2.1, st.2.2 + 1)
  else
    let c := tgetD st.1 (2 * ex + x.2) 0
    (tput st.1 (2 * ex + x.2) (c + 1), setBits (setBits r 97 1 0) 64 32 c :: st.2.1, st.2.2)

def State.runDhist (s : State) (clu : Nat) (o : DOp) : Start :=
  let d := o.desc
  let n := lyN d
  let e := lyE d
  let k := lyK d
  let rs := [(lySEL d, 0, 16 * n * k, false), (lySEL d, 0, 16 * n * k, true), (lyCNT d, 0, 8 * e, true)]
  s.overTables o rs (fun s =>
    let pz := s.tblsPoison o rs
    let recs := splitN 128 (n * k) (s.rdT o (lySEL d) 0 (16 * n * k))
    let r := (recs.zip (List.range (n * k))).foldl (fun st x => histStep e st (x.1, lyHalf d (x.2 / k))) ([], [], 0)
    let s1 := s.wrT o (lySEL d) 0 (16 * n * k) (packElems 128 r.2.1.reverse) pz
    let s2 := s1.wrT o (lyCNT d) 0 (8 * e) (packElems 32 ((List.range (2 * e)).map (fun i => tgetD r.1 i 0))) pz
    .went (((s2.ducCount clu 0x0302 r.2.2).tblEnd o.who).ductusDone o))

/-- Exclusive prefix sums modulo 2^32. -/
def prefSums : Nat → List Nat → List Nat
  | _, [] => []
  | a, x :: xs => a % 2 ^ 32 :: prefSums (a + x) xs

/-- Lists taken turn by turn. -/
def weave : List Nat → List Nat → List Nat
  | x :: xs, y :: ys => x :: y :: weave xs ys
  | _, _ => []

/-- The counts of half h by expert. -/
def halfOf (h : Nat) (xs : List Nat) : List Nat := (List.range (xs.length / 2)).map (fun i => xs.getD (2 * i + h) 0)

def State.runDscan (s : State) (o : DOp) : Start :=
  let d := o.desc
  let e := lyE d
  let rs := [(lyCNT d, 0, 8 * e, false), (lyOFFS d, 0, 8 * e, true)]
  s.overTables o rs (fun s =>
    let pz := s.tblsPoison o rs
    let cs := splitN 32 (2 * e) (s.rdT o (lyCNT d) 0 (8 * e))
    .went ((s.wrT o (lyOFFS d) 0 (8 * e) (packElems 32 (weave (prefSums 0 (halfOf 0 cs)) (prefSums 0 (halfOf 1 cs)))) pz
      ).tblEnd o.who |>.ductusDone o))

/-! DSPLIT (06 R217-R219). A record's inbox field numbers (06 R214). -/

def rcCOUNT (r : Nat) : Nat := bits r 64 32
def rcTAGOFF (r : Nat) : Nat := bits r 96 32
def rcRETADDR (r : Nat) : Nat := bits r 128 48
def rcRETNODE (r : Nat) : Nat := bits r 176 16
def rcAB (r : Nat) : Nat := bits r 192 32
def rcRETCLU (r : Nat) : Nat := bits r 224 6
def rcVALID (r : Nat) : Bool := bit r 231
def rcREMAIN (r : Nat) : Nat := bits r 320 32

/-- An item before dealing: record address, first row, rows, first non-zero, non-zeros, segment, segments. -/
structure Item where
  at_ : Nat
  first : Nat
  rows : Nat
  nzf : Nat := 0
  nzc : Nat := 0
  seg : Nat := 0
  segs : Nat := 1
  deriving DecidableEq, Repr

/-- items_dense (06 R217). -/
def itemsDense (rec count : Nat) : List Item :=
  let g := (count + 7) / 8
  let m := (g + 63) / 64
  (List.range m).map (fun i =>
    let lo := i * g / m
    let hi := (i + 1) * g / m
    { at_ := rec, first := 8 * lo, rows := min (8 * hi) count - 8 * lo })

/-- How many rows from the head of `nz` fit one item: at most n of them, with a sum of at most b; and their sum. -/
def fitRows (b : Nat) : Nat → List Nat → Nat → Nat × Nat
  | 0, _, s => (0, s)
  | _, [], s => (0, s)
  | n + 1, x :: xs, s => if s + x ≤ b then let r := fitRows b n xs (s + x); (r.1 + 1, r.2) else (0, s)

/-- items_nnz (06 R217) from row i on. -/
def itemsNnz (rec b : Nat) : Nat → Nat → List Nat → List Item
  | 0, _, _ => []
  | _, _, [] => []
  | f + 1, i, x :: xs =>
    if x > b then
      let sn := (x + b - 1) / b
      ((List.range sn).map (fun s =>
        ({ at_ := rec, first := i, rows := 1, nzf := s * x / sn, nzc := (s + 1) * x / sn - s * x / sn, seg := s, segs := sn } : Item)))
        ++ itemsNnz rec b f (i + 1) xs
    else
      let r := fitRows b 512 (x :: xs) 0
      { at_ := rec, first := i, rows := r.1, nzc := r.2 } :: itemsNnz rec b f (i + r.1) ((x :: xs).drop r.1)

def Item.cost (nnz : Bool) (t : Item) : Nat := if nnz then t.nzc else t.rows

/-- The core with the least cost so far, the lower one on a tie (06 R218). -/
def leastOf : List Nat → Nat
  | [] => 0
  | c :: cs =>
    match cs.zip (List.range' 1 cs.length) |>.foldl (fun (b : Nat × Nat) x => if x.1 < b.1 then x else b) (c, 0) with
    | (_, i) => i

/-- The items dealt in order: (core, item) pairs and the costs. -/
def deal (nnz : Bool) : List Item → List Nat → List (Nat × Item)
  | [], _ => []
  | t :: ts, cs =>
    let c := leastOf cs
    (c, t) :: deal nnz ts (cs.set c (cs.getD c 0 + t.cost nnz))

def Item.word (t : Item) : Nat :=
  t.at_ + t.first * 2 ^ 64 + t.rows * 2 ^ 96 + t.nzf % 2 ^ 32 * 2 ^ 128 + t.nzc % 2 ^ 32 * 2 ^ 160 + t.seg % 2 ^ 16 * 2 ^ 192
    + t.segs % 2 ^ 16 * 2 ^ 208

/-- A core's work list: bytes, and items left out (06 R219). -/
def workList (nnz : Bool) (stride : Nat) (ts : List Item) : Nat × Nat × Nat :=
  let room := (stride - 32) / 32
  let fit := ts.take room
  let n := ts.length
  let head := n + listSum (ts.map (Item.cost nnz)) % 2 ^ 32 * 2 ^ 32 + b2n (decide (n > room)) * 2 ^ 64
  (head + 2 ^ 256 * packElems 256 (fit.map Item.word), 32 + 32 * fit.length, n - fit.length)

/-- The inboxes of a home table: address of the half's inbox and its capacity. -/
def inboxes (d home : Nat) : List (Nat × Nat) :=
  (splitN 128 (spNHOME d) home).map (fun x =>
    let cap := bits x 64 32
    ((bits x 0 48 + (if spHalf d then 64 + 64 * cap else 0)) % 2 ^ 48, cap))

def State.runDsplit (s : State) (clu : Nat) (o : DOp) : Start :=
  let d := o.desc
  let nnz := spNnz d
  let rs0 := [(spHOME d, 0, 16 * spNHOME d, false)]
  s.overTables o rs0 (fun s =>
    let ibs := inboxes d (s.rdT o (spHOME d) 0 (16 * spNHOME d))
    let rs1 := ibs.map (fun b => (b.1, 0, 8, false))
    s.overTables o rs1 (fun s =>
      let addrs := (ibs.map (fun b => (List.range (min (s.rdT o b.1 0 8) b.2)).map (fun i => b.1 + 64 + 64 * i))).flatten
      let rs2 := addrs.map (fun a => (a, 0, 64, false)) ++ addrs.map (fun a => (a, 0, 64, true))
        ++ (if spConsume d then ibs.map (fun b => (b.1, 0, 8, true)) else [])
      s.overTables o rs2 (fun s =>
        let recs := addrs.map (fun a => (a, s.rdT o a 0 64))
        let good := recs.filter (fun r => rcVALID r.2)
        let rows := listSum (good.map (fun r => rcCOUNT r.2))
        let rs3 := if nnz then [(spCOST d, 0, 4 * rows, false)] else []
        s.overTables o rs3 (fun s =>
          let pz := s.tblsPoison o (rs0 ++ rs1 ++ rs2 ++ rs3)
          let costs := if nnz then splitN 32 rows (s.rdT o (spCOST d) 0 (4 * rows)) else []
          let built := (good.foldl (fun (st : List Nat × List (Nat × List Item)) r =>
            let n := rcCOUNT r.2
            let it := if nnz then itemsNnz r.1 (spBUDGET d) n 0 (st.1.take n) else itemsDense r.1 n
            (st.1.drop n, st.2 ++ [(r.1, it)])) (costs, [])).2
          let dealt := deal nnz (built.map Prod.snd).flatten (List.replicate (spNCORE d) 0)
          let lists := (List.range (spNCORE d)).map (fun c =>
            (c, workList nnz (spSTRIDE d) ((dealt.filter (fun x => x.1 == c)).map Prod.snd)))
          s.overTables o (lists.map (fun x => (spWL d, x.1 * spSTRIDE d, x.2.2.1, true))) (fun s =>
          -- REMAIN, then VALID and TAIL when consuming, then the lists
          let s1 := built.foldl (fun (s : State) b => s.wrT o b.1 40 4 b.2.length pz) s
          let s2 := if spConsume d then
              let sa := good.foldl (fun (s : State) r => s.wrT o r.1 28 1 (bits r.2 224 7) pz) s1
              ibs.foldl (fun (s : State) b => s.wrT o b.1 0 8 0 pz) sa
            else s1
          let s3 := lists.foldl (fun (s : State) x =>
            (s.wrT o (spWL d) (x.1 * spSTRIDE d) x.2.2.1 x.2.1 pz).ducCount clu 0x0302 x.2.2.2) s2
          .went (((s3.ducCount clu 0x0302 (recs.length - good.length)).tblEnd o.who).ductusDone o))))))

/-! DCOMBINE (06 R224, R225). -/

/-- One token's sum over its kept slots (06 R224): pairs of weight and answer elements. -/
def gateRow (renorm : Bool) (m : Nat) (xs : List (Num × List Num)) : List Num :=
  let ws := f32 (toF32 (Num.sum (xs.map Prod.fst)))
  xs.foldl (fun acc x =>
    let w := if renorm && !ws.isZero then f32 (toF32 (x.1.div ws)) else x.1
    (acc.zip x.2).map (fun y => f32 (toF32 ((w.mul y.2).add y.1)))) (List.replicate m (.fin false 0 0 false))

/-- Where the answer of a pair lies, from RET (06 R215). -/
def ansOff (d h : Nat) (cs offs : List Nat) (e r : Nat) : Nat :=
  (if h = 1 then listSum (halfOf 0 cs) * lyAB d else 0) + (offs.getD (2 * e + h) 0 + r) * lyAB d

/-- The kept records of token t (06 R224). -/
def keptOf (d : Nat) (recs : List Nat) (t : Nat) : List Nat :=
  ((recs.drop (t * lyK d)).take (lyK d)).filter (fun r => bits r 96 2 == 0 && decide (bits r 0 32 < lyE d))

def State.runCombine (s : State) (o : DOp) (close : State → State) : Start :=
  let d := o.desc
  let h := (keyOf o.xc.toNat).2.2
  let n := lyN d
  let e := lyE d
  let k := lyK d
  let m := lyAB d / (fmtBits (lyAFMT d) / 8)
  let osz := fmtBits (lyOFMT d) / 8
  let toks := (List.range n).filter (fun t => lyHalf d t == h)
  let rs0 := [(lySEL d, 0, 16 * n * k, false), (lyCNT d, 0, 8 * e, false), (lyOFFS d, 0, 8 * e, false)]
  s.overTables o rs0 (fun s =>
    let recs := splitN 128 (n * k) (s.rdT o (lySEL d) 0 (16 * n * k))
    let cs := splitN 32 (2 * e) (s.rdT o (lyCNT d) 0 (8 * e))
    let offs := splitN 32 (2 * e) (s.rdT o (lyOFFS d) 0 (8 * e))
    let ans := fun r => ansOff d h cs offs (bits r 0 32) (bits r 64 32)
    let rs1 := (toks.map (fun t => (keptOf d recs t).map (fun r => (lyRET d, ans r, lyAB d, false)))).flatten
      ++ toks.map (fun t => (lyOUT d, t * m * osz, m * osz, true))
    s.overTables o (rs0 ++ rs1) (fun s =>
      let pz0 := s.tblsPoison o rs0
      let s1 := toks.foldl (fun (s : State) t =>
        let kept := keptOf d recs t
        let xs := kept.map (fun r => (f32 (bits r 32 32),
          nums (lyAFMT d) (splitN (fmtBits (lyAFMT d)) m (s.rdT o (lyRET d) (ans r) (lyAB d)))))
        let pz := pz0 || s.tblsPoison o (kept.map (fun r => (lyRET d, ans r, lyAB d, false)))
        s.wrT o (lyOUT d) (t * m * osz) (m * osz)
          (packElems (fmtBits (lyOFMT d)) ((gateRow (bit o.fn8 1) m xs).map (ofNum (lyOFMT d) .rne))) pz) s
      .went (((close s1).tblEnd o.who).ductusDone o)))

/-- The sum of a segmented row (06 R225). -/
def segSum (m : Nat) (sp : Mem) (a n : Nat) : List Nat :=
  (List.range m).map (fun j =>
    (List.range' 1 (n - 1)).foldl (fun acc i =>
      toF32 ((f32 acc).add (f32 (sread sp (a + 4 * (m * i + j)) 4)))) (sread sp (a + 4 * j) 4))

/-- DCOMBINE with SEG = 1: rows at x[B] (kept in `desc`), output at x[D]. Poison travels by element. -/
def State.runSeg (s : State) (o : DOp) : Start :=
  let n := fld o.xc 0 16
  let m := fld o.xc 32 32
  let c := s.core o.loc
  let a := o.desc % spadSize
  let b := o.xd.toNat % spadSize
  let pz := (List.range m).filter (fun j => (List.range n).any (fun i => (c.poisonIn (a + 4 * (m * i + j)) 4).isSome))
  let c1 := c.take b (4 * m) (packElems 32 (segSum m c.spad a n))
  let c2 : CoreSt := { c1 with spadPoison := addAll c1.spadPoison (pz.map (fun j => (b + 4 * j) / 8 % 32768)) }
  .went ((s.setCore o.loc c2).addCounter o.loc o.cnt 1)

end Sys2Proof.Machine
end

