-- ==== Sys2Proof/Machine/Answer.lean ====
section
/-! DEFINITION. Packets at this device: how a request is taken from the mesh in the order that R44 gives, who issued it,
and the responses that answer it (02 R44, R46; 08 R284, R285, R309). -/

namespace Sys2Proof.Machine

/-- The issuer whose operations R44 orders: a core with its tile DMA, and each engine as R30 has it; none for what the device
does of its own accord. -/
def State.directIssuer (s : State) (o : Owner) : Option (Nat × Nat) :=
  match o with
  | .core l _ => some (0, l.key)
  | .dma l _ _ => some (0, l.key)
  | .ductus n .. => some (1, n)
  | .tmv q _ => some (2, q)
  | .lig .. => some (3, 0)
  | .far i => (s.far.find? (fun e => e.id == i)).map (fun e => s.whoEng e.who)
  | _ => none

/-- The issuer of an operation of this device, or of the request it carries on: one from another node is that node's, a copy of
a multicast of this device that of the multicast (02 R44, R49). -/
def State.issuer (s : State) (o : Owner) : Option (Nat × Nat) :=
  match o with
  | .fwd a => if a.snode = s.pnode then (s.opOf a).bind (fun x => s.directIssuer x.owner) else some (5, a.snode)
  | o => s.directIssuer o

def sameBlock (j k : Packet) : Bool :=
  j.isReq && k.isReq && j.snode == k.snode && j.dnode == k.dnode && j.dpart == k.dpart
    && (j.space == 0 || j.dctx == k.dctx) && j.space == k.space && j.offset / 256 == k.offset / 256

/-- Whether a request of one source must be performed before another of it (02 R44): sent earlier by one core or engine to one
block. Requests from another device keep the order in which they came. -/
def State.firstOf (s : State) (j k : Packet) : Bool :=
  sameBlock j k &&
    (if k.snode = s.pnode then
      let a := (s.opOf j).bind (fun o => s.issuer o.owner)
      a.isSome && a == (s.opOf k).bind (fun o => s.issuer o.owner)
    else true)

/-- The ADDs a packet holds: those the router combined in it, or itself (08 R312). -/
def State.sourcesOf (s : State) (j : Packet) : List Packet :=
  match (s.opOf j).map Op.owner with
  | some (.combine l) => l
  | _ => [j]

/-- Whether a request must be performed before another, for the ADDs that either holds (02 R44, 08 R325). -/
def State.before (s : State) (j k : Packet) : Bool :=
  (s.sourcesOf j).any (fun i => (s.sourcesOf k).any (fun m => s.firstOf i m))

/-- The entries of a queue that nothing ahead of them must precede. -/
def State.ready (s : State) (ahead : List QEnt) : List QEnt → List QEnt
  | [] => []
  | q :: qs => (if ahead.any (fun r => s.before r.pkt q.pkt) then [] else [q]) ++ s.ready (ahead ++ [q]) qs

/-! Mesh ports (08 R291, R306). -/

/-- A mesh port puts its next packet onto the mesh. -/
def State.serveMesh (s : State) (n : Nat) : State :=
  let m := s.meshQ n
  match m.arb.pick s.weights (s.ready [] m.outq) with
  | none => s
  | some (q, arb) => { s.setMeshQ n { outq := dropEnt q m.outq, arb } with mesh := s.mesh ++ [q.pkt] }

def State.inMeshQ (s : State) (n : Nat) (k : Packet) : Bool := (s.meshQ n).outq.any (fun q => q.pkt == k)

/-- A mesh port serves its queue until a packet has left it. -/
def unloadGo (n : Nat) (k : Packet) : Nat → State → State
  | 0, s => s
  | i + 1, s => if s.inMeshQ n k then unloadGo n k i (s.serveMesh n) else s

/-- A packet that waits at a mesh port comes onto the mesh, behind those that the port serves before it. -/
def State.unload (s : State) (k : Packet) : State :=
  match (List.range' 16 8).find? (fun n => s.inMeshQ n k) with
  | some n => unloadGo n k (s.meshQ n).outq.length s
  | none => s

def eraseFirst (k : Packet) : List Packet → List Packet
  | [] => []
  | j :: js => if j = k then js else j :: eraseFirst k js

/-- Whether a packet may be performed or delivered now: nothing on the mesh goes before it, and a packet of this device
is on the mesh. One that waits at a mesh port leaves it first (08 R291). -/
def State.mayTake (s : State) (k : Packet) : Bool :=
  let m := (s.unload k).mesh
  s.plat.power == .running && (m.contains k || k.snode != s.pnode) && !((m.takeWhile (fun j => j != k)).any (fun j => s.before j k))

/-- Credit that a fabric port owes its partner, in slots of a channel (08 R279). -/
def State.owe (s : State) (n vc c : Nat) : State :=
  let p := s.port n
  s.setPort n { p with owe := tput p.owe vc (tgetD p.owe vc 0 + c) }

/-- A packet has been taken: the port it came in by owes its slots back (08 R313). -/
def State.payCredit (s : State) (k : Packet) : State :=
  match s.owes.find? (fun o => o.pkt == k) with
  | none => s
  | some o => { s.owe o.port o.vc o.n with owes := s.owes.erase o }

/-- The packet without the device: off the mesh, its credit owed back. -/
def State.take (s : State) (k : Packet) : State :=
  let s1 : State := (s.unload k).payCredit k
  { s1 with mesh := eraseFirst k s1.mesh, passed := eraseFirst k s1.passed }

/-- A bad packet is discarded and counted at the first router that sees it (08 R285). -/
def State.dropBad (s : State) (k : Packet) : State := if k.bad && s.mayTake k then (s.take k).count 0x041B else s

/-- A packet sent by the device onto its mesh. -/
def State.put (s : State) (k : Packet) : State := { s with mesh := s.mesh ++ [k] }

/-- The response to a request: ACK 0x8, DATA 0x9, NAK 0xA (08 R284, R285). -/
def State.answer (s : State) (k : Packet) (ptype status words data : Nat) : State :=
  s.put (k.reply ptype s.srcEpoch status words data s.pnode)

/-- A refusal at the target (08 R309). -/
def State.refuse (s : State) (k : Packet) : State := (s.count 0x0417).answer k 0xA cFABPERM 0 0

/-- The counter a request notifies rises by 1 once it has been performed (02 R52). -/
def State.notify (s : State) (k : Packet) : State :=
  if k.nt then s.addCounter ⟨k.dpart, k.dctx, k.nclu, k.ncore⟩ k.ncnt 1 else s

/-- The logical node under which a partition knows a source (07 R249; DEDUCED, log 15). -/
def State.nodeOf (s : State) (p : Nat) (k : Packet) : Nat :=
  match (s.opOf k).bind (fun o => o.owner.loc) with
  | some l => (s.ctx l.p l.s).lnode
  | none =>
    match (s.part p).lnt.find? (fun e => lnLive e.2 && lnPnode e.2 == k.snode) with
    | some e => e.1
    | none => 0

end Sys2Proof.Machine
end

