-- ==== Sys2Proof/Machine/Inkwell.lean ====
section
/-! DEFINITION. The Inkwell (07 R234-R252): pools, requesters, the central Inkwell's allocation and free, and the
front ends. -/

namespace Sys2Proof.Machine

def cINKEMPTY : Nat := 0x0201
def cINKQUOTA : Nat := 0x0202
def cINKRANGE : Nat := 0x0203
def cINKALIGN : Nat := 0x0204
def cINKDOUBLE : Nat := 0x0205
def cINKREQ : Nat := 0x0206
def cINKSIZE : Nat := 0x0207
def cINKOP : Nat := 0x0208
def cINKMETAUE : Nat := 0x0209

/-! Classes and pools (07 R234-R236). -/

def classSize (c : Nat) : Nat := 256 * 2 ^ c

/-- class_of: the smallest class that holds n bytes. -/
def classOf (n : Nat) : Nat := ((List.range 23).find? (fun c => decide (n ≤ classSize c))).getD 23

def poolKey (p c : Nat) : Nat := 32 * p + c

/-- INK_META.SIZE: 4 KiB units of metadata (DESIGN CHOICE, log 16). -/
def inkMetaSize : Nat := 65536

def mdAllocated (m : Nat) : Bool := bit m 8
def mdCached (m : Nat) : Bool := bit m 9
def mdOwner (m : Nat) : Nat := bits m 0 8

def Pool.free (p : Pool) : Nat := p.top.length + (p.total - p.fresh)

def Pool.allocated (p : Pool) : Bool := p.md.any (fun e => mdAllocated e.2)

/-- Allocation pops the stack: the buffer most recently freed, else the lowest never handed out (07 R236). -/
def Pool.pop (p : Pool) : Nat × Pool :=
  match p.top with
  | i :: t => (i, { p with top := t })
  | [] => (p.fresh, { p with fresh := p.fresh + 1 })

def Pool.push (p : Pool) (i : Nat) : Pool := { p with top := i :: p.top, md := tdel p.md i }

def Pool.offset (p : Pool) (c i : Nat) : Nat := p.base * granSize + i * classSize c

def Pool.holds (p : Pool) (off : Nat) : Bool :=
  p.st != .disabled && decide (p.base * granSize ≤ off) && decide (off < (p.base + p.ngran) * granSize)

/-- 4 KiB units of metadata for n buffers. -/
def metaUnits (n : Nat) : Nat := (6 * n + 4095) / 4096

/-- The class of the pool of a partition whose region holds an offset. -/
def State.poolOf (s : State) (p off : Nat) : Option Nat :=
  (List.range 23).find? (fun c => (s.pool (poolKey p c)).holds off)

/-- Whether a granule range meets a pool region that is not DISABLED (07 R253). -/
def State.poolMeets (s : State) (p g n : Nat) : Bool :=
  (List.range 23).any (fun c =>
    let q := s.pool (poolKey p c)
    q.st != .disabled && decide (q.base < g + n) && decide (g < q.base + q.ngran))

/-! Use and credit (07 R240). -/

def State.creditOf (s : State) (r : Nat) : Nat := listSum (s.fe.map (fun e => tgetD e.2.credit r 0))

/-- INUSE changed by a lower or higher amount, and HIWATER after it. -/
def State.use_ (s : State) (r up down : Nat) : State :=
  let q := s.reqr r
  let n := q.inuse + up - down
  s.setReqr r { q with inuse := n, hiwater := max q.hiwater (n - s.creditOf r) }

/-- Every front-end credit of a requester is recalled. -/
def State.recallCredit (s : State) (r : Nat) : State :=
  let n := s.creditOf r
  let s1 : State := { s with fe := s.fe.map (fun e => (e.1, { e.2 with credit := tdel e.2.credit r })) }
  s1.use_ r 0 n

/-- Every cached buffer of a pool returns to its stack; the order is open, and here the buffer cached first at the first front end
ends on top (DESIGN CHOICE, log 110). -/
def State.recallCaches (s : State) (p c : Nat) : State :=
  let mine := s.fe.filter (fun e => (s.part p).clus.contains e.1)
  let back := (mine.map (fun e => tgetD e.2.cache c [])).flatten
  let q := back.foldr (fun i (q : Pool) => q.push i) (s.pool (poolKey p c))
  let s1 : State := { s with fe := s.fe.map (fun e =>
    if (s.part p).clus.contains e.1 then (e.1, { e.2 with cache := tdel e.2.cache c }) else e) }
  s1.setPool (poolKey p c) q

/-- Grants in transit of a pool, as (cluster, grant). -/
def State.grantsOf (s : State) (p c : Nat) : List (Nat × Grant) :=
  (s.fe.map (fun e => (e.2.grants.filter (fun g => g.p == p && g.cls == c)).map (fun g => (e.1, g)))).flatten

def State.inTransit (s : State) (p c i : Nat) : Bool := (s.grantsOf p c).any (fun g => g.2.idx == i)

/-- The owners of a pool's buffers, those of grants in transit too, give their bytes back; the grants are gone. -/
def State.disown (s : State) (p c : Nat) : State :=
  let owned := ((s.pool (poolKey p c)).md.filter (fun e => mdAllocated e.2)).map (fun e => mdOwner e.2)
  let going := (s.grantsOf p c).map (fun g => g.2.req)
  let s1 : State := (owned ++ going).foldl (fun (s : State) r => s.use_ r 0 (classSize c)) s
  { s1 with fe := s1.fe.map (fun e => (e.1, { e.2 with grants := e.2.grants.filter (fun g => !(g.p == p && g.cls == c)) })) }

/-- The metadata of a pool are read: an error that cannot be corrected sends an ACTIVE pool to FAILED (07 R237, R266). -/
def State.eccMeta (s : State) (p c : Nat) : State :=
  if s.upsets.isEmpty then s
  else
    let k := poolKey p c
    let x := s.eccEntry (.metadata k) 1
    if x.2 && (x.1.pool k).st == .active then x.1.setPool k { x.1.pool k with st := .failed } else x.1

/-! Requests (07 R242). -/

/-- The operand; an engine's own FREE is one of OP 2. -/
def InkReq.operand (r : InkReq) : Nat :=
  match r.own with
  | some x => x.2.2 % 2 ^ 48 + 2 ^ 61
  | none => r.pkt.data % 2 ^ 64

def InkReq.part (r : InkReq) : Nat :=
  match r.own with
  | some x => x.1
  | none => r.pkt.dpart
def inkOp (v : Nat) : Nat := bits v 60 4
def inkSize (v : Nat) : Nat := bits v 0 31
def inkReqId (v : Nat) : Nat := bits v 32 8
def inkClu (v : Nat) : Nat := bits v 40 6
def inkNofb (v : Nat) : Bool := bit v 46
def inkOff (v : Nat) : Nat := bits v 0 48

/-- An operand of an unassigned OP or with a non-zero reserved field. -/
def inkBad (v : Nat) : Bool :=
  (inkOp v != 1 && inkOp v != 2) || bits v 48 12 != 0 || (inkOp v == 1 && (bit v 31 || bit v 47))

/-- Whether a request may charge to its requester (07 R239). -/
def State.reqAccepts (s : State) (k : Packet) (p r : Nat) : Bool :=
  let q := s.reqr r
  let src := (s.opOf k).map (fun o => (o.part, (o.owner.loc).map Loc.s))
  q.valid && q.part == p &&
    (match q.kind with
     | 0 => src.any (fun x => x.1 == p)
     | 1 => src.any (fun x => x.1 == p && x.2 == some q.ctx)
     | 2 => k.snode != s.pnode
     | _ => false)

/-- The code that answers an ALLOC before any pool is searched, if one does. -/
def State.allocBad (s : State) (k : Packet) (v : Nat) : Option Nat :=
  firstErr
    [(inkBad v, cINKOP), (inkSize v == 0 || decide (inkSize v > 2 ^ 30), cINKSIZE),
     (k.snode == s.pnode && decide (inkClu v ≥ s.nclu k.dpart), cINKOP),
     (!s.reqAccepts k k.dpart (inkReqId v), cINKREQ)]

def inkFail (code : Nat) : Nat := 2 ^ 63 + code

/-- A reply of the Inkwell (07 R243): the fetch-add's data; a failure is counted (07 R251). -/
def State.inkReply (s : State) (k : Packet) (v : Nat) : State :=
  let s1 : State := if bit v 63 then s.count (bits v 0 16) else s
  (s1.notify k).answer k 0x9 0 1 v

/-- Where an ALLOC's search stands: it waits at a step for a RECLAIM, or has its reply. -/
inductive Served where
  | waits (step : Nat) (s : State)
  | reply (v : Nat) (s : State)

/-- The ladder of R245 over the steps that are left. -/
def State.inkLadder (s : State) (p r c : Nat) : List Nat → Served
  | [] => .reply (inkFail cINKEMPTY) s
  | i :: is =>
    let d := c + i
    if d > 22 then .reply (inkFail cINKEMPTY) s
    else
      let k := poolKey p d
      let s : State := s.eccMeta p d
      if (s.pool k).reclaim then .waits i s
      else if (s.pool k).st ≠ .active then s.inkLadder p r c is
      else
        let s1 : State := if (s.pool k).free = 0 then s.recallCaches p d else s
        if (s1.pool k).free = 0 then s1.inkLadder p r c is
        else
          let need := classSize d
          let short := fun (s : State) => decide ((s.reqr r).inuse + need > (s.reqr r).quota)
          let s2 : State := if short s1 then s1.recallCredit r else s1
          if short s2 then .reply (inkFail cINKQUOTA) s2
          else
            let b := (s2.pool k).pop
            let s3 : State := s2.setPool k { b.2 with md := tput b.2.md b.1 (256 + r) }
            let s4 : State := s3.use_ r need 0
            let s5 : State := if i > 0 then s4.count 0x0210 else s4
            .reply (b.2.offset d b.1 + d * 2 ^ 48 + (if i > 0 then 2 ^ 53 else 0)) s5

/-- INK_ALLOC: the central Inkwell serves the request at its head, an ALLOC or an operand that INK_OP answers
(07 R242-R245). -/
def execInkAlloc (s : State) : Host.Outcome State Fault Refusal :=
  .next (match s.inkq with
    | [] => s
    | q :: rest =>
      let v := q.operand
      let k := q.pkt
      if s.plat.power ≠ .running ∨ inkOp v = 2 then s
      else
        let s0 : State := { s with inkq := rest }
        match s0.allocBad k v with
        | some code => s0.inkReply k (inkFail code)
        | none =>
          let depth := if inkNofb v then 0 else bits (s0.rg (oInkPart k.dpart)) 0 3
          match s0.inkLadder k.dpart (inkReqId v) (classOf (inkSize v)) (List.range' q.step (depth + 1 - q.step)) with
          | .waits i s1 => { s1 with inkWait := s1.inkWait ++ [{ q with step := i }] }
          | .reply v s1 => s1.inkReply k v)

/-! Freeing (07 R249). -/

/-- What a FREE meets. -/
inductive Freed where
  | waits
  | refused (code cls : Nat)
  | done (s : State)

def State.inkFreeAt (s : State) (p off : Nat) : Freed :=
  match s.poolOf p off with
  | none => .refused cINKRANGE 0
  | some c =>
    let q := s.pool (poolKey p c)
    let i := (off - q.base * granSize) / classSize c
    let m := tgetD q.md i 0
    if q.reclaim then .waits
    else if q.st = .failed then .refused cINKMETAUE c
    else if off % classSize c ≠ 0 then .refused cINKALIGN c
    else if mdCached m && s.inTransit p c i then .waits
    else if !mdAllocated m then .refused cINKDOUBLE c
    else
      let s1 : State := (s.setPool (poolKey p c) (q.push i)).use_ (mdOwner m) 0 (classSize c)
      let q1 := s1.pool (poolKey p c)
      if q1.st = .draining && !q1.allocated && (s1.grantsOf p c).isEmpty then
        .done { s1.setPool (poolKey p c) { base := q1.base, ngran := q1.ngran, err := q1.err } with
                metaUsed := s1.metaUsed - metaUnits q1.total }
      else .done s1

/-- A refused FREE is counted and logged (07 R249, 12 R428). -/
def State.freeRefused (s : State) (p node off code cls : Nat) : State :=
  let s1 := s.count code
  s1.logEvent { s1.event code 5 8 1 off cls 0 with lnode := node, part := p, pv := true }

/-- The metadata that a FREE of an offset reads. -/
def State.eccFree (s : State) (p off : Nat) : State :=
  match s.poolOf p off with
  | some c => s.eccMeta p c
  | none => s

/-- An engine's own FREE, which has no reply (06 R220, R224): checked and served as every FREE, it waits where one waits
(07 R238, R249). -/
def State.giveBack (s : State) (p node off : Nat) : State :=
  let s1 : State := s.eccFree p off
  match s1.inkFreeAt p off with
  | .done s2 => s2
  | .refused code cls => s1.freeRefused p node off code cls
  | .waits => { s1 with freeWait := s1.freeWait ++ [{ pkt := ⟨0, 0, 0, 0, 0, 0, 0⟩, step := 0, own := some (p, node, off) }] }

/-- INK_FREE: the FREE at the head of the central Inkwell's requests. -/
def execInkFree (s : State) : Host.Outcome State Fault Refusal :=
  .next (match s.inkq with
    | [] => s
    | q :: rest =>
      let v := q.operand
      let k := q.pkt
      if s.plat.power ≠ .running ∨ inkOp v ≠ 2 then s
      else
        let s0 : State := ({ s with inkq := rest } : State).eccFree q.part (inkOff v)
        match q.own with
        | some x => s0.giveBack x.1 x.2.1 x.2.2
        | none =>
        if inkBad v then s0.inkReply k (inkFail cINKOP)
        else
          match s0.inkFreeAt k.dpart (inkOff v) with
          | .waits => { s0 with freeWait := s0.freeWait ++ [q] }
          | .done s1 => (s1.notify k).answer k 0x9 0 1 0
          | .refused code cls =>
            ((s0.freeRefused k.dpart (s0.nodeOf k.dpart k) (inkOff v) code cls).notify k).answer k 0x9 0 1 (inkFail code))

/-! Waiting requests (07 R238, R249). -/

/-- Whether a waiting ALLOC still meets a RECLAIM. -/
def State.allocHeld (s : State) (q : InkReq) : Bool :=
  (s.pool (poolKey q.pkt.dpart (classOf (inkSize q.operand) + q.step))).reclaim

def State.freeHeld (s : State) (q : InkReq) : Bool :=
  match s.inkFreeAt q.part (inkOff q.operand) with
  | .waits => true
  | _ => false

/-- Requests that need wait no longer go back to the head of the central Inkwell's requests. -/
def State.wakeInk (s : State) : State :=
  let a := s.inkWait.filter (fun q => !s.allocHeld q)
  let f := s.freeWait.filter (fun q => !s.freeHeld q)
  { s with inkWait := s.inkWait.filter s.allocHeld
           freeWait := s.freeWait.filter s.freeHeld
           inkq := f ++ a ++ s.inkq }

/-! Front ends (07 R247). -/

/-- Buffers a front end caches of a class. -/
def State.feDepth (s : State) (c : Nat) : Nat := min 16 (bits (s.rg (oFeDepth c)) 0 5)

/-- The Freehand partition whose cluster a front end serves. -/
def State.fePart (s : State) (clu : Nat) : Option Nat :=
  (List.range 16).find? (fun p => (s.part p).clus.contains clu && !(s.part p).ruled)

/-- The credit of one grant: at most 1 MiB from the requester's headroom. -/
def State.creditGrant (s : State) (r : Nat) : Nat := min (2 ^ 20) ((s.reqr r).quota - (s.reqr r).inuse)

/-- Whether a request may be served by a front end at all: a well-formed ALLOC of the Freehand partition of its cluster. -/
def State.feMine (s : State) (clu : Nat) (q : InkReq) : Bool :=
  (s.allocBad q.pkt q.operand).isNone && s.fePart clu == some q.pkt.dpart

/-- A front end serves a request from its cache when its class has a buffer there and the requester's credit there covers it
(07 R247), unless a QUOTA written below INUSE refuses the requester (07 R240). -/
def State.feServe (s : State) (clu : Nat) (q : InkReq) : Option State :=
  let v := q.operand
  let p := q.pkt.dpart
  let c := classOf (inkSize v)
  let r := inkReqId v
  let f := s.front clu
  let pl := s.pool (poolKey p c)
  match tgetD f.cache c [] with
  | [] => none
  | i :: rest =>
    let have_ := tgetD f.credit r 0
    if !s.feMine clu q || pl.st != .active || pl.reclaim || decide (have_ < classSize c)
      || decide ((s.reqr r).quota < (s.reqr r).inuse) then none
    else
      let f1 := { f with cache := tput f.cache c rest, credit := tput f.credit r (have_ - classSize c)
                         grants := f.grants ++ [{ p, cls := c, idx := i, req := r }] }
      some ((s.setFront clu f1).inkReply q.pkt (pl.offset c i + c * 2 ^ 48))

/-- A front end whose credit for the requester does not cover a request obtains a grant (07 R247); that it takes one grant then,
after it has passed the request on, is a choice (DESIGN CHOICE, log 108). -/
def State.feCredit (s : State) (clu : Nat) (q : InkReq) : State :=
  let r := inkReqId q.operand
  let f := s.front clu
  let have_ := tgetD f.credit r 0
  let got := s.creditGrant r
  if s.feMine clu q && decide (have_ < classSize (classOf (inkSize q.operand))) && decide (got > 0) then
    (s.setFront clu { f with credit := tput f.credit r (have_ + got) }).use_ r got 0
  else s

/-- FE_ALLOC: the request at a front end's head, served from its cache or passed to the central Inkwell. -/
def execFeAlloc (clu : BitVec 6) (s : State) : Host.Outcome State Fault Refusal :=
  let n := clu.toNat
  .next (match (s.front n).q with
    | [] => s
    | q :: rest =>
      if s.plat.power ≠ .running then s
      else
        let s0 : State := s.setFront n { s.front n with q := rest }
        match s0.feServe n q with
        | some s1 => s1
        | none => ({ s0 with inkq := s0.inkq ++ [q] } : State).feCredit n q)

/-- Buffers moved from a pool's stack to a cache. -/
def fillCache : Nat → Pool → List Nat → Pool × List Nat
  | 0, p, l => (p, l)
  | n + 1, p, l =>
    if p.free = 0 then (p, l)
    else
      let b := p.pop
      fillCache n { b.2 with md := tput b.2.md b.1 512 } (l ++ [b.1])

/-- FE_REFILL: a cache below half its depth is filled, and one above its depth gives the excess back. -/
def execFeRefill (clu : BitVec 6) (cls : BitVec 5) (s : State) : Host.Outcome State Fault Refusal :=
  let n := clu.toNat
  let c := cls.toNat
  .next (match s.fePart n with
    | none => s
    | some p =>
      let q := s.pool (poolKey p c)
      if s.plat.power ≠ .running ∨ c > 22 ∨ q.st ≠ .active ∨ q.reclaim = true then s
      else
        let d := s.feDepth c
        let l := tgetD (s.front n).cache c []
        let keep := l.take d
        let q1 := (l.drop d).foldr (fun i (q : Pool) => q.push i) q
        let r := if 2 * keep.length < d then fillCache (d - keep.length) q1 keep else (q1, keep)
        (s.setPool (poolKey p c) r.1).setFront n { s.front n with cache := tput (s.front n).cache c r.2 })

/-- FE_CREDIT_RETURN: credit unused for 1 ms goes back. -/
def execFeCreditReturn (clu : BitVec 6) (req : BitVec 8) (s : State) : Host.Outcome State Fault Refusal :=
  let n := clu.toNat
  let r := req.toNat
  let f := s.front n
  let have_ := tgetD f.credit r 0
  .next (if s.plat.power ≠ .running ∨ have_ = 0 then s
    else (s.setFront n { f with credit := tdel f.credit r }).use_ r 0 have_)

/-- FRONT_END_GRANT: the front end's oldest grant reaches the central Inkwell. -/
def execFrontEndGrant (clu : BitVec 6) (s : State) : Host.Outcome State Fault Refusal :=
  let n := clu.toNat
  let f := s.front n
  .next (match f.grants with
    | [] => s
    | g :: rest =>
      if s.plat.power ≠ .running then s
      else
        let s0 : State := s.setFront n { f with grants := rest }
        let q := s0.pool (poolKey g.p g.cls)
        (s0.setPool (poolKey g.p g.cls) { q with md := tput q.md g.idx (256 + g.req) }).wakeInk)

/-! Pool commands (07 R235, R237, R238). -/

/-- Whether a pool's configuration meets R235. A region of no granules holds no buffer and is taken to break it (DESIGN CHOICE,
log 111). -/
def State.poolOk (s : State) (p c : Nat) : Bool :=
  let q := s.pool (poolKey p c)
  let n := q.ngran * granSize / classSize c
  let k := classSize c / granSize
  decide (q.base ≥ 1) && decide (q.ngran ≥ 1)
    && (match s.objAt p q.base with
        | some o => dPolicy o.desc == 0 && (dTier o.desc 0 == 1 || dTier o.desc 0 == 2)
            && decide (q.base + q.ngran ≤ dGran o.desc + dNgran o.desc)
        | none => false)
    && (decide (c ≤ 13) || (q.base % k == 0 && q.ngran % k == 0))
    && !s.poolMeets p q.base q.ngran
    && decide (n ≤ 2 ^ 32 - 1)
    && decide (s.metaUsed + metaUnits n ≤ inkMetaSize)

def State.poolEnable (s : State) (p c : Nat) : State :=
  let s : State := s.eccMeta p c
  let k := poolKey p c
  let q := s.pool k
  if c > 22 ∨ q.st ≠ .disabled then s
  else if s.poolOk p c then
    let n := q.ngran * granSize / classSize c
    let s1 : State := s.setPool k { st := .enabling, base := q.base, ngran := q.ngran, total := n }
    { s1 with metaUsed := s1.metaUsed + metaUnits n }
  else (s.setPool k { q with err := true }).count 0x0211

/-- DISABLE: every buffer forgotten, the metadata released (07 R237). -/
def State.poolDisable (s : State) (p c : Nat) : State :=
  let s : State := s.eccMeta p c
  let k := poolKey p c
  let q := s.pool k
  if q.st = .disabled ∨ q.st = .enabling then s
  else
    let s1 : State := s.disown p c
    let s2 : State := { s1 with fe := s1.fe.map (fun e =>
      if (s1.part p).clus.contains e.1 then (e.1, { e.2 with cache := tdel e.2.cache c }) else e) }
    let s3 : State := s2.setPool k { base := q.base, ngran := q.ngran, err := q.err }
    ({ s3 with metaUsed := s3.metaUsed - metaUnits q.total } : State).wakeInk

def State.poolDrain (s : State) (p c : Nat) : State :=
  let s : State := s.eccMeta p c
  let k := poolKey p c
  if (s.pool k).st ≠ .active then s
  else
    let s1 : State := s.recallCaches p c
    let q := s1.pool k
    if !q.allocated && (s1.grantsOf p c).isEmpty && !q.reclaim then s1.poolDisable p c
    else s1.setPool k { q with st := .draining }

/-- RECLAIM: every allocated buffer is free at once, and the stack is ascending again (07 R238). -/
def State.poolReclaim (s : State) (p c : Nat) : State :=
  let s : State := s.eccMeta p c
  let k := poolKey p c
  if (s.pool k).st ≠ .active ∧ (s.pool k).st ≠ .draining then s
  else
    let s1 : State := (s.recallCaches p c).disown p c
    let q := s1.pool k
    s1.setPool k { q with top := [], fresh := 0, md := [], reclaim := true }

/-- A RECLAIM is complete: a DRAINING pool becomes DISABLED, and waiting requests go on. -/
def State.poolReclaimDone (s : State) (p c : Nat) : State :=
  let k := poolKey p c
  let q := s.pool k
  if !q.reclaim then s
  else
    let s1 : State := s.setPool k { q with reclaim := false }
    if q.st = .draining then s1.poolDisable p c else s1.wakeInk

/-- POOL_ENABLE. -/
def execPoolEnable (p : BitVec 4) (cls : BitVec 5) (s : State) : Host.Outcome State Fault Refusal :=
  .next (if s.plat.power ≠ .running then s else s.poolEnable p.toNat cls.toNat)

/-- POOL_ENABLE_DONE. -/
def execPoolEnableDone (p : BitVec 4) (cls : BitVec 5) (s : State) : Host.Outcome State Fault Refusal :=
  let k := poolKey p.toNat cls.toNat
  .next (if s.plat.power ≠ .running ∨ (s.pool k).st ≠ .enabling then s
    else (s.setPool k { s.pool k with st := .active }).eccMeta p.toNat cls.toNat)

/-- POOL_DRAIN. -/
def execPoolDrain (p : BitVec 4) (cls : BitVec 5) (s : State) : Host.Outcome State Fault Refusal :=
  .next (if s.plat.power ≠ .running then s else s.poolDrain p.toNat cls.toNat)

/-- POOL_DISABLE. -/
def execPoolDisable (p : BitVec 4) (cls : BitVec 5) (s : State) : Host.Outcome State Fault Refusal :=
  .next (if s.plat.power ≠ .running then s else s.poolDisable p.toNat cls.toNat)

/-- POOL_RECLAIM. -/
def execPoolReclaim (p : BitVec 4) (cls : BitVec 5) (s : State) : Host.Outcome State Fault Refusal :=
  .next (if s.plat.power ≠ .running then s else s.poolReclaim p.toNat cls.toNat)

/-- POOL_RECLAIM_DONE. -/
def execPoolReclaimDone (p : BitVec 4) (cls : BitVec 5) (s : State) : Host.Outcome State Fault Refusal :=
  .next (if s.plat.power ≠ .running then s else s.poolReclaimDone p.toNat cls.toNat)

end Sys2Proof.Machine
end

