-- ==== Sys2Proof/Machine/DuctusXchg.lean ====
section
/-! DEFINITION. Ductus instructions at issue, the exchange unit (DALLOC, DSEND, DCOLLECT, DCANCEL) with its remote
operations, and the start of queued instructions (06 R188-R233). -/

namespace Sys2Proof.Machine

/-! The collect table's entries close (06 R224, R227). -/

/-- Whether entry i of the collect table belongs to context slot c, is open, and names a return region. -/
def CtEntry.names (e : CtEntry) (i c r : Nat) : Bool := i / 16 == c && e.st != 0 && e.region == r

/-- Whether an open entry of a context names a return region, on any engine of its partition. -/
def State.regionUsed (s : State) (p c r : Nat) : Bool :=
  (s.part p).clus.any (fun n => (s.ductus n).ct.any (fun e => e.2.names e.1 c r))

/-- The open entries of a context that name a return region owe it from now on. -/
def State.oweRegion (s : State) (p c r : Nat) : State :=
  { s with duc := s.duc.map (fun e =>
      if (s.part p).clus.contains e.1 then
        (e.1, { e.2 with ct := e.2.ct.map (fun x => if x.2.names x.1 c r then (x.1, { x.2 with owed := true }) else x) })
      else e) }

/-- An entry closes: its return region goes back once no open entry of the context names it, if it or a closed entry that named
it was opened with RETINK = 1 (06 R224). -/
def State.closeEntry (s : State) (p c clu i : Nat) : State :=
  let d := s.ductus clu
  let e := d.entry i
  let s1 : State := s.setDuctus clu { d with ct := tdel d.ct i }
  if !(e.retink || e.owed) then s1
  else if s1.regionUsed p c e.region then s1.oweRegion p c e.region
  else s1.giveBack p (s1.ctx p c).lnode e.region

/-- Every entry of a partition that a predicate on its context slot names closes (06 R224; 08 R316). -/
def State.closeEntries (s : State) (p : Nat) (pr : Nat → Bool) : State :=
  (s.part p).clus.foldl (fun (s : State) n =>
    ((s.ductus n).ct.filter (fun e => e.2.st != 0 && pr (e.1 / 16))).foldl
      (fun (s : State) e => s.closeEntry p (e.1 / 16) n e.1) s) s

/-- One engine's part of a cancellation (06 R227). -/
def State.cancelOn (s : State) (p c b g clu : Nat) : State :=
  let d := s.ductus clu
  let f := if genLive g (d.floorOf c) then g else d.floorOf c
  let s1 : State := s.setDuctus clu { d with floor := tput d.floor c f }
  ((List.range' (16 * c) 16).filter (fun i =>
    let e := d.entry i
    e.st != 0 && e.batch == b && !genLive e.gen f)).foldl (fun (s : State) i => s.closeEntry p c clu i) s1

/-- A cancellation on every engine of a partition. -/
def State.cancelAll (s : State) (p c b g : Nat) : State :=
  (s.part p).clus.foldl (fun (s : State) n => s.cancelOn p c b g n) s

/-! Remote operations of the exchange unit (06 R191, R231). -/

def State.setRun (s : State) (clu unit : Nat) (r : DRun) : State :=
  let d := s.ductus clu
  s.setDuctus clu { d with run := tput d.run unit r }

def State.endRun (s : State) (clu unit : Nat) : State :=
  let d := s.ductus clu
  s.setDuctus clu { d with run := tdel d.run unit }

/-- The request of tag `recTag + e` is the inbox record of expert e in a DSEND, and those of tag e are its rows and tags (06 R213). -/
def recTag : Nat := 2 ^ 20

def isDalloc (r : DRun) : Bool := r.op.op == 0xB5
def isReturn (r : DRun) : Bool := r.op.op == 0xB6 && bit r.op.fn8 1

/-- An operation that is never sent: its node is dead, or its data are poisoned and would leave the device. -/
def State.engLost (s : State) (r : DRun) (q : EngReq) (code : Nat) : State × DRun :=
  ((s.count code).asyncFail r.op.loc code q.lnode q.off r.op.pcAt,
    { r with failed := true, bad := q.tag :: r.bad, todo := if isDalloc r then [] else r.todo })

/-- One operation sent. -/
def State.engSend (s : State) (clu unit : Nat) (r : DRun) (q : EngReq) : State × DRun :=
  let p := r.op.loc.p
  let e := s.lnt p q.lnode
  if !lnLive e then (s.eccAt (.node p q.lnode)).engLost r q cFABDEAD
  else if q.pz && !s.isOwn e then s.engLost r q cPOISON
  else
    let sl := s.freeSlot
    let s1 : State := s.sendOn p (.ductus clu unit r.id r.op.loc r.op.pcAt q.tag) .none q.lnode
      { ptype := q.ptype, cls := q.cls, size := q.size, off := q.off, space := 0, atype := q.atype, circ := q.circ
        ext := q.ext, x0 := q.x0, x1 := q.x1, data := q.data, words := q.words }
    (if q.pz then s1.markSent sl else s1, { r with out := r.out + 1 })

/-- Whether a request is the record of an expert one of whose stores is not yet acknowledged (06 R213). -/
def State.recWaits (s : State) (clu unit : Nat) (q : EngReq) : Bool :=
  decide (q.tag ≥ recTag) && s.ops.any (fun e => match e.2.owner with
    | .ductus c u _ _ _ t => c == clu && u == unit && t + recTag == q.tag
    | _ => false)

/-- Operations sent in order, at most 512 of the engine in flight (06 R191). A record waits for the stores of its expert, and
is left out when one of them failed; what follows it waits behind it (06 R213; log 104). -/
def State.engDrain (clu unit : Nat) : List EngReq → DRun → State → State × DRun
  | [], r, s => (s, { r with todo := [] })
  | q :: qs, r, s =>
    if r.failed && isDalloc r then (s, { r with todo := [] })
    else if decide (q.tag ≥ recTag) && r.bad.contains (q.tag - recTag) then State.engDrain clu unit qs r s
    else if decide (s.engFlying clu ≥ 512) || s.slotsFull || s.recWaits clu unit q then (s, { r with todo := q :: qs })
    else
      let x := s.engSend clu unit r q
      State.engDrain clu unit qs x.2 x.1

/-- The register DALLOC reserved is released, with its value if there is one (06 R209). -/
def State.releaseX (s : State) (l : Loc) (x : Nat) (v : Option Nat) : State :=
  let c := s.core l
  let c1 := match v with
    | some n => c.setX x (w64 n)
    | none => c
  s.setCore l { c1 with xPend := c1.xPend.filter (fun r => r != x) }

/-! DALLOC (06 R206-R210). -/

/-- Bytes of one 8-row group. -/
def groupBytes (d : Nat) : Nat := (lyKDIM d + 127) / 128 * tileSize (lyTFMT d)

def tagOff (d a : Nat) : Nat := (a + 7) / 8 * groupBytes d

def bufBytes (d a : Nat) : Nat := tagOff d a + 8 * a

def emHNODE (m : Nat) : Nat := bits m 0 16
def emHCLU (m : Nat) : Nat := bits m 16 6
def emCAP (m : Nat) : Nat := bits m 32 32
/-- The inbox of a half. -/
def emINBOX (m h : Nat) : Nat := (bits m 64 48 + h * (64 + 64 * emCAP m)) % 2 ^ 48

/-- The Inkwell port (07 R241). -/
def inkPort : Nat := 0xFFFFFFE00000

/-- A fetch-add of an engine with the class and circuit of word 1. -/
def fetchReq (o : DOp) (node off v tag : Nat) : EngReq :=
  { lnode := node, ptype := 4, cls := wireClass (rCLASS o.w1), off, atype := 1, circ := rCIRC o.w1, data := v
    words := 1, tag }

def allocReq (o : DOp) (x : Ladder) (a : Nat) : EngReq :=
  fetchReq o (emHNODE x.em) inkPort
    (min (bufBytes o.desc a) (2 ^ 31 - 1) + lyREQ o.desc * 2 ^ 32 + emHCLU x.em * 2 ^ 40 + 2 ^ 60) (8 * x.e + 2)

def freeReq (o : DOp) (x : Ladder) (off : Nat) : EngReq := fetchReq o (emHNODE x.em) inkPort (off + 2 ^ 61) (8 * x.e + 3)

def tailReq (o : DOp) (x : Ladder) (h : Nat) : EngReq :=
  fetchReq o (emHNODE x.em) (emINBOX x.em h) 1 (8 * x.e + h)

/-- The next attempt of a ladder for a rows. -/
def Ladder.attempt (x : Ladder) (o : DOp) (a : Nat) : Ladder × List EngReq :=
  let a0 := min a x.c0
  let y : Ladder := { x with a, a0, a1 := a - a0, buf0 := 0, buf1 := 0 }
  if a = 0 then ({ y with phase := 4 }, [])
  else if a0 > 0 then ({ y with phase := 1 }, [allocReq o x a0])
  else ({ y with phase := 2 }, [allocReq o x (a - a0)])

/-- INK_EMPTY, INK_QUOTA and INK_SIZE continue the ladder (06 R208). -/
def ladderCode (c : Nat) : Bool := c == cINKEMPTY || c == cINKQUOTA || c == cINKSIZE

/-- A ladder after a reply of kind 0 to 3. -/
def Ladder.reply (x : Ladder) (o : DOp) (kind v : Nat) : Ladder × List EngReq :=
  let next := if ladderCode (bits v 0 16) then x.a / 2 else 0
  match kind with
  | 0 | 1 =>
    let y : Ladder := if kind = 0 then { x with s0 := some v } else { x with s1 := some v }
    if (y.c0 > 0 && y.s0.isNone) || (y.c1 > 0 && y.s1.isNone) then (y, [])
    else if y.s0.any (fun n => decide (n ≥ emCAP y.em)) || y.s1.any (fun n => decide (n ≥ emCAP y.em)) then
      ({ y with phase := 4, full := true }, [])
    else y.attempt o (y.c0 + y.c1)
  | 2 =>
    if x.phase = 1 then
      if bit v 63 then x.attempt o next
      else if x.a1 > 0 then ({ x with buf0 := bits v 0 48, phase := 2 }, [allocReq o x x.a1])
      else ({ x with buf0 := bits v 0 48, phase := 4 }, [])
    else if bit v 63 then
      if x.a0 > 0 then ({ x with a := next, phase := 3 }, [freeReq o x x.buf0]) else x.attempt o next
    else ({ x with buf1 := bits v 0 48, phase := 4 }, [])
  | _ => x.attempt o x.a

/-- RSV (06 R210). -/
def rsvWord (cap : Nat) (s : Option Nat) : Nat :=
  match s with
  | none => 0
  | some n => 2 ^ 24 + (if n ≥ cap then 2 ^ 25 else n)

def Ladder.word (x : Ladder) : Nat :=
  x.buf0 + x.buf1 * 2 ^ 64 + x.a0 * 2 ^ 128 + x.a1 * 2 ^ 160 + rsvWord (emCAP x.em) x.s0 * 2 ^ 192
    + rsvWord (emCAP x.em) x.s1 * 2 ^ 224

def Ladder.lost (x : Ladder) : Nat := x.c0 + x.c1 - x.a0 - x.a1

/-- The tables of DALLOC. -/
def dallocTables (o : DOp) : List (Nat × Nat × Nat × Bool) :=
  let d := o.desc
  let e := lyE d
  let m := 16 * lyN d * lyK d
  [(lyCNT d, 0, 8 * e, false), (lyEMAP d, 0, 16 * e, false), (lySEL d, 0, m, false), (lySEL d, 0, m, true),
   (lyDROP d, 0, 4 * e, true), (lyALLOC d, 0, 32 * e, true)]

/-- After a failed remote operation the tables that a DALLOC writes carry no guarantee: their bytes are open (06 R208; log 71). -/
def State.dallocSpoil (s : State) (o : DOp) : State :=
  ((dallocTables o).filter (fun r => r.2.2.2)).foldl
    (fun (s : State) r => s.wrT o r.1 r.2.1 r.2.2.1 (s.openBytes (tblOff r.1 r.2.1) r.2.2.1) false) s

/-- DALLOC's results: DROP bits, DROP, ALLOC, the counters and the register (06 R209, R210). A pair of an expert below E whose
counts CNT are both zero, in tables that a program made inconsistent, is not kept either and has DROP set (DESIGN CHOICE,
log 106). -/
def State.dallocEnd (s : State) (clu : Nat) (r : DRun) : State :=
  let o := r.op
  let d := o.desc
  let e := lyE d
  let n := lyN d * lyK d
  let pz := s.tblsPoison o (dallocTables o)
  let lad := fun i => r.ladders.find? (fun x => x.e == i)
  let recs := (splitN 128 n (s.rdT o (lySEL d) 0 (16 * n))).zip (List.range n)
  let mark := recs.map (fun x =>
    match lad (bits x.1 0 32) with
    | some y => if bits x.1 64 32 < (if lyHalf d (x.2 / lyK d) = 0 then y.a0 else y.a1) then x.1 else setBits x.1 96 1 1
    | none => if bits x.1 0 32 < e then setBits x.1 96 1 1 else x.1)
  let s1 := s.wrT o (lySEL d) 0 (16 * n) (packElems 128 mark) pz
  let s2 := s1.wrT o (lyDROP d) 0 (4 * e) (packElems 32 ((List.range e).map (fun i => (lad i).elim 0 Ladder.lost))) pz
  let s3 := s2.wrT o (lyALLOC d) 0 (32 * e) (packElems 256 ((List.range e).map (fun i => (lad i).elim 0 Ladder.word))) pz
  let sum := fun (xs : List Ladder) => listSum (xs.map Ladder.lost)
  let s4 := (s3.ducCount clu 0x0303 (sum (r.ladders.filter (fun x => !x.full)))).ducCount clu 0x0304
    (sum (r.ladders.filter Ladder.full))
  let s5 := s4.releaseX o.loc o.rc (some (sum r.ladders))
  let c := s5.core o.loc
  let s6 := if pz && o.rc != 0 then s5.setCore o.loc { c with xPoison := addOnce c.xPoison o.rc } else s5
  (s6.tblEnd o.who).ductusDone o

/-! DSEND (06 R213-R215, R220). -/

def rEBUF (a h : Nat) : Nat := bits a (64 * h) 48
def rERows (a h : Nat) : Nat := bits a (128 + 32 * h) 32
def rERsv (a h : Nat) : Nat := bits a (192 + 32 * h) 32

/-- A store of an engine as one request per 256 B-aligned block; `pz` tells which byte ranges are poisoned. -/
def storeReqs (o : DOp) (node off n v tag : Nat) (ext : Option (Nat × Nat)) (pz : Nat → Nat → Bool) : List EngReq :=
  (blocksOf (off % 2 ^ 48) n).map (fun b =>
    let i := b.1 - off % 2 ^ 48
    { lnode := node, ptype := 2, cls := wireClass (rCLASS o.w1), off := b.1, size := b.2 / 8 - 1, circ := rCIRC o.w1
      ext := ext.isSome, x0 := (ext.map Prod.fst).getD 0, x1 := (ext.map Prod.snd).getD 0
      data := bits v (8 * i) (8 * b.2), words := b.2 / 8, tag, pz := pz i b.2 })

/-- The tag of a pair (06 R212). -/
def pairTag (d h t s : Nat) : Nat :=
  lyBATCH d + lyGEN d * 2 ^ 16 + h * 2 ^ 32 + (lyTBASE d + t) % 2 ^ 24 * 2 ^ 33 + s * 2 ^ 57

/-- The pieces of token t's row at line r of a group: (byte in the group, byte from TOK, length). -/
def linePieces (d t r : Nat) : List (Nat × Nat × Nat) :=
  let f := lyTFMT d
  let w := fmtBits f
  ((List.range (lyKDIM d / 128)).map (fun j =>
    let src := t / 8 * groupBytes d + j * tileSize f
    let dst := j * tileSize f
    (dst + r % 8 * (16 * w), src + t % 8 * (16 * w), 16 * w)
      :: (if isMx f then [(dst + 128 * w + 4 * (r % 8), src + 128 * w + 4 * (t % 8), 4)] else []))).flatten

/-- The kept pair of expert e and half h with rank r, as its place t k + s among the records. -/
def pairAt (d : Nat) (recs : List Nat) (e h r : Nat) : Option Nat :=
  (recs.zip (List.range recs.length)).findSome? (fun x =>
    if bits x.1 0 32 = e ∧ bits x.1 64 32 = r ∧ bits x.1 96 2 = 0 ∧ lyHalf d (x.2 / lyK d) = h then some x.2 else none)

/-- The row and tag stores of one expert. -/
def State.rowReqs (s : State) (o : DOp) (recs : List Nat) (em al e h : Nat) : List EngReq :=
  let d := o.desc
  let n := rERows al h
  let gb := groupBytes d
  let buf := rEBUF al h
  let pairs := (List.range n).map (fun r => (r, pairAt d recs e h r))
  let rows := ((List.range ((n + 7) / 8)).map (fun g =>
    let ps := ((pairs.drop (8 * g)).take 8).map (fun x => (x.2.map (fun i => linePieces d (i / lyK d) x.1)).getD [])
    let ps := ps.flatten
    let v := ps.foldl (fun v x => v + s.rdT o (lyTOK d) x.2.1 x.2.2 * 2 ^ (8 * x.1)) 0
    storeReqs o (emHNODE em) (buf + g * gb) gb v e none (fun i m =>
      ps.any (fun x => decide (x.1 < i + m) && decide (i < x.1 + x.2.2) && s.tblPoison o.who o.loc.p o.loc.s (lyTOK d) x.2.1 x.2.2)))).flatten
  let tags := packElems 64 (pairs.map (fun x => (x.2.map (fun i => pairTag d h (i / lyK d) (i % lyK d))).getD 0))
  rows ++ storeReqs o (emHNODE em) (buf + tagOff d n) (8 * n) tags e none (fun _ _ => false)

/-- The inbox record of one expert, if one was reserved and the inbox was not full (06 R213, R214). -/
def State.recReqs (s : State) (o : DOp) (em al e h ret : Nat) : List EngReq :=
  let d := o.desc
  let n := rERows al h
  let rsv := rERsv al h
  if !bit rsv 24 || bit rsv 25 then []
  else
    let v := (if n = 0 then 0 else rEBUF al h) + n * 2 ^ 64 + tagOff d n % 2 ^ 32 * 2 ^ 96 + ret % 2 ^ 48 * 2 ^ 128
      + (s.ctx o.loc.p o.loc.s).lnode * 2 ^ 176 + lyAB d * 2 ^ 192 + (o.loc.l + 64 * h + 128) * 2 ^ 224
      + lyTFMT d * 2 ^ 232 + lyKDIM d * 2 ^ 256 + e * 2 ^ 288
    storeReqs o (emHNODE em) (emINBOX em h + 64 + 64 * bits rsv 0 24) 64 v (recTag + e) none (fun _ _ => false)

/-- The entry a DSEND opened at issue learns its range and its count (06 R222). -/
def State.fillEntry (s : State) (clu : Nat) (o : DOp) (h lo len expect : Nat) : State :=
  let d := s.ductus clu
  match d.find o.loc.s (lyBATCH o.desc) (lyGEN o.desc) h with
  | none => s
  | some i => (s.setDuctus clu { d with ct := tput d.ct i { d.entry i with lo, len, expect } }).ctCheck clu i

/-- DSEND with RET = 0 starts. -/
def State.startSend (s : State) (clu : Nat) (o : DOp) (pump : State → DRun → State) : Start :=
  let d := o.desc
  let h := b2n (bit o.fn8 0)
  let ne := lyE d
  let m := lyN d * lyK d
  let rs := [(lySEL d, 0, 16 * m, false), (lyCNT d, 0, 8 * ne, false), (lyOFFS d, 0, 8 * ne, false),
    (lyEMAP d, 0, 16 * ne, false), (lyALLOC d, 0, 32 * ne, false)]
  s.overTables o rs (fun s =>
    let recs := splitN 128 m (s.rdT o (lySEL d) 0 (16 * m))
    let cs := splitN 32 (2 * ne) (s.rdT o (lyCNT d) 0 (8 * ne))
    let offs := splitN 32 (2 * ne) (s.rdT o (lyOFFS d) 0 (8 * ne))
    let ems := splitN 128 ne (s.rdT o (lyEMAP d) 0 (16 * ne))
    let als := splitN 256 ne (s.rdT o (lyALLOC d) 0 (32 * ne))
    let toks := ((recs.zip (List.range m)).filter (fun x => bits x.1 96 2 == 0 && lyHalf d (x.2 / lyK d) == h)).map
      (fun x => x.2 / lyK d)
    let rs2 := (toks.map (fun t => (linePieces d t 0).map (fun x => (lyTOK d, x.2.1, x.2.2, false)))).flatten
    s.overTables o rs2 (fun s =>
      let base := bits (lyRET d) 0 48 + (if h = 1 then listSum (halfOf 0 cs) * lyAB d else 0)
      let es := List.range ne
      let todo := (es.map (fun e => s.rowReqs o recs (ems.getD e 0) (als.getD e 0) e h
        ++ s.recReqs o (ems.getD e 0) (als.getD e 0) e h (base + offs.getD (2 * e + h) 0 * lyAB d))).flatten
      let s1 := s.fillEntry clu o h base (listSum (halfOf h cs) * lyAB d) (lyAB d * listSum (als.map (fun a => rERows a h)))
      .went (pump s1 { op := o, todo })))

/-- DSEND with RET = 1 starts. -/
def State.startReturn (s : State) (clu : Nat) (o : DOp) (pump : State → DRun → State) : Start :=
  let it := o.desc
  let r := itREC it
  s.overTables o [(r, 0, 64, false), (r, 40, 4, true)] (fun s =>
    let rec_ := s.rdT o r 0 64
    let f := itFIRST it
    let n := itROWS it
    if f + n > rcCOUNT rec_ then .went (((s.ducCount clu 0x0302 1).tblEnd o.who).ductusDone o)
    else
      let tags := bits rec_ 0 48 + rcTAGOFF rec_
      s.overTables o [(tags, 8 * f, 8 * n, false)] (fun s =>
        let ab := rcAB rec_
        let c := s.core o.loc
        let reqs := ((List.range n).map (fun j =>
          let a := o.xd.toNat + j * ab
          storeReqs o (rcRETNODE rec_) (rcRETADDR rec_ + (f + j) * ab) ab (sread c.spad a ab) 1
            (some (s.rdT o tags (8 * (f + j)) 8, rcRETCLU rec_)) (fun i m => (c.poisonIn (a + i) m).isSome
              || s.tblPoison o.who o.loc.p o.loc.s tags (8 * (f + j)) 8))).flatten
        .went (pump s { op := o, todo := reqs })))

/-- Every row of a return has been sent: REMAIN falls by SEGS, and at 0 the buffer is freed (06 R220). -/
def State.returnSent (s : State) (r : DRun) : State :=
  let o := r.op
  let at_ := itREC o.desc
  let v := s.rdT o at_ 0 64
  let left := (rcREMAIN v + 2 ^ 32 - itSEGS o.desc) % 2 ^ 32
  if r.bad.contains 1 then s
  else
    let s1 : State := s.wrT o at_ 40 4 left false
    if left = 0 then s1.giveBack o.loc.p (s1.ctx o.loc.p o.loc.s).lnode (bits v 0 48) else s1

/-- An instruction with nothing in flight and nothing to send ends. -/
def State.engEnd (s : State) (clu unit : Nat) (r : DRun) : State :=
  let s1 : State := s.endRun clu unit
  if isDalloc r then
    if r.failed then ((s1.dallocSpoil r.op).releaseX r.op.loc r.op.rc none).tblEnd r.op.who else s1.dallocEnd clu r
  else if r.failed then s1.tblEnd r.op.who
  else (s1.tblEnd r.op.who).ductusDone r.op

/-- What an instruction still lacks to write its tables after its operations: lines that the host holds, blocks being copied. -/
def State.engLacks (s : State) (r : DRun) : List Need :=
  let o := r.op
  let rs := if isReturn r && r.stage == 0 then [(itREC o.desc, 0, 64, false), (itREC o.desc, 40, 4, true)]
    else if isDalloc r && r.out == 0 then dallocTables o
    else []
  (rs.map (fun x => s.tblHeld o.who o.loc.p x.1 x.2.1 x.2.2.1 x.2.2.2)).flatten

/-- The unit sends what it may; a return that has sent every row goes on, and what has nothing left ends, once its tables may be
written. -/
def State.engPump (clu unit : Nat) (s : State) (r : DRun) : State :=
  let x := State.engDrain clu unit r.todo r s
  if !x.2.todo.isEmpty then x.1.setRun clu unit x.2
  else
    let ls := x.1.engLacks x.2
    if !ls.isEmpty then (x.1.gather r.op.who r.op.loc.p ls).setRun clu unit x.2
    else
      let y := if isReturn x.2 && x.2.stage == 0 then (x.1.returnSent x.2, { x.2 with stage := 1 }) else x
      if y.2.out = 0 then y.1.engEnd clu unit y.2 else y.1.setRun clu unit y.2

/-- DALLOC starts: the reservations of every expert with pairs. -/
def State.startDalloc (s : State) (o : DOp) (pump : State → DRun → State) : Start :=
  let d := o.desc
  let e := lyE d
  s.overTables o (dallocTables o) (fun s =>
    let cs := splitN 32 (2 * e) (s.rdT o (lyCNT d) 0 (8 * e))
    let ems := splitN 128 e (s.rdT o (lyEMAP d) 0 (16 * e))
    let lads := ((List.range e).map (fun i =>
      ({ e := i, em := ems.getD i 0, c0 := cs.getD (2 * i) 0, c1 := cs.getD (2 * i + 1) 0 } : Ladder))).filter
      (fun x => x.c0 + x.c1 != 0)
    let reqs := (lads.map (fun x => (if x.c0 > 0 then [tailReq o x 0] else []) ++ (if x.c1 > 0 then [tailReq o x 1] else []))).flatten
    .went (pump s { op := o, ladders := lads, todo := reqs }))

/-- A DALLOC ladder that an Inkwell code outside the ladder's ends is logged (06 R208). -/
def State.ladderLog (s : State) (clu : Nat) (o : DOp) (kind v e : Nat) : State :=
  if kind = 2 ∧ bit v 63 = true ∧ ladderCode (bits v 0 16) = false then
    s.logEvent { s.event (bits v 0 16) 5 1 clu (lyREQ o.desc) e 0 with
      lnode := (s.ctx o.loc.p o.loc.s).lnode, part := o.loc.p, ctx := o.loc.s, pv := true }
  else s

/-- An operation of a unit has its response: v is the data it returned. -/
def State.ductusReply (s : State) (clu unit tag v : Nat) : State :=
  match tget (s.ductus clu).run unit with
  | none => s
  | some r =>
    let r1 : DRun := { r with out := r.out - 1 }
    if isDalloc r1 then
      match r1.ladders.find? (fun x => x.e == tag / 8) with
      | none => State.engPump clu unit s r1
      | some x =>
        let y := x.reply r1.op (tag % 8) v
        let s1 := s.ladderLog clu r1.op (tag % 8) v x.e
        State.engPump clu unit s1
          { r1 with ladders := r1.ladders.map (fun z => if z.e = x.e then y.1 else z), todo := r1.todo ++ y.2 }
    else State.engPump clu unit s r1

/-- An operation of a unit failed (06 R231). -/
def State.ductusLost (s : State) (clu unit tag code lnode space off : Nat) : State :=
  match tget (s.ductus clu).run unit with
  | none => s
  | some r =>
    let s1 := s.asyncFail r.op.loc code (lnode + space * 2 ^ 16) off r.op.pcAt
    let r1 : DRun := { r with
      out := r.out - 1
      failed := true
      bad := if isReturn r then r.bad else tag :: r.bad
      todo := if isDalloc r then [] else r.todo }
    State.engPump clu unit s1 r1

/-! Starting (06 R188, R233). -/

def State.startDuctus (s : State) (clu unit : Nat) (o : DOp) : Start :=
  let pump := State.engPump clu unit
  let p := o.loc.p
  let c := o.loc.s
  match o.op with
  | 0xB0 => s.runDscore o
  | 0xB1 => s.runDtopk o
  | 0xB2 => s.runDnorm o
  | 0xB3 => s.runDhist clu o
  | 0xB4 => s.runDscan o
  | 0xB5 => s.startDalloc o pump
  | 0xB6 => if bit o.fn8 1 then s.startReturn clu o pump else s.startSend clu o pump
  | 0xB8 =>
    if bit o.fn8 0 then s.runSeg o
    else
      let k := keyOf o.xc.toNat
      match (s.ductus clu).find c k.1 k.2.1 k.2.2 with
      | none => .went s
      | some i =>
        if ((s.ductus clu).entry i).st = 2 then
          s.runCombine o (fun s => if bit o.fn8 2 then s.closeEntry p c clu i else s)
        else .wait s
  | 0xB9 =>
    let k := keyOf o.xc.toNat
    .went ((if bit o.fn8 0 then s.cancelAll p c k.1 k.2.1 else s.cancelOn p c k.1 k.2.1 clu).addCounter o.loc o.cnt 1)
  | 0xBA => s.runDsplit clu o
  | _ => .went s

/-- Whether a queued instruction may start: its context is on its cores. -/
def State.ductusLive (s : State) (o : DOp) : Bool :=
  (s.part o.loc.p).resident == some o.loc.s && (s.ctx o.loc.p o.loc.s).st == .running

def dropOp (o : DOp) : List DOp → List DOp
  | [] => []
  | x :: xs => if x = o then xs else x :: dropOp o xs

/-- An idle unit starts the first instruction in its queue whose context is on its cores; a busy one sends what it could
not send before. A DCOMBINE that waits in the combine unit for its entry (06 R224) counts as held, not as started, when its
context is preempted (06 R233; DESIGN CHOICE, log 107). -/
def State.ductusKick (s : State) (clu unit : Nat) : State :=
  let d := s.ductus clu
  let q := tgetD d.q unit []
  match tget d.run unit with
  | some r => if r.todo.isEmpty && decide (r.out > 0) && !(isReturn r && r.stage == 0) then s else State.engPump clu unit s r
  | none =>
    match q.find? s.ductusLive with
    | none => s
    | some o =>
      match (s.setDuctus clu { d with q := tput d.q unit (dropOp o q) }).startDuctus clu unit o with
      | .went s1 => s1
      | .wait s1 =>
        let d1 := s1.ductus clu
        s1.setDuctus clu { d1 with q := tput d1.q unit q }

/-- DUCTUS_QUEUE_START. -/
def execDuctusQueueStart (clu : BitVec 6) (unit : BitVec 2) (s : State) : Host.Outcome State Fault Refusal :=
  .next (if s.plat.power ≠ .running then s else s.farPump.ductusKick clu.toNat unit.toNat)

/-! Issue (06 R188, R192, R194, R231). -/

/-- Ductus instructions of a core that are queued or running. -/
def Ductus.held (d : Ductus) (l : Loc) : Nat :=
  (d.run.filter (fun e => e.2.op.loc == l)).length
    + listSum (d.q.map (fun e => (e.2.filter (fun o => o.loc == l)).length))

/-- A queued instruction: at once where its unit is idle with nothing before it. -/
def State.ductusEnter (s : State) (clu unit : Nat) (o : DOp) : State :=
  let d := s.ductus clu
  let q := tgetD d.q unit []
  let s1 : State := s.setDuctus clu { d with q := tput d.q unit (q ++ [o]) }
  if q.isEmpty then s1.ductusKick clu unit else s1

/-- Unused register fields and bits of a Ductus word; only DALLOC and DSEND have a CLASS and CIRC. -/
def ductusRsv (w : FormX) (b c d exch : Bool) : Bool :=
  FormR.tailRsv w.r || (!b && w.r.b != 0) || (!c && w.r.c != 0) || (!d && w.r.d != 0)
    || (if exch then fld w.w1 0 27 != 0 || fld w.w1 41 23 != 0 || w1Rsv w.w1 else w.w1 != 0)

/-- A Ductus instruction at issue: `size` bytes of descriptor at x[B] (`al` its alignment), the registers it reads, its
checks beyond the word's, and what it does once it enters its unit. -/
def State.ductusIssue (s : State) (c : CoreId) (op unit : Nat) (w : FormX) (rsv : Bool) (size al : Nat) (regs : List Nat)
    (dst : Option Nat) (errs : Loc → CoreSt → Nat → List (Bool × Nat)) (opening : State → Loc → Nat → Nat → State) : State :=
  let w0 := w.r.w0 op
  s.issue c w0 true (fun l cs =>
    let n := s.phys l.p l.l
    let d := s.ductus n
    let b := cs.getX w.r.b.toNat
    let ad := roundDown (b.toNat % spadSize) al
    let desc := if size = 0 then b.toNat else sread cs.spad ad size
    let gate := op = 0xB0 ∨ (op = 0xB1 ∧ bit w.r.fn8.toNat 0 = true)
    let loading := d.loads.any (fun g => g.p == l.p && g.s == l.s && g.l == l.l && g.slot == bits desc 668 2)
    if decide ((tgetD d.q unit []).length ≥ (if (tget d.run unit).isSome then 16 else 17)) || decide (d.held l ≥ 4) || (decide gate && loading)
      || dst.any cs.xPend.contains then .stall
    else s.checked l cs ([(illegalFn w0, cILLEGAL), (rsv, cRESFIELD)] ++ errs l cs desc) regs
      (if size = 0 then [] else [(ad, size)]) (if size = 0 then [] else [.now ad size false]) (fun _ =>
        let o : DOp := { loc := l, op, fn8 := w.r.fn8.toNat, cnt := w.r.a.toNat, w1 := w.w1, desc
                         xc := cs.getX w.r.c.toNat, xd := cs.getX w.r.d.toNat, rc := w.r.c.toNat, pcAt := cs.pc }
        let cs1 : CoreSt := (match dst with
          | some r => if r = 0 then cs else { cs with xPend := addOnce cs.xPend r }
          | none => cs).adv 16
        .eff (((opening (s.setCore l cs1) l n desc)).ductusEnter n unit o)))

/-- The checks of a layer descriptor (06 R194, R196). -/
def layerErrs (d : Nat) : List (Bool × Nat) :=
  [(decide (lyTFMT d > 12) || decide (lyAFMT d > 12) || decide (lyOFMT d > 12), cFORMAT), (layerBad d, cDUCDESC),
   (decide (lyK d > lyE d), cDUCKRANGE)]

/-- The gating slot a descriptor names is empty (06 R199). -/
def State.noGate (s : State) (l : Loc) (d : Nat) : Bool := (tget (s.ctx l.p l.s).gates (4 * l.l + lySlot d)).isNone

def noOpen (s : State) (_ : Loc) (_ _ : Nat) : State := s

/-- An instruction over a layer descriptor with field B alone. -/
def State.layerIssue (s : State) (c : CoreId) (op unit : Nat) (w : FormX) (fnRsv : Bool)
    (more : Loc → Nat → List (Bool × Nat)) : State :=
  s.ductusIssue c op unit w (fnRsv || ductusRsv w true false false false) 128 16 [w.r.b.toNat] none
    (fun l _ d => layerErrs d ++ more l d) noOpen

/-- DSCORE (06 R199). -/
def execDscore (c : CoreId) (w : FormX) (s : State) : Host.Outcome State Fault Refusal :=
  .next (s.layerIssue c 0xB0 0 w (w.r.fn8 != 0) (fun l d => [(s.noGate l d, cDUCNOGLYPH)]))

/-- DTOPK (06 R200). -/
def execDtopk (c : CoreId) (w : FormX) (s : State) : Host.Outcome State Fault Refusal :=
  .next (s.layerIssue c 0xB1 0 w (bits w.r.fn8.toNat 1 7 != 0)
    (fun l d => [(bit w.r.fn8.toNat 0 && s.noGate l d, cDUCNOGLYPH)]))

/-- DNORM (06 R201). -/
def execDnorm (c : CoreId) (w : FormX) (s : State) : Host.Outcome State Fault Refusal :=
  .next (s.layerIssue c 0xB2 0 w (bits w.r.fn8.toNat 2 6 != 0) (fun _ _ => []))

/-- DHIST (06 R203). -/
def execDhist (c : CoreId) (w : FormX) (s : State) : Host.Outcome State Fault Refusal :=
  .next (s.layerIssue c 0xB3 1 w (w.r.fn8 != 0) (fun _ _ => []))

/-- DSCAN (06 R204). -/
def execDscan (c : CoreId) (w : FormX) (s : State) : Host.Outcome State Fault Refusal :=
  .next (s.layerIssue c 0xB4 1 w (w.r.fn8 != 0) (fun _ _ => []))

/-- DALLOC (06 R207): the register field C names is interlocked until it ends. -/
def execDalloc (c : CoreId) (w : FormX) (s : State) : Host.Outcome State Fault Refusal :=
  .next (s.ductusIssue c 0xB5 2 w (w.r.fn8 != 0 || ductusRsv w true true false true) 128 16 [w.r.b.toNat]
    (some w.r.c.toNat) (fun _ _ d => layerErrs d) noOpen)

/-- DSEND with RET = 0 at issue (06 R213): its collect entry opens. -/
def State.issueSend (s : State) (c : CoreId) (w : FormX) : State :=
  let fn := w.r.fn8.toNat
  let h := b2n (bit fn 0)
  s.ductusIssue c 0xB6 2 w (bits fn 3 5 != 0 || ductusRsv w true false false true) 128 16 [w.r.b.toNat] none
    (fun l _ d =>
      let u := s.ductus (s.phys l.p l.l)
      layerErrs d ++ [(!genLive (lyGEN d) (u.floorOf l.s), cDUCGEN),
        ((u.find l.s (lyBATCH d) (lyGEN d) h).isSome, cDUCENTRY), ((u.freeEntry l.s).isNone, cDUCCTFULL)])
    (fun s l n d =>
      let u := s.ductus n
      match u.freeEntry l.s with
      | none => s
      | some i =>
        let e : CtEntry :=
          { st := 1, batch := lyBATCH d, gen := lyGEN d, half := h, retink := bit fn 2 && tblSpace (lyRET d) == 0
            region := bits (lyRET d) 0 50 }
        s.setDuctus n { u with ct := tput u.ct i e })

/-- DSEND with RET = 1 at issue (06 R220). -/
def State.issueReturn (s : State) (c : CoreId) (w : FormX) : State :=
  let fn := w.r.fn8.toNat
  s.ductusIssue c 0xB6 2 w (bits fn 2 6 != 0 || ductusRsv w true false true true) 32 1 [w.r.b.toNat, w.r.d.toNat] none
    (fun _ _ d => [(itSEG d != 0 || decide (itSEG d ≥ itSEGS d), cDUCDESC)]) noOpen

/-- DSEND_DISPATCH. A word with RET = 1 is the other form. -/
def execDsendDispatch (c : CoreId) (w : FormX) (s : State) : Host.Outcome State Fault Refusal :=
  .next (if bit w.r.fn8.toNat 1 then s.issueReturn c w else s.issueSend c w)

/-- DSEND_RETURN. A word with RET = 0 is the other form. -/
def execDsendReturn (c : CoreId) (w : FormX) (s : State) : Host.Outcome State Fault Refusal :=
  .next (if bit w.r.fn8.toNat 1 then s.issueReturn c w else s.issueSend c w)

/-- DSPLIT (06 R216-R219). -/
def execDsplit (c : CoreId) (w : FormX) (s : State) : Host.Outcome State Fault Refusal :=
  .next (s.ductusIssue c 0xBA 1 w (w.r.fn8 != 0 || ductusRsv w true false false false) 64 16 [w.r.b.toNat] none
    (fun _ _ d => [(splitBad d, cDUCDESC)]) noOpen)

/-- DCOLLECT (06 R223): done at issue, without a place in the unit. -/
def execDcollect (c : CoreId) (w : FormX) (s : State) : Host.Outcome State Fault Refusal :=
  .next (s.issue c (w.r.w0 0xB7) true (fun l cs =>
    let n := s.phys l.p l.l
    let d := s.ductus n
    let k := keyOf (cs.getX w.r.c.toNat).toNat
    let at_ := d.find l.s k.1 k.2.1 k.2.2
    s.checked l cs [(w.r.fn8 != 0 || ductusRsv w false true false false, cRESFIELD), (at_.isNone, cDUCENTRY)]
      [w.r.c.toNat] [] [] (fun _ =>
        let s1 : State := s.setCore l (cs.adv 16)
        let i := at_.getD 0
        let e := d.entry i
        if e.st = 2 then .eff (s1.addCounter l w.r.a.toNat 1)
        else .eff (s1.setDuctus n { d with ct := tput d.ct i { e with armed := some (l, w.r.a.toNat) } }))))

/-- DCOMBINE with SEG = 0 at issue (06 R224). -/
def State.issueGate (s : State) (c : CoreId) (w : FormX) : State :=
  s.ductusIssue c 0xB8 3 w (bits w.r.fn8.toNat 3 5 != 0 || ductusRsv w true true false false) 128 16
    [w.r.b.toNat, w.r.c.toNat] none
    (fun l cs d =>
      let k := keyOf (cs.getX w.r.c.toNat).toNat
      layerErrs d ++ [(((s.ductus (s.phys l.p l.l)).find l.s k.1 k.2.1 k.2.2).isNone, cDUCENTRY)]) noOpen

/-- A shape register that breaks R225. -/
def shapeBad (x : W64) : Bool :=
  fld x 0 16 == 0 || fld x 16 16 != 0 || fld x 32 32 == 0 || decide (fld x 32 32 > 16384)

/-- DCOMBINE with SEG = 1 at issue (06 R225). -/
def State.issueSeg (s : State) (c : CoreId) (w : FormX) : State :=
  s.ductusIssue c 0xB8 3 w (bits w.r.fn8.toNat 1 7 != 0 || ductusRsv w true true true false) 0 1
    [w.r.b.toNat, w.r.c.toNat, w.r.d.toNat] none
    (fun _ cs _ => [(shapeBad (cs.getX w.r.c.toNat), cDUCDESC)]) noOpen

/-- DCOMBINE_GATE. A word with SEG = 1 is the other form. -/
def execDcombineGate (c : CoreId) (w : FormX) (s : State) : Host.Outcome State Fault Refusal :=
  .next (if bit w.r.fn8.toNat 0 then s.issueSeg c w else s.issueGate c w)

/-- DCOMBINE_SEG. A word with SEG = 0 is the other form. -/
def execDcombineSeg (c : CoreId) (w : FormX) (s : State) : Host.Outcome State Fault Refusal :=
  .next (if bit w.r.fn8.toNat 0 then s.issueSeg c w else s.issueGate c w)

/-- DCANCEL (06 R227). -/
def execDcancel (c : CoreId) (w : FormX) (s : State) : Host.Outcome State Fault Refusal :=
  .next (s.ductusIssue c 0xB9 2 w (bits w.r.fn8.toNat 1 7 != 0 || ductusRsv w false true false false) 0 1
    [w.r.c.toNat] none (fun _ _ _ => []) noOpen)

end Sys2Proof.Machine
end

