-- ==== Sys2Proof/Machine/Place.lean ====
section
/-! DEFINITION. Placement and migration of granules: quads (01 R18), free room in the tiers (07 R254, R265, 10 R366),
migration block by block (07 R256), promotion (07 R255) and the staging of STREAM objects (07 R254). -/

namespace Sys2Proof.Machine

def Place.tier (pl : Place) : Nat :=
  match pl with
  | .t1 _ => 1
  | .t2 _ => 2
  | .t3 _ => 3
  | .t4 .. => 4

/-- Places that a partition's granules, rings and migrations hold. -/
def State.usedPlaces (s : State) (p : Nat) : List Place :=
  ((s.part p).objs.map (fun o => o.place.map Prod.snd)).flatten ++ (s.part p).migs.map Mig.dst

/-- The quads an object may use, in ascending index (07 R253). -/
def State.eligible (s : State) (p d : Nat) : List Nat :=
  let qs := (s.part p).quads
  ((qs.zip (List.range qs.length)).filter (fun x => dQuads d == 0 || bit (dQuads d) x.2)).map Prod.fst

/-- The lowest number from a on, below a + n, that is not in use. -/
def lowestFree (used : List Nat) (a n : Nat) : Option Nat :=
  let i := freeSlotGo used used.length a
  if i < a + n then some i else none

def usedT2 (ps : List Place) : List Nat := ps.filterMap (fun x => match x with
  | .t2 n => some n
  | _ => none)

/-- The part of a range [a, a + n) that lies in a quad. -/
def clipQuad (q : Nat) (r : Nat × Nat) : Nat × Nat :=
  let lo := max r.1 (q * quadGrans)
  (lo, min (r.1 + r.2) ((q + 1) * quadGrans) - lo)

/-- The lowest free DPA granule of a partition in any of some quads (10 R366). -/
def State.lowestInQuads (s : State) (p : Nat) (used : List Nat) (qs : List Nat) : Option Nat :=
  (qs.filterMap (fun q => (s.part p).dpa.findSome? (fun r =>
    let c := clipQuad q r
    lowestFree used c.1 c.2))).foldl (fun m n => some (min n (m.getD n))) none

/-- The lowest free DPA granule of the first of some quads that has one (07 R265). -/
def State.freeInQuads (s : State) (p : Nat) (used : List Nat) (qs : List Nat) : Option Nat :=
  qs.findSome? (fun q => (s.part p).dpa.findSome? (fun r =>
    let c := clipQuad q r
    lowestFree used c.1 c.2))

/-- Room in T2 for an object's granule j (07 R265, 10 R366). -/
def State.freeT2 (s : State) (p d j : Nat) (ps : List Place) : Option Place :=
  let used := usedT2 ps
  let qs := s.eligible p d
  (if (s.part p).ruled then s.freeInQuads p used (qs.drop (j % qs.length) ++ qs.take (j % qs.length))
   else if s.quadLayout && dQuads d != 0 then s.lowestInQuads p used qs
   else (s.part p).dpa.findSome? (fun r => lowestFree used r.1 r.2)).map Place.t2

/-- Room in T1: the first free half of a cluster store, in ascending cluster order (07 R254). -/
def State.freeT1 (s : State) (p d : Nat) (ps : List Place) : Option Place :=
  let qs := s.eligible p d
  (((s.part p).clus.filter (fun n => qs.contains (quadOf n))).map (fun n => [Place.t1 (2 * n), Place.t1 (2 * n + 1)])).flatten.find?
    (fun x => !ps.contains x)

/-- A place in a tier for granule j of an object, given what is in use. -/
def State.room (s : State) (p d j t : Nat) (ps : List Place) : Option Place :=
  match t with
  | 1 => s.freeT1 p d ps
  | 2 => s.freeT2 p d j ps
  | 3 => some (.t3 (dBack d + j * granSize))
  | 4 => some (.t4 (dBnode d) (dBack d + j * granSize))
  | _ => none

/-- The tiers a descriptor names, in order (07 R253). -/
def dTiers (d : Nat) : List Nat := ((List.range 4).map (dTier d)).filter (fun t => t != 0)

/-! Bytes to and from any home. -/

/-- n bytes sent or written to a home on a partition's behalf, in class C3 where they leave the device. -/
def State.putHome (s : State) (p : Nat) (h : Home) (n v : Nat) (pz : Bool) : State :=
  match h with
  | .host a => if pz then s else s.hostAsk 1 a n v .complete
  | .node k x =>
    if pz then s
    else s.sendOn p .free .none k { farStore x n v with cls := 3 }
  | _ =>
    let s1 := s.hwrite h n v
    if pz then s1.hmark h n else s1

/-- 256 B read from a home outside the device's memory, for `o` or `w`. -/
def State.askHome (s : State) (p : Nat) (h : Home) (o : Owner) (w : HostWait) : State :=
  match h with
  | .host a => s.hostAsk 0 a 256 0 w
  | .node k x => s.sendOn p o .none k { ptype := 1, cls := 3, size := 31, off := x, space := 0 }
  | _ => s

/-- One 256 B piece from a home on the device to another. -/
def State.copyLine (s : State) (p : Nat) (src dst : Home) : State :=
  let s1 : State := s.eccHome src 256
  s1.putHome p dst 256 (s1.hread src 256) (s1.hpoison src 256)

/-- Whether a place's bytes are in the device's own memory. -/
def Place.onChip (pl : Place) : Bool := pl.tier ≤ 2

def State.setObj (s : State) (p : Nat) (o : Obj) : State :=
  s.setPart p { s.part p with objs := (s.part p).objs.map (fun x => if x.id = o.id then o else x) }

/-! Migration (07 R256). -/

/-- A migration's block is complete; the last one releases the old backing. -/
def State.moveNext (s : State) (p : Nat) (m : Mig) : State :=
  let part := s.part p
  if m.next + 1 < 32 then
    s.setPart p { part with migs := part.migs.map (fun x => if x.gran = m.gran then { x with next := m.next + 1 } else x) }
  else
    let s1 : State := s.setPart p { part with migs := part.migs.filter (fun x => x.gran != m.gran) }
    match s1.objAt p m.gran with
    | none => s1
    | some o => s1.setObj p { o with place := tput o.place (m.gran - dGran o.desc) m.dst }

/-- Block b of a granule copied between two places, the source on chip. -/
def State.copyBlock (s : State) (p : Nat) (src dst : Place) (b : Nat) : State :=
  (List.range 256).foldl (fun (s : State) i =>
    s.copyLine p (src.home (65536 * b + 256 * i)) (dst.home (65536 * b + 256 * i))) s

/-- A granule moved whole at once, its source on chip (07 R254: the demotion of a PIN). -/
def State.moveWhole (s : State) (p : Nat) (o : Obj) (j : Nat) (src dst : Place) : State :=
  let s1 : State := (List.range 32).foldl (fun (s : State) b => s.copyBlock p src dst b) s
  s1.setObj p { o with place := tput o.place j dst }

/-- 256 B of a migrating block on its way to its new place; a store that leaves the device is awaited before the block counts as
copied (02 R36, 07 R256). -/
def State.moveOut (s : State) (p g part_ : Nat) (h : Home) (v : Nat) (pz : Bool) : State :=
  match h with
  | .host a => if pz then s else s.hostAsk 1 a 256 v (.move p g (256 + part_))
  | .node k x => if pz then s else s.sendOn p (.move p g part_) .none k { farStore x 256 v with cls := 3 }
  | _ => s.putHome p h 256 v pz

/-- A migrating block none of whose transfers is in flight is copied. -/
def State.moveCheck (s : State) (p : Nat) (m : Mig) : State := if s.moving p m.gran then s else s.moveNext p m

/-- 256 B of a migrating block have come from outside the device. -/
def State.moveArrive (s : State) (p g part_ v : Nat) (pz : Bool) : State :=
  match (s.part p).migs.find? (fun m => m.gran == g) with
  | none => s
  | some m => (s.moveOut p g part_ (m.dst.home (65536 * m.next + 256 * part_)) v pz).moveCheck p m

/-- 256 B of a migrating block have been written outside the device. -/
def State.moveAcked (s : State) (p g : Nat) : State :=
  match (s.part p).migs.find? (fun m => m.gran == g) with
  | none => s
  | some m => s.moveCheck p m

/-- A transfer of a migration failed: what else it has in flight is dropped, and the block starts again. -/
def State.moveLost (s : State) (p g : Nat) : State :=
  ({ s with hreqs := s.hreqs.filter (fun r => match r.wait with
      | .move q h _ => !(q == p && h == g)
      | _ => true) } : State).dropOps (fun o => match o.owner with
    | .move q h _ => q == p && h == g
    | _ => false)

/-- Whether accesses to n bytes at a home outside the device are still unanswered: requests to the host, or operations sent on to
its node (02 R36, R44). -/
def State.homeBusy (s : State) (p : Nat) (h : Home) (n : Nat) : Bool :=
  match h with
  | .host a => s.hreqs.any (fun r => r.kind != 3 && decide (r.addr < a + n) && decide (a < r.addr + r.size))
  | .node k x => s.ops.any (fun e => e.2.part == p && e.2.lnode == k && e.2.space == 0
      && decide (e.2.off < x + n) && decide (x < e.2.off + 256))
  | _ => false

/-- MIGRATE_BLOCK: the next block of a migrating granule, once no earlier access to it is under way outside the device. -/
def execMigrateBlock (p : BitVec 4) (gran : BitVec 27) (s : State) : Host.Outcome State Fault Refusal :=
  let n := p.toNat
  .next (match (s.part n).migs.find? (fun m => m.gran == gran.toNat) with
    | none => s
    | some m =>
      let b := 65536 * m.next
      if s.plat.power ≠ .running || s.moving n m.gran || s.homeBusy n (m.src.home b) 65536 || s.homeBusy n (m.dst.home b) 65536
      then s
      else if m.src.onChip && m.dst.onChip then (s.copyBlock n m.src m.dst m.next).moveNext n m
      else if (m.src.tier = 3 || m.dst.tier = 3) && s.link != .up then s
      else if m.src.onChip then
        ((List.range 256).foldl (fun (s : State) i =>
          let h := m.src.home (b + 256 * i)
          let s1 : State := s.eccHome h 256
          s1.moveOut n m.gran i (m.dst.home (b + 256 * i)) (s1.hread h 256) (s1.hpoison h 256)) s).moveCheck n m
      else
        (List.range 256).foldl (fun (s : State) i =>
          s.askHome n (m.src.home (b + 256 * i)) (.move n m.gran i) (.move n m.gran i)) s)

/-- PROMOTION: the first granule, by object creation and address, that lies below its first choice and has room in a
better tier starts to migrate (07 R255). -/
def execPromotion (p : BitVec 4) (s : State) : Host.Outcome State Fault Refusal :=
  let n := p.toNat
  let part := s.part n
  let ps := s.usedPlaces n
  let better := fun (o : Obj) (e : Nat × Place) =>
    let ts := (dTiers o.desc).takeWhile (fun t => t != e.2.tier)
    (ts.findSome? (fun t => s.room n o.desc e.1 t ps)).map
      (fun d => ({ gran := dGran o.desc + e.1, src := e.2, dst := d, next := 0 } : Mig))
  let found := (sortBy (fun (a b : Obj) => decide (a.id < b.id)) (part.objs.filter (fun o => dPolicy o.desc == 1))).findSome?
    (fun o => o.place.findSome? (fun e => if e.1 < 2 ^ 28 then better o e else none))
  .next (if s.plat.power ≠ .running || part.ruled || part.st != .active || !part.migs.isEmpty then s
    else
      match found with
      | none => s
      | some m => s.setPart n { part with migs := [m] })

/-! Staging (07 R254). -/

def State.staging (s : State) (p id b : Nat) : Bool :=
  s.hreqs.any (fun r => match r.wait with
    | .stage q o c _ => q == p && o == id && c == b
    | _ => false)
  || s.ops.any (fun e => match e.2.owner with
    | .stage q o c _ => q == p && o == id && c == b
    | _ => false)

def State.objOf (s : State) (p id : Nat) : Option Obj := (s.part p).objs.find? (fun o => o.id == id)

/-- A block's bytes are whole in the ring: it is staged, and the block staged earliest leaves a full ring. -/
def Obj.stagedNow (o : Obj) (b : Nat) : Obj :=
  let l := o.staged ++ [b]
  let out := l.take (l.length - dSwin o.desc)
  { o with
    staged := l.drop (l.length - dSwin o.desc)
    ring := out.foldl (fun m x => mclear m (65536 * x) 65536) o.ring
    rpois := o.rpois.filter (fun l => !out.contains (l / 256)) }

/-- Engines that wait for a block of a STREAM object take their pieces from the ring as it is staged. -/
def State.stageFeed (s : State) (p id b : Nat) : State :=
  { s with far := s.far.map (fun e =>
      match s.homeOf p e.off with
      | some (.ring q i a) =>
        if e.part == p && e.st == 6 && i == id && a / 65536 == b then
          { e with st := 1, data := s.hread (.ring q i a) e.len, pz := s.hpoison (.ring q i a) e.len }
        else e
      | _ => e) }

/-- Block b of a STREAM object starts to be staged. -/
def State.stageBlock (s : State) (p id b : Nat) : State :=
  match s.objOf p id with
  | none => s
  | some o =>
    if o.staged.contains b || s.staging p id b || decide (32 * dNgran o.desc ≤ b) then s
    else
      match tget o.place (b / 32) with
      | none => s
      | some pl =>
        let at_ := fun i => pl.home (65536 * (b % 32) + 256 * i)
        if pl.onChip then
          let s : State := if s.upsets.isEmpty then s else (List.range 256).foldl (fun (s : State) i => s.eccHome (at_ i) 256) s
          let r := (List.range 256).foldl (fun m i => mwrite m (65536 * b + 256 * i) 256 (s.hread (at_ i) 256)) o.ring
          let z := ((List.range 256).filter (fun i => s.hpoison (at_ i) 256)).map (fun i => 256 * b + i)
          (s.setObj p ({ o with ring := r, rpois := addAll o.rpois z }.stagedNow b)).stageFeed p id b
        else if pl.tier = 3 && s.link != .up then s
        else (List.range 256).foldl (fun (s : State) i => s.askHome p (at_ i) (.stage p id b i) (.stage p id b i)) s

/-- 256 B of a block being staged have come. -/
def State.stageArrive (s : State) (p id b part_ v : Nat) (pz : Bool) : State :=
  match s.objOf p id with
  | none => s
  | some o =>
    let o1 : Obj := { o with
      ring := mwrite o.ring (65536 * b + 256 * part_) 256 v
      rpois := if pz then addOnce o.rpois (256 * b + part_) else o.rpois }
    if s.staging p id b then s.setObj p o1 else (s.setObj p (o1.stagedNow b)).stageFeed p id b

/-- A transfer of a staging failed: the block starts again at the next demand. -/
def State.stageLost (s : State) (p id b : Nat) : State :=
  ({ s with hreqs := s.hreqs.filter (fun r => match r.wait with
      | .stage q o c _ => !(q == p && o == id && c == b)
      | _ => true) } : State).dropOps (fun x => match x.owner with
    | .stage q o c _ => q == p && o == id && c == b
    | _ => false)

/-! Refresh (07 R267): results are unaffected, and no state of the device changes but the mark of a Ruled context. -/

/-- The partition that holds a cluster. -/
def State.holder (s : State) (n : Nat) : Option Nat := (List.range 16).find? (fun p => (s.part p).clus.contains n)

/-- DRAM_REFRESH: the channel's cells are refreshed; contents stay. -/
def execDramRefresh (_ch : BitVec 8) (s : State) : Host.Outcome State Fault Refusal := .next s

/-- RULED_REFRESH: the same, at a scheduled tick. -/
def execRuledRefresh (_quad : BitVec 4) (s : State) : Host.Outcome State Fault Refusal := .next s

/-- REFRESH_CATCHUP: a protection throttle on the Ruled partition whose channel it is. -/
def execRefreshCatchup (ch : BitVec 8) (s : State) : Host.Outcome State Fault Refusal :=
  .next (if s.plat.power ≠ .running ∨ ch.toNat ≥ 192 then s
    else
      match s.holder (ch.toNat / 3) with
      | some p => if (s.part p).ruled then s.throttled 4 ch.toNat [p] else s
      | none => s)

end Sys2Proof.Machine
end

