-- ==== Sys2Proof/Machine/TierMover.lean ====
section
/-! DEFINITION. Tier Mover operations (07 R257-R262): descriptors, the port's queue, moves with gathering and conversion,
glyph loads, and completion. An operation takes effect when it starts (log 14). -/

namespace Sys2Proof.Machine

def cTMVDESC : Nat := 0x0710
def cTMVNOSPACE : Nat := 0x0711
def cTMVOVERLAP : Nat := 0x0712
def cTMVGLYPH : Nat := 0x0713

/-! The descriptor (07 R258). -/

def tmSRC (d : Nat) : Nat := bits d 0 64
def tmSROWS (d : Nat) : Nat := bits d 64 32
def tmK (d : Nat) : Nat := bits d 96 32
def tmIDX (d : Nat) : Nat := bits d 128 64
def tmNROWS (d : Nat) : Nat := bits d 192 32
def tmSFMT (d : Nat) : Nat := bits d 224 4
def tmDFMT (d : Nat) : Nat := bits d 228 4
def tmGSLOT (d : Nat) : Nat := bits d 232 2
def tmGLY (d : Nat) : Bool := bit d 234
def tmOP (d : Nat) : Nat := bits d 240 8
def tmDST (d : Nat) : Nat := bits d 256 64
def tmNOTE (d : Nat) : Nat := bits d 320 64
def tmSTATUS (d : Nat) : Nat := bits d 384 64

/-- IDX that reads row j for row j: its 48 bits are all ones. -/
def tmNoIdx (d : Nat) : Bool := tmIDX d == 2 ^ 48 - 1

def tmBad (d : Nat) : Bool :=
  decide (tmSRC d ≥ 2 ^ 48) || tmSROWS d == 0 || decide (tmSROWS d > 2 ^ 24)
    || tmK d % 128 != 0 || tmK d == 0 || decide (tmK d > 65536) || decide (tmIDX d ≥ 2 ^ 48)
    || tmNROWS d == 0 || decide (tmNROWS d > 2 ^ 24) || decide (tmSFMT d > 12) || decide (tmDFMT d > 12)
    || bits d 235 5 != 0 || decide (tmOP d > 1) || bits d 248 8 != 0
    || decide (tmDST d ≥ 2 ^ 50) || decide (tblSpace (tmDST d) > 1)
    || decide (tmNOTE d ≥ 2 ^ 34) || decide (tmSTATUS d ≥ 2 ^ 48) || bits d 448 64 != 0
    || (tmOP d == 0 && !tmGLY d && tmDFMT d != tmSFMT d)

/-! The queue. -/

/-- Stores waiting at the home enter, oldest first, as far as there are places, and are acknowledged then (07 R258). -/
def State.tmvPull (s : State) (q : Nat) : State :=
  (s.mover q).wait.foldl (fun (s : State) k =>
    let m := s.mover q
    if m.q.length ≥ 64 then s
    else ((s.setMover q { m with wait := m.wait.drop 1, q := m.q ++ [{ p := k.dpart, s := k.dctx, desc := k.data % 2 ^ 512 }] }).notify
      k).answer k 0x8 0 0 0) s

/-- What a partition has waiting at a mover's home is refused, and what is behind it enters (08 R309, R316). -/
def State.tmvClear (s : State) (q p : Nat) : State :=
  let m := s.mover q
  let gone := m.wait.filter (fun k => k.dpart == p)
  let s1 : State := s.setMover q { m with wait := m.wait.filter (fun k => k.dpart != p) }
  (gone.foldl (fun (s : State) k => s.refuse k) s1).tmvPull q

/-- A descriptor store that passed its checks reaches the mover of physical quad q. -/
def State.tmvStore (s : State) (q : Nat) (k : Packet) : State :=
  s.setMover q { s.mover q with wait := (s.mover q).wait ++ [k] } |>.tmvPull q

/-- The queue's head leaves it and runs. -/
def State.tmvTake (s : State) (q : Nat) (r : TmRun) : State :=
  (s.setMover q { s.mover q with q := (s.mover q).q.drop 1, run := some r }).tmvPull q

/-! Moves (07 R257, R259, R260). -/

/-- A source row: its elements and its scale bytes, each as one number. -/
def rowBytes (f k : Nat) : Nat := k * fmtBits f / 8 + (if isMx f then k / 32 else 0)

/-- The pieces of row j of a row operand: (byte from DST, bit of the elements or scales, bytes, scales?). -/
def destPieces (f k j : Nat) : List (Nat × Nat × Nat × Bool) :=
  let w := fmtBits f
  let tiles := k / 128
  ((List.range tiles).map (fun t =>
    let b := (j / 8 * tiles + t) * tileSize f
    (b + j % 8 * (16 * w), 128 * w * t, 16 * w, false)
      :: (if isMx f then [(b + 128 * w + 4 * (j % 8), 32 * t, 4, true)] else []))).flatten

/-- t0 of an element (07 R260): FP32, or INT32 for an integer source. -/
def elemIn (f scale c : Nat) : Nat :=
  if f = 12 then c
  else if f = 11 then wrap (sgn c 8) 32
  else if isMx f then toF32 (mxNum f scale c)
  else toF32 (toNum f c)

/-- A row through a glyph: `i0` words were drawn before it. The elements and the scales of the result. -/
def glyphRow (img seed c3 seq i0 sfmt dfmt k j row elems_ scales : Nat) : Nat × Nat :=
  let xs := (List.range k).map (fun i =>
    let w := philoxWord seed c3 seq (i0 + i)
    (glyph img w (elemIn sfmt (bits scales (i / 32 * 8) 8) (bits elems_ (fmtBits sfmt * i) (fmtBits sfmt))) i j row, w))
  if isMx dfmt then
    let bs := (List.range (k / 32)).map (fun b =>
      mxBlock dfmt (((xs.drop (32 * b)).take 32).map (fun x => (f32 x.1, rndOf (glySr img) x.2))))
    (packElems (fmtBits dfmt) (bs.map Prod.snd).flatten, packElems 8 (bs.map Prod.fst))
  else (packElems (fmtBits dfmt) (xs.map (glyOut img)), 0)

/-- A move in progress: status, dropped rows, rows that drew random words. -/
structure Moving where
  status : Nat
  drops : Nat
  drawn : Nat
  deriving DecidableEq, Repr

/-- One row written to DST; poison stays on the device (12 R420). -/
def State.putRow (s : State) (q : Nat) (o : TmOp) (j : Nat) (e sc : Nat) (pz : Bool) : Option State × Nat :=
  let d := o.desc
  let a := tmDST d
  let ps := destPieces (tmDFMT d) (tmK d) j
  if ps.any (fun x => (s.tblBad o.p a x.1 x.2.2.1 true).isSome) then (none, cFABPERM)
  else if ps.any (fun x => s.tblDead o.p a x.1 x.2.2.1) then (none, cFABDEAD)
  else if pz && ps.any (fun x => s.tblAway o.p a x.1 x.2.2.1) then (none, cPOISON)
  else
    (some (ps.foldl (fun (s : State) x =>
      s.tblWrite (some (.mover q)) o.p o.s a x.1 x.2.2.1 (bits (if x.2.2.2 then sc else e) x.2.1 (8 * x.2.2.1)) pz) s), 0)

/-- Row j of a move (rows from NROWS on are the zero lines of the last group). -/
def State.moveRow (s : State) (q : Nat) (o : TmOp) (m : Moving) (j : Nat) : State × Moving :=
  let d := o.desc
  let k := tmK d
  let sf := tmSFMT d
  let s : State := if decide (m.status = 0) && decide (j < tmNROWS d) && !tmNoIdx d then s.eccTbl o.p (tmIDX d) (4 * j) 4 else s
  let idxBad := !tmNoIdx d && (s.tblBad o.p (tmIDX d) (4 * j) 4 false).isSome
  let w := Who.mover q
  let idx := if tmNoIdx d then j else s.tblRead w o.p o.s (tmIDX d) (4 * j) 4
  let put := fun (s : State) (m : Moving) e sc pz =>
    match s.putRow q o j e sc pz with
    | (some t, _) => (t, m)
    | (none, c) => (if c = cFABPERM then s.count 0x0417 else s.count c, { m with status := c })
  if m.status ≠ 0 then (s, m)
  else if j ≥ tmNROWS d then put s m 0 0 false
  else if idxBad then (s.count 0x0417, { m with status := cFABPERM })
  else if !tmNoIdx d && (s.tblLost w o.p (tmIDX d) (4 * j) 4).isSome then
    (s, { m with status := ((s.tblLost w o.p (tmIDX d) (4 * j) 4).map Prod.fst).getD 0 })
  else if idx ≥ tmSROWS d then put (s.count 0x0702) { m with drops := m.drops + 1 } 0 0 false
  else
    let n := rowBytes sf k
    let at_ := tmSRC d
    if (s.tblBad o.p at_ (idx * n) n false).isSome then (s.count 0x0417, { m with status := cFABPERM })
    else match s.tblLost w o.p at_ (idx * n) n with
    | some e => (s, { m with status := e.1 })
    | none =>
      let s : State := s.eccTbl o.p at_ (idx * n) n
      let v := s.tblRead w o.p o.s at_ (idx * n) n
      let pz := s.tblPoison w o.p o.s at_ (idx * n) n || (!tmNoIdx d && s.tblPoison w o.p o.s (tmIDX d) (4 * j) 4)
      let e := bits v 0 (k * fmtBits sf)
      let sc := v / 2 ^ (k * fmtBits sf)
      if tmGLY d then
        let x := s.ctx o.p o.s
        let qi := ((s.part o.p).quads.findIdx? (· == q)).getD 0
        let r := glyphRow (tgetD (s.mover q).glyph (4 * o.p + tmGSLOT d) 0) x.seed.toNat (philoxC3 x.lnode 0 qi 9)
          (tgetD x.seq9 qi 0) (m.drawn * k) sf (tmDFMT d) k j idx e sc
        put s { m with drawn := m.drawn + 1 } r.1 r.2 pz
      else put s m e sc pz

/-- Stream 9 of the quad's context after a move (02 R65, R66). -/
def State.spend9 (s : State) (q : Nat) (o : TmOp) (n : Nat) : State :=
  let x := s.ctx o.p o.s
  let qi := ((s.part o.p).quads.findIdx? (· == q)).getD 0
  s.setCtx o.p o.s { x with seq9 := tput x.seq9 qi (tgetD x.seq9 qi 0 + (n + 3) / 4) }

/-- What a move still lacks: lines that the host holds (11 R397), its indices and the rows they name from outside the
device. -/
def State.moveHeld (s : State) (q : Nat) (o : TmOp) : List Need :=
  let d := o.desc
  let w := Who.mover q
  let n := rowBytes (tmSFMT d) (tmK d)
  let idx := if tmNoIdx d then [] else s.tblHeld w o.p (tmIDX d) 0 (4 * tmNROWS d) false
  let rows := if !idx.isEmpty then []
    else ((List.range (tmNROWS d)).map (fun j =>
      let x := if tmNoIdx d then j else s.tblRead w o.p o.s (tmIDX d) (4 * j) 4
      if x < tmSROWS d then s.tblHeld w o.p (tmSRC d) (x * n) n false else [])).flatten
  idx ++ rows ++ s.tblHeld w o.p (tmDST d) 0 ((tmNROWS d + 7) / 8 * (tmK d / 128 * tileSize (tmDFMT d))) true

/-- The glyph error of a move, if it has one. -/
def State.moveGlyphBad (s : State) (q : Nat) (o : TmOp) : Bool :=
  let d := o.desc
  tmGLY d && (match tget (s.mover q).glyph (4 * o.p + tmGSLOT d) with
    | none => true
    | some img => glyOfmt img != tmDFMT d)

/-- TMV_MOVE: the operation at the head of a mover's queue runs, unless it is a glyph load. -/
def execTmvMove (quad : BitVec 4) (s : State) : Host.Outcome State Fault Refusal :=
  let q := quad.toNat
  let m := s.mover q
  .next (match m.q, m.run with
    | o :: _, none =>
      let d := o.desc
      if s.plat.power ≠ .running || tmOP d == 1 then s
      else if tmBad d then s.tmvTake q { op := o, status := cTMVDESC, drops := 0, out := 0, done := true }
      else if s.moveGlyphBad q o then s.tmvTake q { op := o, status := cTMVGLYPH, drops := 0, out := 0, done := true }
      else if !(s.moveHeld q o).isEmpty then s.gather (.mover q) o.p (s.moveHeld q o)
      else
        let r := (List.range (roundUp (tmNROWS d) 8)).foldl (fun (x : State × Moving) j => x.1.moveRow q o x.2 j)
          (s, ⟨0, 0, 0⟩)
        let s1 : State := if tmGLY d then r.1.spend9 q o (r.2.drawn * tmK d) else r.1
        (s1.tblEnd (.mover q)).tmvTake q { op := o, status := r.2.status, drops := r.2.drops, out := 0, done := true }
    | _, _ => s)

/-- TMV_GLYPH_LOAD: an OP = 1 operation at the head of a mover's queue loads its slot (07 R260). -/
def execTmvGlyphLoad (quad : BitVec 4) (s : State) : Host.Outcome State Fault Refusal :=
  let q := quad.toNat
  let m := s.mover q
  .next (match m.q, m.run with
    | o :: _, none =>
      let d := o.desc
      let w := Who.mover q
      let end_ := fun (s : State) st => s.tmvTake q { op := o, status := st, drops := 0, out := 0, done := true }
      if s.plat.power ≠ .running || tmOP d != 1 then s
      else if tmBad d then end_ s cTMVDESC
      else if (s.tblBad o.p (tmSRC d) 0 528 false).isSome then end_ ((s.count 0x0417).tblEnd w) cFABPERM
      else match s.tblLost w o.p (tmSRC d) 0 528 with
      | some e => end_ (s.tblEnd w) e.1
      | none =>
        let lacks := s.tblHeld w o.p (tmSRC d) 0 528 false
        let s : State := if lacks.isEmpty then s.eccTbl o.p (tmSRC d) 0 528 else s
        if !lacks.isEmpty then s.gather w o.p lacks
        else if s.tblPoison w o.p o.s (tmSRC d) 0 528 then end_ (s.tblEnd w) cPOISON
        else
          let img := s.tblRead w o.p o.s (tmSRC d) 0 528
          if (firstErr (glyErrs img false)).isSome then end_ (s.tblEnd w) cTMVGLYPH
          else end_ ((s.tblEnd w).setMover q { m with glyph := tput m.glyph (4 * o.p + tmGSLOT d) img }) 0
    | _, _ => s)

/-! Completion (07 R261). -/

/-- A mover is free again. -/
def State.tmvFree (s : State) (q : Nat) : State := s.setMover q { s.mover q with run := none }

/-- A status or note that cannot be written is logged, and the operation ends. -/
def State.tmvLost (s : State) (q code : Nat) : State :=
  match (s.mover q).run with
  | none => s
  | some r =>
    let e := s.event code 5 7 q 0 0 0
    (s.logEvent { e with lnode := bits (tmNOTE r.op.desc) 0 16, part := r.op.p, ctx := r.op.s, pv := true }).tmvFree q

/-- One operation of a completion sent to the NOTE node. -/
def State.tmvSend (s : State) (q : Nat) (r : TmRun) (last : Bool) (rq : RReq) : State :=
  let n := bits (tmNOTE r.op.desc) 0 16
  if !lnLive (s.lnt r.op.p n) then (s.deadNode r.op.p n).tmvLost q cFABDEAD
  else
    (s.setMover q { s.mover q with run := some { r with out := if last then 2 else 1 } }).sendOn r.op.p (.tmv q last) .none n rq

/-- TMV_COMPLETE: the status of a finished operation, all of whose writes have been performed, goes to its NOTE node. -/
def execTmvComplete (quad : BitVec 4) (s : State) : Host.Outcome State Fault Refusal :=
  let q := quad.toNat
  .next (match (s.mover q).run with
    | none => s
    | some r =>
      if s.plat.power ≠ .running || !r.done || r.out != 0 || s.slotsFull || s.farBusy (.mover q) then s
      else s.tmvSend q r false
        { ptype := 2, cls := 2, size := 0, off := tmSTATUS r.op.desc, space := 0
          data := r.status + r.drops % 2 ^ 32 * 2 ^ 32, words := 1 })

/-- The status is written: the NOTE counter rises by 1; the counter has risen: the operation is over. -/
def State.tmvAck (s : State) (q : Nat) (last : Bool) : State :=
  match (s.mover q).run with
  | none => s
  | some r =>
    if last then s.tmvFree q
    else
      let n := tmNOTE r.op.desc
      s.tmvSend q r true
        { ptype := 3, cls := 2, size := 0, off := bits n 28 6 + bits n 22 6 * 2 ^ 18 + bits n 16 6 * 2 ^ 24, space := 2
          data := 1, words := 1 }

end Sys2Proof.Machine
end

