-- ==== Sys2Proof/Machine/FabricTarget.lean ====
section
/-! DEFINITION. Requests at the target device: the checks (08 R309-R311), the accesses in every space and at every home
(02 R37-R58, 07 R241, R254), the ports, multicast stores (08 R298, R299) and answer stores (06 R222). -/

namespace Sys2Proof

open Sys2Proof.Machine

/-- Bytes an operation reads or writes at its home. -/
def Packet.span (k : Packet) : Nat :=
  match k.ptype with
  | 3 | 4 => atomBytes k.atype
  | _ => k.size

def Packet.writes (k : Packet) : Bool := k.ptype != 1

/-- Operands of a posted atomic (08 R312). -/
def Packet.operands (k : Packet) : List Nat :=
  if k.comb && decide (k.atype ≥ 2) then splitN 64 (k.size / 8) k.data else [k.data % 2 ^ 64]

def Packet.isPort (k : Packet) : Bool := k.space == 0 && k.offset / granSize == portGran

/-- The new value that an atomic leaves over an old one: operands in order, or compare and swap. -/
def Packet.newValue (k : Packet) (old : Nat) : Nat :=
  if k.ptype = 5 then
    let n := 8 * k.size
    if old = bits k.data 0 n then bits k.data n n else old
  else k.operands.foldl (fun v x => atomFn (if k.ptype = 4 then 0 else k.aop) k.atype v x) old

def Packet.hop (k : Packet) : Packet := { k with w0 := putFld k.w0 48 8 (k.hops + 1) }

end Sys2Proof

namespace Sys2Proof.Machine

/-! Checks (08 R309). -/

/-- Steps 1 and 2: partition, context, TORN, job epoch. -/
def State.jobOk (s : State) (p c job je : Nat) : Bool :=
  let part := s.part p
  (part.st != .free && part.st != .creating) && (s.ctx p c).st != .free && !s.torn p
    && (job != s.job p || je == s.jepoch p)

/-- Step 3: the space and its fields, the operation in its space (02 R40, R43). -/
def State.spaceOk (s : State) (k : Packet) (p : Nat) : Bool :=
  let n := s.nclu p
  !offsetBad k.space k.offset && (!k.nt || decide (k.nclu < n))
    && (k.space == 0 || decide (bits k.offset 24 6 < n))
    && (k.space != 2 || ((k.ptype == 3 || k.ptype == 4) && k.atype == 0 && k.aop == 0))

/-- Step 4 outside the port granule. -/
def State.granOk (s : State) (k : Packet) (p : Nat) : Bool :=
  k.space != 0 || s.resOk p k.wgrp k.offset k.writes

/-- Whether a RESTORE refuses an arriving write (12 R442): to the context's own spaces, or to a section object. -/
def State.restoring (s : State) (k : Packet) (p c : Nat) : Bool :=
  match (s.part p).ckpt with
  | some x => x.restore && k.writes && (if k.space = 0 then x.watched.contains (k.offset / granSize) else x.s == c)
  | none => false

/-- All of R309 for an operation outside the port granule. -/
def State.accessOk (s : State) (k : Packet) (p c : Nat) : Bool :=
  s.jobOk p c k.job k.jepoch && s.spaceOk k p && !k.isPort && s.granOk k p && !s.restoring k p c

/-- The checks of a request, or those that go on holding for one that has passed them and waits at its home: a permission update
after it arrived does not touch it (08 R311). -/
def State.admitted (s : State) (k : Packet) (p c : Nat) : Bool :=
  s.accessOk k p c
    || (s.passed.contains k && s.jobOk p c k.job k.jepoch && s.spaceOk k p && !k.isPort
      && (k.space != 0 || s.mapOk p k.offset k.writes) && !s.restoring k p c)

/-- The checks of a port whose own rule holds. -/
def State.portOk (s : State) (k : Packet) (rule : Bool) : Bool :=
  s.jobOk k.dpart k.dctx k.job k.jepoch && s.spaceOk k k.dpart && k.isPort && rule

/-- A packet that this device may perform now: sent to it, well formed, in its turn. -/
def State.reaches (s : State) (k : Packet) (types : List Nat) : Bool :=
  types.contains k.ptype && !k.bad && s.mayTake k && k.dnode == s.pnode

/-- A packet from the fabric at a device without a valid node number is discarded (08 R287). -/
def State.unnumbered (s : State) (k : Packet) : Bool := !s.nodeValid && k.snode != s.pnode

/-- The packet stays: it waits on the mesh. -/
def State.stay (s : State) (k : Packet) : State :=
  if s.mesh.contains k || (List.range' 16 8).any (fun n => s.inMeshQ n k) then s else s.put k

/-- A request that has passed its checks waits at its home. -/
def State.hold (s : State) (k : Packet) : State := { s.stay k with passed := if s.passed.contains k then s.passed else s.passed ++ [k] }

/-! Waiting at the home (07 R254, R256; 11 R397). -/

/-- What an operation waits for at its home, if anything; a line that the host holds comes back first, in whatever tier it now lies
(11 R397). -/
def State.homeWait (s : State) (k : Packet) (p : Nat) : Option State :=
  if k.space ≠ 0 then none
  else if s.migBusy p k.offset then some s
  else if !(s.held p k.offset k.span k.writes).isEmpty then some (s.recallAll p (s.held p k.offset k.span k.writes))
  else
    match s.homeOf p k.offset with
    | some (.unstaged _ _) => some s
    | some (.node n x) =>
      if s.slotsFull || s.ops.any (fun e => e.2.part == p && e.2.lnode == n && e.2.space == 0 && e.2.off / 256 == x / 256
        && (e.2.owner == .free || (match e.2.owner with
          | .move .. => true
          | _ => false))) then some s
      else none
    | some (.host a) =>
      if s.hreqs.any (fun r => r.kind == 1 && (r.wait == .complete) && decide (r.addr < a + k.span) && decide (a < r.addr + r.size))
      then some s else none
    | _ => none

/-! Performing. -/

/-- The response of an operation that has been performed: the notify counter first (02 R52). -/
def State.performed (s : State) (k : Packet) (old : Nat) (pz : Bool) : State :=
  let s1 := s.notify k
  match k.ptype with
  | 1 => s1.answer k 0x9 (if pz then cPOISON else 0) (k.size / 8) old
  | 4 => s1.answer k 0x9 0 1 old
  | 5 => s1.answer k 0x9 0 (k.size / 8) old
  | _ => s1.answer k 0x8 0 0 0

/-- Poison that a store of this device carries (12 R420). -/
def State.carries (s : State) (k : Packet) : Bool := k.snode == s.pnode && (tget s.meshPoison (k.slot + k.use * 2 ^ 22)).isSome

def State.uncarry (s : State) (k : Packet) : State :=
  if k.snode = s.pnode then { s with meshPoison := tdel s.meshPoison (k.slot + k.use * 2 ^ 22) } else s

/-- An operation forwarded to the node of a REMOTE object (07 R254). -/
def State.forwardOp (s : State) (k : Packet) (p node off : Nat) : State :=
  if !lnLive (s.lnt p node) then (s.deadNode p node).answer k 0xA cFABDEAD 0 0
  else
    s.sendOn p (.fwd k) .none node
      { ptype := if k.ptype = 6 then 2 else k.ptype, cls := 2, size := fld k.w1 54 5, off, space := 0, atype := k.atype
        aop := k.aop, comb := k.comb, data := k.data
        words := match k.ptype with
          | 1 => 0
          | 3 | 4 => if k.comb then k.size / 8 else 1
          | 5 => 2 * (k.size / 8)
          | _ => k.size / 8 }

/-- An operation performed in a scratchpad or on a counter, or in memory on this device; none where its home is the host
or another node. -/
def State.performHere (s : State) (k : Packet) (p c : Nat) : Option State :=
  let n := k.span
  let pz := s.carries k
  let s0 := s.uncarry k
  if k.space = 1 then
    let l := offLoc p c k.offset
    let a := k.offset % 2 ^ 18
    let cs := s0.core l
    let old := mread cs.spad a n
    let bad := (cs.poisonIn a n).isSome
    match k.ptype with
    | 1 => some (s0.performed k old bad)
    | 2 | 6 =>
      let s1 := s0.spadWrite l a n k.data
      some ((if pz then s1.spadMark l a n else s1).performed k 0 false)
    | _ =>
      if bad then some (s0.answer k 0xA cPOISON 0 0)
      else some ((s0.spadWrite l a n (k.newValue old)).performed k old false)
  else if k.space = 2 then
    let l := offLoc p c k.offset
    let i := k.offset % 64
    let old := (s0.core l).getCnt i
    some ((s0.addCounter l i (BitVec.ofNat 32 k.data)).performed k old.toNat false)
  else
    match s.homeOf p k.offset with
    | some (.host _) => none
    | some (.node _ _) => none
    | some h =>
      let s0 := if k.ptype == 2 || k.ptype == 6 then s0 else s0.eccHome h n
      let old := s0.hread h n
      let bad := s0.hpoison h n
      match k.ptype with
      | 1 => some (s0.performed k old bad)
      | 2 | 6 =>
        let s1 := (s0.hwrite h n k.data).noteWrite p k.offset
        some ((if pz then s1.hmark h n else s1).performed k 0 false)
      | _ =>
        if bad then some (s0.answer k 0xA cPOISON 0 0)
        else some (((s0.hwrite h n (k.newValue old)).noteWrite p k.offset).performed k old false)
    | none => some s0

/-- An operation performed at its home, or sent on to the host (11 R398) or to another node. Poisoned data never leave
the device (12 R420). -/
def State.perform (s : State) (k : Packet) (p c : Nat) : State :=
  match s.performHere k p c with
  | some t => t
  | none =>
    if s.carries k then (s.uncarry k).answer k 0xA cPOISON 0 0
    else
      match s.homeOf p k.offset with
      | some (.host a) =>
        (if k.writes then s.noteWrite p k.offset else s).hostAsk
          (if k.ptype = 1 then 0 else if k.ptype = 2 ∨ k.ptype = 6 then 1 else 2) a k.span k.data (.tier3 k)
      | some (.node n off) => s.forwardOp k p n off
      | _ => s

/-- A request of some types at its target, outside the ports. -/
def State.serve (s : State) (k : Packet) (types : List Nat) : State :=
  if !s.reaches k types then s.dropBad k
  else if s.unnumbered k then (s.take k).count 0x0413
  else if !s.admitted k k.dpart k.dctx then ((s.take k).uncarry k).refuse k
  else
    match s.homeWait k k.dpart with
    | some t => t.hold k
    | none => (s.take k).perform k k.dpart k.dctx

/-- RLD_REQUEST. -/
def execRldRequest (p : Packet) (s : State) : Host.Outcome State Fault Refusal := .next (s.serve p [1])

/-- POSTED_ATOMIC_REQUEST. -/
def execPostedAtomicRequest (p : Packet) (s : State) : Host.Outcome State Fault Refusal := .next (s.serve p [3])

/-- CAS_REQUEST. -/
def execCasRequest (p : Packet) (s : State) : Host.Outcome State Fault Refusal := .next (s.serve p [5])

/-- Loads that wait on the mesh for a staged block are served, in their order. -/
def State.serveStaged (s : State) (p id b : Nat) : State :=
  s.mesh.foldl (fun (s : State) k =>
    match s.homeOf p k.offset with
    | some (.ring _ i a) => if k.ptype == 1 && k.space == 0 && k.dpart == p && i == id && a / 65536 == b then s.serve k [1] else s
    | _ => s) s

/-- STREAM_STAGE: the block that a read demands is staged and served; then those of the three that follow it which are not staged,
each taking the place of the block staged earliest (07 R254). -/
def execStreamStage (p : BitVec 4) (addr : BitVec 48) (s : State) : Host.Outcome State Fault Refusal :=
  let n := p.toNat
  .next (if s.plat.power ≠ .running then s
    else
      match s.objAt n (addr.toNat / granSize) with
      | none => s
      | some o =>
        let b := (addr.toNat - dGran o.desc * granSize) / 65536
        if dPolicy o.desc ≠ 2 || o.staged.contains b then s
        else (List.range' 1 3).foldl (fun (s : State) i => s.stageBlock n o.id (b + i))
          ((s.stageBlock n o.id b).serveStaged n o.id b))

/-! The Inkwell port (07 R241, R244). -/

/-- A request reaches the Inkwell: an ALLOC of this device by the front end that CLU names, in a Freehand partition. -/
def State.inkEnter (s : State) (k : Packet) : State :=
  let v := k.data % 2 ^ 64
  let r : InkReq := { pkt := k, step := 0 }
  if k.snode = s.pnode ∧ inkBad v = false ∧ inkOp v = 1 ∧ inkClu v < s.nclu k.dpart ∧ (s.part k.dpart).ruled = false then
    let n := s.phys k.dpart (inkClu v)
    s.setFront n { s.front n with q := (s.front n).q ++ [r] }
  else { s with inkq := s.inkq ++ [r] }

/-- FETCH_ADD_REQUEST: in memory, on a counter, or at the Inkwell port. -/
def execFetchAddRequest (p : Packet) (s : State) : Host.Outcome State Fault Refusal :=
  .next (if p.isPort then
      if !s.reaches p [4] then s.dropBad p
      else if s.unnumbered p then (s.take p).count 0x0413
      else if s.portOk p (p.offset == inkPort && p.atype == 1) then (s.take p).inkEnter p
      else (s.take p).refuse p
    else s.serve p [4])

/-! The other ports (07 R258, 08 R311). -/

def tmvPort : Nat := 0xFFFFFFE01000
def permPort : Nat := 0xFFFFFFE02000
def ligUp : Nat := 0xFFFFFFF00000
def ligDown : Nat := 0xFFFFFFF80000

/-- The quad index of a Tier Mover port. -/
def portQuad (off : Nat) : Option Nat :=
  if tmvPort ≤ off ∧ off < tmvPort + 0x1000 ∧ (off - tmvPort) % 0x100 = 0 then some ((off - tmvPort) / 0x100) else none

/-- A permission update that R311 allows. -/
def State.permOk (s : State) (k : Packet) : Bool :=
  let v := k.data % 2 ^ 64
  let p := k.dpart
  let g := bits v 0 27
  let w := bits v 27 4
  k.ptype == 2 && k.size == 8 && bits v 33 31 == 0 && (s.objAt p g).isSome && bits v 31 2 != 3 && k.wgrp == s.wg p
    && !(bits v 31 2 == 2 && (List.range 16).any (fun x => x != w && s.permOf p g x == 2))

/-- Whether a store is the local copy of a multicast, an RMCST and no RST (07 R241, 08 R298). -/
def State.isCopy (s : State) (k : Packet) : Bool :=
  match (s.opOf k).map Op.owner with
  | some (.fwd a) => a.ptype == 6
  | _ => false

/-- A store to a Tier Mover port or the permission port. -/
def State.portStore (s : State) (k : Packet) : State :=
  if !s.reaches k [2] then s.dropBad k
  else if s.isCopy k then (s.take k).refuse k
  else if s.unnumbered k then (s.take k).count 0x0413
  else
    match portQuad k.offset with
    | some q =>
      if s.portOk k (k.size == 64 && decide (q < (s.part k.dpart).quads.length) && k.wgrp == s.wg k.dpart) then
        (s.take k).tmvStore ((s.part k.dpart).quads.getD q 0) k
      else (s.take k).refuse k
    | none =>
      if s.portOk k (k.offset == permPort && s.permOk k) then
        let v := k.data % 2 ^ 64
        let part := s.part k.dpart
        let s1 : State := s.take k
        (s1.setPart k.dpart { part with perm := tput part.perm (16 * bits v 0 27 + bits v 27 4) (bits v 31 2) }).performed k 0 false
      else (s.take k).refuse k

/-- TMV_PORT_STORE. -/
def execTmvPortStore (p : Packet) (s : State) : Host.Outcome State Fault Refusal :=
  .next (if (portQuad p.offset).isSome && p.space == 0 then s.portStore p else s)

/-- Whether an offset is a Ligature block's (07 R241): those stores are commands of their own (09 R344). -/
def ligBlock (off : Nat) : Bool :=
  (decide (ligUp ≤ off) && decide (off < ligUp + 0x4000) || decide (ligDown ≤ off) && decide (off < ligDown + 0x4000))
    && off % 0x100 == 0

/-- RST_REQUEST: a plain store, or one to a port. -/
def execRstRequest (p : Packet) (s : State) : Host.Outcome State Fault Refusal :=
  .next (if p.ext || (p.isPort && ligBlock p.offset) then s.dropBad p
    else if p.isPort then s.portStore p
    else s.serve p [2])

/-! Answer stores (06 R222). -/

/-- What the engine does with an answer store: 0 stale, 1 out of range, 2 written; with its entry, which is open until it closes,
complete or not (06 R222, R224). -/
def State.returnFate (s : State) (clu c : Nat) (k : Packet) : Nat × Nat :=
  let t := k.x0.toNat
  let d := s.ductus clu
  match d.find c (bits t 0 16) (bits t 16 16) (bits t 32 1) with
  | none => (0, 0)
  | some i =>
    let e := d.entry i
    if k.space = 0 ∧ e.lo ≤ k.offset ∧ k.offset + k.size ≤ e.lo + e.len then (2, i)
    else (1, i)

/-- RETURN_STORE_ARRIVAL: checked as every request, then matched, and written and counted or discarded. -/
def execReturnStoreArrival (p : Packet) (s : State) : Host.Outcome State Fault Refusal :=
  let clu := s.phys p.dpart (fld p.x1 0 6)
  .next (if !p.ext || !s.reaches p [2] then s.dropBad p
    else if s.unnumbered p then (s.take p).count 0x0413
    else if !s.admitted p p.dpart p.dctx || decide (fld p.x1 0 6 ≥ s.nclu p.dpart) then ((s.take p).uncarry p).refuse p
    else
      match s.homeWait p p.dpart with
      | some t => t.hold p
      | none =>
        let s0 : State := s.take p
        match s0.returnFate clu p.dctx p with
        | (2, i) =>
          let d := s0.ductus clu
          let e := d.entry i
          ((s0.setDuctus clu { d with ct := tput d.ct i { e with got := e.got + p.size } }).perform p p.dpart p.dctx).ctCheck clu i
        | (f, _) => (((s0.uncarry p).ducCount clu (0x0301 + f) 1).notify p).answer p 0x8 0 0 0)

/-! Multicast (08 R297-R299). -/

/-- Tree entries, keyed 1,024 version + tree. -/
def State.treeOf (s : State) (v t : Nat) : BitVec 128 :=
  if s.ruined (.tree (1024 * v + t)) then 0 else tgetD s.tree (1024 * v + t) 0

def trMASK (e : BitVec 128) : Nat := fld e 0 16
def trLOCAL (e : BitVec 128) : Bool := e.toNat.testBit 16
def trROOT (e : BitVec 128) : Bool := e.toNat.testBit 17
def trVALID (e : BitVec 128) : Bool := e.toNat.testBit 18
def trUP (e : BitVec 128) : Nat := fld e 24 4
def trLPART (e : BitVec 128) : Nat := fld e 32 4
def trLCTX (e : BitVec 128) : Nat := fld e 36 3

def State.version (s : State) (v : Nat) : Version := if v = 0 then s.verA else s.verB

/-- The lower non-zero code (08 R298). -/
def mergeStatus (a b : Nat) : Nat := if a = 0 then b else if b = 0 then a else min a b

/-- The local copy of a multicast packet: an RST of the device's own to the member context, under the issuer's job and
writer group (08 R298); its response merges into the aggregation entry. -/
def State.localCopy (s : State) (k : Packet) (e : BitVec 128) : State :=
  let sl := s.freeSlot
  let u := (tgetD s.use sl 0 + 1) % 1024
  let n := s.pnode
  let k1 : Packet := { k with
    w0 := putFld (putFld (putFld (putFld k.w0 0 4 2) 16 16 n) 32 16 n) 48 8 0
    w2 := putFld (putFld k.w2 0 4 (trLPART e)) 4 3 (trLCTX e)
    w3 := putFld k.w3 0 32 (sl + u * 2 ^ 22) }
  let o : Op := { use := u, owner := .fwd k, dest := .none, part := trLPART e, lnode := 0, space := k.space, off := k.offset
                  pnode := n, epoch := s.srcEpoch, tick := s.now, circ := none }
  ({ s with ops := tput s.ops sl o, use := tput s.use sl u } : State).put k1

/-- Slots that C0 traffic may use, in units of 1/84 slot: RATE drains per tick, BURST slots deep (08 R307). -/
def State.c0Rate (s : State) : Nat := min 20 (bits (s.rg 0x00D00028) 0 5)
def State.c0Burst (s : State) : Nat := 84 * min 12 (bits (s.rg 0x00D00028) 8 8)

/-- The meter's level after a packet of n slots. -/
def State.c0Level (s : State) (used at_ n : Nat) : Nat := used - s.c0Rate * (s.now - at_) + 84 * n

/-- The cluster on this device where a packet that arrives is taken: a request's home, a response's issuer. -/
def State.pktCluster (s : State) (k : Packet) : Option Nat :=
  if k.isReq then (if k.ptype = 12 then none else s.homeCluster k.dpart k.space k.offset)
  else (tget s.ops k.rslot).bind (fun o => s.srcCluster o.owner)

/-- The mesh port of a packet that arrives, by its number; where no cluster takes it, or the spec does not say which, the first
(08 R291; DESIGN CHOICE, log 112). -/
def State.portFor (s : State) (k : Packet) : Nat := meshInput (meshPort ((s.pktCluster k).getD 26))

/-- The input by which a packet reaches the router: the fabric port that holds it, or the mesh port of the cluster that sent it
(08 R291, R306; log 112). -/
def State.inputOf (s : State) (k : Packet) : Nat :=
  match s.owes.find? (fun o => o.pkt == k) with
  | some o => o.port
  | none => meshInput (meshPort (((s.opOf k).bind (fun o => s.srcCluster o.owner)).getD 26))

/-- Whether a packet is an operation of a Ruled partition of this device. -/
def State.ruledOp (s : State) (k : Packet) : Bool := (s.opOf k).any (fun o => decide (o.part < 16) && (s.part o.part).ruled)

/-- Ruled partitions whose circuits own slots of a port (10 R390). -/
def State.ruledOn (s : State) (n : Nat) : List Nat :=
  (List.range 16).filter (fun p => (s.part p).ruled &&
    s.circ.any (fun e => e.2.toNat.testBit 5 && e.2.toNat.testBit 52 && e.2.toNat.testBit 7 && fld e.2 0 5 == n && fld e.2 48 4 == p))

/-- What can delay the circuits of a port is a protection throttle for the Ruled partitions that own slots of it (08 R326, 10 R390). -/
def State.portThrottle (s : State) (n : Nat) : State :=
  if (s.ruledOn n).isEmpty then s else s.throttled 3 n (s.ruledOn n)

/-- A packet enters an output queue, of a fabric port or of a mesh port (16 to 23). C0 traffic that the router forwards is metered there, and what lies outside the
envelope is counted; the first at a port is logged for a notice (08 R307, R320). -/
def State.enqueuePort (s : State) (n : Nat) (k : Packet) (inp : Nat) (circ : Option Nat) : State :=
  let q := s.port n
  let ent : QEnt := { pkt := k, at_ := s.now, inp, circ }
  let q1 : Port := { q with outq := q.outq ++ [ent] }
  if n ≥ 16 then s.setMeshQ n { s.meshQ n with outq := (s.meshQ n).outq ++ [ent] }
  else if k.cls ≠ 0 ∨ k.snode = s.pnode then s.setPort n q1
  else
    let lv := s.c0Level q.c0Used q.c0At k.slots
    if lv ≤ s.c0Burst then s.setPort n { q1 with c0Used := lv, c0At := s.now }
    else
      let s1 : State := (s.setPort n { q1 with c0Used := lv - 84 * k.slots, c0At := s.now, c0Over := true }).count 0x0415
      (if q.c0Over then s1 else s1.logEvent (s1.event 0x0415 5 3 n 0 0 0)).portThrottle n

/-- A merged MACK leaves: to the issuer at the root, else to the port toward it. -/
def State.sendMack (s : State) (k : Packet) (e : BitVec 128) (status : Nat) : State :=
  let r := k.reply 0xB s.srcEpoch status 0 0 s.pnode
  if trROOT e then s.put r else s.enqueuePort (trUP e) r 16 none

/-- A multicast store at this router. -/
def State.multicast (s : State) (k : Packet) : State :=
  let v := k.epoch
  let e := s.treeOf v k.tree
  let own := k.snode == s.pnode
  let inp := s.inputOf k
  let dead := (s.version v).st == 0
  let ports := (List.range 16).filter (fun i => bit (trMASK e) i)
  if !s.mayTake k || k.ptype ≠ 6 || k.bad then s.dropBad k
  else if s.unnumbered k then (s.take k).count 0x0413
  else if own && (dead || !trVALID e || !trROOT e) then ((s.take k).eccAt (.tree (1024 * v + k.tree))).answer k 0xA cFABPERM 0 0
  else if own && !ports.isEmpty && s.ruledOp k then (s.take k).answer k 0xA cFABNOCIRC 0 0
  else if own && !ports.isEmpty && !s.nodeValid then (s.take k).count 0x0413
  else if dead then (s.take k).count 0x0412
  else if !trVALID e then ((s.take k).eccAt (.tree (1024 * v + k.tree))).count 0x0413
  else if k.hops + 1 ≥ 64 then (s.take k).count 0x0414
  else if decide (s.aggs.length ≥ 4096) || s.slotsFull then s.stay k
  else
    let s0 : State := s.take k
    let n := ports.length + b2n (trLOCAL e)
    if n = 0 then s0.sendMack k e 0
    else
      let s1 : State := ports.foldl (fun (s : State) i => s.enqueuePort i k.hop inp none) s0
      let s2 : State := { s1 with aggs := s1.aggs ++ [{ ver := v, tree := k.tree, left := n, status := 0, pkt := k }] }
      if trLOCAL e then s2.localCopy k e else s2

/-- One part of a multicast has answered: the entry merges it, and the last one sends the MACK on (08 R298). -/
def State.aggMerge (s : State) (m : Packet → Bool) (status : Nat) : State :=
  match s.aggs.find? (fun a => m a.pkt) with
  | none => s.count 0x041A
  | some a =>
    let b : Agg := { a with left := a.left - 1, status := mergeStatus a.status status }
    if b.left = 0 then
      ({ s with aggs := s.aggs.filter (fun x => !m x.pkt) } : State).sendMack a.pkt (s.treeOf a.ver a.tree) b.status
    else { s with aggs := s.aggs.map (fun x => if m x.pkt then b else x) }

/-- MULTICAST_STORE. -/
def execMulticastStore (p : Packet) (s : State) : Host.Outcome State Fault Refusal := .next (s.multicast p)

end Sys2Proof.Machine
end

