-- ==== Sys2Proof/Machine/FabricRouter.lean ====
section
/-! DEFINITION. The router: routing tables and versions (08 R293-R296), forwarding, combining (08 R312), circuits
(08 R300, R301, R305), frames (08 R302, 10 R388), the management agent's admission (08 R307) and node table writes
(08 R290). -/

namespace Sys2Proof

/-- Whether a packet is a posted ADD that may combine. -/
def Packet.combines (k : Packet) : Bool := k.ptype == 3 && k.aop == 0 && !k.nt && k.cls == 2

end Sys2Proof

namespace Sys2Proof.Machine

/-! Routes (08 R293, R294). -/

def State.routeOf (s : State) (v n : Nat) : W16 :=
  if s.ruined (.route (65536 * v + n)) then 0 else tgetD s.route (65536 * v + n) 0

/-- A packet finds no port by its entry (08 R294), or finds the entry in error (12 R419). -/
def State.noRoute (s : State) (k : Packet) : State := (s.eccAt (.route (65536 * k.epoch + k.dnode))).count 0x0413

def rtPORT (e : W16) : Nat := fld e 0 4
def rtPV (e : W16) : Bool := e.toNat.testBit 4
def rtALT (e : W16) : Nat := fld e 5 4
def rtAV (e : W16) : Bool := e.toNat.testBit 9

def parity16 (x : Nat) : Bool := ((List.range 16).filter (fun i => x.testBit i)).length % 2 == 1

/-- The bit that chooses between the two ports. -/
def altBit (k : Packet) : Bool :=
  let o := k.offset
  parity16 (if k.isReq then k.snode ^^^ k.dnode ^^^ bits o 8 16 ^^^ bits o 24 16 ^^^ bits o 40 8
    else k.snode ^^^ k.dnode ^^^ k.rslot % 65536)

def State.portUp (s : State) (n : Nat) : Bool := (s.port n).st == .up

/-- The port a packet leaves by, if one is valid and UP. -/
def State.outPort (s : State) (k : Packet) : Option Nat :=
  let e := s.routeOf k.epoch k.dnode
  let a := rtPV e && s.portUp (rtPORT e)
  let b := rtAV e && s.portUp (rtALT e)
  if rtPV e && rtAV e then
    if altBit k then (if b then some (rtALT e) else if a then some (rtPORT e) else none)
    else if a then some (rtPORT e) else if b then some (rtALT e) else none
  else if a then some (rtPORT e) else if b then some (rtALT e) else none

/-! Combining (08 R312). -/

def sameAdd (j k : Packet) : Bool :=
  j.combines && k.combines && j.dnode == k.dnode && j.dpart == k.dpart && j.dctx == k.dctx && j.space == k.space
    && j.offset == k.offset && j.atype == k.atype && j.epoch == k.epoch && j.job == k.job && j.jepoch == k.jepoch

/-- Operands that a list of ADDs holds. -/
def operandsOf (l : List Packet) : List Nat := (l.map Packet.operands).flatten

/-- Operands of a combined packet: one sum for an integer type, else the list. -/
def joinData (a : Nat) (l : List Packet) : List Nat :=
  let xs := operandsOf l
  if a ≤ 1 then [listSum xs % 2 ^ (8 * atomBytes a)] else xs

/-- The combined packet of a list of ADDs with the TID given. -/
def combined (n : Nat) (tid : Nat) (l : List Packet) (j : Packet) : Packet :=
  let xs := joinData j.atype l
  { j with
    w0 := putFld (putFld j.w0 8 5 (1 + (xs.length + 1) / 2)) 32 16 n
    w1 := putFld (putFld j.w1 54 5 (xs.length - 1)) 60 1 1
    w3 := putFld j.w3 0 32 tid
    data := packElems 64 xs }

def combineSlots (s : State) : Nat := (s.ops.filter (fun e => match e.2.owner with
  | .combine _ => true
  | _ => false)).length

/-- An output queue: of a fabric port, or of a mesh port (16 to 23). -/
def State.outQueue (s : State) (n : Nat) : List QEnt := if n < 16 then (s.port n).outq else (s.meshQ n).outq

def State.setOutQueue (s : State) (n : Nat) (l : List QEnt) : State :=
  if n < 16 then s.setPort n { s.port n with outq := l } else s.setMeshQ n { s.meshQ n with outq := l }

/-- Whether a waiting packet is one that an ADD may join: entered at most 64 ns ago, with fewer than 16 operands and room for the
ADD's, the combine table not full, and nothing behind it that the ADD must follow (08 R312, R325). -/
def State.joinable (s : State) (q : QEnt) (behind : List QEnt) (k : Packet) : Bool :=
  let l := s.sourcesOf q.pkt
  sameAdd q.pkt k && decide (s.now - q.at_ ≤ 67)
    && decide ((operandsOf l).length + k.operands.length ≤ 16)
    && decide (combineSlots s < 4096) && (decide (l.length ≥ 2) || !s.slotsFull)
    && !behind.any (fun r => s.before r.pkt k)

/-- The first waiting packet that an ADD may join. -/
def State.findJoin (s : State) (k : Packet) : List QEnt → Option QEnt
  | [] => none
  | q :: qs => if s.joinable q qs k then some q else s.findJoin k qs

/-- An ADD joins a waiting packet. -/
def State.joinAt (s : State) (n : Nat) (q : QEnt) (k : Packet) : State :=
  let l := s.sourcesOf q.pkt ++ [k]
  let sl := if l.length = 2 then s.freeSlot else q.pkt.slot
  let u := if l.length = 2 then (tgetD s.use sl 0 + 1) % 1024 else q.pkt.use
  let o : Op := { use := u, owner := .combine l, dest := .none, part := 16, lnode := 0, space := k.space, off := k.offset
                  pnode := k.dnode, epoch := k.epoch, tick := s.now, circ := none }
  let r := combined s.pnode (sl + u * 2 ^ 22) l q.pkt
  let s1 : State := { s with
    ops := tput s.ops sl o, use := tput s.use sl u, owes := s.owes.map (fun x => if x.pkt = q.pkt then { x with pkt := r } else x) }
  (s1.setOutQueue n ((s.outQueue n).map (fun x => if x = q then { x with pkt := r } else x))).count 0x0416

/-- Whether a packet is the device's own and its partition is Ruled. -/
def State.ofRuled (s : State) (k : Packet) : Bool := k.isReq && s.ruledOp k

/-- A packet enters an output queue, or joins one that waits there. -/
def State.enterQueue (s : State) (n : Nat) (k : Packet) (inp : Nat) : State :=
  match (if k.combines && !s.ofRuled k then s.findJoin k (s.outQueue n) else none) with
  | some q => s.joinAt n q k
  | none => s.enqueuePort n k inp none

/-- A packet in the buffer of a fabric port that this device takes: it enters the queue of its mesh port, and its slots are owed back
once it has been taken, or at once when it joined another (08 R291, R312, R313). -/
def State.enterMeshPort (s : State) (k : Packet) (inp : Nat) : State :=
  let n := s.portFor k
  let t := s.enterQueue n k inp
  if t.inMeshQ n k then t else t.payCredit k

/-! Forwarding. -/

/-- A packet sent toward its destination by the routing table. -/
def State.route_ (s : State) (k : Packet) (inp : Nat) : State :=
  if (s.version k.epoch).st = 0 then s.count 0x0412
  else if k.hops + 1 ≥ 64 then s.count 0x0414
  else
    match s.outPort k with
    | none => s.noRoute k
    | some n => s.enterQueue n k.hop inp

/-! Circuits (08 R300, R301, R305). -/

def State.circOf (s : State) (c : Nat) : BitVec 128 := if s.ruined (.circ c) then 0 else tgetD s.circ c 0

def ciOUT (e : BitVec 128) : Nat := fld e 0 5
def ciVALID (e : BitVec 128) : Bool := e.toNat.testBit 5
def ciHOLD (e : BitVec 128) : Bool := e.toNat.testBit 6
def ciTDM (e : BitVec 128) : Bool := e.toNat.testBit 7
def ciNEXT (e : BitVec 128) : Nat := fld e 16 12
def ciSHARE (e : BitVec 128) : Nat := fld e 32 10
def ciSPART (e : BitVec 128) : Nat := fld e 48 4
def ciSRC (e : BitVec 128) : Bool := e.toNat.testBit 52
def ciDNODE (e : BitVec 128) : Nat := fld e 64 16

/-- OUTSTANDING: operations injected on a source entry and not yet resolved. -/
def State.outstanding (s : State) (c : Nat) : Nat := (s.ops.filter (fun e => e.2.circ == some c)).length

/-- A C1 packet leaves by a circuit entry. -/
def State.onEntry (s : State) (k : Packet) (c : Nat) (e : BitVec 128) (inp : Nat) : State :=
  let k1 : Packet := { k with w2 := putFld k.w2 30 12 (ciNEXT e) }
  if k.hops + 1 ≥ 64 then s.count 0x0414
  else if ciOUT e = 16 then s.put k1.hop
  else if ciOUT e > 16 || !s.portUp (ciOUT e) then s.count 0x0419
  else s.enqueuePort (ciOUT e) k1.hop inp (some c)

/-- A C1 request at this router. -/
def State.circuit_ (s : State) (k : Packet) : State :=
  let e := s.circOf k.circ
  if k.snode = s.pnode then
    match s.opOf k with
    | none => s.take k
    | some o =>
      if !ciVALID e || !ciSRC e || ciSPART e != o.part || ciDNODE e != k.dnode then
        ((s.take k).eccAt (.circ k.circ)).answer k 0xA cFABNOCIRC 0 0
      else if ciHOLD e then s
      else (({ s with ops := tput s.ops k.slot { o with circ := some k.circ } } : State).take k).onEntry k k.circ e (s.inputOf k)
  else if !ciVALID e then ((s.take k).eccAt (.circ k.circ)).count 0x0419
  else (s.take k).onEntry k k.circ e (s.inputOf k)

/-- What the router does with a packet for another node: bad packets, an unnumbered device, circuits, routes. -/
def State.forward (s : State) (k : Packet) : State :=
  if !s.mayTake k then s
  else if k.bad then (s.take k).count 0x041B
  else if k.ptype == 6 || k.ptype == 0xB || k.onTree then s
  else if !s.nodeValid && !(k.dnode == s.pnode && k.snode == s.pnode) then (s.take k).count 0x0413
  else if k.dnode = s.pnode then s.stay k
  else if k.isReq && k.cls == 1 then s.circuit_ k
  else if s.ofRuled k then (s.take k).answer k 0xA cFABNOCIRC 0 0
  else (s.take k).route_ k (s.inputOf k)

/-- The management agent's C0 packet at the head of its queue, once its bucket admits it (08 R307). -/
def State.enterMesh (s : State) (k : Packet) : State :=
  match s.mgmtOut with
  | [] => s
  | h :: rest =>
    if h ≠ k then s
    else if k.dnode = s.pnode then ({ s with mgmtOut := rest } : State).put k
    else
      match s.outPort k with
      | none => ({ s with mgmtOut := rest } : State).route_ k agentInput
      | some n =>
        let q := s.port n
        let lv := s.c0Level q.agUsed q.agAt k.slots
        if lv > s.c0Burst then s
        else (({ s with mgmtOut := rest } : State).setPort n { q with agUsed := lv, agAt := s.now }).route_ k agentInput

/-- PACKET_FORWARD: a packet of the mesh, one that arrives, or the agent's next. -/
def execPacketForward (p : Packet) (s : State) : Host.Outcome State Fault Refusal :=
  .next (if s.plat.power ≠ .running then s
    else if s.mgmtOut.head? = some p && s.nodeValid then s.enterMesh p else s.forward p)

/-- CIRCUIT_FORWARD. -/
def execCircuitForward (p : Packet) (s : State) : Host.Outcome State Fault Refusal :=
  .next (if p.bad then s.dropBad p
    else if p.isReq && p.cls == 1 && p.dnode != s.pnode then s.forward p
    else if p.isReq && p.cls == 1 && ciVALID (s.circOf p.circ) && s.mayTake p && !p.bad && s.nodeValid
      && p.snode != s.pnode && !s.mesh.contains p then s.circuit_ p
    else s)

/-! Versions (08 R295). -/

def State.setVersion (s : State) (v : Nat) (x : Version) : State := if v = 0 then { s with verA := x } else { s with verB := x }

def State.drainTicks (s : State) : Nat := bits (s.rg 0x00D00020) 0 32

/-- FAB_EPOCH_CMD: 1 LOADED, 2 FLIP, 3 RETIRE of version v. -/
def State.epochCmd (s : State) (cmd v : Nat) : State :=
  let x := s.version v
  match cmd with
  | 1 => if x.st = 0 then s.setVersion v { st := 1, since := s.now } else { s with epochErr := true }
  | 2 => if x.st = 1 then { s with srcEpoch := v } else { s with epochErr := true }
  | 3 => if x.st = 1 ∧ s.srcEpoch ≠ v then s.setVersion v { st := 2, since := s.now } else { s with epochErr := true }
  | _ => s

/-- EPOCH_LOADED. -/
def execEpochLoaded (v : BitVec 1) (s : State) : Host.Outcome State Fault Refusal :=
  .next (if s.plat.power ≠ .running then s else s.epochCmd 1 v.toNat)

/-- EPOCH_FLIP. -/
def execEpochFlip (v : BitVec 1) (s : State) : Host.Outcome State Fault Refusal :=
  .next (if s.plat.power ≠ .running then s else s.epochCmd 2 v.toNat)

/-- EPOCH_RETIRE. -/
def execEpochRetire (v : BitVec 1) (s : State) : Host.Outcome State Fault Refusal :=
  .next (if s.plat.power ≠ .running then s else s.epochCmd 3 v.toNat)

/-- EPOCH_DRAIN_EXPIRY: the version is INVALID, its aggregation entries are free. -/
def execEpochDrainExpiry (v : BitVec 1) (s : State) : Host.Outcome State Fault Refusal :=
  let x := s.version v.toNat
  .next (if s.plat.power ≠ .running ∨ x.st ≠ 2 then s
    else
      let s1 : State := s.reach (x.since + s.drainTicks)
      let s2 : State := s1.setVersion v.toNat { st := 0, since := s1.now }
      { s2 with aggs := s2.aggs.filter (fun a => a.ver != v.toNat) })

/-! Frames. -/

/-- SHARE of each circuit that holds a share of a port (08 R303). -/
def State.sharesOf (s : State) (n : Nat) : Tbl Nat :=
  (s.circ.filter (fun e => ciVALID e.2 && !ciTDM e.2 && ciOUT e.2 == n && ciSHARE e.2 != 0)).map (fun e => (e.1, ciSHARE e.2))

/-- TDM_FRAME_START: slot 0 of a port's next frame; each circuit with a share has its slots of the frame (08 R302,
R303). -/
def execTdmFrameStart (port : BitVec 4) (s : State) : Host.Outcome State Fault Refusal :=
  let n := port.toNat
  let p := s.port n
  let shares := s.sharesOf n
  .next (if s.plat.power ≠ .running then s
    else
      let s1 : State := s.reach (roundUp s.now 1377)
      s1.setPort n { p with frameSlot := 0, frameFlag := true, deficit := shares.map (fun e => (e.1, 15 * e.2)) })

/-- MESH_FRAME_START: the frame of a mesh link, numbered from tick 512 k; what waits at the link crosses it in its slots
(10 R388; log 113). -/
def execMeshFrameStart (clu : BitVec 6) (link : BitVec 2) (s : State) : Host.Outcome State Fault Refusal :=
  .next (if s.plat.power ≠ .running then s
    else
      let s1 : State := s.reach (roundUp s.now 512)
      ({ s1 with mframe := tput s1.mframe (4 * clu.toNat + link.toNat) (s1.now / 512) } : State).serveLink
        (4 * clu.toNat + link.toNat))

/-! The logical node table (08 R290, R324). -/

/-- An entry without its reserved bits (08 R288). -/
def lnMask (v : W64) : W64 := v &&& 0x1FFF017FFFFF

def State.setLnt (s : State) (p n : Nat) (v : W64) : State :=
  (s.mend (.node p n)).setPart p { s.part p with lnt := if lnMask v = 0 then tdel (s.part p).lnt n else tput (s.part p).lnt n (lnMask v) }

/-- LNT_DATA_WRITE: the entry that FAB_LNT_SEL names. -/
def execLntDataWrite (v : BitVec 64) (s : State) : Host.Outcome State Fault Refusal :=
  .next (if s.plat.power ≠ .running then s
    else s.setLnt (bits (s.rg 0x00D00040) 16 4) (bits (s.rg 0x00D00040) 0 16) v)

end Sys2Proof.Machine
end

