-- ==== Sys2Proof/Machine/FabricLink.lean ====
section
/-! DEFINITION. Fabric ports: their states (08 R272, R273), flits in both directions with sequence numbers, retry and
credits (08 R275-R280), and the service of output queues (08 R302, R303, R306). -/

namespace Sys2Proof

open Sys2Proof.Machine

/-- The slots of a packet (08 R281). -/
def Packet.toSlots (k : Packet) : List (BitVec 128) :=
  let head := if k.isReq then [k.w1 ++ k.w0, k.w3 ++ k.w2] ++ (if k.ext then [k.x1 ++ k.x0] else []) else [k.w1 ++ k.w0]
  head ++ (List.range (k.slots - head.length)).map (fun i => BitVec.ofNat 128 (k.data / 2 ^ (128 * i)))

end Sys2Proof

namespace Sys2Proof.Machine

/-- The packet that slots spell. -/
def packetOf (l : List (BitVec 128)) : Packet :=
  let at_ := fun i => l.getD i 0
  let lo := fun (x : BitVec 128) => x.setWidth 64
  let hi := fun (x : BitVec 128) => (x >>> 64).setWidth 64
  let k : Packet := { w0 := lo (at_ 0), w1 := hi (at_ 0), w2 := 0, w3 := 0, x0 := 0, x1 := 0, data := 0 }
  let body := fun n => packElems 128 ((l.drop n).map BitVec.toNat)
  if k.isReq then
    let k1 : Packet := { k with w2 := lo (at_ 1), w3 := hi (at_ 1) }
    if k.ext then { k1 with x0 := lo (at_ 2), x1 := hi (at_ 2), data := body 3 } else { k1 with data := body 2 }
  else { k with data := body 1 }

/-! Link headers (08 R276, R278). -/

def fhSEQ (h : BitVec 64) : Nat := fld h 0 12
def fhACK (h : BitVec 64) : Nat := fld h 12 12
def fhTYPE (h : BitVec 64) : Nat := fld h 24 3
def fhCVC (h : BitVec 64) : Nat := fld h 28 3
def fhCCNT (h : BitVec 64) : Nat := fld h 32 12
def fhSOP (h : BitVec 64) : Nat := fld h 44 15

/-- A reserved type or a non-zero reserved bit (08 R277). -/
def fhBad (h : BitVec 64) : Bool := decide (fhTYPE h ≥ 4) || fld h 31 1 != 0 || fld h 59 5 != 0

/-- One bit of the CRC of ECMA-182. -/
def crcBit (c : BitVec 64) (b : Bool) : BitVec 64 :=
  let x := c <<< 1
  if c.getLsbD 63 != b then x ^^^ 0x42F0E1EBA9EA3693 else x

/-- A byte into the CRC, most significant bit first. -/
def crcByte (c : BitVec 64) (v : Nat) : BitVec 64 :=
  ((List.range 8).map (fun i => v.testBit (7 - i))).foldl crcBit c

/-- The CRC of a flit over its header and its 15 data slots (08 R278). -/
def flitCrc (hdr : BitVec 64) (slots : List Slot) : BitVec 64 :=
  let bytes := fun (n v : Nat) => (List.range n).map (fun i => bits v (8 * i) 8)
  let body := ((List.range 15).map (fun i => bytes 16 ((slots[i]?.map (fun x => x.w.toNat)).getD 0))).flatten
  (bytes 8 hdr.toNat ++ body).foldl crcByte 0

def mkFlit (hdr : Nat) (slots : List Slot) : Flit :=
  { hdr := w64 hdr, crc := flitCrc (w64 hdr) slots, slots }

/-! Port states (08 R272, R273). -/

/-- The queue of a port that went DOWN takes other ways, by the entries of each packet's version if that still has any (08 R294,
R295, R315). -/
def State.requeue (s : State) (q : QEnt) : State :=
  match q.circ with
  | some _ => s.count 0x0419
  | none =>
    if (s.version q.pkt.epoch).st = 0 then s.count 0x0412
    else
      match s.outPort q.pkt with
      | some n => s.enterQueue n q.pkt q.inp
      | none => s.noRoute q.pkt

/-- What a port keeps when it loses its link: not its flits, its credits and the packets half come in; the partner that the last INIT
named stays in FAB_PORT_STAT (08 R280, R324). -/
def Port.cut (p : Port) (st : PortState) (now : Nat) : Port :=
  { st, rev := p.rev, pnode := p.pnode, pvalid := p.pvalid, pport := p.pport, since := now, c0Used := p.c0Used, c0At := p.c0At, c0Over := p.c0Over, agUsed := p.agUsed, agAt := p.agAt
    frameSlot := p.frameSlot, frameFlag := p.frameFlag, rr := p.rr, wrr := p.wrr, deficit := p.deficit
    rot := p.rot, drr := p.drr, drrAt := p.drrAt, tx := p.tx }

/-- An UP port goes DOWN: its retry buffer is lost, the event is counted and logged with its cause; the Ruled circuits that own slots of
it are delayed (08 R273, R326). -/
def State.portDown (s : State) (n cause : Nat) : State :=
  let p := s.port n
  let s1 : State := (({ s.setPort n (p.cut .down s.now) with owes := s.owes.filter (fun o => o.port != n) } : State).count 0x0411)
  let s2 : State := (s1.logEvent (s1.event 0x0411 5 3 n cause 0 0)).portThrottle n
  p.outq.foldl (fun (s : State) q => s.requeue q) s2

/-- A cause of R273 at a port that is UP. -/
def State.upFails (s : State) (n cause : Nat) : State :=
  if s.plat.power == .running && (s.port n).st == .up then s.portDown n cause else s

def State.toState (s : State) (n : Nat) (st : PortState) : State := s.setPort n { s.port n with st, since := s.now }

def oPortCtl (n : Nat) : Nat := 0x00D00100 + 8 * n

def State.portEnable (s : State) (n : Nat) : State :=
  let s1 := s.setRg (oPortCtl n) 1
  if (s.port n).st = .disabled then s1.toState n .training else s1

/-- A port is DISABLED and its power domain goes OFF (13 R467). -/
def State.portDisable (s : State) (n : Nat) : State :=
  let s0 : State := { s.setRg (oPortCtl n) 0 with plat := s.plat.domsOff [64 + n] }
  let s1 := if (s.port n).st = .up then s0.portDown n 4 else s0
  let q := (s1.port n).outq
  q.foldl (fun (s : State) x => s.requeue x) (s1.setPort n ((s1.port n).cut .disabled s1.now))

/-- TST_LB(i). -/
def oLb (i : Nat) : Nat := 0x02100000 + 0x20 * i

/-- Whether a loopback depth is set: FAB_PORT_CTL writes are then ignored (14 R497). -/
def State.looping (s : State) (n : Nat) : Bool := bits (s.rg (oLb n)) 0 3 != 0

/-- PORT_ENABLE. -/
def execPortEnable (port : BitVec 4) (s : State) : Host.Outcome State Fault Refusal :=
  .next (if s.plat.power ≠ .running || s.looping port.toNat then s else s.portEnable port.toNat)

/-- PORT_DISABLE. -/
def execPortDisable (port : BitVec 4) (s : State) : Host.Outcome State Fault Refusal :=
  .next (if s.plat.power ≠ .running || s.looping port.toNat then s else s.portDisable port.toNat)

/-- RETRAIN. -/
def execRetrain (port : BitVec 4) (s : State) : Host.Outcome State Fault Refusal :=
  .next (if s.looping port.toNat then s else s.upFails port.toNat 4)

/-- TRAINING_COMPLETE: from TRAINING, or from DOWN at a retry, in a port domain that is ON (13 R467); the lane order is recorded. -/
def execTrainingComplete (port : BitVec 4) (rev : Bool) (s : State) : Host.Outcome State Fault Refusal :=
  let n := port.toNat
  .next (if s.plat.power == .running && s.plat.domOn (64 + n) && ((s.port n).st == .training || (s.port n).st == .down) then
      (s.setPort n { s.port n with rev }).toState n .aligning
    else s)

/-- TRAINING_TIMEOUT: 200 ms without success. -/
def execTrainingTimeout (port : BitVec 4) (s : State) : Host.Outcome State Fault Refusal :=
  let n := port.toNat
  .next (if s.plat.power == .running && (s.port n).st == .training then
      (s.reach ((s.port n).since + usTicks 200000)).toState n .down
    else s)

/-- ALIGN_LOCK: INIT begins, nothing sent or received yet. -/
def execAlignLock (port : BitVec 4) (s : State) : Host.Outcome State Fault Refusal :=
  let n := port.toNat
  .next (if s.plat.power == .running && (s.port n).st == .aligning then
      (s.setPort n { s.port n with initSent := false, initRcvd := false }).toState n .init
    else s)

/-- ALIGN_TIMEOUT: 10 ms without lock. -/
def execAlignTimeout (port : BitVec 4) (s : State) : Host.Outcome State Fault Refusal :=
  let n := port.toNat
  .next (if s.plat.power == .running && (s.port n).st == .aligning then
      (s.reach ((s.port n).since + usTicks 10000)).toState n .down
    else s)

/-- DOWN_RETRY: 100 ms later a DOWN port trains again, and stays DOWN until that succeeds. -/
def execDownRetry (port : BitVec 4) (s : State) : Host.Outcome State Fault Refusal :=
  let n := port.toNat
  .next (if s.plat.power == .running && (s.port n).st == .down then
      (s.reach ((s.port n).since + usTicks 100000)).toState n .down
    else s)

/-- FEC_LOCK_LOST. -/
def execFecLockLost (port : BitVec 4) (s : State) : Host.Outcome State Fault Refusal := .next (s.upFails port.toNat 0)

/-- FEC_UE_RATE_EXCEEDED. -/
def execFecUeRateExceeded (port : BitVec 4) (s : State) : Host.Outcome State Fault Refusal :=
  .next (s.upFails port.toNat 1)

/-- FLIT_SILENCE_TIMEOUT. -/
def execFlitSilenceTimeout (port : BitVec 4) (s : State) : Host.Outcome State Fault Refusal :=
  .next (s.upFails port.toNat 3)

/-! Flits received (08 R277-R280). -/

/-- DATA flits up to ACK leave the retry buffer; an ACK that names none of them changes nothing. Where some leave, the retry of the
flit sent earliest has succeeded (08 R273). -/
def dropAcked (a : Nat) (l : List Flit) : List Flit :=
  match l.findIdx? (fun f => fhSEQ f.hdr == a) with
  | some i => l.drop (i + 1)
  | none => l

def Port.takeAck (p : Port) (a : Nat) : Port :=
  let r := dropAcked a p.retry
  let on := decide (r.length < p.retry.length)
  { p with retry := r, replay := p.replay.filter r.contains, failed := if on then 0 else p.failed, resent := p.resent && !on }

def Port.takeCredit (p : Port) (vc n : Nat) : Port := { p with credit := tput p.credit vc (tgetD p.credit vc 0 + n) }

/-- A flit refused for its header is another failed retry; the eighth in succession takes the port DOWN (08 R273, R277; log 116). -/
def State.retryFails (s : State) (n : Nat) : State :=
  let p := s.port n
  if p.failed + p.retries + 1 ≥ 8 && p.st == .up then s.portDown n 2
  else s.setPort n { p with retries := p.retries + 1 }

/-- A whole packet has come in at a port. A bad one, and any at an unnumbered device, is discarded and its slots owed back (08 R285,
R287). One for this device waits at its mesh port, another on the mesh for the router; its slots are owed back when it is taken
(08 R313). -/
def State.packetIn (s : State) (n : Nat) (k : Packet) : State :=
  if k.bad then (s.owe n k.vc k.slots).count 0x041B
  else if !s.nodeValid then (s.owe n k.vc k.slots).count 0x0413
  else
    let s1 : State := { s with owes := s.owes ++ [{ pkt := k, port := n, vc := k.vc, n := k.slots }] }
    if k.dnode = s.pnode && k.ptype != 6 && k.ptype != 0xB && !k.onTree then s1.enterMeshPort k n else s1.put k

/-- One data slot: the start of a packet or its next slot. -/
def State.slotIn (s : State) (n : Nat) (sop : Bool) (x : Slot) : State :=
  let p := s.port n
  let v := x.vc.toNat
  let l := if sop then [x.w] else
    match tgetD p.rxPart v [] with
    | [] => []
    | y => y ++ [x.w]
  if l.isEmpty then s
  else
    let need := bits (l.headD 0).toNat 8 5 + 1
    if l.length < need then s.setPort n { p with rxPart := tput p.rxPart v l }
    else
      (s.setPort n { p with rxPart := tdel p.rxPart v }).packetIn n (packetOf l)

/-- A DATA flit in sequence is accepted; any other is discarded and NAKed. -/
def State.dataIn (s : State) (n : Nat) (h : BitVec 64) (slots : List Slot) : State :=
  let p := s.port n
  if p.st ≠ .up then s
  else if fhSEQ h ≠ p.rxNext then s.setPort n { p with nakDue := true }
  else
    let p1 : Port := { (p.takeAck (fhACK h)).takeCredit (fhCVC h) (fhCCNT h) with rxNext := (p.rxNext + 1) % 4096, retries := 0 }
    let xs := (slots.take 15).zip (List.range 15)
    xs.foldl (fun (s : State) x => s.slotIn n (bit (fhSOP h) x.2) x.1) (s.setPort n p1)

/-- Both ends have sent and received INIT: the port is UP. -/
def State.initDone (s : State) (n : Nat) : State :=
  let p := s.port n
  if p.initSent && p.initRcvd && p.st == .init then
    let s1 : State := ((s.setPort n { p with
      st := .up, since := s.now, txSeq := 0, rxNext := 0, retries := 0, failed := 0, resent := false, nakDue := false }).count 0x041E)
    s1.logEvent (s1.event 0x041E 5 3 n (p.pnode + b2n p.pvalid * 2 ^ 16 + p.pport * 2 ^ 17 + b2n p.rev * 2 ^ 21) 0 0)
  else s

/-- An INIT flit: the partner and the credits it grants, and the credit that its header returns. -/
def State.initIn (s : State) (n : Nat) (h : BitVec 64) (x : BitVec 128) : State :=
  let p := s.port n
  if p.st ≠ .init then s
  else
    let cr := (List.range 8).foldl (fun c i => tput c i (fld x (32 + 12 * i) 12)) p.credit
    (s.setPort n { p.takeAck (fhACK h) with
      pnode := fld x 0 16, pvalid := x.toNat.testBit 16, pport := fld x 24 4, initRcvd := true
      credit := tput cr (fhCVC h) (tgetD cr (fhCVC h) 0 + fhCCNT h) }).initDone n

/-- A NAK: everything after the acknowledged flit is to be sent again. Where it acknowledges nothing new and the flit sent earliest had
been sent again, that retry has failed; the eighth in succession takes the port DOWN (08 R273, R278). -/
def State.nakIn (s : State) (n : Nat) (h : BitVec 64) : State :=
  let p1 : Port := ((s.port n).takeAck (fhACK h)).takeCredit (fhCVC h) (fhCCNT h)
  let f := p1.failed + b2n (p1.resent && !p1.retry.isEmpty)
  let s1 : State := s.setPort n { p1 with replay := p1.retry, failed := f, resent := false }
  let s2 : State := if p1.retry.isEmpty then s1 else s1.portThrottle n
  if f + p1.retries ≥ 8 then s2.portDown n 2 else s2

/-- A flit whose CRC holds: refused for its header, or taken by its type. -/
def State.flitIn (s : State) (n : Nat) (h : BitVec 64) (slots : List Slot) : State :=
  let p := s.port n
  if s.plat.power ≠ .running || !(p.st == .init || p.st == .up) then s
  else if fhBad h then (((s.setPort n { p with nakDue := true }).count 0x041B).retryFails n)
  else
    match fhTYPE h with
    | 0 => s.dataIn n h slots
    | 1 => s.setPort n ((p.takeAck (fhACK h)).takeCredit (fhCVC h) (fhCCNT h))
    | 2 => s.initIn n h ((slots.head?.map Slot.w).getD 0)
    | _ => s.nakIn n h

/-- DATA_FLIT. -/
def execDataFlit (port : BitVec 4) (hdr : BitVec 64) (slots : List Slot) (s : State) : Host.Outcome State Fault Refusal :=
  .next (s.flitIn port.toNat hdr slots)

/-- IDLE_FLIT. -/
def execIdleFlit (port : BitVec 4) (hdr : BitVec 64) (s : State) : Host.Outcome State Fault Refusal :=
  .next (s.flitIn port.toNat hdr [])

/-- INIT_FLIT. -/
def execInitFlit (port : BitVec 4) (hdr : BitVec 64) (slot1 : BitVec 128) (s : State) : Host.Outcome State Fault Refusal :=
  .next (s.flitIn port.toNat hdr [⟨0, slot1⟩])

/-- NAK_FLIT, on a fabric port or, as number 16, on DynerLink (11 R393). How messages fill DynerLink's flits the spec leaves open, so that
the number of flits the device has to send again, each counted in DLK_CRC_RETRY (11 R409), is a free value of 1 to 512 (08 R278; log 120). -/
def execNakFlit (port : BitVec 5) (hdr : BitVec 64) (s : State) : Host.Outcome State Fault Refusal :=
  .next (if port.toNat < 16 then s.flitIn port.toNat hdr []
    else if port.toNat = 16 ∧ s.plat.power = .running ∧ s.link = .up then
      (s.countN 0x0614 (1 + s.freeVal.toNat % 512)).useFree
    else s)

/-- CRC_FAIL_FLIT: discarded; where it was a DATA flit, a NAK is due. -/
def execCrcFailFlit (port : BitVec 4) (hdr : BitVec 64) (s : State) : Host.Outcome State Fault Refusal :=
  let n := port.toNat
  .next (if s.plat.power == .running && (s.port n).st == .up && fhTYPE hdr == 0 then
      s.setPort n { s.port n with nakDue := true }
    else s)

/-- BAD_LINK_HEADER_FLIT. -/
def execBadLinkHeaderFlit (port : BitVec 4) (hdr : BitVec 64) (s : State) : Host.Outcome State Fault Refusal :=
  .next (s.flitIn port.toNat hdr [])

/-! Flits sent (08 R278, R302, R303, R306). -/

/-- What could supply the next slot: its virtual channel, its input and circuit, the slots it needs, and for a packet not yet begun
its queue entry. -/
structure Cand where
  vc : Nat
  inp : Nat
  circ : Option Nat
  need : Nat
  ent : Option QEnt
  deriving DecidableEq, Repr

/-- Packets that may begin or go on: on each channel the one begun, else the first queue entry of each input and circuit among those
that are ready, with credit for every slot (08 R279, R306). -/
def Port.cands (p : Port) (ready : List QEnt) : List Cand :=
  ((List.range 8).map (fun v =>
    match tget p.partial_ v with
    | some x => [({ vc := v, inp := 0, circ := x.1, need := x.2.length, ent := none } : Cand)]
    | none =>
      let mine := p.outq.filter (fun q => q.pkt.vc == v && ready.contains q)
      let firsts := mine.filter (fun q => mine.find? (fun r => r.inp == q.inp && r.circ == q.circ) == some q)
      (firsts.filter (fun q => decide (q.pkt.slots ≤ tgetD p.credit v 0))).map
        (fun q => { vc := v, inp := q.inp, circ := q.circ, need := q.pkt.slots, ent := some q }))).flatten

/-- Requests and responses of a class take turns; then the inputs do, and circuits by their number (08 R306, R326). -/
def Port.turn (p : Port) (l : List Cand) : Option Cand :=
  let mine := l.filter (fun c => c.vc % 2 == p.rr % 2)
  bestBy (fun c => turnKey p.rot c.inp c.circ) (if mine.isEmpty then l else mine)

/-- The weighted round robin over C1, C2 and C3. -/
def Port.wrrPick (p : Port) (w : Tbl Nat) (l : List Cand) : Option Cand :=
  [1, 2, 3].findSome? (fun c => if tgetD w c 0 = 0 then none else p.turn (l.filter (fun x => x.vc / 2 == c)))

/-- C0 (08 R281, R306): a packet begun goes on, so that it stays within its flit; else one that fits. -/
def Port.c0Pick (p : Port) (left : Nat) (l : List Cand) : Option Cand :=
  let cs := l.filter (fun c => c.vc / 2 == 0)
  match cs.find? (fun c => c.ent.isNone) with
  | some c => some c
  | none => p.turn (cs.filter (fun c => decide (c.need ≤ left)))

/-- Deficit round robin over the circuits that wait (08 R303): the circuit whose turn it is goes on while its counter covers its
packet; the next one in ascending number, cyclically, then gains its share (DESIGN CHOICE of the quantum, log 118). -/
def drrGo (shares : Tbl Nat) (l : List Cand) : Nat → Nat → Tbl Nat → Option (Cand × Nat × Tbl Nat)
  | 0, _, _ => none
  | n + 1, i, d =>
    match l.find? (fun c => c.circ == some i && decide (c.need ≤ tgetD d i 0)) with
    | some c => some (c, i, d)
    | none =>
      let ids := l.filterMap Cand.circ
      let later := ids.filter (fun j => decide (i < j))
      match bestBy id (if later.isEmpty then ids else later) with
      | none => none
      | some j => drrGo shares l n j (tput d j (tgetD d j 0 + tgetD shares j 0))

/-- Circuits within their shares: one begun goes on; else the round robin chooses. -/
def Port.sharePick (p : Port) (shares : Tbl Nat) (l : List Cand) : Option (Cand × Nat × Tbl Nat) :=
  let cs := l.filter (fun c => c.circ.any (fun i => decide (tgetD p.deficit i 0 > 0)))
  match cs.find? (fun c => c.ent.isNone) with
  | some c => some (c, p.drrAt, p.drr)
  | none => drrGo shares cs (19 * cs.length + 2) p.drrAt (p.drr.filter (fun e => cs.any (fun c => c.circ == some e.1)))

/-- The next candidate: the owner's in a slot whose owner has packets, else by R306; whether it is served within a circuit's share, and
the round robin after. -/
def Port.pick (p : Port) (owner : Option Nat) (shares : Tbl Nat) (left : Nat) (w : Tbl Nat) (l : List Cand) :
    Option (Cand × Bool × Nat × Tbl Nat) :=
  match owner with
  | some o => (l.find? (fun c => c.circ == some o)).map (fun c => (c, false, p.drrAt, p.drr))
  | none =>
    match p.c0Pick left l with
    | some c => some (c, false, p.drrAt, p.drr)
    | none =>
      match p.sharePick shares l with
      | some r => some (r.1, true, r.2)
      | none => (p.wrrPick w l).map (fun c => (c, false, p.drrAt, p.drr))

/-- One slot taken from a candidate: the slot, whether it begins a packet, and the port after. -/
def Port.emit (p : Port) (c : Cand) (share : Bool) : BitVec 128 × Bool × Port :=
  let all_ := match c.ent with
    | some q => q.pkt.toSlots
    | none => ((tget p.partial_ c.vc).map Prod.snd).getD []
  let rest := all_.drop 1
  let less := fun (t : Tbl Nat) => match share, c.circ with
    | true, some i => tput t i (tgetD t i 0 - 1)
    | _, _ => t
  let p1 : Port := { p with
    outq := match c.ent with
      | some q => dropEnt q p.outq
      | none => p.outq
    credit := if c.ent.isSome then tput p.credit c.vc (tgetD p.credit c.vc 0 - c.need) else p.credit
    partial_ := if rest.isEmpty then tdel p.partial_ c.vc else tput p.partial_ c.vc (c.circ, rest)
    rr := p.rr + 1
    wrr := if c.vc / 2 = 0 ∨ share = true then p.wrr else tput p.wrr (c.vc / 2) (tgetD p.wrr (c.vc / 2) 0 - 1)
    deficit := less p.deficit
    drr := less p.drr }
  (all_.headD 0, c.ent.isSome, p1)

/-- Up to n more slots of a flit. In a slot whose owner has packets waiting, only the owner's (08 R302). -/
def fillFlit (weights shares : Tbl Nat) (ready : List QEnt) (owner : Option Nat) :
    Nat → Port → List (Slot × Bool) → Port × List (Slot × Bool)
  | 0, p, l => (p, l)
  | n + 1, p, l =>
    let cs := p.cands ready
    let fresh := if [1, 2, 3].any (fun c => tgetD p.wrr c 0 != 0 && cs.any (fun x => x.vc / 2 == c)) then p.wrr else weights
    match p.pick owner shares (n + 1) fresh cs with
    | none => (p, l)
    | some (c, sh, i, d) =>
      let e := Port.emit { p with wrr := if owner.isSome then p.wrr else fresh, drrAt := i, drr := d } c sh
      fillFlit weights shares ready owner n e.2.2 (l ++ [(⟨BitVec.ofNat 3 c.vc, e.1⟩, e.2.1)])

/-- The owner of the frame slot a port is in. -/
def State.slotOwner (s : State) (n : Nat) : Option Nat :=
  let p := s.port n
  let e := tgetD s.tdm (1024 * n + p.frameSlot) 0
  if p.frameSlot < 1024 && e.toNat.testBit 12 then some (fld e 0 12) else none

/-- The header bits every flit carries: ACK, FRAME, and the credit owed on the lowest channel; and the port after. -/
def Port.header (p : Port) (ty seq : Nat) : Nat × Port :=
  let v := (p.owe.find? (fun e => e.2 != 0)).map Prod.fst
  let n := min 4095 (tgetD p.owe (v.getD 0) 0)
  (seq + (p.rxNext + 4095) % 4096 * 2 ^ 12 + ty * 2 ^ 24 + b2n p.frameFlag * 2 ^ 27 + v.getD 0 * 2 ^ 28 + n * 2 ^ 32,
    { p with owe := tput p.owe (v.getD 0) (tgetD p.owe (v.getD 0) 0 - n), frameFlag := false
             frameSlot := min 1024 (p.frameSlot + 1) })

def Port.sendFlit (p : Port) (f : Flit) : Port := { p with tx := p.tx ++ [f] }

/-- The INIT flit of a port (08 R280). -/
def State.initSlot (s : State) (n : Nat) : Nat :=
  s.pnode + b2n s.nodeValid * 2 ^ 16 + n * 2 ^ 24
    + listSum ((List.range 8).map (fun v => (Config.linkCredit v).toNat * 2 ^ (32 + 12 * v)))

/-- A flit sent again, with the ACK and FRAME of its new place and a CRC to match (08 R276, R278). -/
def Port.again (p : Port) (f : Flit) : Flit :=
  mkFlit (setBits (setBits f.hdr.toNat 12 12 ((p.rxNext + 4095) % 4096)) 27 1 (b2n p.frameFlag)) f.slots

/-- Whether a circuit has a packet waiting at a port. -/
def Port.waits (p : Port) (c : Nat) : Bool := p.outq.any (fun q => q.circ == some c) || p.partial_.any (fun e => e.2.1 == some c)

/-- An owned slot has passed with its circuit's packet waiting: the packet goes after its slot, a protection throttle of a Ruled
partition of this device (10 R390; log 115). -/
def State.missed (s : State) (n : Nat) (p : Port) (owner : Option Nat) : State :=
  match owner with
  | none => s
  | some c =>
    let q := ciSPART (s.circOf c)
    if p.waits c && ciSRC (s.circOf c) && (s.part q).ruled then s.throttled 3 n [q] else s

/-- The next flit of an UP port: a NAK that is due, a replay, a DATA flit with what its queues hold, or IDLE. A device without a valid
node number sends no packet (08 R287). -/
def State.nextFlit (s : State) (n : Nat) : State :=
  let p := s.port n
  let owner := s.slotOwner n
  if p.nakDue then
    let h := p.header 3 0
    (s.setPort n (({ h.2 with nakDue := false } : Port).sendFlit (mkFlit h.1 []))).missed n p owner
  else
    match (if s.nodeValid then p.replay else []) with
    | f :: rest =>
      let q : Port := { p with
        replay := rest, frameSlot := min 1024 (p.frameSlot + 1), frameFlag := false
        resent := p.resent || p.retry.head? == some f }
      ((s.setPort n (q.sendFlit (p.again f))).count 0x0410).missed n p owner
    | [] =>
      let ready := s.ready [] p.outq
      let own := owner.filter (fun o => (p.cands ready).any (fun c => c.circ == some o))
      let r := if p.retry.length ≥ 512 || !s.nodeValid then (p, []) else fillFlit s.weights (s.sharesOf n) ready own 15 p []
      if r.2.isEmpty then
        let h := p.header 1 0
        (s.setPort n (h.2.sendFlit (mkFlit h.1 []))).missed n p owner
      else
        let sop := listSum ((r.2.zip (List.range 15)).map (fun x => if x.1.2 then 2 ^ (44 + x.2) else 0))
        let h := r.1.header 0 r.1.txSeq
        let f := mkFlit (h.1 + sop) (r.2.map Prod.fst)
        (s.setPort n (({ h.2 with txSeq := (r.1.txSeq + 1) % 4096, retry := h.2.retry ++ [f], rot := (p.rot + 1) % 25 } : Port).sendFlit
          f)).missed n p (if own.isSome then none else owner)

/-- FLIT_BUILD. -/
def execFlitBuild (port : BitVec 4) (s : State) : Host.Outcome State Fault Refusal :=
  let n := port.toNat
  let p := s.port n
  .next (if s.plat.power ≠ .running then s
    else
      match p.st with
      | .init =>
        let h := p.header 2 0
        (s.setPort n (({ h.2 with initSent := true } : Port).sendFlit
          (mkFlit h.1 [⟨0, BitVec.ofNat 128 (s.initSlot n)⟩]))).initDone n
      | .up => s.nextFlit n
      | _ => s)

/-- FAB_STALL: a channel of a port has had packets waiting and no credit for 1 ms. -/
def execFabStall (port : BitVec 4) (vc : BitVec 3) (s : State) : Host.Outcome State Fault Refusal :=
  let p := s.port port.toNat
  let v := vc.toNat
  .next (match p.outq.find? (fun q => q.pkt.vc == v) with
    | none => s
    | some q =>
      if s.plat.power ≠ .running ∨ tgetD p.credit v 0 ≥ q.pkt.slots then s
      else (s.reach (q.at_ + usTicks 1000)).count 0x041C)

end Sys2Proof.Machine
end

