-- ==== Sys2Proof/Machine/LigGroup.lean ====
section
/-! DEFINITION. Ligature groups (09 R327-R334): descriptors, message headers, the messages between members, failures
(09 R353), opening and closing. -/

namespace Sys2Proof.Machine

def cLIGNOSPACE : Nat := 0x0501
def cLIGBYPASS : Nat := 0x0503
def cLIGRECOMP : Nat := 0x0505
def cLIGSTALL : Nat := 0x0504
def cLIGDESC : Nat := 0x0510
def cLIGGROUP : Nat := 0x0511
def cLIGMISMATCH : Nat := 0x0512
def cLIGTREE : Nat := 0x0513

/-! The group descriptor (09 R330). -/

def gdGID (d : Nat) : Nat := bits d 0 6
def gdNCHILD (d : Nat) : Nat := bits d 8 4
def gdROOT (d : Nat) : Bool := bit d 16
def gdCLASS (d : Nat) : Nat := if bit d 17 then 3 else 2
def gdW (d : Nat) : Nat := bits d 24 4 + 1
def gdPARENT (d : Nat) : Nat := bits d 32 16
def gdDTREE (d : Nat) : Nat := bits d 48 10
def gdCLUMASK (d : Nat) : Nat := bits d 64 64
def gdCOREMASK (d : Nat) : Nat := bits d 128 64
def gdRSV (d : Nat) : Nat := bits d 192 32
def gdSTALL (d : Nat) : Nat := bits d 224 32
def gdSTATUS (d : Nat) : Nat := bits d 256 64
def gdCHILD (d i : Nat) : Nat := bits d (512 + 16 * i) 16

/-- A group descriptor that breaks its table, in a partition of n clusters. -/
def groupBad (ruled : Bool) (n d : Nat) : Bool :=
  bits d 6 2 != 0 || bits d 12 4 != 0 || bits d 18 6 != 0 || bits d 28 4 != 0 || bits d 58 6 != 0
    || (gdROOT d && gdPARENT d != 0) || (!(gdROOT d && !ruled) && gdDTREE d != 0)
    || bits (gdCLUMASK d) n 64 != 0
    || gdRSV d != (if ruled && gdNCHILD d != 0 then gdW d * (gdNCHILD d + 1) else 0)
    || decide (gdSTALL d > 1000000) || taBad (gdSTATUS d) || bits d 320 192 != 0 || bits d 752 16 != 0
    || (List.range 15).any (fun i => decide (gdNCHILD d ≤ i) && gdCHILD d i != 0)

/-- This device's contributors, in rank order (09 R336): logical cluster and core. -/
def gdOwn (d : Nat) : List (Nat × Nat) :=
  (((List.range 64).filter (fun l => bit (gdCLUMASK d) l)).map (fun l =>
    ((List.range 64).filter (fun k => bit (gdCOREMASK d) k)).map (fun k => (l, k)))).flatten

/-! The message header (09 R345). -/

def lhKIND (h : Nat) : Nat := bits h 0 2
def lhEMPTY (h : Nat) : Bool := bit h 2
def lhSHAPE (h : Nat) : Nat := bits h 8 8
def lhSTATUS (h : Nat) : Nat := bits h 16 16
def lhGSEQ (h : Nat) : Nat := bits h 32 32
def lhCHUNK (h : Nat) : Nat := bits h 64 32
def lhNPIECE (h : Nat) : Nat := bits h 96 32
def lhCOUNT (h : Nat) : Nat := bits h 128 32
def lhBRANK (h : Nat) : Nat := bits h 160 32
def lhTMIN (h : Nat) : Nat := bits h 192 64
def lhTMAX (h : Nat) : Nat := bits h 256 64
/-- LNODE, LCLU and LCORE as one number that orders as R346 breaks ties. -/
def lhWHO (h : Nat) : Nat := bits h 320 16 * 2 ^ 16 + bits h 336 6 * 2 ^ 8 + bits h 344 6
def lhNIN (h : Nat) : Nat := bits h 352 32
def lhSUBP (h : Nat) : Nat := bits h 384 32
def lhPTOT (h : Nat) : Nat := bits h 416 32

/-- The fields that every contribution of a collective must share (09 R337): SHAPE, COUNT, BRANK. -/
def shapeOf (op red et count brank : Nat) : Nat := op + red * 2 ^ 3 + et * 2 ^ 5 + count * 2 ^ 8 + brank * 2 ^ 40

def lhShape (h : Nat) : Nat := bits h 8 7 + lhCOUNT h * 2 ^ 8 + lhBRANK h * 2 ^ 40

def shOP (x : Nat) : Nat := bits x 0 3
def shRED (x : Nat) : Nat := bits x 3 2
def shET (x : Nat) : Nat := bits x 5 2
def shCOUNT (x : Nat) : Nat := bits x 8 32
def shBRANK (x : Nat) : Nat := bits x 40 32

/-- A chunk's header. -/
def chunkHdr (shape status gseq chunk npiece : Nat) (empty : Bool) (tmin tmax who : Nat) : Nat :=
  b2n empty * 2 ^ 2 + bits shape 0 7 * 2 ^ 8 + status * 2 ^ 16 + gseq % 2 ^ 32 * 2 ^ 32 + chunk % 2 ^ 32 * 2 ^ 64
    + npiece * 2 ^ 96 + shCOUNT shape * 2 ^ 128 + shBRANK shape * 2 ^ 160 + tmin * 2 ^ 192 + tmax * 2 ^ 256
    + who / 2 ^ 16 * 2 ^ 320 + who / 2 ^ 8 % 64 * 2 ^ 336 + who % 64 * 2 ^ 344

/-! Groups. -/

/-- The entry of a context's group. -/
def State.grpOf (s : State) (p c gid : Nat) : Option Nat :=
  (s.grps.find? (fun e => e.2.st != 0 && e.2.p == p && e.2.s == c && e.2.gid == gid)).map Prod.fst

/-- The lowest free entry of 256. -/
def State.freeGrp (s : State) : Option Nat := (List.range 256).find? (fun e => (s.grp e).st == 0)

/-- Ligature instructions of a core that have not completed (09 R329). -/
def State.ligHeld (s : State) (l : Loc) : Nat :=
  listSum (s.grps.map (fun e =>
    (if e.2.opener.any (fun o => o.1 == l) then 1 else 0) + (e.2.closers.filter (fun c => c.1 == l)).length
      + listSum (e.2.colls.map (fun x => (x.contribs.filter (fun y => y.loc == l)).length))))
  + (s.ops.filter (fun e => match e.2.owner with
    | .ligStatus m _ _ => m == l
    | _ => false)).length
  + (s.waitq.filter (fun e => match e.owner with
    | .ligStatus m _ _ => m == l
    | _ => false)).length

/-- A failure of an operation of a group (09 R353): every contributor with an LCOLL in progress takes it; with none, it is
logged. -/
def State.ligFault (s : State) (e code lnode space off : Nat) : State :=
  let g := s.grp e
  let s1 := s.count code
  match (g.colls.map Coll.contribs).flatten with
  | [] =>
    let ev := s1.event code (if stopsCore code then 2 else 5) 0 0 (lnode + space * 2 ^ 16) off 0
    s1.logEvent { ev with lnode, part := g.p, ctx := g.s, pv := true }
  | cs => cs.foldl (fun (s : State) x => s.asyncFail x.loc code (lnode + space * 2 ^ 16) off x.pcAt) s1

/-- A refusal that an engine meets at its own node: FAB_PERM, counted at the target too. -/
def State.ligRefused (s : State) (e a i : Nat) : State :=
  let g := s.grp e
  (s.count 0x0417).ligFault e cFABPERM (s.ctx g.p g.s).lnode (tblSpace a) (tblOff a i)

/-- The status word of an instruction, written before its counter rises (09 R329): an RST to the context's own node. -/
def State.ligComplete (s : State) (p c : Nat) (l : Loc) (cnt pcAt a v : Nat) : State :=
  let n := (s.ctx p c).lnode
  if lnLive (s.lnt p n) then
    s.sendOn p (.ligStatus l cnt pcAt) .none n
      { ptype := 2, cls := 2, size := 0, off := tblOff a 0, space := tblSpace a, data := v, words := 1 }
  else (s.deadNode p n).asyncFail l cFABDEAD (n + tblSpace a * 2 ^ 16) (tblOff a 0) pcAt

/-- Slots of the outstanding-operation table that a message of n data stores needs. -/
def State.roomFor (s : State) (n : Nat) : Bool := decide (s.ops.length + s.quar.length + n + 1 ≤ 4194304)

/-- One message to a block of another member (09 R344): a header store and its data stores. A chunk is the `ord`-th of its input. -/
def State.ligSend (s : State) (e kind k key node off hdr data npiece : Nat) (pz : Bool) (inp : Nat := 0) (ord : Nat := 0) : State :=
  let g := s.grp e
  let t := s.lnt g.p node
  if !lnLive t then (s.eccAt (.node g.p node)).ligFault e cFABDEAD node 0 off
  else if pz && !s.isOwn t then s.ligFault e cPOISON node 0 off
  else
    let o := Owner.lig e kind k key inp ord
    let r : RReq := { ptype := 2, cls := gdCLASS g.desc, size := 7, off, space := 0, data := hdr, words := 8 }
    (List.range npiece).foldl (fun (s : State) i =>
      let sl := s.freeSlot
      let s1 := s.sendOn g.p o .none node { r with size := 31, data := bits data (2048 * i) 2048, words := 32 }
      if pz then s1.markSent sl else s1) (s.sendOn g.p o .none node r)

/-- The same on the group's down tree (09 R347). -/
def State.ligCast (s : State) (e k key off hdr data npiece : Nat) (pz : Bool) : State :=
  let g := s.grp e
  if pz then s.ligFault e cPOISON 0 0 off
  else
    let o := Owner.lig e 4 k key 0 0
    let r : RReq :=
      { ptype := 6, cls := gdCLASS g.desc, size := 7, off, space := 0, tree := gdDTREE g.desc, data := hdr, words := 8 }
    (List.range npiece).foldl (fun (s : State) i =>
      s.sendOn g.p o .none 0 { r with size := 31, data := bits data (2048 * i) 2048, words := 32 }) (s.sendOn g.p o .none 0 r)

def upBlock (gid : Nat) : Nat := ligUp + 0x100 * gid
def downBlock (gid : Nat) : Nat := ligDown + 0x100 * gid

/-! Opening (09 R331-R333). -/

/-- Inputs that child i forwards, and contributors in its subtree. -/
def Group.report (g : Group) (i : Nat) : Nat × Nat :=
  match g.reports.find? (fun r => r.1 == i) with
  | some r => (r.2.1, r.2.2.1)
  | none => (0, 0)

def Group.subP (g : Group) : Nat := (gdOwn g.desc).length + listSum (g.reports.map (fun r => r.2.2.1))

def Group.vertex (g : Group) : Bool := gdNCHILD g.desc != 0 && !g.bypass || gdROOT g.desc

/-- Inputs that this member forwards for each chunk. -/
def Group.nin (g : Group) : Nat :=
  let own := if (gdOwn g.desc).isEmpty then 0 else 1
  if g.bypass then own + listSum (g.reports.map (fun r => r.2.1))
  else if gdNCHILD g.desc = 0 then own
  else 1

/-- The base rank of child i. -/
def Group.childBase (g : Group) (i : Nat) : Nat :=
  g.base + (gdOwn g.desc).length + listSum ((List.range i).map (fun j => (g.report j).2))

/-- Operations of a group entry that have no outcome yet, of the kind given. -/
def Owner.ligKind (o : Owner) (e kind : Nat) : Bool :=
  match o with
  | .lig f n _ _ _ _ => f == e && n == kind
  | _ => false

/-- Every LCOLL that waited for the group completes with a status, and every LCLOSE completes; what it has in flight is no longer its. -/
def State.ligDrop (s0 : State) (e status : Nat) : State :=
  let s : State := { s0 with ops := s0.ops.map (fun x => match x.2.owner with
    | .lig f _ _ _ _ _ => if f = e then (x.1, { x.2 with owner := .free }) else x
    | _ => x) }
  let g := s.grp e
  let s1 := (g.colls.map Coll.contribs).flatten.foldl (fun (s : State) x =>
    s.ligComplete g.p g.s x.loc x.cnt x.pcAt (bits x.desc 128 64) status) s
  let s2 := g.closers.foldl (fun (s : State) c => s.addCounter c.1 c.2 1) s1
  let s3 := g.free s2
  { s3 with grps := tdel s3.grps e }

/-- A closing group whose collectives have all completed, and whose LOPEN has, is released (09 R334). -/
def State.ligCloseCheck (s : State) (e : Nat) : State :=
  let g := s.grp e
  if g.st = 3 && g.colls.isEmpty && g.opener.isNone then s.ligDrop e 0 else s

/-- An LCOLL that waited for its group to open fails the check that needs P (09 R335): its collective completes with LIG_DESC (DESIGN
CHOICE, log 119). -/
def Group.checkP (g : Group) (x : Coll) : Coll :=
  match x.shape with
  | some sh =>
    if (shOP sh == 1 && shCOUNT sh % g.total != 0) || (shOP sh == 3 && decide (shBRANK sh ≥ g.total)) then { x with status := cLIGDESC } else x
  | none => x

/-- The LOPEN completes, once its rank messages are acknowledged: until then a refusal of one may still fail it (09 R331; DEDUCED,
log 119). -/
def State.ligOpenDone (s : State) (e : Nat) : State :=
  let g := s.grp e
  match g.opener with
  | none => s
  | some (l, cnt, pcAt) =>
    if g.st ≤ 1 || (gdNCHILD g.desc != 0 && s.ops.any (fun x => x.2.owner.ligKind e 1)) then s
    else
      ((s.setGrp e { g with opener := none }).ligComplete g.p g.s l cnt pcAt (gdSTATUS g.desc)
        (g.status + b2n g.bypass * 2 ^ 16 + g.total * 2 ^ 32)).ligCloseCheck e

/-- The opening ends in failure: the LOPEN completes with the status, and the group is gone. -/
def State.ligOpenFail (s : State) (e status : Nat) : State :=
  let g := s.grp e
  let s1 := match g.opener with
    | some (l, cnt, pcAt) =>
      s.ligComplete g.p g.s l cnt pcAt (gdSTATUS g.desc) (status + b2n g.bypass * 2 ^ 16 + g.total * 2 ^ 32)
    | none => s
  (s1.setGrp e { g with opener := none }).ligDrop e status

/-- The member's LOPEN ends: rank messages go to its children, the group is open, or is gone on a failure. -/
def State.ligOpened (s : State) (e base total status : Nat) : State :=
  let g := { s.grp e with base, total, status }
  let msg := fun i => 6 + status * 2 ^ 16 + g.childBase i * 2 ^ 384 + total * 2 ^ 416
  let s1 := (List.range (gdNCHILD g.desc)).foldl (fun (s : State) i =>
    s.ligSend e 1 0 i (gdCHILD g.desc i) (downBlock g.gid) (msg i) 0 0 false) s
  let s2 := s1.setGrp e { g with st := if g.closers.isEmpty then 2 else 3, colls := g.colls.map g.checkP }
  if status = 0 then s2.ligOpenDone e else s2.ligOpenFail e status

/-- A message of a member's opening was refused: its LOPEN fails with LIG_TREE. -/
def State.ligTreeBad (s : State) (e : Nat) : State :=
  let s1 := s.count cLIGTREE
  if (s.grp e).st = 1 then s1.ligOpened e 0 0 cLIGTREE else if (s.grp e).opener.isSome then s1.ligOpenFail e cLIGTREE else s

/-- An opening group whose children have all reported goes on: a report to the parent, or at the root the end. -/
def State.ligReport (s : State) (e : Nat) : State :=
  let g := s.grp e
  let st := g.reports.foldl (fun a r => mergeStatus a r.2.2.2) g.status
  if g.st ≠ 1 || g.reports.length != gdNCHILD g.desc || g.told then s
  else if gdROOT g.desc then s.ligOpened e 0 g.subP st
  else
    let hdr := 5 + st * 2 ^ 16 + g.nin * 2 ^ 352 + g.subP * 2 ^ 384
    (s.setGrp e { g with told := true, since := s.now }).ligSend e 0 0 0 (gdPARENT g.desc) (upBlock g.gid) hdr 0 0 false

/-- What a member takes of reduction memory: general slots, root slots, endpoint mode, status. -/
def State.ligTake (s : State) (ruled : Bool) (d : Nat) : Nat × Nat × Bool × Nat :=
  let w := gdW d
  if gdNCHILD d = 0 then (0, 0, false, 0)
  else if ruled then (if s.lfree ≥ gdRSV d then (gdRSV d, 0, false, 0) else (0, 0, false, cLIGNOSPACE))
  else if !gdROOT d then (if s.lfree ≥ w then (w, 0, false, 0) else (0, 0, true, 0))
  else
    let a := min w s.lfree
    let b := min (w - a) s.lrfree
    (a, b, false, if a + b = 0 then cLIGNOSPACE else 0)

/-- LOPEN takes effect: an entry, reduction memory, and the first report where nothing is waited for. -/
def State.ligOpen (s : State) (e : Nat) (l : Loc) (cnt d pcAt : Nat) : State :=
  let t := s.ligTake (s.part l.p).ruled d
  let g : Group :=
    { st := 1, p := l.p, s := l.s, gid := gdGID d, desc := d, bypass := t.2.2.1, slots := t.1, rslots := t.2.1
      status := t.2.2.2, opener := some (l, cnt, pcAt), since := s.now }
  let s1 : State := { s with lfree := s.lfree - t.1, lrfree := s.lrfree - t.2.1 }
  let s2 := if t.2.2.1 then s1.count cLIGBYPASS else if t.2.2.2 ≠ 0 then s1.count cLIGNOSPACE else s1
  (s2.setGrp e g).ligReport e

/-! Issue (09 R328, R329). -/

/-- Reserved fields of a Ligature word: B and C where unused, D, FN8, FMT and word 1. -/
def ligRsv (w : FormX) (b c : Bool) : Bool :=
  FormR.tailRsv w.r || w.r.fn8 != 0 || (!b && w.r.b != 0) || (!c && w.r.c != 0) || w.r.d != 0 || w.w1 != 0

/-- A Ligature instruction at issue: n bytes of descriptor at x[B], its own checks after the shared ones, its effect. -/
def State.ligIssue (s : State) (c : CoreId) (op : Nat) (w : FormX) (rsv : Bool) (n : Nat) (regs : List Nat)
    (wait : Loc → CoreSt → Nat → Bool) (errs : Loc → CoreSt → Nat → List (Bool × Nat))
    (act : State → Loc → CoreSt → Nat → State) : State :=
  let w0 := w.r.w0 op
  s.issue c w0 true (fun l cs =>
    let ad := roundDown ((cs.getX w.r.b.toNat).toNat % spadSize) 16
    let d := sread cs.spad ad n
    if decide (s.ligHeld l ≥ 8) || s.slotsFull || wait l cs d then .stall
    else s.checkedDead l cs [(illegalFn w0, cILLEGAL), (rsv, cRESFIELD)]
      ((firstErr (errs l cs d)).map (fun code => .eff ((s.count code).syncExc l code 0 0 w0)))
      regs (if n = 0 then [] else [(ad, n)]) (if n = 0 then [] else [.now ad n false])
      (fun _ => .eff (act (s.setCore l (cs.adv 16)) l cs d)))

/-! Open reports and rank messages (09 R331). -/

/-- The group a packet to a Ligature block names, with its entry. -/
def State.blockGroup (s : State) (k : Packet) : Option (Nat × Group) :=
  let b := if k.offset ≥ ligDown then ligDown else ligUp
  (s.grpOf k.dpart k.dctx ((k.offset - b) / 0x100)).map (fun e => (e, s.grp e))

def State.nodeIs (s : State) (p lnode snode : Nat) : Bool := lnLive (s.lnt p lnode) && lnPnode (s.lnt p lnode) == snode

/-- The children of a group on a physical node. -/
def State.childrenAt (s : State) (g : Group) (snode : Nat) : List Nat :=
  (List.range (gdNCHILD g.desc)).filter (fun i => s.nodeIs g.p (gdCHILD g.desc i) snode)

/-- Whether an offset is of the up or the down blocks. -/
def upOff (k : Packet) : Bool := ligBlock k.offset && decide (k.offset < ligDown)
def downOff (k : Packet) : Bool := ligBlock k.offset && decide (ligDown ≤ k.offset)

/-! Closing (09 R334). -/

/-- LCLOSE: the group that x[C] names. -/
def execLclose (c : CoreId) (w : FormX) (s : State) : Host.Outcome State Fault Refusal :=
  let gid := fun (cs : CoreSt) => fld (cs.getX w.r.c.toNat) 0 6
  .next (s.ligIssue c 0xC2 w (ligRsv w false true) 0 [w.r.c.toNat] (fun _ _ _ => false)
    (fun l cs _ => [((s.grpOf l.p l.s (gid cs)).isNone, cLIGGROUP)])
    (fun t l cs _ =>
      match t.grpOf l.p l.s (gid cs) with
      | none => t
      | some e =>
        let g := t.grp e
        (t.setGrp e { g with st := if g.st = 1 then 1 else 3, closers := g.closers ++ [(l, w.r.a.toNat)] }).ligCloseCheck e))

end Sys2Proof.Machine
end

