-- ==== Sys2Proof/Machine/Ligature.lean ====
section
/-! DEFINITION. Collectives (09 R335-R352): contributions, the reduction of chunks and headers, the chunk pipeline up and
down the tree, completion, the slowest member, stalls. A message is taken whole, its header with its data stores. -/

namespace Sys2Proof.Machine

/-! The collective descriptor (09 R335). -/

def cdSRC (d : Nat) : Nat := bits d 0 64
def cdDST (d : Nat) : Nat := bits d 64 64
def cdSTATUS (d : Nat) : Nat := bits d 128 64
def cdCOUNT (d : Nat) : Nat := bits d 192 32
def cdOP (d : Nat) : Nat := bits d 224 3
def cdRED (d : Nat) : Nat := bits d 232 2
def cdET (d : Nat) : Nat := bits d 240 2
def cdEMPTY (d : Nat) : Bool := bit d 248
def cdNODST (d : Nat) : Bool := bit d 249
def cdGID (d : Nat) : Nat := bits d 256 6
def cdBRANK (d : Nat) : Nat := bits d 288 32

def cdShape (d : Nat) : Nat := shapeOf (cdOP d) (cdRED d) (cdET d) (cdCOUNT d) (cdBRANK d)

/-- A collective descriptor that breaks R335, on a group of P contributors where P is known. -/
def collBad (ptot : Option Nat) (d : Nat) : Bool :=
  let op := cdOP d
  bits d 227 5 != 0 || bits d 234 6 != 0 || bits d 242 6 != 0 || bits d 250 6 != 0 || bits d 262 26 != 0 || bits d 320 192 != 0
    || decide (op > 4) || cdRED d == 3 || (decide (op ≥ 2) && cdRED d != 0) || (op != 3 && cdBRANK d != 0)
    || (op == 3 && ptot.any (fun p => decide (cdBRANK d ≥ p))) || (op == 1 && ptot.any (fun p => cdCOUNT d % p != 0))
    || ((op == 4) != (cdCOUNT d == 0)) || decide (cdCOUNT d * atomBytes (cdET d) > 2 ^ 30)
    || taBad (cdSTATUS d) || (op != 4 && !cdEMPTY d && taBad (cdSRC d)) || (!cdNODST d && taBad (cdDST d))

/-! Shapes. -/

/-- Bytes of one contribution. -/
def shBytes (x : Nat) : Nat := shCOUNT x * atomBytes (shET x)

/-- C: chunks of one contribution (09 R339). -/
def shChunks (x : Nat) : Nat := max 1 ((shBytes x + 65535) / 65536)

/-- Whether the collective reduces, and whether its partials are FP32 for BF16 elements (09 R339, R341). -/
def shReduces (x : Nat) : Bool := shOP x ≤ 1
def shWide (x : Nat) : Bool := shReduces x && shET x == 3

/-- Chunk keys of a collective of P contributors: chunk c, or rank x C + c of an all-gather. -/
def shKeys (x ptot : Nat) : Nat := if shOP x = 2 then ptot * shChunks x else shChunks x

/-- First byte and length of the chunk with a key within its contribution. -/
def chunkRange (x key : Nat) : Nat × Nat :=
  let c := key % shChunks x
  (65536 * c, min 65536 (shBytes x - 65536 * c))

/-! Reduction (09 R341). -/

/-- The element type of partials. -/
def shPart (x : Nat) : Nat := if shWide x then 2 else shET x

def bf16ToF32 (c : Nat) : Nat := toF32 (toNum 1 c)

/-- A chunk of a source as partial elements. -/
def asPartials (x n v : Nat) : List Nat :=
  let w := 8 * atomBytes (shET x)
  let es := splitN w (n / atomBytes (shET x)) v
  if shWide x then es.map bf16ToF32 else es

/-- Two partials combined. -/
def ligAdd (x : Nat) (a b : List Nat) : List Nat := (a.zip b).map (fun e => atomFn (shRED x) (shPart x) e.1 e.2)

/-- Inputs combined in order: the first is copied. -/
def ligFold (x : Nat) : List (List Nat) → Option (List Nat)
  | [] => none
  | v :: vs => some (vs.foldl (ligAdd x) v)

/-- The residue check of an addition of w-bit integers with its carry out (09 R349). -/
def residueHolds (w a b sum carry : Nat) : Bool := (a % 7 + b % 7) % 7 == (sum % 7 + carry * (2 ^ w % 7)) % 7

/-- A list in the order that a number picks. -/
def shuffle {α : Type} : Nat → Nat → List α → List α
  | 0, _, l => l
  | n + 1, v, l =>
    match l[v % l.length]? with
    | some x => x :: shuffle n (v / l.length) (l.eraseIdx (v % l.length))
    | none => l

/-- Inputs combined piece by piece of `per` elements, each piece position in an order of its own (09 R342). -/
def ligPieces (x per n : Nat) (order : Nat → Nat) (ins : List (List Nat)) : List Nat :=
  ((List.range n).map (fun i =>
    (ligFold x (shuffle ins.length (order i) (ins.map (fun l => (l.drop (per * i)).take per)))).getD [])).flatten

/-- The value of an element that no contributor gave (09 R338). -/
def ligIdentity (x : Nat) : Nat :=
  match shRED x, shET x with
  | 0, _ => 0
  | 1, 0 => 2 ^ 31 - 1
  | 1, 1 => 2 ^ 63 - 1
  | 1, 2 => 0x7F800000
  | 1, _ => 0x7F80
  | _, 0 => 2 ^ 31
  | _, 1 => 2 ^ 63
  | _, 2 => 0xFF800000
  | _, _ => 0xFF80

/-- A chunk's result at the root: partials rounded to the element type, or the identity. -/
def ligResult (x n : Nat) (v : Option (List Nat)) : Nat :=
  let w := 8 * atomBytes (shET x)
  match v with
  | some es => packElems w (if shWide x then es.map (fun e => ofNum 1 .rne (toNum 0 e)) else es)
  | none => packElems w (List.replicate (n / atomBytes (shET x)) (ligIdentity x))

/-! Headers combined (09 R346). -/

/-- The later of two issue times with who issued; ties to the lowest node, cluster, core. -/
def laterOf (a b : Nat) : Nat :=
  if lhTMAX a < lhTMAX b then b else if lhTMAX b < lhTMAX a then a else if lhWHO b < lhWHO a then b else a

/-- The header of a chunk from its inputs' headers. -/
def mergeHdrs (x gseq chunk npiece status : Nat) (empty : Bool) (hs : List Nat) : Nat :=
  let st := hs.foldl (fun a h => mergeStatus a (lhSTATUS h)) status
  match hs with
  | [] => chunkHdr x st gseq chunk npiece empty 0 0 0
  | h :: t =>
    let m := t.foldl laterOf h
    chunkHdr x st gseq chunk npiece empty (t.foldl (fun a y => min a (lhTMIN y)) (lhTMIN h)) (lhTMAX m) (lhWHO m)

def pieces (bytes : Nat) : Nat := (bytes + 255) / 256

/-! Collectives in State. -/

/-- Whether a collective ends without its data: its contributions disagree (09 R337), or break the check that needs P (log 119). -/
def Coll.bad (x : Coll) : Bool := x.status == cLIGMISMATCH || x.status == cLIGDESC

def Group.coll (g : Group) (k : Nat) : Coll := (g.colls.find? (fun x => x.k == k)).getD { k }

/-- A collective stored, in order of its number. -/
def Group.putColl (g : Group) (x : Coll) : Group :=
  { g with colls := sortBy (fun (a b : Coll) => decide (a.k < b.k)) (x :: g.colls.filter (fun y => y.k != x.k)) }

def State.putColl (s : State) (e : Nat) (x : Coll) : State := s.setGrp e ((s.grp e).putColl x)

/-- The shape of a contribution or message met by a collective: the first sets it, another marks LIG_MISMATCH (09 R337). -/
def Coll.meet (x : Coll) (sh : Nat) : Coll :=
  match x.shape with
  | none => { x with shape := some sh }
  | some y => if y = sh then x else { x with status := cLIGMISMATCH }

def Coll.sh (x : Coll) : Nat := x.shape.getD 0

/-- Messages that this device itself gives for a collective: one for each chunk, whether or not it gives data to it (09 R346). -/
def Group.ownTotal (g : Group) (x : Coll) : Nat :=
  let n := (gdOwn g.desc).length
  if n = 0 then 0 else if x.bad then 1 else shKeys x.sh g.total

/-- Whether every contributor of this device has issued its LCOLL. -/
def Group.allIn (g : Group) (x : Coll) : Bool := x.contribs.length == (gdOwn g.desc).length

/-- The contribution of one core. -/
def Coll.of (x : Coll) (o : Nat × Nat) : Option Contrib := x.contribs.find? (fun c => c.loc.l == o.1 && c.loc.k == o.2)

/-- The contributor's header for one chunk. -/
def State.contribHdr (s : State) (g : Group) (x : Coll) (c : Contrib) (chunk : Nat) : Nat :=
  chunkHdr x.sh 0 x.k chunk 0 true c.tick c.tick
    ((s.ctx g.p g.s).lnode * 2 ^ 16 + c.loc.l * 2 ^ 8 + c.loc.k)

/-- The contributors that give data to the chunk with a key: those of a reduction that are not EMPTY, the broadcast's
source, the one rank of an all-gather. -/
def Group.givers (g : Group) (x : Coll) (key : Nat) : List Contrib :=
  let os := gdOwn g.desc
  ((os.zip (List.range os.length)).filter (fun o =>
    let r := g.base + o.2
    match shOP x.sh with
    | 0 | 1 => true
    | 2 => key / shChunks x.sh == r
    | 3 => shBRANK x.sh == r
    | _ => false)).filterMap (fun o => (x.of o.1).filter (fun c => !cdEMPTY c.desc))

/-- One source chunk. -/
def State.sourceChunk (s : State) (e : Nat) (g : Group) (x : Coll) (key : Nat) (c : Contrib) : Nat :=
  let r := chunkRange x.sh key
  s.tblRead (.lig e x.k false) g.p g.s (cdSRC c.desc) r.1 r.2

/-- The device partial of a chunk, as a number: cores of a cluster in order, then clusters in order (09 R327). -/
def State.partialData (s : State) (e : Nat) (g : Group) (x : Coll) (key : Nat) : Option Nat :=
  let r := chunkRange x.sh key
  let gs := g.givers x key
  if shReduces x.sh then
    let ls := (List.range 64).filterMap (fun l =>
      ligFold x.sh ((gs.filter (fun c => c.loc.l == l)).map (fun c => asPartials x.sh r.2 (s.sourceChunk e g x key c))))
    (ligFold x.sh ls).map (packElems (8 * atomBytes (shPart x.sh)))
  else gs.head?.map (s.sourceChunk e g x key)

/-- Bytes of a chunk between members: partials upward. -/
def upBytes (x key : Nat) : Nat := (chunkRange x key).2 / atomBytes (shET x) * atomBytes (shPart x)

/-- This device's j-th own message. -/
def State.ownMsg (s : State) (e : Nat) (g : Group) (x : Coll) (j : Nat) : ChunkIn :=
  let key := (if x.bad then 0 else j)
  let chunk := if shOP x.sh = 2 then key / shChunks x.sh else key
  let v := if x.bad then none else s.partialData e g x key
  let np := if v.isSome then pieces (upBytes x.sh key) else 0
  { inp := 0, hdr := mergeHdrs x.sh x.k chunk np x.status v.isNone (x.contribs.map (fun c => s.contribHdr g x c chunk))
    data := v.getD 0
    pz := !x.bad && (g.givers x key).any (fun c =>
      s.tblPoison (.lig e x.k false) g.p g.s (cdSRC c.desc) (chunkRange x.sh key).1 (chunkRange x.sh key).2) }

/-! Slots and windows (09 R348). -/

/-- Chunks of the group sent up and not yet acknowledged. -/
def State.ligFlying (s : State) (e : Nat) : List (Nat × Nat) :=
  (s.ops.filterMap (fun o => match o.2.owner with
    | .lig f 2 k key _ _ => if f = e then some (k, key) else none
    | _ => none)).dedup

/-- Chunks that hold a slot at this vertex. -/
def State.ligLive (s : State) (e : Nat) : List (Nat × Nat) :=
  (((s.grp e).colls.map (fun x => x.ins.map (fun i => (x.k, i.1)))).flatten
    ++ (if gdROOT (s.grp e).desc then [] else s.ligFlying e)).dedup

/-- Whether an input (0 this device's) may send its next chunk c: every store of chunk c - W is acknowledged (09 R348). -/
def State.windowOpen (s : State) (e inp : Nat) : Bool :=
  let g := s.grp e
  let next := tgetD g.upSent inp 0
  s.ops.all (fun o => match o.2.owner with
    | .lig f kind _ _ i ord => f != e || !(kind == 2 || kind == 3) || i != inp || decide (next < ord + gdW g.desc)
    | _ => true)

/-- A chunk of an input sent to the parent. -/
def State.ligSendUp (s : State) (e kind k key inp hdr data npiece : Nat) (pz : Bool) : State :=
  let g := s.grp e
  let n := tgetD g.upSent inp 0
  (s.setGrp e { g with upSent := tput g.upSent inp (n + 1) }).ligSend e kind k key (gdPARENT g.desc) (upBlock g.gid) hdr data npiece pz inp n

/-- Whether an input of a chunk has a slot here. -/
def State.slotFor (s : State) (e k key : Nat) : Bool :=
  let g := s.grp e
  let lim := if (s.part g.p).ruled then gdW g.desc else g.slots + g.rslots
  gdNCHILD g.desc == 0 || (s.ligLive e).contains (k, key) || decide ((s.ligLive e).length < lim)

/-- An input taken by a vertex. -/
def State.ligTakeIn (s : State) (e : Nat) (x : Coll) (key : Nat) (i : ChunkIn) : State :=
  let x1 := x.meet (lhShape i.hdr)
  let x2 := if lhSTATUS i.hdr = cLIGMISMATCH then { x1 with status := cLIGMISMATCH } else x1
  s.putColl e { x2 with ins := x2.ins ++ [(key, { i with at_ := s.now })] }

/-! The way down (09 R347). -/

/-- Ranks r of this member's subtree that lie in a range of bytes of a reduce-scatter. -/
def rsPart (x ptot lo n first cnt : Nat) : Nat × Nat :=
  let b := shBytes x / ptot
  let a := max lo (first * b)
  (a, min (lo + n) ((first + cnt) * b) - a)

/-- The range of a chunk that reaches this member, as first byte and length: all of it but for a reduce-scatter. -/
def Group.downRange (g : Group) (x key : Nat) : Nat × Nat :=
  let r := chunkRange x key
  if shOP x = 1 then rsPart x g.total r.1 r.2 g.base g.subP else r

/-- Where a chunk lands at one contributor: byte of the destination, byte of the data, length. -/
def Group.landing (g : Group) (x key rank : Nat) : Nat × Nat × Nat :=
  let r := g.downRange x key
  match shOP x with
  | 1 =>
    let q := rsPart x g.total r.1 r.2 rank 1
    (q.1 - rank * (shBytes x / g.total), q.1 - r.1, q.2)
  | 2 => (key / shChunks x * shBytes x + r.1, 0, r.2)
  | _ => (r.1, 0, r.2)

/-- Contributors of this device with a destination, and their ranks. -/
def Group.takers (g : Group) (x : Coll) : List (Contrib × Nat) :=
  let os := gdOwn g.desc
  (os.zip (List.range os.length)).filterMap (fun o =>
    ((x.of o.1).filter (fun c => !cdNODST c.desc)).map (fun c => (c, g.base + o.2)))

/-- What the destinations of a chunk still lack. -/
def State.downHeld (s : State) (e : Nat) (g : Group) (x : Coll) (key : Nat) : List Need :=
  ((g.takers x).map (fun t =>
    let w := g.landing x.sh key t.2
    s.tblHeld (.lig e x.k true) g.p (cdDST t.1.desc) w.1 w.2.2 true)).flatten

/-- A result chunk written to every destination of this device. -/
def State.ligDeliver (s : State) (e : Nat) (x : Coll) (key data : Nat) (pz : Bool) : State :=
  let g := s.grp e
  (g.takers x).foldl (fun (s : State) t =>
    let w := g.landing x.sh key t.2
    let a := cdDST t.1.desc
    if w.2.2 = 0 then s
    else
      match s.tblBad g.p a w.1 w.2.2 true with
      | some _ => s.ligRefused e a w.1
      | none =>
        if s.tblDead g.p a w.1 w.2.2 then s.ligFault e cFABDEAD (s.ctx g.p g.s).lnode 0 (tblOff a w.1) else
        let s1 := s.tblWrite (some (.lig e x.k true)) g.p g.s a w.1 w.2.2 (bits data (8 * w.2.1) (8 * w.2.2)) pz
        if pz && s.tblAway g.p a w.1 w.2.2 then s1.ligFault e cPOISON (s.ctx g.p g.s).lnode 0 (tblOff a w.1) else s1) s

/-- Whether the root's results travel on the multicast tree. -/
def State.ligTreeDown (s : State) (g : Group) (x : Nat) : Bool := !(s.part g.p).ruled && shOP x != 1

/-- A chunk sent on to every child (09 R347). -/
def State.ligDownChildren (s : State) (e : Nat) (x : Coll) (key hdr data lo : Nat) (pz : Bool) : State :=
  let g := s.grp e
  (List.range (gdNCHILD g.desc)).foldl (fun (s : State) i =>
    let r := chunkRange x.sh key
    let q := if shOP x.sh = 1 then rsPart x.sh g.total r.1 r.2 (g.childBase i) (g.report i).2 else r
    let n := if lhEMPTY hdr then 0 else q.2
    s.ligSend e 4 x.k key (gdCHILD g.desc i) (downBlock g.gid) (setBits (setBits hdr 96 32 (pieces n)) 2 1 (b2n (n == 0)))
      (bits data (8 * (q.1 - lo)) (8 * n)) (pieces n) pz) s

/-- The bucket of a skew in ticks (09 R351). -/
def skewBucket (t : Nat) : Nat := if t < 1050 then 0 else min 15 (Nat.log2 (t / 1050) + 1)

/-- What the engine records when chunk 0 completes its down path here (09 R351). -/
def State.ligSlowest (s : State) (e hdr : Nat) : State :=
  let g := s.grp e
  let w := lhWHO hdr
  let skew := lhTMAX hdr - lhTMIN hdr
  ({ s with
    ligLast := w64 (w / 2 ^ 16 + w / 2 ^ 8 % 64 * 2 ^ 16 + w % 64 * 2 ^ 22 + g.gid * 2 ^ 28 + g.p * 2 ^ 34)
    ligSkew := skew } : State).countAt (0x00E00100 + 8 * skewBucket skew) 0 1

/-- The down path of a chunk at a member: its destinations, and the record of the slowest. -/
def State.ligDown (s : State) (e k key hdr data : Nat) (pz : Bool) : State :=
  let x0 := (s.grp e).coll k
  let x1 := x0.meet (lhShape hdr)
  let x : Coll := { x1 with downs := addOnce x1.downs key, status := mergeStatus x1.status (lhSTATUS hdr) }
  let s1 := if lhEMPTY hdr then s else (s.ligDeliver e x key data pz).tblEnd (.lig e k true)
  (if key = 0 then s1.ligSlowest e hdr else s1).putColl e x

/-! The pipeline's actions. -/

/-- A chunk the vertex holds is complete: every input has come (09 R346). -/
def Group.whole (g : Group) (x : Coll) (key : Nat) : Bool :=
  let got := fun i => (x.ins.filter (fun y => y.1 == key && y.2.inp == i)).length
  let any_ := fun i => (x.ins.filter (fun y => y.2.inp == i)).length
  let own := (gdOwn g.desc).isEmpty
  if x.bad then
    key == 0 && (own || decide (any_ 0 ≥ 1)) && (List.range (gdNCHILD g.desc)).all (fun i => decide (any_ (i + 1) ≥ (g.report i).1))
  else (own || decide (got 0 ≥ 1)) && (List.range (gdNCHILD g.desc)).all (fun i => decide (got (i + 1) ≥ (g.report i).1))

/-- The vertex's message for a whole chunk: header, data, poison. In Freehand mode the inputs of each piece position are taken in the
order in which those pieces came, which is not that of whole messages: it is free (09 R342; log 81). -/
def State.vertexMsg (s : State) (g : Group) (x : Coll) (key : Nat) : ChunkIn :=
  let all_ := if x.bad then x.ins.map Prod.snd else (x.ins.filter (fun y => y.1 == key)).map Prod.snd
  let ruled := (s.part g.p).ruled
  let ins := if ruled then sortBy (fun (a b : ChunkIn) => decide (a.inp < b.inp)) all_ else all_
  let full := if x.bad then [] else ins.filter (fun i => !lhEMPTY i.hdr)
  let v := if shReduces x.sh then
      let es := full.map (fun i => splitN (8 * atomBytes (shPart x.sh)) ((chunkRange x.sh key).2 / atomBytes (shET x.sh)) i.data)
      let r := if ruled || decide (es.length ≤ 2) then ligFold x.sh es
        else some (ligPieces x.sh (256 / atomBytes (shPart x.sh)) (pieces (upBytes x.sh key))
          (fun i => (Config.freeValue (s.free + i)).toNat) es)
      r.map (packElems (8 * atomBytes (shPart x.sh)))
    else full.head?.map ChunkIn.data
  let chunk := if shOP x.sh = 2 then key / shChunks x.sh else key
  { inp := 0
    hdr := mergeHdrs x.sh x.k chunk (if v.isSome then pieces (upBytes x.sh key) else 0) x.status v.isNone (ins.map ChunkIn.hdr)
    data := v.getD 0, pz := full.any ChunkIn.pz }

/-- Free values that a vertex's message used. -/
def State.vertexFree (s : State) (g : Group) (x : Coll) (key : Nat) : Nat :=
  let n := (x.ins.filter (fun y => y.1 == key && !lhEMPTY y.2.hdr)).length
  if x.bad || !shReduces x.sh || (s.part g.p).ruled || decide (n ≤ 2) then 0 else pieces (upBytes x.sh key)

/-- A message's additions at a level are checked (09 R349, R350): a result that fails is computed again, counted and recorded; one that
fails a second time ends the collective with LIG_RESIDUE, its chunk without guarantee. `adds` is how many additions the level made. -/
def State.residue (s : State) (e : Nat) (x : Coll) (key level l adds : Nat) (m : ChunkIn) : State × ChunkIn :=
  let at_ := ErrAt.adder e x.k key level l
  let n := (s.upsetsIn (fun y => y == at_)).length
  if n = 0 || adds = 0 then (s, m)
  else
    let g := s.grp e
    let log := fun (s : State) (code cls : Nat) =>
      let ev := s.event code cls (if level = 0 then 1 else 8) (if level = 0 then s.phys g.p l else 0) level (g.gid + x.k * 2 ^ 32)
        (if shOP x.sh = 2 then key % shChunks x.sh else key)
      s.logEvent { ev with lnode := (s.ctx g.p g.s).lnode, part := g.p, ctx := g.s, pv := true }
    let s1 := (s.mend at_).count cLIGRECOMP
    let s2 := if level = 0 then s1.countAt (cluBase (s.phys g.p l) + 0x20000) cLIGRECOMP 1 else s1
    let s3 := log s2 cLIGRECOMP 5
    if n = 1 then (s3, m)
    else
      let w := 32 * lhNPIECE m.hdr
      let v := (List.range w).foldl (fun v i => v + (Config.freeValue (s3.free + i)).toNat * 2 ^ (64 * i)) 0
      (log { s3 with free := s3.free + w } cLIGRESIDUE 2,
        { m with hdr := setBits m.hdr 16 16 (mergeStatus (lhSTATUS m.hdr) cLIGRESIDUE), data := v })

/-- The checks of the cluster engines and of the chip engine on this device's own message. -/
def State.ownResidue (s : State) (e : Nat) (g : Group) (x : Coll) (key : Nat) (m : ChunkIn) : State × ChunkIn :=
  if x.bad || !shReduces x.sh || s.upsets.isEmpty then (s, m)
  else
    let gs := g.givers x key
    let ls := (List.range 64).filter (fun l => gs.any (fun c => c.loc.l == l))
    let r := ls.foldl (fun (r : State × ChunkIn) l =>
      r.1.residue e x key 0 l ((gs.filter (fun c => c.loc.l == l)).length - 1) r.2) (s, m)
    r.1.residue e x key 1 0 (ls.length - 1) r.2

/-- The root's result chunk: header and data as they travel down. -/
def rootMsg (x : Coll) (key : Nat) (m : ChunkIn) : Nat × Nat :=
  let r := chunkRange x.sh key
  if x.bad then (setBits m.hdr 96 32 0, 0)
  else if shReduces x.sh then
    let n := r.2 / atomBytes (shET x.sh)
    let es := if lhEMPTY m.hdr then none else some (splitN (8 * atomBytes (shPart x.sh)) n m.data)
    (setBits (setBits m.hdr 96 32 (pieces r.2)) 2 1 0, ligResult x.sh r.2 es)
  else (m.hdr, m.data)

/-- A message that goes up from here. -/
def State.ligUp_ (s : State) (e : Nat) (x : Coll) (key : Nat) (m : ChunkIn) : Option State :=
  if s.windowOpen e 0 && s.roomFor (lhNPIECE m.hdr) then some (s.ligSendUp e 2 x.k key 0 m.hdr m.data (lhNPIECE m.hdr) m.pz) else none

/-- What is wrong with a source of an own message: refused at its home, failed, or not at hand. -/
def State.sourceBad (s : State) (g : Group) (x : Coll) (key : Nat) : Option (Nat × Nat) :=
  let r := chunkRange x.sh key
  (g.givers x key).findSome? (fun c => (s.tblBad g.p (cdSRC c.desc) r.1 r.2 false).map (fun _ => (cdSRC c.desc, r.1)))

/-- A source whose read outside the device failed: its code and offset. -/
def State.sourceLost (s : State) (e : Nat) (g : Group) (x : Coll) (key : Nat) : Option (Nat × Nat) :=
  let r := chunkRange x.sh key
  (g.givers x key).findSome? (fun c => s.tblLost (.lig e x.k false) g.p (cdSRC c.desc) r.1 r.2)

def State.sourceHeld (s : State) (e : Nat) (g : Group) (x : Coll) (key : Nat) : List Need :=
  let r := chunkRange x.sh key
  ((g.givers x key).map (fun c => s.tblHeld (.lig e x.k false) g.p (cdSRC c.desc) r.1 r.2 false)).flatten

/-- The sources of an own message meet the errors of their words (07 R266). -/
def State.eccSources (s : State) (g : Group) (x : Coll) (key : Nat) : State :=
  if x.bad then s
  else (g.givers x key).foldl (fun (s : State) c =>
    s.eccTbl g.p (cdSRC c.desc) (chunkRange x.sh key).1 (chunkRange x.sh key).2) s

/-- This device's next own message of a collective is read and given. -/
def State.ligFeed (s : State) (e : Nat) (x : Coll) : Option State :=
  let g := s.grp e
  let j := x.own
  let key := (if x.bad then 0 else j)
  let y : Coll := { x with own := j + 1 }
  let w : Who := .lig e x.k false
  if !g.allIn x || x.failed || decide (j ≥ g.ownTotal x) then none
  else if g.vertex && !s.slotFor e x.k key then none
  else
    match (if x.bad then none else s.sourceBad g x key) with
    | some a => some ((s.putColl e { x with failed := true }).ligRefused e a.1 a.2)
    | none =>
    match (if x.bad then none else s.sourceLost e g x key) with
    | some a => some (((s.putColl e { x with failed := true }).ligFault e a.1 (s.ctx g.p g.s).lnode 0 a.2).tblEnd w)
    | none =>
      let ls := if x.bad then [] else s.sourceHeld e g x key
      if !ls.isEmpty then (if ls.any (fun l => !s.asked w g.p l) then some (s.gather w g.p ls) else none)
      else
        let s : State := s.eccSources g x key
        let r := s.ownResidue e g x key (s.ownMsg e g x j)
        if g.vertex then some ((r.1.tblEnd w).ligTakeIn e y key r.2)
        else (r.1.ligUp_ e x key r.2).map (fun t => (t.tblEnd w).putColl e y)

/-- A whole chunk leaves the vertex: up, or from the root down. The header that ends a collective without its data goes once, whatever
went before it (09 R337). -/
def State.ligEmit (s0 : State) (e : Nat) (x : Coll) (key : Nat) : Option State :=
  let g := s0.grp e
  let tag := if x.bad then 2 ^ 64 else key
  let y : Coll := { x with ins := if x.bad then [] else x.ins.filter (fun i => i.1 != key), sent := tag :: x.sent }
  if x.sent.contains tag || !g.whole x key then none
  else
    let adds := if shReduces x.sh && !x.bad then (x.ins.filter (fun i => i.1 == key && !lhEMPTY i.2.hdr)).length - 1 else 0
    let r := ({ s0 with free := s0.free + s0.vertexFree g x key } : State).residue e x key 2 0 adds (s0.vertexMsg g x key)
    let s := r.1
    let m := r.2
    if !gdROOT g.desc then (s.ligUp_ e x key m).map (fun t => t.putColl e y)
    else
      let d := rootMsg x key m
      let n := if lhEMPTY d.1 then 0 else pieces (chunkRange x.sh key).2
      if !s.roomFor ((n + 1) * max 1 (gdNCHILD g.desc)) then none
      else if s.ligTreeDown g x.sh then some ((s.putColl e y).ligCast e x.k key (downBlock g.gid) d.1 d.2 n m.pz)
      else
        let ls := s0.downHeld e g x key
        let w : Who := .lig e x.k true
        if !ls.isEmpty then (if ls.any (fun l => !s0.asked w g.p l) then some (s0.gather w g.p ls) else none)
        else some (((s.putColl e y).ligDownChildren e x key d.1 d.2 (chunkRange x.sh key).1 m.pz).ligDown e x.k key d.1 d.2 m.pz)

/-- Bytes without guarantee over the destinations of a mismatched collective (09 R337). -/
def State.ligScramble (s : State) (e : Nat) (x : Coll) : State :=
  let g := s.grp e
  (g.takers x).foldl (fun (s : State) t =>
    let sh := cdShape t.1.desc
    let n := match shOP sh with
      | 1 => shBytes sh / g.total
      | 2 => g.total * shBytes sh
      | _ => shBytes sh
    let v := (List.range ((n + 7) / 8)).foldl (fun v i => v + (Config.freeValue (s.free + i)).toNat * 2 ^ (64 * i)) 0
    if (s.tblBad g.p (cdDST t.1.desc) 0 n true).isSome then s
    else ({ s with free := s.free + (n + 7) / 8 } : State).tblWrite (some (.lig e x.k true)) g.p g.s (cdDST t.1.desc) 0 n v false) s

/-- LIG_RESIDUE in a collective's status, from the level that met it, is taken by every contributor here (09 R350); the
spec gives no detail words for it, so they are free values. -/
def State.ligResidue (s : State) (x : Coll) : State :=
  if x.status ≠ cLIGRESIDUE then s
  else x.contribs.foldl (fun (s : State) c =>
    let v := fun (i : Nat) => (Config.freeValue (s.free + i)).toNat
    ({ s with free := s.free + 3 } : State).asyncFail c.loc cLIGRESIDUE (v 0) (v 1) (v 2)) (s.count cLIGRESIDUE)

/-- A collective all of whose down paths are done here ends (09 R340). -/
def State.ligFinish (s : State) (e : Nat) (x : Coll) : Option State :=
  let g := s.grp e
  let n := if x.bad then 1 else shKeys x.sh g.total
  if x.shape.isNone || decide (x.downs.length < n) || s.farBusy (.lig e x.k true) then none
  else
    let s0 := if x.status = cLIGMISMATCH then (s.ligScramble e x).count cLIGMISMATCH else if x.bad then s.count cLIGDESC else s
    let g1 := s0.grp e
    let s1 := s0.setGrp e { g1 with colls := g1.colls.filter (fun y => y.k != x.k), fin := (x.k + 1) % 2 ^ 32 }
    let s2 := x.contribs.foldl (fun (s : State) c =>
      s.ligComplete g.p g.s c.loc c.cnt c.pcAt (cdSTATUS c.desc) x.status) s1
    some ((s2.ligResidue x).ligCloseCheck e)

/-- One action of the group, if any can be taken: the earliest collective first. -/
def State.ligStep (s : State) (e : Nat) : Option State :=
  let g := s.grp e
  if g.st ≠ 2 ∧ g.st ≠ 3 then none
  else g.colls.findSome? (fun x =>
    match s.ligFinish e x with
    | some t => some t
    | none =>
      match s.ligFeed e x with
      | some t => some t
      | none => if g.vertex then (x.ins.map Prod.fst).dedup.findSome? (fun key => s.ligEmit e x key) else none)

/-- At most n actions. -/
def State.ligRun (e : Nat) : Nat → State → State
  | 0, s => s
  | n + 1, s =>
    match s.ligStep e with
    | some t => State.ligRun e n t
    | none => s

/-- The group does what it can. -/
def State.ligPump (s : State) (e : Nat) : State :=
  let g := s.grp e
  State.ligRun e (listSum (g.colls.map (fun x => 3 * (shKeys x.sh g.total + 2)))) s

/-- Every group does what it can. -/
def State.ligPumpAll (s : State) : State := s.grps.foldl (fun (s : State) e => s.ligPump e.1) s

/-! Commands. -/

/-- LOPEN. -/
def execLopen (c : CoreId) (w : FormX) (s : State) : Host.Outcome State Fault Refusal :=
  .next (s.ligIssue c 0xC0 w (ligRsv w true false) 96 [w.r.b.toNat] (fun _ _ _ => false)
    (fun l _ d => [(groupBad (s.part l.p).ruled (s.nclu l.p) d, cLIGDESC),
      ((s.grpOf l.p l.s (gdGID d)).isSome || s.freeGrp.isNone, cLIGGROUP)])
    (fun t l cs d =>
      match t.freeGrp with
      | some e => (t.ligOpen e l w.r.a.toNat d cs.pc).ligPump e
      | none => t))

/-- A contributor's LCOLL joins its collective; one that has already ended without it was mismatched. -/
def State.ligJoin (s : State) (e : Nat) (l : Loc) (cnt d pcAt : Nat) : State :=
  let g := s.grp e
  let key := 64 * l.l + l.k
  let k := tgetD g.next key 0
  let g1 : Group := { g with next := tput g.next key ((k + 1) % 2 ^ 32) }
  let c : Contrib := { loc := l, cnt, desc := d, tick := s.now, pcAt }
  if (k + 2 ^ 32 - g.fin) % 2 ^ 32 ≥ 2 ^ 31 then
    (s.setGrp e g1).ligComplete l.p l.s l cnt pcAt (cdSTATUS d) cLIGMISMATCH
  else
    let x := (g.coll k).meet (cdShape d)
    ((s.setGrp e g1).putColl e { x with contribs := x.contribs ++ [c] }).ligPump e

/-- LCOLL. On a group that opens it waits inside the engines (09 R335). -/
def execLcoll (c : CoreId) (w : FormX) (s : State) : Host.Outcome State Fault Refusal :=
  let at_ := fun (l : Loc) (d : Nat) => (s.grpOf l.p l.s (cdGID d)).map (fun e => (e, s.grp e))
  .next (s.ligIssue c 0xC1 w (ligRsv w true false) 64 [w.r.b.toNat]
    (fun _ _ _ => false)
    (fun l _ d => [
      (collBad ((at_ l d).bind (fun g => if g.2.st = 1 then none else some g.2.total)) d, cLIGDESC),
      (match at_ l d with
        | some g => g.2.st == 3 || !(gdOwn g.2.desc).contains (l.l, l.k)
        | none => true, cLIGGROUP)])
    (fun t l cs d =>
      match t.grpOf l.p l.s (cdGID d) with
      | some e => t.ligJoin e l w.r.a.toNat d cs.pc
      | none => t))

/-- OPEN_REPORT: a child's report; from another node, or to a group that is not opening, it is refused. -/
def execOpenReport (p : Packet) (s : State) : Host.Outcome State Fault Refusal :=
  .next (if !upOff p || lhKIND p.data != 1 || p.size != 64 || p.ext || !s.reaches p [2] then s.dropBad p
    else if s.unnumbered p then (s.take p).count 0x0413
    else
      match s.blockGroup p with
      | none => (s.take p).refuse p
      | some (e, g) =>
        match (s.childrenAt g p.snode).find? (fun i => !g.reports.any (fun r => r.1 == i)) with
        | none => (s.take p).refuse p
        | some i =>
          if g.st = 1 && s.portOk p (!s.isCopy p) then
            let r := (i, lhNIN p.data, lhSUBP p.data, lhSTATUS p.data)
            let s1 := s.take p
            (((s1.setGrp e { g with reports := g.reports ++ [r] }).performed p 0 false).ligReport e).ligPump e
          else (s.take p).refuse p)

/-- RANK_MESSAGE: the parent's; it ends the member's LOPEN. -/
def execRankMessage (p : Packet) (s : State) : Host.Outcome State Fault Refusal :=
  .next (if !downOff p || lhKIND p.data != 2 || p.size != 64 || p.ext || !s.reaches p [2] then s.dropBad p
    else if s.unnumbered p then (s.take p).count 0x0413
    else
      match s.blockGroup p with
      | none => (s.take p).refuse p
      | some (e, g) =>
        if g.st = 1 && g.told && s.nodeIs g.p (gdPARENT g.desc) p.snode && s.portOk p true then
          (((s.take p).performed p 0 false).ligOpened e (lhSUBP p.data) (lhPTOT p.data) (lhSTATUS p.data)).ligPump e
        else (s.take p).refuse p)

/-! Chunk messages (09 R344). -/

/-- The data stores of a message: as many as its header says, each a piece to the same block from the same node, and on
the mesh where they are this device's. -/
def State.msgOk (s : State) (h : Packet) (ds : List Packet) : Bool :=
  h.size == 64 && lhKIND h.data == 0 && !h.ext && ds.length == lhNPIECE h.data
    && ds.all (fun k => k.ptype == 2 && !k.bad && !k.ext && k.size == 256 && k.snode == h.snode && k.dnode == h.dnode
      && k.dpart == h.dpart && k.dctx == h.dctx && k.space == 0 && k.offset == h.offset
      && (k.snode != s.pnode || s.mesh.contains k))

/-- A message's stores are acknowledged, the header first. -/
def State.ackAll (s : State) (h : Packet) (ds : List Packet) : State :=
  (h :: ds).foldl (fun (s : State) k => ((s.take k).uncarry k).performed k 0 false) s

/-- A message's stores are refused. -/
def State.refuseAll (s : State) (h : Packet) (ds : List Packet) : State :=
  (h :: ds).foldl (fun (s : State) k => ((s.take k).uncarry k).refuse k) s

def State.stayAll (s : State) (h : Packet) (ds : List Packet) : State := (h :: ds).foldl (fun (s : State) k => s.stay k) s

def dataOf (ds : List Packet) : Nat := packElems 2048 (ds.map Packet.data)

/-- Whether a collective number has already ended here. -/
def Group.over_ (g : Group) (k : Nat) : Bool := decide ((k + 2 ^ 32 - g.fin) % 2 ^ 32 ≥ 2 ^ 31)

/-- Where a message of an all-gather comes from, for one rank: its node, and its input, which the contributor that its headers name tells
apart (09 R345, R346). -/
def msgSrc (src h : Nat) : Nat := (src * 2 ^ 32 + lhCHUNK h) * 2 ^ 32 + lhWHO h

/-- The key of a message's chunk: an all-gather's messages of one input for one rank come in order. -/
def msgKey (x : Coll) (src h : Nat) : Nat :=
  let sh := lhShape h
  if shOP sh = 2 then lhCHUNK h * shChunks sh + tgetD x.seen (msgSrc src h) 0 else lhCHUNK h

/-- CHUNK_UP: a child's message is taken into its chunk, or passed on by a member in endpoint mode. -/
def execChunkUp (p : Packet) (data : List Packet) (s : State) : Host.Outcome State Fault Refusal :=
  let h := p.data
  .next (if !upOff p || !s.msgOk p data || !s.reaches p [2] then s.dropBad p
    else if s.unnumbered p then (data.foldl State.take (s.take p)).count 0x0413
    else
      match s.blockGroup p with
      | none => s.refuseAll p data
      | some (e, g) =>
        let x := g.coll (lhGSEQ h)
        let key := msgKey x p.snode h
        let inp := p.snode * 2 ^ 32 + lhWHO h + 1
        let kid := (s.childrenAt g p.snode).find? (fun i =>
          decide ((x.ins.filter (fun y => y.1 == key && y.2.inp == i + 1)).length < (g.report i).1))
        let kids := s.childrenAt g p.snode
        let pz := data.any s.carries
        if (g.st ≠ 2 ∧ g.st ≠ 3) || kids.isEmpty || !s.portOk p (!s.isCopy p) then s.refuseAll p data
        else if g.over_ (lhGSEQ h) then s.ackAll p data
        else
          let note := fun (x : Coll) => if shOP (lhShape h) = 2 then
            { x with seen := tput x.seen (msgSrc p.snode h) (tgetD x.seen (msgSrc p.snode h) 0 + 1) } else x
          if g.bypass then
            if !s.roomFor data.length || !s.windowOpen e inp then s.stayAll p data
            else
              let s1 := s.ackAll p data
              (s1.putColl e (note x)).ligSendUp e 3 (lhGSEQ h) key inp h (dataOf data) data.length pz
          else if !s.slotFor e (lhGSEQ h) key then s.stayAll p data
          else
            let i := kid.getD (kids.headD 0)
            ((s.ackAll p data).ligTakeIn e (note x) key { inp := i + 1, hdr := h, data := dataOf data, pz }).ligPump e)

/-- CHUNK_DOWN: a result chunk is written to this device's destinations and sent on where it travels the logical tree. -/
def execChunkDown (p : Packet) (data : List Packet) (s : State) : Host.Outcome State Fault Refusal :=
  let h := p.data
  .next (if !downOff p || !s.msgOk p data || !s.reaches p [2] then s.dropBad p
    else if s.unnumbered p then (data.foldl State.take (s.take p)).count 0x0413
    else
      match s.blockGroup p with
      | none => s.refuseAll p data
      | some (e, g) =>
        let x := g.coll (lhGSEQ h)
        let sh := lhShape h
        let c := (x.downs.filter (fun y => y / shChunks sh == lhCHUNK h)).length
        let key := if shOP sh = 2 then lhCHUNK h * shChunks sh + c else lhCHUNK h
        let y := x.meet sh
        if (g.st ≠ 2 ∧ g.st ≠ 3) || !s.portOk p true then s.refuseAll p data
        else if g.over_ (lhGSEQ h) then s.ackAll p data
        else if !(s.downHeld e g y key).isEmpty then (s.gather (.lig e y.k true) g.p (s.downHeld e g y key)).stayAll p data
        else if !s.roomFor ((data.length + 1) * max 1 (gdNCHILD g.desc)) then s.stayAll p data
        else
          let pz := data.any s.carries
          let v := dataOf data
          let s1 := s.ackAll p data
          let s2 := if s.ligTreeDown g sh then s1 else s1.ligDownChildren e y key h v (g.downRange sh key).1 pz
          (s2.ligDown e (lhGSEQ h) key h v pz).ligPump e)

/-! Stalls (09 R352). -/

/-- STALL in ticks. -/
def State.stallTicks (s : State) (g : Group) : Nat := if gdSTALL g.desc = 0 then s.tmo g.p else usTicks (gdSTALL g.desc)

def State.stallEvent (s : State) (g : Group) (gseq node chunk : Nat) : State :=
  let s1 := s.count cLIGSTALL
  let ev := s1.event cLIGSTALL 5 0 0 (g.gid + gseq * 2 ^ 32) node chunk
  s1.logEvent { ev with lnode := node, part := g.p, ctx := g.s, pv := true }

/-- LIG_STALL: an input (0 this device's or the parent's, 1 + i child i's) is overdue; counted once for a collective or an
opening. -/
def execLigStall (entry input : BitVec 8) (s : State) : Host.Outcome State Fault Refusal :=
  let e := entry.toNat
  let i := input.toNat
  let g := s.grp e
  let child := decide (1 ≤ i) && decide (i ≤ gdNCHILD g.desc)
  .next (if s.plat.power ≠ .running then s
    else if g.st = 1 then
      let waits := if i = 0 then g.told && !gdROOT g.desc else child && !g.reports.any (fun r => r.1 == i - 1)
      if !waits || g.stalled then s
      else
        let s1 := s.reach (g.since + s.stallTicks g)
        (s1.setGrp e { g with stalled := true }).stallEvent g 0
          (if i = 0 then gdPARENT g.desc else gdCHILD g.desc (i - 1)) (2 ^ 64 - 1)
    else
      let lacks := fun (x : Coll) (key : Nat) => !g.whole x key &&
        (if i = 0 then !(gdOwn g.desc).isEmpty && !x.ins.any (fun y => y.1 == key && y.2.inp == 0)
         else child && decide ((x.ins.filter (fun y => y.1 == key && y.2.inp == i)).length < (g.report (i - 1)).1))
      match g.colls.findSome? (fun x => (x.ins.find? (fun y => !x.stalled && lacks x y.1)).map (fun y => (x, y.1, y.2.at_))) with
      | none => s
      | some (x, key, since) =>
        let s1 := s.reach (since + s.stallTicks g)
        (s1.putColl e { x with stalled := true }).stallEvent g x.k
          (if i = 0 then (s.ctx g.p g.s).lnode else gdCHILD g.desc (i - 1)) key)

end Sys2Proof.Machine
end

