-- ==== Sys2Proof/Machine/Context.lean ====
section
/-! DEFINITION. How a host command starts (11 R406), and contexts: LAUNCH, the CTX commands, saves and restores
(10 R371-R384, 11 R405-R407, 09 R355). -/

namespace Sys2Proof.Machine

def cCMDABORTED : Nat := 0x0601
def cCMDRULED : Nat := 0x0605
def cCMDNOSAVE : Nat := 0x0607

/-! When a command starts. -/

/-- A HOLD launch that waits for its JOBSTART stays ACCEPTED until its release (11 R413). -/
def State.heldLaunch (s : State) (d : Cmd) : Bool :=
  d.op == 1 && d.st == 0 && (s.ctx d.f d.ctxNo).launchSeq == some d.seq

/-- Commands of the same ring accepted earlier. -/
def State.earlier (s : State) (c : Cmd) : List Cmd :=
  s.cmds.filter (fun d => d.f == c.f && d.r == c.r && decide (d.seq < c.seq))

/-- A running CHECKPOINT or RESTORE holds commands that would change its context (12 R438; log 30). -/
def State.ckptHolds (s : State) (c : Cmd) : Bool :=
  match (s.part c.f).ckpt with
  | none => false
  | some k => k.s == c.ctxNo &&
      (c.op == 1 || c.op == 7 || (decide (0x18 ≤ c.op) && decide (c.op ≤ 0x1D))
        || ((c.op == 2 || c.op == 3) && bits c.body 254 2 == 1))

/-- Whether a command may start: every earlier command of its ring has started and none of them is an unfinished FENCE;
with BARRIER every one is finished (11 R404-R406; log 31). -/
def State.mayStart (s : State) (c : Cmd) : Bool :=
  s.plat.power == .running
    && (s.earlier c).all (fun d => (d.st != 0 || s.heldLaunch d) && (d.op != 6 || d.final) && (!c.barrier || d.final))
    && !s.ckptHolds c

/-- Whether the partition's state lets a command run (10 R370, 11 R406): none, it waits. -/
def State.admits (s : State) (c : Cmd) : Option Bool :=
  let part := s.part c.f
  if c.op = 0x10 then some true
  else match part.st with
    | .free => some (c.op == 0x30)
    | .creating => none
    | .active => some true
    | .draining => some (c.op == 0x30 || (match part.cmdSeq with
        | some q => decide (c.seq < q)
        | none => false))
    | .aborting => some (c.op == 0x30)

/-- A host command starts: where it may not yet, nothing happens (log 2). -/
def State.start (s : State) (seq : W64) (op : Nat) (run : Cmd → State → State) : State :=
  match s.cmd seq.toNat with
  | none => s
  | some c =>
    if c.op ≠ op || c.st ≠ 0 || s.heldLaunch c || !s.mayStart c then s
    else match s.admits c with
      | none => s
      | some false => s.stateCmd c.seq
      | some true => run c s

/-! Reserved DRAM (07 R263, 10 R368, R378, R379; log 32). -/

def oDrmRsv : Nat := 0x00C00008

/-- Bytes of one cluster's record and core images (10 R378). -/
def areaCluster : Nat := 4096 + 20185088

/-- Journal, watched lines, notice queue and Inkwell metadata (11 R400, R412, 08 R321, 07 R252). -/
def rsvFixed : Nat := 2 ^ 24 + 2 ^ 18 + 2 ^ 19 + 4096 * inkMetaSize

/-- A logical node table (10 R368). -/
def lntBytes : Nat := 2 ^ 19

/-- Bytes in quad q of n save areas, with or without the node table, of a partition with these clusters and quads. -/
def bandUse (clus quads : List Nat) (n : Nat) (lnt : Bool) (q : Nat) : Nat :=
  n * ((clus.filter (fun k => quadOf k == q)).length * areaCluster + (if clus.head?.map quadOf = some q then 4096 else 0))
    + (if lnt && quads.head? == some q then lntBytes else 0)

def State.areas (s : State) (p : Nat) : Nat := (slots8.filter (fun c => (s.ctx p c).st != .free)).length

/-- Bytes of quad q that partitions have reserved. -/
def State.rsvUse (s : State) (q : Nat) : Nat :=
  listSum ((List.range 16).map (fun p =>
    let x := s.part p
    if x.st = .free then 0 else bandUse x.clus x.quads (s.areas p) true q))

/-- Whether reserved DRAM has room for more. -/
def State.rsvRoom (s : State) (need : Nat → Nat) : Bool :=
  let rsv := bits (s.rg oDrmRsv) 0 38
  let qs := List.range 16
  if s.quadLayout then qs.all (fun q => need q == 0 || decide (s.rsvUse q + need q + rsvFixed / 16 ≤ rsv / 16))
  else decide (listSum (qs.map s.rsvUse) + listSum (qs.map need) + rsvFixed ≤ rsv)

/-! Images (10 R375, R377). -/

/-- Key of the first core of a context. -/
def ctxBase (p c : Nat) : Nat := (p * 8 + c) * 4096

/-- A context's cores replaced by a function of their numbers (logical cluster, core). -/
def State.fillCores (s : State) (p c n : Nat) (f : Nat → Nat → CoreSt) : State :=
  let b := ctxBase p c
  let new := (List.range (64 * n)).map (fun i => (b + i, f (i / 64) (i % 64)))
  { s with cores := s.cores.filter (fun e => decide (e.1 < b)) ++ new
      ++ s.cores.filter (fun e => decide (b + 4096 ≤ e.1)) }

/-- An image of zeros with empty glyph slots, detached arrays and SW_BATWAIT at its reset value (10 R375). -/
def State.zeroImage (s : State) (p c : Nat) : State :=
  let s1 : State := { s with
    cores := s.cores.filter (fun e => !inCtx p c e.1)
    duc := s.duc.map (fun e =>
      if (s.part p).clus.contains e.1 then
        (e.1, { e.2 with q := (e.2.q.map (fun x => (x.1, x.2.filter (fun o => !(o.loc.p == p && o.loc.s == c))))).filter (fun x => !x.2.isEmpty)
                         loads := e.2.loads.filter (fun g => !(g.p == p && g.s == c)) })
      else e) }
  (s1.freshImages p c).setCtx p c { s1.ctx p c with gates := [], seq8 := [], seq9 := [] }

/-- The generation floor of a context on every engine (10 R375). -/
def State.floorReset (s : State) (p c : Nat) : State :=
  { s with duc := s.duc.map (fun e =>
    if (s.part p).clus.contains e.1 then (e.1, { e.2 with floor := tdel e.2.floor c }) else e) }

/-! CTX commands (10 R375). -/

def Cmd.prio (c : Cmd) : Nat := bits c.body 72 2

/-- CTX_CREATE. -/
def execCtxCreate (seq : BitVec 64) (s : State) : Host.Outcome State Fault Refusal :=
  .next (s.start seq 0x18 (fun c s =>
    let p := c.f
    let x := c.ctxNo
    let part := s.part p
    if (s.ctx p x).st ≠ .free then s.stateCmd c.seq
    else if !s.rsvRoom (bandUse part.clus part.quads 1 false) then s.doneCmd c.seq cCMDNOSAVE 0
    else
      let s1 : State := (s.setCtx p x { st := .idle, prio := c.prio }).zeroImage p x
      ((s1.floorReset p x).setCnt (oSaves p x) 0).doneCmd c.seq 0 0))

/-- CTX_PRIO. -/
def execCtxPrio (seq : BitVec 64) (s : State) : Host.Outcome State Fault Refusal :=
  .next (s.start seq 0x19 (fun c s =>
    let x := s.ctx c.f c.ctxNo
    if x.st = .free then s.stateCmd c.seq
    else ((s.setCtx c.f c.ctxNo { x with prio := c.prio }).doneCmd c.seq 0 0).settle c.f))

/-- A context to be paused begins its save once its restore is over (10 R392). -/
def State.pauseSave (s : State) (p c : Nat) : State :=
  if (s.ctx p c).st = .running && (s.ctx p c).pausing && s.restored p c then s.startSave p c else s

/-- CTX_PAUSE: through SAVING when resident; of a context in SAVING only where it is saved for preemption (10 R375, R392). -/
def execCtxPause (seq : BitVec 64) (s : State) : Host.Outcome State Fault Refusal :=
  .next (s.start seq 0x1A (fun c s =>
    let p := c.f
    let x := s.ctx p c.ctxNo
    match x.st with
    | .ready => ((s.setCtx p c.ctxNo { x with st := .paused }).doneCmd c.seq 0 0).settle p
    | .running | .restoring => ((s.setCtx p c.ctxNo { x with pausing := true }).startCmd c).pauseSave p c.ctxNo
    | .saving => if x.pausing then s.stateCmd c.seq else (s.setCtx p c.ctxNo { x with pausing := true }).startCmd c
    | _ => s.stateCmd c.seq))

/-- CTX_RESUME. -/
def execCtxResume (seq : BitVec 64) (s : State) : Host.Outcome State Fault Refusal :=
  .next (s.start seq 0x1B (fun c s =>
    let x := s.ctx c.f c.ctxNo
    if x.st ≠ .paused then s.stateCmd c.seq
    else ((s.setCtx c.f c.ctxNo { x with st := .ready }).doneCmd c.seq 0 0).settle c.f))

/-- States in which CTX_RESET and CTX_DESTROY are allowed. -/
def CtxState.atRest (x : CtxState) : Bool := x == .idle || x == .paused || x == .stopped

/-- CTX_RESET; the LAUNCH of a PAUSED context ends with CMD_ABORTED (log 33). -/
def execCtxReset (seq : BitVec 64) (s : State) : Host.Outcome State Fault Refusal :=
  .next (s.start seq 0x1C (fun c s =>
    let p := c.f
    let n := c.ctxNo
    if !(s.ctx p n).st.atRest then s.stateCmd c.seq
    else
      let s1 : State := (s.endLaunch p n cCMDABORTED).zeroImage p n
      ((s1.setCtx p n { s1.ctx p n with st := .idle, stopcode := 0 }).doneCmd c.seq 0 0).settle p))

/-- CTX_DESTROY. -/
def execCtxDestroy (seq : BitVec 64) (s : State) : Host.Outcome State Fault Refusal :=
  .next (s.start seq 0x1D (fun c s =>
    let p := c.f
    let n := c.ctxNo
    if !(s.ctx p n).st.atRest then s.stateCmd c.seq
    else
      let s1 : State := (s.endLaunch p n cCMDABORTED).zeroImage p n
      ((s1.setCtx p n {}).doneCmd c.seq 0 0).settle p))

/-! LAUNCH (11 R405, R407). -/

def Cmd.hold (c : Cmd) : Bool := bit c.body 67
def Cmd.sched (c : Cmd) : Nat := c.at_ 48 8

/-- The core state with which a LAUNCH leaves a core (10 R372, R374). -/
def CoreSt.launched (c : CoreSt) (pc : Nat) (sel : Bool) : CoreSt :=
  { c with pc, inh := false, asyncB := false, more := 0, seq0 := 0, seq1 := 0, seq2 := 0, stall := none
           run := if sel then .running else .ended }

/-- The context's cores, stream numbers and header at a LAUNCH. -/
def State.launchCtx (s : State) (c : Cmd) (rperiod : Nat) : State :=
  let p := c.f
  let n := c.ctxNo
  let cl := c.at_ 24 8
  let co := c.at_ 32 8
  let pc := bits (c.at_ 40 4) 0 18
  let s1 : State := s.fillCores p n (s.nclu p) (fun l k => (s.core ⟨p, n, l, k⟩).launched pc (bit cl l && bit co k))
  let x := s1.ctx p n
  s1.setCtx p n { x with
    st := if c.hold then .held else .ready
    rtb := false
    rperiod
    seed := w64 (c.at_ 16 8)
    lnode := s1.ownNode p n
    launchSeq := some c.seq
    holdJob := if c.hold then some (c.at_ 12 2, c.at_ 14 2) else none
    startAt := 0
    pausing := false
    firstStart := true
    quantumOut := false
    started := []
    seq8 := []
    seq9 := [] }

/-- The launch goes on: HELD, or READY at a decision point (11 R406, R413). -/
def State.launchGo (s : State) (c : Cmd) (rperiod : Nat) : State :=
  let s1 : State := s.launchCtx c rperiod
  if c.hold then s1 else (s1.startCmd c).decision c.f

/-! The Ruled schedule block (11 R407). -/

def sbNQUAD (b : Nat) : Nat := bits b 0 16
def sbNNODE (b : Nat) : Nat := bits b 16 16
def sbNSLOT (b : Nat) : Nat := bits b 32 32
def sbRPERIOD (b : Nat) : Nat := bits b 64 64
def sbRefresh (b i : Nat) : Nat := bits b (128 + 32 * i) 32
def sbNode (b i : Nat) : Nat := bits b (640 + 16 * i) 16
def sbSlotAt (b : Nat) : Nat := roundUp (80 + 2 * sbNNODE b) 8
def sbSlot (b i : Nat) : Nat := bits b (8 * sbSlotAt b + 32 * i) 32
def sbLen (b : Nat) : Nat := sbSlotAt b + 4 * sbNSLOT b

/-- Whether a cluster router has a link in direction l: the edges of the mesh have none (10 R388). -/
def linkExists (n l : Nat) : Bool :=
  match l with
  | 0 => n % 8 != 7
  | 1 => n % 8 != 0
  | 2 => n / 8 != 7
  | _ => n / 8 != 0

/-- The key in the slot table of a slot-list entry of a partition, none where its quad index names no quad. -/
def State.slotKey (s : State) (p e : Nat) : Option Nat :=
  ((s.part p).clus[4 * bits e 0 4 + bits e 4 2]?).map (fun n => (4 * n + bits e 6 2) * 1024 + bits e 8 10)

/-- A slot entry that check 4 refuses: owned by another partition, never owned, or in no quad of the partition (log 34). -/
def State.slotBad (s : State) (p e : Nat) : Bool :=
  match s.slotKey p e with
  | none => true
  | some k =>
    let o := (tgetD s.mslot k 0).toNat
    bits e 8 10 % 8 == 7 || (bit o 4 && o % 16 != p)

def sbPeriodBad (b i : Nat) : Bool :=
  let q := bits (sbRefresh b i) 0 16
  decide (q > 2047) || (q != 0 && sbRPERIOD b % q != 0)

/-- The first check that a block fails, from check 2 on. -/
def State.schedCheck (s : State) (p b : Nat) : Option Nat :=
  if sbNQUAD b ≠ (s.part p).quads.length then some 2
  else if (List.range (sbNNODE b)).any (fun i => !lnDcv (s.lnt p (sbNode b i))) then some 3
  else if (List.range (sbNSLOT b)).any (fun i => s.slotBad p (sbSlot b i)) then some 4
  else if (List.range 16).any (sbPeriodBad b) || sbRPERIOD b % 512 != 0 || (sbNNODE b != 0 && sbRPERIOD b % 1377 != 0) then
    some 5
  else none

/-- DRM_RREF and the mesh slots loaded (07 R268, 10 R388). -/
def State.schedLoad (s : State) (p b : Nat) : State :=
  let qs := (s.part p).quads
  let s1 : State := (qs.zip (List.range qs.length)).foldl (fun (s : State) x =>
    s.setRg (0x00C00100 + 8 * x.1) (sbRefresh b x.2 % 2 ^ 27)) s
  { s1 with mslot := (List.range (sbNSLOT b)).foldl (fun t i =>
    match s1.slotKey p (sbSlot b i) with
    | some k => if linkExists (k / 4096) (k / 1024 % 4) then tput t k (BitVec.ofNat 16 (16 + p)) else t
    | none => t) s1.mslot }

/-- What a Ruled LAUNCH reads of its block: the block, or the code that ends the LAUNCH; lines that the host holds come back
first, and a block outside the device is fetched (log 13, 34). -/
def State.schedRead (s : State) (c : Cmd) : Option (Nat ⊕ Nat) :=
  let p := c.f
  let a := c.sched
  let w := Who.cmd c.seq
  if (s.tblBad p a 0 80 false).isSome then some (.inr cFABPERM)
  else if (s.tblLost w p a 0 80).isSome then some (.inr (((s.tblLost w p a 0 80).map Prod.fst).getD 0))
  else if !(s.tblHeld w p a 0 80 false).isEmpty then none
  else
    let h := s.tblRead w p c.ctxNo a 0 80
    let n := roundUp (sbLen h) 8
    if (s.tblBad p a 0 n false).isSome then some (.inr cFABPERM)
    else if (s.tblLost w p a 0 n).isSome then some (.inr (((s.tblLost w p a 0 n).map Prod.fst).getD 0))
    else if !(s.tblHeld w p a 0 n false).isEmpty then none
    else if s.tblPoison w p c.ctxNo a 0 n then some (.inr cPOISON)
    else some (.inl (s.tblRead w p c.ctxNo a 0 n))

/-- What the reading of a block still lacks: of its header, then of all of it. -/
def State.schedHeld (s : State) (c : Cmd) : List Need :=
  let w := Who.cmd c.seq
  match s.tblHeld w c.f c.sched 0 80 false with
  | [] => s.tblHeld w c.f c.sched 0 (roundUp (sbLen (s.tblRead w c.f c.ctxNo c.sched 0 80)) 8) false
  | xs => xs

/-- LAUNCH. -/
def execLaunch (seq : BitVec 64) (s : State) : Host.Outcome State Fault Refusal :=
  .next (s.start seq 1 (fun c s =>
    let p := c.f
    let ruled := (s.part p).ruled
    if (s.ctx p c.ctxNo).st ≠ .idle then s.stateCmd c.seq
    else if (c.sched == 0) == ruled then s.doneCmd c.seq cCMDRULED 1
    else if !ruled then s.launchGo c 0
    else match s.schedRead c with
      | none => s.gather (.cmd c.seq) p (s.schedHeld c)
      | some (.inr code) => (s.tblEnd (.cmd c.seq)).doneCmd c.seq code 0
      | some (.inl b) =>
        match s.schedCheck p b with
        | some k => (s.tblEnd (.cmd c.seq)).doneCmd c.seq cCMDRULED k
        | none => ((s.tblEnd (.cmd c.seq)).schedLoad p b).launchGo c (sbRPERIOD b)))

/-! Held launches (09 R355-R357). -/

def cLIGJSSTALE : Nat := 0x0520
def cLIGJSNOLAUNCH : Nat := 0x0521

/-- A launch held for a job start is released: its journal entry becomes RUNNING and the context READY; not in ABORTING (10 R385). -/
def State.release (s : State) (p n : Nat) : State :=
  let x := s.ctx p n
  match x.launchSeq.bind s.cmd with
  | none => s
  | some c =>
    if (s.part p).st = .aborting then s
    else ((s.setCtx p n { x with st := .ready, holdJob := none }).startCmd c).decision p

/-- The held context of a partition for a job and epoch, lowest slot first. -/
def State.heldFor (s : State) (p job je : Nat) : Option Nat :=
  slots8.find? (fun n => let x := s.ctx p n; x.st == .held && x.holdJob == some (job, je))

/-- JOBSTART on one partition of the job (09 R355): the status. -/
def State.jobPart (s : State) (p job je start : Nat) : State × Nat :=
  if tgetD s.jsRec p 0 = w64 (job + 2 ^ 16 * je + 2 ^ 32) then (s, 0)
  else if decide (32768 ≤ (je + 2 ^ 16 - s.jepoch p) % 2 ^ 16) || s.torn p then (s, cLIGJSSTALE)
  else
    match s.heldFor p job je with
    | none => (s, cLIGJSNOLAUNCH)
    | some n =>
      let s1 : State := { s with jsRec := tput s.jsRec p (w64 (job + 2 ^ 16 * je + 2 ^ 32)) }
      let late := start != 0 && decide (start < s.now)
      let x := s1.ctx p n
      if start = 0 ∨ start ≤ s.now then
        let broken := late && (s.part p).ruled
        let s2 : State := s1.setCtx p n { x with rtb := x.rtb || broken }
        ((if broken then s2.throttled 0 0 [] else s2).release p n, 0)
      else (s1.setCtx p n { x with holdJob := none, startAt := start }, 0)

/-- JOBSTART at a device (09 R355): the status of the lowest partition that gives one; a status is counted (09 R358). -/
def State.jobStart (s : State) (job je start : Nat) : State × Nat :=
  let ps := (List.range 16).filter (fun p => (s.part p).st != .free && s.job p == job)
  if ps.isEmpty then (s.count cLIGJSNOLAUNCH, cLIGJSNOLAUNCH)
  else ps.foldl (fun (r : State × Nat) p =>
    let t := r.1.jobPart p job je start
    (if t.2 = 0 then t.1 else t.1.count t.2, if r.2 = 0 then t.2 else r.2)) (s, 0)

/-- HELD_LAUNCH_RELEASE: the START of a recorded job start has come. -/
def execHeldLaunchRelease (p : BitVec 4) (c : BitVec 3) (s : State) : Host.Outcome State Fault Refusal :=
  let x := s.ctx p.toNat c.toNat
  .next (if s.plat.power ≠ .running || x.st ≠ .held || x.startAt = 0 then s
    else (s.reach x.startAt).release p.toNat c.toNat)

/-! Saves, restores and the quantum (10 R375, R381, R382). -/

/-- QUANTUM_EXPIRY. -/
def execQuantumExpiry (p : BitVec 4) (s : State) : Host.Outcome State Fault Refusal :=
  let n := p.toNat
  .next (match (s.part n).resident with
    | none => s
    | some c =>
      let x := s.ctx n c
      if s.plat.power ≠ .running || x.st ≠ .running || x.quantumOut then s
      else
        let s1 : State := s.reach (x.runTick + s.quantum n)
        (s1.setCtx n c { x with quantumOut := true }).decision n)

/-- SAVE_COMPLETE: READY, PAUSED after CTX_PAUSE, STOPPED after a core stop (10 R372, R391, R392). -/
def execSaveComplete (p : BitVec 4) (s : State) : Host.Outcome State Fault Refusal :=
  let n := p.toNat
  .next (match (s.part n).resident with
    | none => s
    | some c =>
      let x := s.ctx n c
      if s.plat.power ≠ .running || x.st ≠ .saving then s
      else
        let s1 : State := (s.countAt (oSaves n c) 0 1).unseat n
        let y := s1.ctx n c
        if y.stopcode ≠ 0 then
          (((s1.setCtx n c { y with st := .stopped, started := [] }).endLaunch n c y.stopcode).endPauses n c 0x0604).settle n
        else
          let s2 : State := s1.setCtx n c { y with st := if y.pausing then .paused else .ready, started := [] }
          (s2.endPauses n c 0).settle n)

/-- What follows a core's start: the end of a run that has none left, a pause, a decision point. -/
def State.afterStart (s : State) (p c : Nat) : State :=
  let s1 : State := s.pauseSave p c
  if (s1.ctx p c).st = .saving then s1 else (s1.contextEnd p c).decision p

/-- Whether a core's wave is being read: every core of a lower number is in (10 R382). -/
def State.waveReached (s : State) (p c core : Nat) : Bool :=
  core == 0 || (List.range (s.nclu p)).all (fun l => (s.ctx p c).startedAt l (core - 1))

/-- CORE_RESTORE_START: a Freehand core starts with its image; the images come in waves, core 0 of every cluster first (10 R382). -/
def execCoreRestoreStart (p : BitVec 4) (lclu core : BitVec 6) (s : State) : Host.Outcome State Fault Refusal :=
  let n := p.toNat
  .next (match (s.part n).resident with
    | none => s
    | some c =>
      let x := s.ctx n c
      if s.plat.power ≠ .running || (s.part n).ruled || !(x.st == .restoring || x.st == .running)
        || x.startedAt lclu.toNat core.toNat || decide (lclu.toNat ≥ s.nclu n) || !s.waveReached n c core.toNat then s
      else
        let s1 : State := s.setCtx n c { x with
          st := .running
          runTick := if x.st = .restoring then s.now else x.runTick
          firstStart := false
          started := (64 * lclu.toNat + core.toNat) :: x.started }
        s1.afterStart n c)

/-- The tick at which a Ruled context starts: at least 1 µs later, aligned to RPERIOD from 0, or from the tick at which
its save began (10 R382). -/
def Ctx.startTick (x : Ctx) (now : Nat) : Nat :=
  let base := if x.firstStart then 0 else x.saveTick
  if x.rperiod = 0 then now + 1050 else base + roundUp (now + 1050 - base) x.rperiod

/-- RULED_START_TICK: every core starts together. -/
def execRuledStartTick (p : BitVec 4) (s : State) : Host.Outcome State Fault Refusal :=
  let n := p.toNat
  .next (match (s.part n).resident with
    | none => s
    | some c =>
      let x := s.ctx n c
      if s.plat.power ≠ .running || !(s.part n).ruled || x.st ≠ .restoring then s
      else
        let t := x.startTick s.now
        let s1 : State := s.reach t
        let all_ := List.range (64 * s.nclu n)
        (s1.setCtx n c { x with st := .running, runTick := t, firstStart := false, started := all_ }).afterStart n c)

end Sys2Proof.Machine
end

