-- ==== Sys2Proof/Machine/Partitions.lean ====
section
/-! DEFINITION. Partitions (10 R363-R370, R385): PART_CREATE with its checks, the set-up, PART_DISABLE, the end of a drain,
and the clean-up. -/

namespace Sys2Proof.Machine

/-! The partition descriptor (10 R367), as the number in bytes 16-47 of the record. -/

def pdPART (d : Nat) : Nat := bits d 0 4
def pdRuled (d : Nat) : Bool := bit d 4
def pdQUADS (d : Nat) : Nat := bits d 16 16
def pdSHARE (d : Nat) : Nat := bits d 32 27
def pdCLUMASK (d : Nat) : Nat := bits d 64 64
def pdQUANTUM (d : Nat) : Nat := bits d 128 32
def pdDRAIN (d : Nat) : Nat := bits d 160 32

def pdTimeBad (v : Nat) : Bool := v != 0 && (decide (v < 100) || decide (v > 1000000))

/-- Reason 2: a reserved field that is not zero or a field outside its range. -/
def pdFieldBad (d : Nat) : Bool :=
  bits d 5 11 != 0 || bits d 59 5 != 0 || bits d 192 64 != 0 || pdTimeBad (pdQUANTUM d) || pdTimeBad (pdDRAIN d)
    || (if pdRuled d then pdSHARE d != 0 || pdCLUMASK d != 0 else pdQUADS d != 0 || pdSHARE d == 0)

def bitList (v n : Nat) : List Nat := (List.range n).filter (bit v)

/-- Physical clusters in logical order (10 R365). -/
def pdClus (d : Nat) : List Nat :=
  if pdRuled d then ((bitList (pdQUADS d) 16).map quadClus).flatten else bitList (pdCLUMASK d) 64

def dedup (l : List Nat) : List Nat := (l.foldl addOnce []).reverse

/-- Physical quads by quad index: in ascending order of their lowest logical cluster (02 R65, 10 R365). -/
def pdQuads (d : Nat) : List Nat := dedup ((pdClus d).map quadOf)

/-! Room (10 R366). -/

/-- DPA granules outside reserved DRAM, as ranges (07 R263). -/
def State.openDpa (s : State) : List (Nat × Nat) :=
  let rsv := bits (s.rg oDrmRsv) 0 38 / granSize
  if s.quadLayout then (List.range 16).map (fun q => (q * quadGrans, quadGrans - rsv / 16))
  else [(0, 16 * quadGrans - rsv)]

/-- A range without the granules of another. -/
def cutRange (r x : Nat × Nat) : List (Nat × Nat) :=
  if x.1 + x.2 ≤ r.1 ∨ r.1 + r.2 ≤ x.1 then [r]
  else [(r.1, x.1 - r.1), (x.1 + x.2, r.1 + r.2 - (x.1 + x.2))].filter (fun e => e.2 != 0)

def cutRanges (rs xs : List (Nat × Nat)) : List (Nat × Nat) := xs.foldl (fun rs x => (rs.map (fun r => cutRange r x)).flatten) rs

/-- DPA held by partitions: their shares, and the whole quads of Ruled ones. -/
def State.heldDpa (s : State) : List (Nat × Nat) :=
  ((List.range 16).map (fun p =>
    let x := s.part p
    if x.st = .free then [] else if x.ruled then x.quads.map (fun q => (q * quadGrans, quadGrans)) else x.dpa)).flatten

def sizeOf_ (rs : List (Nat × Nat)) : Nat := listSum (rs.map Prod.snd)

/-- The first n granules of some ranges. -/
def takeGrans : Nat → List (Nat × Nat) → List (Nat × Nat)
  | _, [] => []
  | n, r :: rs => if n = 0 then [] else if r.2 ≥ n then [(r.1, n)] else r :: takeGrans (n - r.2) rs

/-- The share that a creation is granted, none where DRAM is short. -/
def State.grantDpa (s : State) (d : Nat) : Option (List (Nat × Nat)) :=
  let free := cutRanges s.openDpa s.heldDpa
  if pdRuled d then
    let mine := (s.openDpa.zip (List.range 16)).filterMap (fun e => if (pdQuads d).contains e.2 then some e.1 else none)
    if sizeOf_ (cutRanges mine s.heldDpa) = sizeOf_ mine then some mine else none
  else if pdSHARE d ≤ sizeOf_ free then some (takeGrans (pdSHARE d) free) else none

/-! Creating (10 R368, R369). -/

/-- Reason 3 (10 R364, R368). -/
def State.clustersBad (s : State) (d : Nat) : Bool :=
  let cs := pdClus d
  cs.isEmpty || cs.any (fun n => (s.holder n).isSome)
    || (List.range 16).any (fun p =>
      let x := s.part p
      x.st != .free && x.ruled && (pdQuads d).any x.quads.contains)

/-- The first reason that refuses a PART_CREATE. -/
def State.createReason (s : State) (p d : Nat) : Nat :=
  if (s.part p).st ≠ .free then 1
  else if pdFieldBad d then 2
  else if s.clustersBad d then 3
  else if pdRuled d && !s.quadLayout then 4
  else if (s.grantDpa d).isNone then 5
  else if !s.rsvRoom (bandUse (pdClus d) (pdQuads d) 0 true) then 6
  else 0

/-- PART_CREATE. -/
def execPartCreate (seq : BitVec 64) (s : State) : Host.Outcome State Fault Refusal :=
  .next (s.start seq 0x10 (fun c s =>
    let p := c.f
    let d := c.at_ 16 32
    let x := s.part p
    let r := s.createReason p d
    if r ≠ 0 then (s.setPart p { x with reason := r, err := true }).doneCmd c.seq 0x0608 r
    else
      (s.setPart p { reason := x.reason, err := x.err, st := .creating, ruled := pdRuled d, clus := pdClus d, quads := pdQuads d
                     share := sizeOf_ ((s.grantDpa d).getD []), dpa := (s.grantDpa d).getD [], cmdSeq := some c.seq
                     clk := (pdClus d).map (fun n => (n, s.plat.fdivOf n)), nclk := s.plat.ndiv }).startCmd c))

/-- Whether granules of a share are still being cleared (10 R366). -/
def State.clearingMeets (s : State) (rs : List (Nat × Nat)) : Bool := decide (sizeOf_ (cutRanges rs s.clearing) ≠ sizeOf_ rs)

/-- The set-up of an accepted creation (10 R369). -/
def State.setUp (s : State) (p d : Nat) : State :=
  let x := s.part p
  let time := (if pdQUANTUM d = 0 then 2000 else pdQUANTUM d) + (if pdDRAIN d = 0 then 5000 else pdDRAIN d) * 2 ^ 32
  let s1 : State := { s with
    cores := s.cores.filter (fun e => e.1 / 32768 != p)
    cstore := x.clus.foldl (fun m n => mclear m (n * 2 * granSize) (2 * granSize)) s.cstore
    cstorePoison := s.cstorePoison.filter (fun l => !x.clus.contains (l / 16384))
    pools := tdelRange s.pools (32 * p) 32
    tm := s.tm.map (fun e => (e.1, { e.2 with glyph := tdelRange e.2.glyph (4 * p) 4 }))
    jsRec := tdel s.jsRec p
    reg := tdel (tdel s.reg (oPartCfg p)) (oPartTmo p) }
  (s1.setRg (oPartTime p) time).setPart p { x with st := .active, cmdSeq := none, lnt := [], ctxs := [] }

/-- PART_CREATE_DONE: the set-up is complete and the partition ACTIVE, its clusters' domains ON (13 R467). -/
def execPartCreateDone (p : BitVec 4) (s : State) : Host.Outcome State Fault Refusal :=
  let n := p.toNat
  let x := s.part n
  .next (if s.plat.power ≠ .running || x.st ≠ .creating || s.clearingMeets x.dpa || x.clus.any (fun n => !s.plat.domOn n) then s
    else match x.cmdSeq.bind s.cmd with
      | none => s
      | some c => (s.setUp n (c.at_ 16 32)).doneCmd c.seq 0 0)

/-- DRAM that was to be cleared reads zero, and partitions may be granted it (10 R366). -/
def State.dramCleared (s : State) : State :=
  { s with
    dram := s.clearing.foldl (fun m r => mclear m (r.1 * granSize) (r.2 * granSize)) s.dram
    dramPoison := s.dramPoison.filter (fun l => !s.clearing.any (fun r => decide (r.1 ≤ l / 8192) && decide (l / 8192 < r.1 + r.2)))
    upsets := s.upsetsIn (fun x => match x with
      | .dram w => !s.clearing.any (fun r => decide (r.1 ≤ w / 65536) && decide (w / 65536 < r.1 + r.2))
      | _ => true)
    clearing := [] }

/-- DRAM_CLEAR_DONE: released DRAM reads zero (10 R366). -/
def execDramClearDone (s : State) : Host.Outcome State Fault Refusal :=
  .next (if s.plat.power ≠ .running then s else s.dramCleared)

/-! Disabling (10 R385). -/

/-- PART_DISABLE: the partition drains; DRAIN_LIMIT counts from the acceptance. -/
def execPartDisable (seq : BitVec 64) (s : State) : Host.Outcome State Fault Refusal :=
  .next (s.start seq 0x11 (fun c s =>
    let p := c.f
    ((s.setPart p { s.part p with st := .draining, cmdSeq := some c.seq, drainTick := c.accept + s.drainLimit p }).startCmd
      c).settle p))

/-- A save or restore under way completes before the drain limit acts (10 R392). -/
def State.copying (s : State) (p : Nat) : Bool :=
  match (s.part p).resident with
  | some c => (s.ctx p c).st != .running || !s.restored p c
  | none => false

/-- DRAIN_LIMIT_EXPIRY. -/
def execDrainLimitExpiry (p : BitVec 4) (s : State) : Host.Outcome State Fault Refusal :=
  let n := p.toNat
  .next (if s.plat.power ≠ .running || (s.part n).st ≠ .draining || s.copying n then s
    else (s.reach (s.part n).drainTick).abortPart n)

/-- Step 6: RECLAIM then DISABLE on each pool, and the requesters of the partition cleared. -/
def State.dropPools (s : State) (p : Nat) : State :=
  let s1 : State := (List.range 23).foldl (fun (s : State) c =>
    if (s.pool (poolKey p c)).st = .disabled then s
    else ((s.poolReclaim p c).poolReclaimDone p c).poolDisable p c) s
  { s1 with reqs := s1.reqs.filter (fun e => e.2.part != p) }

/-- Lines of a function the host may hold. -/
def State.heldBy (s : State) (p : Nat) : List Nat := (s.sf.filter (fun e => e.f == p)).map SfEnt.line

/-- Step 7: contexts, objects, share, clusters, quads and mesh slots released, and the clusters' domains OFF (13 R467). -/
def State.releasePart (s : State) (p : Nat) : State :=
  let x := s.part p
  let s1 : State := if x.ruled then { s with reg := x.quads.foldl (fun t q => tdel t (0x00C00100 + 8 * q)) s.reg } else s
  ({ s1 with
    cores := s1.cores.filter (fun e => e.1 / 32768 != p)
    duc := s1.duc.filter (fun e => !x.clus.contains e.1)
    clearing := s1.clearing ++ x.dpa
    plat := s1.plat.domsOff x.clus
    mslot := s1.mslot.filter (fun e => !(e.2.toNat == 16 + p)) } : State).setPart p { reason := x.reason, err := x.err }

/-- PART_ABORT_DONE: steps 6 to 8; lines that the host holds are recalled first (11 R397), and descriptor stores that waited at a Tier
Mover are refused, so that what is behind them enters (07 R258). -/
def execPartAbortDone (p : BitVec 4) (s : State) : Host.Outcome State Fault Refusal :=
  let n := p.toNat
  let x := s.part n
  .next (if s.plat.power ≠ .running || x.st ≠ .aborting then s
    else if !(s.heldBy n).isEmpty then s.recallAll n (s.heldBy n)
    else
      let s0 : State := (List.range 16).foldl (fun (s : State) q => s.tmvClear q n) s
      let s1 : State := (s0.dropPools n).releasePart n
      match x.cmdSeq with
      | some q => s1.doneCmd q 0 0
      | none => s1)

end Sys2Proof.Machine
end

