-- ==== Sys2Proof/Machine/CopyFill.lean ====
section
/-! DEFINITION. COPY and FILL (11 R405, R410, R411): parts, pieces of at most one 256 B block at either end, the reads and
writes that leave the device, and the end of a part. -/

namespace Sys2Proof.Machine

def cCMDPARTIAL : Nat := 0x0602
def cCMDATOMIC : Nat := 0x0606

/-! Operands. -/

def Cmd.src (c : Cmd) : Nat := c.at_ 16 8
def Cmd.dst (c : Cmd) : Nat := c.at_ 24 8
def Cmd.len (c : Cmd) : Nat := c.at_ 32 8
def Cmd.pattern (c : Cmd) : Nat := c.at_ 40 8
/-- Address and space of an address operand. -/
def opAddr (v : Nat) : Nat := bits v 0 52
def opSpace (v : Nat) : Nat := bits v 62 2
/-- A table address (06 R195) for a RES or SPD operand. -/
def opTbl (v : Nat) : Nat := bits v 0 48 + opSpace v * 2 ^ 48

/-- Ranges of 2 MiB that the destination touches (11 R410). -/
def Cmd.ranges (c : Cmd) : Nat := (opAddr c.dst % granSize + c.len + granSize - 1) / granSize

def Cmd.nparts (c : Cmd) : Nat := min 64 c.ranges

/-- The bytes of a part, from the destination's first byte: start and end. -/
def Cmd.partBytes (c : Cmd) (i : Nat) : Nat × Nat :=
  let g := c.ranges
  let at_ := fun j => min c.len ((if g ≤ 64 then j else j * g / 64) * granSize - opAddr c.dst % granSize)
  (at_ i, at_ (i + 1))

/-- The pieces of a part: byte from the start and length. -/
def Cmd.pieces (c : Cmd) (i : Nat) : List (Nat × Nat) :=
  let b := c.partBytes i
  let d := opAddr c.dst
  let one := (blocksOf (d + b.1) (b.2 - b.1)).map (fun x => (x.1 - d, x.2))
  if c.op = 3 then one
  else
    let a := opAddr c.src
    (one.map (fun x => (blocksOf (a + x.1) x.2).map (fun y => (y.1 - a, y.2)))).flatten

/-! Where the ends of a piece lie. -/

/-- An end on this device, in host memory, or in another node. -/
inductive End where
  | chip
  | host (a : Nat)
  | node (n off : Nat)
  deriving DecidableEq, Repr

def State.endOf (s : State) (p v off : Nat) : End :=
  match opSpace v with
  | 0 => match s.srcHome p (opAddr v + off) with
    | some (.host a) => .host a
    | some (.node n x) => .node n x
    | _ => .chip
  | 2 => .host (opAddr v + off)
  | _ => .chip

/-- Whether an end refuses a piece: not mapped or permitted, no such core, a link that is down, a RESTORE under way. -/
def State.endBad (s : State) (c : Cmd) (v off n : Nat) (write : Bool) : Bool :=
  match opSpace v with
  | 2 => s.link != .up
  | 1 => (s.ctx c.f c.ctxNo).st == .free || (s.tblBad c.f (opTbl v) off n write).isSome
  | _ => (s.tblBad c.f (opTbl v) off n write).isSome
      || (write && (match (s.part c.f).ckpt with
        | some k => k.restore && k.watched.contains ((opAddr v + off) / granSize)
        | none => false))

/-- Bytes of a piece from an end on this device, and whether they are poisoned. -/
def State.endRead (s : State) (c : Cmd) (v off n : Nat) : Nat × Bool :=
  if opSpace v = 1 then (s.tblRead (.cmd c.seq) c.f c.ctxNo (opTbl v) off n, s.tblPoison (.cmd c.seq) c.f c.ctxNo (opTbl v) off n)
  else match s.srcHome c.f (opAddr v + off) with
    | some h => (s.hread h n, s.hpoison h n)
    | none => (0, false)

/-- The pattern from byte `off` on, n bytes. -/
def fillBytes (pat off n : Nat) : Nat :=
  (List.range n).foldl (fun v i => v + bits pat (8 * ((off + i) % 8)) 8 * 2 ^ (8 * i)) 0

/-- What a piece that starts on this device carries. -/
def State.pieceData (s : State) (c : Cmd) (off n : Nat) : Nat × Bool :=
  if c.op = 3 then (fillBytes c.pattern off n, false) else s.endRead c c.src off n

/-! Parts. -/

/-- A piece of a part failed: the part will end with the code of the first (marked 64 + part until it ends). -/
def State.copyFail (s : State) (seq part code : Nat) : State :=
  match s.cmd seq with
  | none => s
  | some c =>
    if c.final || c.fails.any (fun e => e.1 % 64 == part) then s
    else s.setCmd { c with fails := c.fails ++ [(64 + part, code)] }

/-- A piece sent out of the device. -/
def State.pieceOut (s : State) (c : Cmd) (part idx : Nat) (e : End) (n v : Nat) : State :=
  match e with
  | .chip => s
  | .host a => s.hostAsk 1 a n v (.copyWrite c.seq (part + 64 * idx))
  | .node k x =>
    s.sendOn c.f (.copy c.seq (part + 64 * idx)) .none k
      { ptype := 2, cls := 3, size := n / 8 - 1, off := x, space := 0, data := v, words := n / 8 }

/-- A piece asked for from outside the device. -/
def State.pieceAsk (s : State) (c : Cmd) (part idx : Nat) (e : End) (n : Nat) : State :=
  match e with
  | .chip => s
  | .host a => s.hostAsk 0 a n 0 (.copyRead c.seq (part + 64 * idx))
  | .node k x =>
    s.sendOn c.f (.copy c.seq (part + 64 * idx)) .none k { ptype := 1, cls := 3, size := n / 8 - 1, off := x, space := 0 }

def Cmd.copies (c : Cmd) : Bool := c.op == 2

def State.pieceBad (s : State) (c : Cmd) (x : Nat × Nat) : Bool :=
  (c.copies && s.endBad c c.src x.1 x.2 false) || s.endBad c c.dst x.1 x.2 true

/-- A COPY that reads a block of a STREAM object which is not staged makes the Tier Mover stage it and the three after it (07 R254);
the bytes come from the ring or, while they are on their way there, from the backing, which holds the same (log 13). -/
def State.copyDemand (s : State) (c : Cmd) (off : Nat) : State :=
  if !c.copies || opSpace c.src ≠ 0 then s
  else match s.homeOf c.f (opAddr c.src + off) with
    | some (.unstaged id b) => (List.range 4).foldl (fun (s : State) i => s.stageBlock c.f id (b + i)) s
    | _ => s

/-- A piece at the start of its command: one that lies on the device is copied, and one with an end outside it is asked for
or sent (log 35). -/
def State.pieceStart (s : State) (c : Cmd) (part idx : Nat) (x : Nat × Nat) : State :=
  let s : State := s.copyDemand c x.1
  let src := if c.copies then s.endOf c.f c.src x.1 else .chip
  let dst := s.endOf c.f c.dst x.1
  match src, dst with
  | .chip, e =>
    let s : State := if c.copies then s.eccTbl c.f (opTbl c.src) x.1 x.2 else s
    let d := s.pieceData c x.1 x.2
    if d.2 then s.copyFail c.seq part cPOISON
    else if e = .chip then s.tblWrite none c.f c.ctxNo (opTbl c.dst) x.1 x.2 d.1 false
    else s.pieceOut c part idx e x.2 d.1
  | _, _ => s.pieceAsk c part idx src x.2

def State.partStart (s : State) (c : Cmd) (part : Nat) : State :=
  let ps := c.pieces part
  if ps.any (s.pieceBad c) then s.copyFail c.seq part cFABPERM
  else (ps.zip (List.range ps.length)).foldl (fun (s : State) x => s.pieceStart c part x.2 x.1) s

/-- Lines of the ranges that the host holds. -/
def State.copyHeld (s : State) (c : Cmd) : List Nat :=
  (if c.copies && opSpace c.src == 0 then s.held c.f (opAddr c.src) c.len false else [])
    ++ (if opSpace c.dst = 0 then s.held c.f (opAddr c.dst) c.len true else [])

/-- COPY and FILL start; lines that the host holds are recalled first (11 R397). -/
def State.copyStart (s : State) (c : Cmd) : State :=
  if c.atomic && decide (c.ranges > 1) then s.doneCmd c.seq cCMDATOMIC 0
  else if !(s.copyHeld c).isEmpty then s.recallAll c.f (s.copyHeld c)
  else (List.range c.nparts).foldl (fun (s : State) i => s.partStart c i) (s.startCmd c)

/-- COPY. -/
def execCopy (seq : BitVec 64) (s : State) : Host.Outcome State Fault Refusal :=
  .next (s.start seq 2 (fun c s => s.copyStart c))

/-- FILL. -/
def execFill (seq : BitVec 64) (s : State) : Host.Outcome State Fault Refusal :=
  .next (s.start seq 3 (fun c s => s.copyStart c))

/-- Whether something of a part is still outside the device. -/
def State.partFlying (s : State) (seq part : Nat) : Bool :=
  s.hreqs.any (fun r => match r.wait with
    | .copyRead q i | .copyWrite q i => q == seq && i % 64 == part
    | _ => false)
  || s.ops.any (fun e => match e.2.owner with
    | .copy q i => q == seq && i % 64 == part
    | _ => false)

/-- The running COPY or FILL of a transfer, with its piece. -/
def State.copyPiece (s : State) (seq code : Nat) : Option (Cmd × (Nat × Nat)) :=
  match s.cmd seq with
  | none => none
  | some c => if c.st = 1 then ((c.pieces (code % 64))[code / 64]?).map (fun x => (c, x)) else none

/-- Lines that must come back before an arriving piece is written here. -/
def State.arriveHeld (s : State) (seq code : Nat) : List Nat :=
  match s.copyPiece seq code with
  | some (c, x) => if opSpace c.dst = 0 then s.held c.f (opAddr c.dst + x.1) x.2 true else []
  | none => []

/-- A piece that was asked for has come: written here, or sent on. -/
def State.copyArrive (s : State) (seq code v : Nat) (pz : Bool) : State :=
  match s.copyPiece seq code with
  | none => s
  | some (c, x) =>
    if pz then s.copyFail seq (code % 64) cPOISON
    else if s.endBad c c.dst x.1 x.2 true then s.copyFail seq (code % 64) cFABPERM
    else match s.endOf c.f c.dst x.1 with
      | .chip => s.tblWrite none c.f c.ctxNo (opTbl c.dst) x.1 x.2 v false
      | e => s.pieceOut c (code % 64) (code / 64) e x.2 v

/-- The destination of a failed part carries no guarantee: each 8 B word on this device becomes a free value (log 3). -/
def State.partSpoil (s : State) (c : Cmd) (part : Nat) : State :=
  ((c.pieces part).filter (fun x => !s.endBad c c.dst x.1 x.2 true && s.endOf c.f c.dst x.1 == .chip)).foldl
    (fun (s : State) x => (List.range (x.2 / 8)).foldl (fun (s : State) i =>
      (s.tblWrite none c.f c.ctxNo (opTbl c.dst) (x.1 + 8 * i) 8 s.freeVal.toNat false).useFree) s) s

/-- A COPY or FILL all of whose parts have ended completes (11 R410). -/
def State.copyEnd (s : State) (seq : Nat) : State :=
  match s.cmd seq with
  | none => s
  | some c =>
    let n := c.nparts
    let done := (List.range n).filter (fun i => bit c.parts i || c.fails.any (fun e => e.1 == i))
    if done.length < n then s
    else if c.fails.isEmpty then s.finishCmd seq 0 c.parts 0
    else
      let at_ := fun i => ((c.fails.find? (fun e => e.1 == i)).map Prod.snd).getD 0
      if c.parts = 0 then s.finishCmd seq (at_ 0) 0 0
      else
        let low := ((List.range n).find? (fun i => c.fails.any (fun e => e.1 == i))).getD 0
        s.finishCmd seq cCMDPARTIAL c.parts (at_ low + low * 2 ^ 16)

/-- A part has ended: with success, or with the code of its failure. -/
def State.partEnd (s : State) (c : Cmd) (part : Nat) (code : Option Nat) : State :=
  let d : Cmd := match code with
    | none => { c with parts := c.parts + 2 ^ part }
    | some k => { c with fails := (c.fails.filter (fun e => e.1 % 64 != part)) ++ [(part, k)] }
  ((s.setCmd d).copyEnd c.seq).settle c.f

/-- COPY_PART_END: a part none of whose pieces is outside any more ends (11 R410). -/
def execCopyPartEnd (seq : BitVec 64) (part : BitVec 6) (s : State) : Host.Outcome State Fault Refusal :=
  let i := part.toNat
  .next (match s.cmd seq.toNat with
    | none => s
    | some c =>
      if s.plat.power ≠ .running || c.st ≠ 1 || !(c.op == 2 || c.op == 3) || decide (i ≥ c.nparts) || bit c.parts i
        || c.fails.any (fun e => e.1 == i) || s.partFlying c.seq i then s
      else match c.fails.find? (fun e => e.1 == 64 + i) with
        | some f => (s.partSpoil c i).partEnd c i (some f.2)
        | none => s.partEnd c i none)

end Sys2Proof.Machine
end

