-- ==== Sys2Proof/Machine/Mapping.lean ====
section
/-! DEFINITION. MAP and UNMAP (07 R253, R254): the checks of a descriptor, placement with the demotion a PIN asks for, the
replacement of a descriptor, and permissions (08 R310). -/

namespace Sys2Proof.Machine

/-! The descriptor (07 R253). -/

def dVBASE (d : Nat) : Nat := bits d 0 64

def distinctTiers (l : List Nat) : Bool := decide l.Nodup

/-- Whether a descriptor breaks its table. -/
def mapBad (d : Nat) : Bool :=
  let ts := (List.range 4).map (dTier d)
  let t0 := dTier d 0
  let later := ts.drop 1
  let pol := dPolicy d
  let back := ts.any (fun t => t == 3 || t == 4)
  bits d 0 21 != 0 || bits d 48 16 != 0 || dNgran d == 0 || decide (dNgran d > 2 ^ 27 - 2)
    || bits d 100 4 != 0 || bits d 116 4 != 0 || bits d 120 8 != 0 || bits d 144 48 != 0 || bits d 272 240 != 0
    || (match pol with
        | 0 => !(t0 == 1 || t0 == 2 || t0 == 3) || later.any (fun t => t != 0)
        | 1 =>
          let nz := ts.filter (fun t => t != 0)
          t0 == 0 || nz.any (fun t => decide (t > 3)) || !distinctTiers nz || (ts.drop nz.length).any (fun t => t != 0)
        | 2 => !(t0 == 2 || t0 == 3 || t0 == 4) || later.any (fun t => t != 0)
        | _ => t0 != 4 || later.any (fun t => t != 0))
    || (if back then bits d 192 21 != 0 || (dBnode d != 0 && !ts.contains 4) else bits d 192 64 != 0)
    || (if pol = 2 then dSwin d == 0 || decide (dSwin d > 256) else dSwin d != 0)

def Obj.overlaps (o : Obj) (g n : Nat) : Bool :=
  decide (dGran o.desc < g + n) && decide (g < dGran o.desc + dNgran o.desc)

def Obj.same (o : Obj) (g n : Nat) : Bool := dGran o.desc == g && dNgran o.desc == n

/-! Placement (07 R254). -/

/-- Keys of a STREAM object's ring halves in its places. -/
def ringKey0 : Nat := 2 ^ 28

def ringHalves (d : Nat) : Nat := if dPolicy d = 2 then (dSwin d + 31) / 32 else 0

/-- Room in a tier; T3 takes a moved granule only while the link is up. -/
def State.roomTier (s : State) (p d j t : Nat) (ps : List Place) : Option Place :=
  if t = 3 ∧ s.link ≠ .up then none else s.room p d j t ps

/-- Granules that demotion may take, in its order: the object created last, its highest address (07 R255). -/
def State.demotable (s : State) (p : Nat) : List (Obj × Nat × Place) :=
  let os := sortBy (fun (a b : Obj) => decide (b.id < a.id)) ((s.part p).objs.filter (fun o => dPolicy o.desc == 1))
  ((os.map (fun o => (o.place.reverse.map (fun e => (o, e.1, e.2))))).flatten).filter (fun x =>
    !(s.part p).migs.any (fun m => m.gran == dGran x.1.desc + x.2.1))

/-- The lower tier with room to which a granule may be demoted. -/
def State.demoteTo (s : State) (p : Nat) (x : Obj × Nat × Place) (ps : List Place) : Option Place :=
  (((dTiers x.1.desc).dropWhile (fun t => t != x.2.2.tier)).drop 1).findSome? (fun t => s.roomTier p x.1.desc x.2.1 t ps)

/-- One demotion that gives a PIN's granule its place. -/
def State.makeRoom (s : State) (p d j t : Nat) (acc : List Place) : Option (State × Place) :=
  let ps := s.usedPlaces p ++ acc
  (s.demotable p).findSome? (fun x =>
    if x.2.2.tier ≠ t then none
    else match s.room p d j t (ps.filter (fun y => y != x.2.2)), s.demoteTo p x ps with
      | some here, some there => some (s.moveWhole p x.1 x.2.1 x.2.2 there, here)
      | _, _ => none)

/-- A place for granule j in the first tier of a list that has room, after a demotion where a PIN needs one. -/
def State.placeGran (s : State) (p d j : Nat) (ts : List Nat) (acc : List Place) : Option (State × Place) :=
  match ts.findSome? (fun t => s.room p d j t (s.usedPlaces p ++ acc)) with
  | some pl => some (s, pl)
  | none => if dPolicy d = 0 then s.makeRoom p d j (dTier d 0) acc else none

/-- The granules of a new object placed in ascending address. -/
def State.placeAll (p d : Nat) : List Nat → State → Tbl Place → Option (State × Tbl Place)
  | [], s, acc => some (s, acc)
  | j :: js, s, acc =>
    match s.placeGran p d j (dTiers d) (acc.map Prod.snd) with
    | none => none
    | some r => State.placeAll p d js r.1 (tput acc j r.2)

/-- The ring halves of a STREAM object, in T1. -/
def State.placeRing (p d : Nat) : List Nat → State → Tbl Place → Option (Tbl Place)
  | [], _, acc => some acc
  | i :: is, s, acc =>
    match s.freeT1 p d (s.usedPlaces p ++ acc.map Prod.snd) with
    | none => none
    | some pl => State.placeRing p d is s (tput acc (ringKey0 + i) pl)

def State.placeObj (s : State) (p d : Nat) : Option (State × Tbl Place) :=
  (State.placeAll p d (List.range (dNgran d)) s []).bind (fun r =>
    (State.placeRing p d (List.range (ringHalves d)) r.1 r.2).map (fun t => (r.1, t)))

/-- MAP gives the partition's own writer group OWNED on each granule (08 R310). -/
def State.ownAll (s : State) (p d : Nat) : State :=
  let x := s.part p
  s.setPart p { x with perm := (List.range (dNgran d)).foldl (fun t j => tput t (16 * (dGran d + j) + s.wg p) 2) x.perm }

/-- A new object. -/
def State.mapNew (s : State) (p d : Nat) : Option State :=
  (s.placeObj p d).map (fun r =>
    let x := r.1.part p
    (r.1.setPart p { x with objs := x.objs ++ [{ desc := d, place := r.2, id := x.nextObj, staged := [], ring := [], rpois := [] }]
                            nextObj := x.nextObj + 1 }).ownAll p d)

/-! A replaced descriptor (07 R253). -/

/-- Whether a granule's place is one the new descriptor would give it in a tier. -/
def State.fits (s : State) (p d j t : Nat) (pl : Place) : Bool :=
  pl.tier == t &&
    (match pl with
     | .t1 h => (s.eligible p d).contains (quadOf (h / 2))
     | .t2 n => !s.quadLayout || dQuads d == 0 || (s.eligible p d).contains (n / quadGrans)
     | _ => s.room p d j t [] == some pl)

/-- The move of granule j under a new descriptor: none needed, or to the first tier with room. -/
def State.replaceGran (s : State) (p d j : Nat) (pl : Place) (acc : List Place) : Option (State × Option Place) :=
  match (dTiers d).findSome? (fun t =>
      if s.fits p d j t pl then some none else (s.room p d j t (s.usedPlaces p ++ acc)).map some) with
  | some r => some (s, r)
  | none => if dPolicy d = 0 then (s.makeRoom p d j (dTier d 0) acc).map (fun r => (r.1, some r.2)) else none

/-- The moves of a replacement, in ascending address. -/
def State.replaceAll (p d : Nat) (o : Obj) : List Nat → State → List Mig → Option (State × List Mig)
  | [], s, ms => some (s, ms)
  | j :: js, s, ms =>
    match tget o.place j with
    | none => State.replaceAll p d o js s ms
    | some pl =>
      match s.replaceGran p d j pl (ms.map Mig.dst) with
      | none => none
      | some (s1, none) => State.replaceAll p d o js s1 ms
      | some (s1, some dst) => State.replaceAll p d o js s1 (ms ++ [{ gran := dGran d + j, src := pl, dst, next := 0 }])

/-- A MAP that replaces an object's descriptor: its granules move under R256; a ring starts empty. -/
def State.mapReplace (s : State) (p d : Nat) (o : Obj) : Option State :=
  (State.replaceAll p d o (List.range (dNgran d)) s []).bind (fun r =>
    let old := o.place.filter (fun e => decide (e.1 < ringKey0))
    let s1 : State := r.1.setObj p { o with place := old }
    (State.placeRing p d (List.range (ringHalves d)) s1 (r.2.map (fun m => (0, m.dst)))).map (fun t =>
      let ring := t.filter (fun e => decide (ringKey0 ≤ e.1))
      let s2 : State := s1.setObj p { o with desc := d, place := old ++ ring, staged := [], ring := [], rpois := [] }
      s2.setPart p { s2.part p with migs := (s2.part p).migs ++ r.2 }))

/-! The commands. -/

/-- Whether granules of a range are being moved, or a recall of one of its lines is on its way. -/
def State.rangeBusy (s : State) (p g n : Nat) : Bool :=
  (s.part p).migs.any (fun m => decide (g ≤ m.gran) && decide (m.gran < g + n))
    || s.recalls.any (fun r => r.1 == p && decide (g ≤ r.2 / 32768) && decide (r.2 / 32768 < g + n))

/-- The code with which a MAP ends, and the state after it. -/
def State.mapObj (s : State) (p d : Nat) : State × Nat :=
  let g := dGran d
  let n := dNgran d
  if mapBad d then (s, cTMVDESC)
  else if decide (g + n > portGran) then (s, cTMVOVERLAP)
  else
    match (s.part p).objs.find? (fun o => o.same g n) with
    | some o => match s.mapReplace p d o with
      | some t => (t, 0)
      | none => (s, cTMVNOSPACE)
    | none =>
      if (s.part p).objs.any (fun o => o.overlaps g n) then (s, cTMVOVERLAP)
      else match s.mapNew p d with
        | some t => (t, 0)
        | none => (s, cTMVNOSPACE)

/-- MAP: it waits for moves and recalls of its range that are under way (log 36). -/
def execMap (seq : BitVec 64) (s : State) : Host.Outcome State Fault Refusal :=
  .next (s.start seq 4 (fun c s =>
    let d := c.at_ 16 48
    if s.rangeBusy c.f (dGran d) (dNgran d) then s
    else
      let r := s.mapObj c.f d
      r.1.doneCmd c.seq r.2 0))

/-- An object leaves the map with its permissions, moves and staging. -/
def State.dropObj (s : State) (p : Nat) (o : Obj) : State :=
  let x := s.part p
  let g := dGran o.desc
  let n := dNgran o.desc
  let gone := fun (m : Mig) => decide (g ≤ m.gran) && decide (m.gran < g + n)
  let ours := fun (w : Owner) => match w with
    | .stage q i _ _ => q == p && i == o.id
    | .move q h _ => q == p && decide (g ≤ h) && decide (h < g + n)
    | _ => false
  let s1 : State := s.setPart p { x with
    objs := x.objs.filter (fun y => y.id != o.id)
    perm := tdelRange x.perm (16 * g) (16 * n)
    migs := x.migs.filter (fun m => !gone m) }
  ({ s1 with hreqs := s1.hreqs.filter (fun r => match r.wait with
      | .stage q i _ _ => !(q == p && i == o.id)
      | .move q h _ => !(q == p && decide (g ≤ h) && decide (h < g + n))
      | _ => true) } : State).dropOps (fun e => ours e.owner)

/-- Lines of granules [g, g + n) of a function that the host may hold. -/
def State.heldIn (s : State) (p g n : Nat) : List Nat :=
  (s.sf.filter (fun e => e.f == p && decide (g ≤ e.line / 32768) && decide (e.line / 32768 < g + n))).map SfEnt.line

/-- The running UNMAPs whose recalls have all been answered complete (11 R397). -/
def State.unmapCheck (s : State) (p : Nat) : State :=
  ((s.liveCmds p).filter (fun c => c.op == 5 && c.st == 1
    && (s.heldIn p (c.at_ 16 8 / granSize) (c.at_ 24 4)).isEmpty)).foldl (fun (s : State) c => (s.doneCmd c.seq 0 0).settle p) s

/-- UNMAP: one whole object, no pool region in use; its lines are recalled (07 R253, 11 R397). -/
def execUnmap (seq : BitVec 64) (s : State) : Host.Outcome State Fault Refusal :=
  .next (s.start seq 5 (fun c s =>
    let p := c.f
    let v := c.at_ 16 8
    let g := v / granSize
    let n := c.at_ 24 4
    match (s.part p).objs.find? (fun o => o.same g n) with
    | none => s.doneCmd c.seq cTMVOVERLAP 0
    | some o =>
      if v % granSize ≠ 0 || s.poolMeets p g n then s.doneCmd c.seq cTMVOVERLAP 0
      else (((s.startCmd c).recallAll p (s.heldIn p g n)).dropObj p o).unmapCheck p))

end Sys2Proof.Machine
end

