-- ==== Sys2Proof/Machine/Checkpoint.lean ====
section
/-! DEFINITION. CHECKPOINT and RESTORE (12 R437-R444) with the save area and core image they copy (10 R377, R378). -/

namespace Sys2Proof.Machine

def cTMVDIGEST : Nat := 0x0701
def cCKPMANIFEST : Nat := 0x0720
def cCKPMISMATCH : Nat := 0x0721
def cCKPBUSY : Nat := 0x0722
def cCKPOPEN : Nat := 0x0723
def cCKPTORN : Nat := 0x0724
def cCMDBADREC : Nat := 0x0603

/-! Images (10 R377, R378). What R377 and R378 name without a byte layout inside its place goes through functions that have no body,
so that nothing can be proved of those bytes (log 37). -/

/-- The pending asynchronous exceptions and whether the core has ended its part, in 96 B, and what they stand for. -/
opaque packExc : List Fail → Run → Nat

opaque loadExc : Nat → List Fail × Run

/-- The accumulator sets of the four arrays, as the instructions in flight hold them, in 2 KiB, and what they stand for. -/
opaque packAcc : List (List (List W32)) → Nat

opaque loadAcc : Nat → List (List (List W32))

/-- The feeders of the four arrays, as the bytes that their instructions have taken, in 8 KiB, and what they stand for. -/
opaque packFeeders : List (List Mem) → Nat

opaque loadFeeders : Nat → List (List Mem)

/-- Per array the instructions in flight with their progress (columns without guarantee, tiles drained, poison) and the queued ones, with the
register values each read at issue, in 1 KiB, and what they stand for. -/
opaque packInstr : List (List (MOp × List Nat × Nat × Option Nat) × List MOp) → Nat

opaque loadInstr : Nat → List (List (MOp × List Nat × Nat × Option Nat) × List MOp)

/-- The MX block buffers of the four arrays with their formats, in 4 KiB, and what they stand for. -/
opaque packMx : List (Tbl (W32 × W32) × Nat) → Nat

opaque loadMx : Nat → List (Tbl (W32 × W32) × Nat)

/-- Attachments and DSEQ of the four arrays, in 64 B, and what they stand for. -/
opaque packAtt : List (Option Nat × Nat) → Nat

opaque loadAtt : Nat → List (Option Nat × Nat)

/-- Queued vector instructions with their register values, in 128 B, and what they stand for. -/
opaque packVec : List VOp → Nat

opaque loadVec : Nat → List VOp

/-- Held Ductus instructions with their descriptor copies, in 1 KiB, and what they stand for. -/
opaque packHeld : List DOp → Nat

opaque loadHeld : Nat → List DOp

/-- The tile DMA remainder: descriptor, next piece, counter, word 1, in 64 B, and what it stands for. -/
opaque packDma : List Dma → Nat

opaque loadDma : Nat → List Dma

/-- The header of a save area, and what a header stands for. -/
opaque headerBytes : Ctx → Nat

opaque headerLoad : Nat → Ctx

/-- A cluster's record: its gating glyph slots and its stream 8 number, and what a record stands for. -/
opaque recordBytes : List Nat → Nat → Nat

opaque recordGate : Nat → Nat → Nat

opaque recordSeq : Nat → Nat

/-- A core whose image carries no guarantee (12 R443). -/
opaque spoiledCore : Nat → CoreSt

def imageSize : Nat := 315392

def arrs4 : List Nat := [0, 1, 2, 3]

/-- The words of the block at 0x4_8300: PC, the state words SW_EVEC to SW_ESCRATCH and SW_BATWAIT by index, then at byte 80 the
sequence numbers of streams 0 to 2 and at byte 104 the pending exceptions; the order is the table's, and the places in the block are
the model's (10 R377; DESIGN CHOICE, log 120). -/
def CoreSt.ctlBlock (c : CoreSt) : Nat :=
  ([c.pc, c.evec.toNat, c.epc.toNat, c.ecode, c.einfo0.toNat, c.einfo1.toNat, c.einfo2.toNat, estat c, c.escratch.toNat, c.batwait,
    c.seq0, c.seq1, c.seq2].zip (List.range 13)).foldl (fun v e => v + e.1 % 2 ^ 64 * 2 ^ (64 * e.2)) 0
    + packExc c.pend c.run % 2 ^ 768 * 2 ^ 832

/-- The blocks of a core image from 0x4_8300 on: offset, size, content (10 R377). -/
def CoreSt.blocks (c : CoreSt) : List (Nat × Nat × Nat) :=
  [(0x48300, 256, c.ctlBlock),
   (0x48400, 2048, packAcc (arrs4.map (fun i => (c.arr i).act.map MAct.vals))),
   (0x48C00, 8192, packFeeders (arrs4.map (fun i => (c.arr i).act.map MAct.wbuf))),
   (0x4AC00, 1024, packInstr (arrs4.map (fun i => ((c.arr i).act.map (fun a => (a.op, a.noGuar, a.drained, a.bad)), (c.arr i).q)))),
   (0x4B000, 4096, packMx (arrs4.map (fun i => ((c.arr i).mx, (c.arr i).mxf)))),
   (0x4C000, 528, tgetD c.glyph 0 0),
   (0x4C210, 528, tgetD c.glyph 1 0),
   (0x4C420, 528, tgetD c.glyph 2 0),
   (0x4C630, 528, tgetD c.glyph 3 0),
   (0x4C840, 64, packAtt (arrs4.map (fun i => ((c.arr i).att, (c.arr i).dseq)))),
   (0x4C880, 128, packVec c.vq),
   (0x4C900, 1024, packHeld c.held),
   (0x4CD00, 64, packDma c.dmas)]

/-- Byte a of a core image, from 0x4_8300 on; what no block holds is reserved and reads zero. -/
def CoreSt.restByte (c : CoreSt) (a : Nat) : Nat :=
  match c.blocks.find? (fun b => decide (b.1 ≤ a) && decide (a < b.1 + b.2.1)) with
  | some b => bits b.2.2 (8 * (a - b.1)) 8
  | none => 0

/-- A core of the blocks of an image. -/
def coreRest (m : Mem) : CoreSt :=
  let w := fun i => mread m (0x48300 + 8 * i) 8
  let st := w 7
  let exc := loadExc (mread m 0x48368 96)
  let acc := loadAcc (mread m 0x48400 2048)
  let fee := loadFeeders (mread m 0x48C00 8192)
  let ins := loadInstr (mread m 0x4AC00 1024)
  let mx := loadMx (mread m 0x4B000 4096)
  let att := loadAtt (mread m 0x4C840 64)
  let ar := fun i =>
    let x := ins.getD i ([], [])
    { q := x.2
      act := (x.1.zip (List.range x.1.length)).map (fun e =>
        { op := e.1.1, vals := (acc.getD i []).getD e.2 [], noGuar := e.1.2.1, drained := e.1.2.2.1
          wbuf := (fee.getD i []).getD e.2 [], bad := e.1.2.2.2 })
      att := (att.getD i (none, 0)).1
      dseq := (att.getD i (none, 0)).2
      mx := (mx.getD i ([], 0)).1
      mxf := (mx.getD i ([], 0)).2 : ArrSt }
  { pc := w 0 % spadSize, evec := w64 (w 1), epc := w64 (w 2), ecode := w 3 % 2 ^ 16, einfo0 := w64 (w 4), einfo1 := w64 (w 5)
    einfo2 := w64 (w 6), inh := bit st 0, asyncB := bit st 1, more := bits st 2 8, escratch := w64 (w 8), batwait := w 9
    seq0 := w 10, seq1 := w 11, seq2 := w 12, pend := exc.1, run := exc.2
    a0 := ar 0, a1 := ar 1, a2 := ar 2, a3 := ar 3
    glyph := (arrs4.map (fun i => (i, mread m (0x4C000 + 528 * i) 528))).filter (fun e => e.2 != 0)
    vq := loadVec (mread m 0x4C880 128), held := loadHeld (mread m 0x4C900 1024), dmas := loadDma (mread m 0x4CD00 64) }

/-- Bytes [o, o + n) of a core image (10 R377). -/
def CoreSt.image (c : CoreSt) (o n : Nat) : Nat :=
  (List.range n).foldl (fun v i =>
    let a := o + i
    let b :=
      if a < 0x40000 then (mget c.spad a).toNat
      else if a < 0x48000 then (mget c.vr (a - 0x40000)).toNat
      else if a < 0x48200 then bits (tgetD c.x ((a - 0x48000) / 8) 0).toNat (8 * (a % 8)) 8
      else if a < 0x48300 then bits (tgetD c.cnt ((a - 0x48200) / 4) 0).toNat (8 * (a % 4)) 8
      else c.restByte a
    v + b * 2 ^ (8 * i)) 0

/-- Whether bytes [o, o + n) of a core image are poisoned (12 R420). -/
def CoreSt.imagePoison (c : CoreSt) (o n : Nat) : Bool :=
  (unitsOf o n 8).any (fun u =>
    (decide (u < 32768) && c.spadPoison.contains u)
      || (decide (32768 ≤ u) && decide (u < 36864) && c.vrPoison.contains (u - 32768))
      || (decide (36864 ≤ u) && decide (u < 36928) && c.xPoison.contains (u - 36864))
      || (decide (36928 ≤ u) && decide (u < 36960) && (c.cntPoison.contains (2 * (u - 36928)) || c.cntPoison.contains (2 * (u - 36928) + 1)))
      || (decide (36960 ≤ u) && decide (u < 36992) && c.ctlPoison)
      || (decide (36992 ≤ u) && decide (u < 38400) && arrs4.any (fun i => (c.arr i).bad)))

/-- A core from its image. -/
def coreOf (m : Mem) : CoreSt :=
  let part_ := fun (lo n : Nat) => (m.filter (fun e => decide (lo ≤ e.1) && decide (e.1 < lo + n))).map (fun e => (e.1 - lo, e.2))
  { coreRest m with
    spad := part_ 0 0x40000
    spadPoison := []
    vr := part_ 0x40000 0x8000
    vrPoison := []
    x := ((List.range' 1 63).map (fun i => (i, w64 (mread m (0x48000 + 8 * i) 8)))).filter (fun e => e.2 != 0)
    xPoison := []
    xPend := []
    cnt := ((List.range 64).map (fun i => (i, BitVec.ofNat 32 (mread m (0x48200 + 4 * i) 4)))).filter (fun e => e.2 != 0) }

def areaBytes (n : Nat) : Nat := 4096 * (n + 1) + 64 * imageSize * n

/-- A byte range of a save area, and whether it is poisoned; it lies in one header, record or image. -/
def State.areaRead (s : State) (p c o n : Nat) : Nat × Bool :=
  let k := s.nclu p
  let x := s.ctx p c
  if o < 4096 then (bits (headerBytes x) (8 * o) (8 * n), false)
  else if o < 4096 * (k + 1) then
    let l := o / 4096 - 1
    (bits (recordBytes ((List.range 4).map (fun i => tgetD x.gates (4 * l + i) 0)) (tgetD x.seq8 l 0)) (8 * (o % 4096)) (8 * n), false)
  else
    let a := o - 4096 * (k + 1)
    let cs := s.core ⟨p, c, a / imageSize / 64, a / imageSize % 64⟩
    (cs.image (a % imageSize) n, cs.imagePoison (a % imageSize) n)

/-! The INKWELL and SCHED sections (12 R437). -/

/-- The stack of a pool from bottom to top (07 R236). -/
def Pool.stack (q : Pool) : List Nat := (List.range' q.fresh (q.total - q.fresh)).reverse ++ q.top.reverse

/-- How many entries from the bottom are the buffers never handed out, highest index first. -/
def freshRun (total : Nat) : Nat → List Nat → Nat
  | _, [] => 0
  | i, a :: t => if a + 1 + i = total then 1 + freshRun total (i + 1) t else 0

/-- A pool with a stack loaded. -/
def Pool.withStack (q : Pool) (l : List Nat) : Pool :=
  let m := freshRun q.total 0 l
  { q with fresh := q.total - m, top := (l.drop m).reverse }

def poolStateCode (q : Pool) : Nat :=
  match q.st with
  | .disabled => 0
  | .enabling => 1
  | .active => 2
  | .draining => 3
  | .failed => 4

def poolCfg (q : Pool) : Nat := q.base + q.ngran * 2 ^ 27

def Requester.cfg (q : Requester) : Nat := b2n q.valid + 2 * q.kind + 8 * q.part + 128 * q.ctx

/-- Bytes of a pool's stack and metadata in the section. -/
def Pool.bulk (q : Pool) : Nat := if q.st = .active then 4 * q.free + 2 * q.total else 0

def State.bulkAt (s : State) (p c : Nat) : Nat :=
  9216 + listSum ((List.range c).map (fun i => (s.pool (poolKey p i)).bulk))

def State.inkLen (s : State) (p : Nat) : Nat := s.bulkAt p 23

/-- A pool's 32 B: configuration, state and free count in 4 B each, offsets of stack and metadata (log 38). -/
def State.poolEntry (s : State) (p c : Nat) : Nat :=
  let q := s.pool (poolKey p c)
  let a := s.bulkAt p c
  poolCfg q + poolStateCode q * 2 ^ 64 + q.free * 2 ^ 96
    + (if q.st = .active then a * 2 ^ 128 + (a + 4 * q.free) * 2 ^ 192 else 0)

def State.reqEntry (s : State) (p r : Nat) : Nat :=
  let q := s.reqr r
  if q.valid && q.part == p then
    q.cfg + q.quota * 2 ^ 64 + (q.inuse - s.creditOf r) * 2 ^ 128 + q.hiwater * 2 ^ 192
  else 0

/-- The INKWELL section as bytes. -/
def State.inkSection (s : State) (p : Nat) : Mem :=
  let m0 := mwrite [] 0 8 (s.rg (oInkPart p))
  let m1 := (List.range 23).foldl (fun m c => mwrite m (8 + 32 * c) 32 (s.poolEntry p c)) m0
  let m2 := (List.range 256).foldl (fun m r => mwrite m (1024 + 32 * r) 32 (s.reqEntry p r)) m1
  (List.range 23).foldl (fun m c =>
    let q := s.pool (poolKey p c)
    if q.st = .active then
      let a := s.bulkAt p c
      let st := q.stack
      let m3 := (st.zip (List.range st.length)).foldl (fun m e => mwrite m (a + 4 * e.2) 4 e.1) m
      q.md.foldl (fun m e => mwrite m (a + 4 * q.free + 2 * e.1) 2 e.2) m3
    else m) m2

/-- The SCHED section as bytes. -/
def State.schedSection (s : State) (p c : Nat) : Mem :=
  let x := s.part p
  let m0 := mwrite (mwrite [] 0 8 (s.rg (oPartTime p))) 8 1 (s.ctx p c).prio
  let m1 := (x.clus.zip (List.range x.clus.length)).foldl (fun m e => mwrite m (16 + 2 * e.2) 2 ((s.ductus e.1).floorOf c)) m0
  (x.quads.zip (List.range x.quads.length)).foldl (fun m e =>
    (List.range 4).foldl (fun m i => mwrite m (256 + 2112 * e.2 + 528 * i) 528 (tgetD (s.mover e.1).glyph (4 * p + i) 0)) m) m1

def schedLen (q : Nat) : Nat := 256 + 2112 * q

/-! The manifest (12 R439, R440), kept in `man` as it is built or read. -/

def ckMagic : Nat := 0x4B434B5054310001
def blkSize : Nat := 2 ^ 20

def mfNSECT (m : Mem) : Nat := mread m 12 4
def mfTAG (m : Mem) : Nat := mread m 16 8
def mfNBLK (m : Mem) : Nat := mread m 64 8
def mfMLEN (m : Mem) : Nat := mread m 72 8
def mfDATAOFF (m : Mem) : Nat := mread m 80 8
def mfLen (nsect nblk : Nat) : Nat := 128 + 128 * nsect + 32 * nblk + 32
def mfSect (j : Nat) : Nat := 128 + 128 * j
def mfDig (m : Mem) (i : Nat) : Nat := 128 + 128 * mfNSECT m + 32 * i

/-- A section: kind, first block, length, descriptor. -/
structure Sect where
  kind : Nat
  first : Nat
  len : Nat
  desc : Nat
  deriving DecidableEq, Repr

def mfSection (m : Mem) (j : Nat) : Sect :=
  { kind := mread m (mfSect j) 1, first := mread m (mfSect j + 8) 8, len := mread m (mfSect j + 16) 8
    desc := mread m (mfSect j + 32) 64 }

def mfSections (m : Mem) : List Sect := (List.range (mfNSECT m)).map (mfSection m)

/-- The section that holds a block. -/
def sectOf (m : Mem) (b : Nat) : Sect :=
  ((mfSections m).filter (fun x => decide (x.first ≤ b))).getLastD ⟨0, 0, 0, 0⟩

def secBlocks (len : Nat) : Nat := roundUp len blkSize / blkSize

/-- Kinds, lengths and descriptors of a checkpoint's sections (12 R437, R438). -/
def State.ckSections (s : State) (p : Nat) : List (Nat × Nat × Nat) :=
  let x := s.part p
  let objs := sortBy (fun (a b : Obj) => decide (dGran a.desc < dGran b.desc))
    (x.objs.filter (fun o => dCkpt o.desc && decide (dPolicy o.desc ≤ 1)))
  [(1, areaBytes x.clus.length, 0), (2, s.inkLen p, 0), (3, schedLen x.quads.length, 0)]
    ++ objs.map (fun o => (4, dNgran o.desc * granSize, o.desc))

/-- First blocks of a list of sections. -/
def placeSections : Nat → List (Nat × Nat × Nat) → List Sect
  | _, [] => []
  | b, (k, n, d) :: t => ⟨k, b, n, d⟩ :: placeSections (b + secBlocks n) t

def ctxCode (x : CtxState) : Nat :=
  match x with
  | .free => 0
  | .idle => 1
  | .held => 2
  | .ready => 3
  | .restoring => 4
  | .running => 5
  | .saving => 6
  | .paused => 7
  | .stopped => 8

/-- The manifest at the start of a CHECKPOINT: header without MAGIC and TEND, and section entries. JHEAD is the number that
follows the command's own (log 38). -/
def State.manifest (s : State) (c : Cmd) : Mem :=
  let p := c.f
  let x := s.part p
  let secs := placeSections 0 (s.ckSections p)
  let ns := secs.length
  let nb := listSum (secs.map (fun e => secBlocks e.len))
  let ml := mfLen ns nb
  let put := fun (m : Mem) (e : Nat × Nat × Nat) => mwrite m e.1 e.2.1 e.2.2
  let hd := [(8, 4, 1), (12, 4, ns), (16, 8, c.at_ 24 8), (24, 8, c.seq), (32, 8, c.seq + 1), (40, 8, c.accept), (56, 2, s.job p),
    (58, 2, s.jepoch p), (60, 1, p + 16 * b2n x.ruled + 32 * c.ctxNo), (61, 1, x.clus.length), (62, 1, x.quads.length),
    (63, 1, ctxCode (s.ctx p c.ctxNo).st), (64, 8, nb), (72, 8, ml), (80, 8, roundUp ml blkSize)].foldl put []
  (secs.zip (List.range ns)).foldl (fun m e =>
    let a := mfSect e.2
    [(a, 1, e.1.kind), (a + 8, 8, e.1.first), (a + 16, 8, e.1.len), (a + 32, 64, e.1.desc)].foldl put m) hd

/-! Progress. -/

def Cmd.area (c : Cmd) : Nat := c.at_ 16 8
def areaNode (a : Nat) : Nat := bits a 48 16
def areaOff (a : Nat) : Nat := bits a 0 48

def State.setCkpt (s : State) (p : Nat) (k : Ckpt) : State := s.setPart p { s.part p with ckpt := some k }

/-- The integer square root, found bit by bit below 2^n. -/
def ckSqrt : Nat → Nat → Nat → Nat
  | 0, _, r => r
  | n + 1, v, r => if (r + 2 ^ n) * (r + 2 ^ n) ≤ v then ckSqrt n v (r + 2 ^ n) else ckSqrt n v r

/-- I_p in ms (12 R446). -/
def State.ckInterval (s : State) (cost last : Nat) : Nat :=
  let lo := 1000 * bits (s.rg 0x00B02010) 0 32
  let hi := max lo (1000 * bits (s.rg 0x00B02010) 32 32)
  if last = 0 then lo else max lo (min hi (ckSqrt 64 (2 * cost * (1000 * s.mtbf)) 0))

/-- Every interval recomputed (12 R446). -/
def State.ckRecompute (s : State) : State :=
  (List.range 16).foldl (fun (s : State) p =>
    let k := s.ckpPart p
    s.setCkpPart p { k with interval := s.ckInterval k.cost k.last }) s

/-- The operation of a partition ends with a code: no operation of it goes on, CKP_STAT shows the code. -/
def State.ckEnd (s : State) (p : Nat) (k : Ckpt) (code : Nat) : State :=
  let s1 : State := (s.setPart p { s.part p with ckpt := none }).dropOps (fun o => match o.owner with
    | .ckpt q _ => q == p
    | _ => false)
  let s2 : State := s1.setCkpPart p { s1.ckpPart p with op := 0, code }
  let acc := ((s2.cmd k.seq).map Cmd.accept).getD 0
  let s3 : State := if code = 0 ∧ k.restore = false then
      let cost := (s2.now - acc) / 1050000
      let w := s2.ckpPart p
      (s2.setCkpPart p { w with cost, due := false, last := s2.now }).ckRecompute
    else s2
  (s3.doneCmd k.seq code 0).settle p

/-- A CHECKPOINT fails: its context is as it was (12 R441). -/
def State.ckFail (s : State) (p : Nat) (k : Ckpt) (code : Nat) : State := s.ckEnd p k code

/-- What a RESTORE has written to its objects, up to the block it was at, becomes free values (12 R443, log 3). -/
def State.spoilObjects (s : State) (p : Nat) (k : Ckpt) : State :=
  ((mfSections k.man).filter (fun x => x.kind == 4)).foldl (fun (s : State) x =>
    let n := min x.len ((k.blocks + 1 - x.first) * blkSize)
    (List.range (n / 8)).foldl (fun (s : State) i =>
      match s.homeOf p (dGran x.desc * granSize + 8 * i) with
      | some (.mem d a) => (s.hwrite (.mem d a) 8 s.freeVal.toNat).useFree
      | _ => s) s) s

/-- The image of a context without guarantee (12 R443). -/
def State.spoilImage (s : State) (p c : Nat) : State :=
  let f := s.free
  let s1 : State := s.fillCores p c (s.nclu p) (fun l k => spoiledCore (f + 64 * l + k))
  { s1 with free := f + 4096 }

/-- What a RESTORE has written to the save area, up to the block it was at, carries no guarantee: the cores whose images it reached
(12 R443). -/
def State.spoilSaved (s : State) (p : Nat) (k : Ckpt) : State :=
  let f := s.free
  let n := s.nclu p
  let s1 : State := s.fillCores p k.s n (fun l j =>
    if 4096 * (n + 1) + imageSize * (64 * l + j) < (k.blocks + 1) * blkSize then spoiledCore (f + 64 * l + j) else s.core ⟨p, k.s, l, j⟩)
  { s1 with free := f + 4096 }

/-- A RESTORE fails after it began to write: the context is STOPPED with the code (12 R443; log 39). -/
def State.restoreFail (s : State) (p : Nat) (k : Ckpt) (code : Nat) : State :=
  let s1 : State := (s.spoilObjects p k).spoilSaved p k
  let s2 : State := s1.setCtx p k.s { s1.ctx p k.s with st := .stopped, stopcode := code }
  (s2.endLaunch p k.s cCMDABORTED).ckEnd p k code

def State.ckBad (s : State) (p : Nat) (k : Ckpt) (code : Nat) : State :=
  if k.restore && decide (k.phase ≥ 13) then s.restoreFail p k code else s.ckFail p k code

/-- An operation of the Tier Movers to the area, in class C3. -/
def State.ckSend (s : State) (p : Nat) (c : Cmd) (ptype o n v key : Nat) : State :=
  s.sendOn p (.ckpt p key) .none (areaNode c.area)
    { ptype, cls := 3, size := n / 8 - 1, off := (areaOff c.area + o) % 2 ^ 48, space := 0, data := v
      words := if ptype = 2 then n / 8 else 0 }

/-- Operations in flight for a partition's checkpoint. -/
def State.ckFlying (s : State) (p seq : Nat) : Bool :=
  s.ops.any (fun e => match e.2.owner with
    | .ckpt q _ => q == p
    | _ => false)
  || s.hreqs.any (fun r => match r.wait with
    | .copyRead q _ => q == seq
    | _ => false)

/-- Offsets in `img`: the bytes of the block at hand, and the INKWELL section read at the start. -/
def imgBlock : Nat := 2 ^ 60
def imgInk : Nat := 2 ^ 61

/-! CHECKPOINT (12 R438). -/

/-- The home of a piece of an OBJECT section. -/
def State.objHome (s : State) (p : Nat) (x : Sect) (o : Nat) : Option Home := s.homeOf p (dGran x.desc * granSize + o)

/-- The lines of a block that the host holds claimed, or for a RESTORE at all. -/
def State.ckHeld (s : State) (p : Nat) (x : Sect) (b : Nat) (write : Bool) : List Nat :=
  if x.kind = 4 then s.held p (dGran x.desc * granSize + (b - x.first) * blkSize) blkSize write else []

/-- A piece of a section that lies on the device: its bytes and whether they are poisoned. -/
def State.piece (s : State) (p : Nat) (k : Ckpt) (x : Sect) (o n : Nat) : Nat × Bool :=
  if o ≥ x.len then (0, false)
  else match x.kind with
    | 1 => s.areaRead p k.s o n
    | 2 => (mread k.img (imgInk + o) n, false)
    | 3 => (mread (s.schedSection p k.s) o n, false)
    | _ => match s.objHome p x o with
      | some h => (s.hread h n, s.hpoison h n)
      | none => (0, false)

/-- The pieces of a block, by offset in the block. -/
def pieceOffs : List Nat := (List.range 4096).map (fun i => 256 * i)

/-- The bytes of a whole block from pieces. -/
def blockOf (f : Nat → Nat) : Nat := pieceOffs.foldl (fun v o => v + f o * 2 ^ (8 * o)) 0

/-- A piece of an OBJECT at the host has to be asked for. -/
def State.pieceHost (s : State) (p : Nat) (x : Sect) (o : Nat) : Option Nat :=
  if x.kind = 4 then match s.objHome p x o with
    | some (.host a) => some a
    | _ => none
  else none

/-- The pieces of a block that lie on the device meet the errors of their words (07 R266). -/
def State.eccBlock (s : State) (p : Nat) (x : Sect) (o0 : Nat) : State :=
  if s.upsets.isEmpty || x.kind != 4 then s
  else pieceOffs.foldl (fun (s : State) o => if decide (o0 + o < x.len) then (match s.objHome p x (o0 + o) with
    | some h => s.eccHome h 256
    | none => s) else s) s

/-- The next block is read: what lies at the host is asked for, and a granule gone or poison ends the CHECKPOINT. -/
def State.ckReadBlock (s : State) (p : Nat) (k : Ckpt) : State :=
  let x := sectOf k.man k.blocks
  let o0 := (k.blocks - x.first) * blkSize
  if !(s.ckHeld p x k.blocks false).isEmpty then s.recallAll p (s.ckHeld p x k.blocks false)
  else if x.kind = 4 ∧ (!(s.resOk p (s.wg p) (dGran x.desc * granSize + o0) false)) = true then s.ckFail p k cFABPERM
  else if pieceOffs.any (fun o => (s.piece p k x (o0 + o) 256).2) then (s.eccBlock p x o0).ckFail p k cPOISON
  else
    let s1 : State := (s.eccBlock p x o0).setCkpt p { k with phase := 2 }
    pieceOffs.foldl (fun (s : State) o => match s.pieceHost p x (o0 + o) with
      | some a => s.hostAsk 0 a 256 0 (.copyRead k.seq o)
      | none => s) s1

/-- The block is whole: its digest is kept and its stores are sent. -/
def State.ckStoreBlock (s : State) (p : Nat) (k : Ckpt) (c : Cmd) : State :=
  let x := sectOf k.man k.blocks
  let o0 := (k.blocks - x.first) * blkSize
  let at_ := fun o => if (s.pieceHost p x (o0 + o)).isSome then mread k.img (imgBlock + o) 256 else (s.piece p k x (o0 + o) 256).1
  let dg := sha3x256 (blockOf at_) blkSize
  let to_ := mfDATAOFF k.man + blkSize * k.blocks
  let s1 : State := s.setCkpt p { k with phase := 3, man := mwrite k.man (mfDig k.man k.blocks) 32 dg }
  pieceOffs.foldl (fun (s : State) o => s.ckSend p c 2 (to_ + o) 256 (at_ o) 0) s1

/-- Every store of a block is acknowledged: the next block, or the manifest without MAGIC. -/
def State.ckStored (s : State) (p : Nat) (k : Ckpt) (c : Cmd) : State :=
  let k1 : Ckpt := { k with blocks := k.blocks + 1, img := k.img.filter (fun e => decide (imgInk ≤ e.1)) }
  let s1 : State := s.setCkpPart p { s.ckpPart p with blocks := k1.blocks }
  if k1.blocks < mfNBLK k.man then s1.setCkpt p { k1 with phase := 1 }
  else
    let m0 := mwrite k1.man 48 8 s.now
    let ml := mfMLEN m0
    let dg := sha3x256 (mread (mwrite m0 0 8 ckMagic) 0 (ml - 32)) (ml - 32)
    let m := mwrite m0 (ml - 32) 32 dg
    let s2 : State := s1.setCkpt p { k1 with phase := 4, man := m, watched := [] }
    (blocksOf 8 (ml - 8)).foldl (fun (s : State) b => s.ckSend p c 2 b.1 b.2 (mread m b.1 b.2) 0) s2

/-! RESTORE (12 R442-R444). -/

/-- Reads of a range of the area, keyed by where their bytes go and how many they are. -/
def State.ckAsk (s : State) (p : Nat) (c : Cmd) (o n key : Nat) : State :=
  (blocksOf o n).foldl (fun (s : State) b => s.ckSend p c 1 b.1 b.2 0 (key + (b.1 - o) + b.2 * 2 ^ 64)) s

/-- The header is wrong (12 R439, R442). -/
def headerBad (m : Mem) : Bool :=
  mread m 0 8 != ckMagic || mread m 8 4 != 1 || decide (mfNSECT m < 3) || decide (mfNSECT m > 65535)
    || mfMLEN m != mfLen (mfNSECT m) (mfNBLK m)

def digestBad (m : Mem) : Bool :=
  let ml := mfMLEN m
  sha3x256 (mread m 0 (ml - 32)) (ml - 32) != mread m (ml - 32) 32

/-- TAG, MODE, NCLU, and NQUAD in a Ruled partition. -/
def State.mismatch (s : State) (p : Nat) (m : Mem) (c : Cmd) : Bool :=
  let x := s.part p
  mfTAG m != c.at_ 24 8 || bit (mread m 60 1) 4 != x.ruled || mread m 61 1 % 128 != x.clus.length
    || (x.ruled && mread m 62 1 % 32 != x.quads.length)

/-- Step 5: objects kept or mapped; the code that ends the RESTORE. -/
def State.restoreObjs (p : Nat) : List Sect → State → State × Nat
  | [], s => (s, 0)
  | x :: xs, s =>
    if (s.part p).objs.any (fun o => o.desc == x.desc) then State.restoreObjs p xs s
    else if (s.part p).objs.any (fun o => o.overlaps (dGran x.desc) (dNgran x.desc)) then (s, cTMVOVERLAP)
    else match s.mapNew p x.desc with
      | some t => State.restoreObjs p xs t
      | none => (s, cTMVNOSPACE)

def Sect.grans (x : Sect) : List Nat := List.range' (dGran x.desc) (dNgran x.desc)

/-- Steps 3 to 5, once the whole manifest is in. -/
def State.restoreCheck (s : State) (p : Nat) (k : Ckpt) (c : Cmd) : State :=
  if digestBad k.man then s.ckFail p k cCKPMANIFEST
  else if s.mismatch p k.man c then s.ckFail p k cCKPMISMATCH
  else
    let s1 : State := (List.range 23).foldl (fun (s : State) i => s.poolDisable p i) s
    let objs := (mfSections k.man).filter (fun x => x.kind == 4)
    let r := State.restoreObjs p objs s1
    if r.2 ≠ 0 then r.1.ckFail p k r.2
    else r.1.setCkpt p { k with phase := 13, watched := (objs.map Sect.grans).flatten }

/-- The bytes of a block are in: its digest, then its place; other sections are kept for the load (12 R442). -/
def State.restoreBlock (s : State) (p : Nat) (k : Ckpt) : State :=
  let x := sectOf k.man k.blocks
  let o0 := (k.blocks - x.first) * blkSize
  let at_ := fun o => mread k.img (imgBlock + o) 256
  if !(s.ckHeld p x k.blocks true).isEmpty then s.recallAll p (s.ckHeld p x k.blocks true)
  else if sha3x256 (blockOf at_) blkSize ≠ mread k.man (mfDig k.man k.blocks) 32 then
    let q := (s.part p).quads
    let s1 : State := s.logEvent (s.event cTMVDIGEST 5 7 (q.getD (k.blocks % q.length) 0) k.blocks 0 0)
    s1.restoreFail p k cTMVDIGEST
  else
    let keep := k.img.filter (fun e => decide (e.1 < imgBlock))
    let img := if x.kind = 4 then keep
      else keep ++ (k.img.filter (fun e => decide (imgBlock ≤ e.1))).map (fun e => (e.1 - imgBlock + k.blocks * blkSize, e.2))
    let s1 : State := if x.kind = 4 then
        (pieceOffs.filter (fun o => decide (o0 + o < x.len))).foldl (fun (s : State) o => match s.objHome p x (o0 + o) with
          | some h => s.putHome p h 256 (at_ o) false
          | none => s) s
      else s
    let s2 : State := s1.setCkpPart p { s1.ckpPart p with blocks := k.blocks + 1 }
    s2.setCkpt p { k with phase := if k.blocks + 1 < mfNBLK k.man then 13 else 15, blocks := k.blocks + 1, img }

/-- The bytes of a kept section, from 0. -/
def Ckpt.section_ (k : Ckpt) (kind : Nat) : Mem :=
  match (mfSections k.man).find? (fun x => x.kind == kind) with
  | some x => (k.img.filter (fun e => decide (x.first * blkSize ≤ e.1) && decide (e.1 < x.first * blkSize + x.len))).map
      (fun e => (e.1 - x.first * blkSize, e.2))
  | none => []

/-- A requester of the checkpoint whose index another partition holds. -/
def State.reqClash (s : State) (p : Nat) (m : Mem) : Bool :=
  (List.range 256).any (fun r => mread m (1024 + 32 * r) 32 != 0 && (s.reqr r).valid && (s.reqr r).part != p)

def reqFrom (p e : Nat) : Requester :=
  { valid := bit e 0, kind := bits e 1 2, part := p, ctx := bits e 7 3, quota := bits e 64 64, inuse := bits e 128 64
    hiwater := bits e 192 64 }

def poolFrom (m : Mem) (c : Nat) : Pool :=
  let e := mread m (8 + 32 * c) 32
  let base := bits e 0 27
  let ngran := bits e 27 27
  if bits e 64 32 = 2 then
    let total := ngran * granSize / classSize c
    let n := bits e 96 32
    let st := (List.range n).map (fun i => mread m (bits e 128 64 + 4 * i) 4)
    let md := ((List.range total).map (fun i => (i, mread m (bits e 192 64 + 2 * i) 2))).filter (fun x => x.2 != 0)
    ({ st := .active, base, ngran, total, md } : Pool).withStack st
  else { base, ngran }

/-- The INKWELL section loaded: pools with their stacks and metadata, requesters at their indices. -/
def State.loadInk (s : State) (p : Nat) (m : Mem) : State :=
  let s1 : State := s.setRg (oInkPart p) (mread m 0 8 % 8)
  let s2 : State := (List.range 23).foldl (fun (s : State) c =>
    let q := poolFrom m c
    let s' : State := s.setPool (poolKey p c) q
    { s' with metaUsed := s'.metaUsed + (if q.st = .active then metaUnits q.total else 0) }) s1
  (List.range 256).foldl (fun (s : State) r =>
    let e := mread m (1024 + 32 * r) 32
    if e ≠ 0 then s.setReqr r (reqFrom p e)
    else if (s.reqr r).part = p then { s with reqs := tdel s.reqs r } else s) s2

/-- The SCHED section loaded. -/
def State.loadSched (s : State) (p c : Nat) (m : Mem) : State :=
  let x := s.part p
  let s1 : State := (s.setRg (oPartTime p) (mread m 0 8)).setCtx p c { s.ctx p c with prio := mread m 8 1 % 4 }
  let s2 : State := (x.clus.zip (List.range x.clus.length)).foldl (fun (s : State) e =>
    s.setDuctus e.1 { s.ductus e.1 with floor := tput (s.ductus e.1).floor c (mread m (16 + 2 * e.2) 2) }) s1
  (x.quads.zip (List.range x.quads.length)).foldl (fun (s : State) e =>
    (List.range 4).foldl (fun (s : State) i =>
      let g := mread m (256 + 2112 * e.2 + 528 * i) 528
      let v := s.mover e.1
      s.setMover e.1 { v with glyph := if g = 0 then tdel v.glyph (4 * p + i) else tput v.glyph (4 * p + i) g }) s) s2

/-- The IMAGE loaded. -/
def State.loadImage (s : State) (p c : Nat) (m : Mem) : State :=
  let n := s.nclu p
  let b := 4096 * (n + 1)
  let sub := fun (lo len : Nat) => (m.filter (fun e => decide (lo ≤ e.1) && decide (e.1 < lo + len))).map (fun e => (e.1 - lo, e.2))
  let s1 : State := s.fillCores p c n (fun l k => coreOf (sub (b + imageSize * (64 * l + k)) imageSize))
  let h := headerLoad (mread m 0 4096)
  let recs := (List.range n).map (fun l => (l, mread m (4096 * (l + 1)) 4096))
  s1.setCtx p c { s1.ctx p c with
    seq9 := h.seq9
    seed := h.seed
    rperiod := h.rperiod
    lnode := s1.ownNode p c
    gates := (recs.map (fun r => ((List.range 4).map (fun i => (4 * r.1 + i, recordGate r.2 i))))).flatten.filter (fun e => e.2 != 0)
    seq8 := recs.map (fun r => (r.1, recordSeq r.2)) }

/-- Step 7: everything matched, and the sections are loaded. -/
def State.restoreLoad (s : State) (p : Nat) (k : Ckpt) : State :=
  let ink := k.section_ 2
  if s.reqClash p ink then s.restoreFail p k cCKPMISMATCH
  else
    let s1 : State := ((s.loadInk p ink).loadSched p k.s (k.section_ 3)).loadImage p k.s (k.section_ 1)
    let s2 : State := s1.endLaunch p k.s cCMDABORTED
    let st := if mread k.man 63 1 = 7 then CtxState.paused else CtxState.idle
    (s2.setCtx p k.s { s2.ctx p k.s with st, stopcode := 0 }).ckEnd p k 0

/-! The pump: what is done next once nothing is in flight. -/

def State.ckStep (s : State) (p : Nat) (k : Ckpt) (c : Cmd) : State :=
  if k.code ≠ 0 then s.ckBad p k k.code
  else if k.torn && k.phase < 4 && !k.restore then s.ckFail p k cCKPTORN
  else match k.phase with
    | 0 => s.setCkpt p { k with phase := 1 }
    | 1 => s.ckReadBlock p k
    | 2 => s.ckStoreBlock p k c
    | 3 => s.ckStored p k c
    | 4 => (s.setCkpt p { k with phase := 5 }).ckSend p c 2 0 8 ckMagic 0
    | 5 => s.ckEnd p k 0
    | 10 => (s.setCkpt p { k with phase := 11 }).ckAsk p c 0 128 0
    | 11 => if headerBad k.man then s.ckFail p k cCKPMANIFEST
      else (s.setCkpt p { k with phase := 12 }).ckAsk p c 128 (mfMLEN k.man - 128) 128
    | 12 => s.restoreCheck p k c
    | 13 => (s.setCkpt p { k with phase := 14 }).ckAsk p c (mfDATAOFF k.man + blkSize * k.blocks) blkSize imgBlock
    | 14 => s.restoreBlock p k
    | _ => s.restoreLoad p k

/-- Steps taken one after another until something is in flight or must be waited for. -/
def State.ckPumpN (p : Nat) : Nat → State → State
  | 0, s => s
  | n + 1, s =>
    match (s.part p).ckpt with
    | none => s
    | some k =>
      match s.cmd k.seq with
      | none => s
      | some c =>
        if s.ckFlying p k.seq then s
        else
          let t := s.ckStep p k c
          if t.part p = s.part p then t else State.ckPumpN p n t

def State.ckPump (s : State) (p : Nat) : State := State.ckPumpN p 8 s

/-- An operation of a CHECKPOINT or RESTORE is answered: a store, or the bytes of a load. -/
def State.ckArrive (s : State) (p key n v : Nat) (pz load : Bool) : State :=
  match (s.part p).ckpt with
  | none => s
  | some k =>
    let k1 : Ckpt := if !load then k
      else if pz then { k with code := if k.code = 0 then cPOISON else k.code }
      else if k.phase = 14 then { k with img := mwrite k.img key n v }
      else { k with man := mwrite k.man key n v }
    (s.setCkpt p k1).ckPump p

/-- A piece of a CHECKPOINT's object has come from the host. -/
def State.ckHostArrive (s : State) (p o v : Nat) (pz : Bool) : State :=
  match (s.part p).ckpt with
  | none => s
  | some k =>
    let k1 : Ckpt := if pz then { k with code := if k.code = 0 then cPOISON else k.code }
      else { k with img := mwrite k.img (imgBlock + o) 256 v }
    (s.setCkpt p k1).ckPump p

/-- An operation of a CHECKPOINT or RESTORE failed: the command ends with the code. -/
def State.ckLost (s : State) (p code : Nat) : State :=
  match (s.part p).ckpt with
  | none => s
  | some k => s.ckBad p k code

/-! The commands. -/

/-- AREA names a LIVE node and an offset that is a multiple of 1 MiB (12 R437). -/
def State.areaBad (s : State) (p a : Nat) : Bool := !lnLive (s.lnt p (areaNode a)) || areaOff a % blkSize != 0

/-- An open collect entry or Ligature group of a context (12 R438). -/
def State.ctxOpen (s : State) (p c : Nat) : Bool :=
  (s.part p).clus.any (fun n => (List.range' (16 * c) 16).any (fun i => ((s.ductus n).entry i).st != 0))
    || s.grps.any (fun e => e.2.st != 0 && e.2.p == p && e.2.s == c)

/-- The granules of a manifest's OBJECT sections. -/
def objGrans (m : Mem) : List Nat := (((mfSections m).filter (fun x => x.kind == 4)).map Sect.grans).flatten

/-- Step 4 in a Freehand partition: every front-end cache and credit of the partition recalled. -/
def State.ckRecall (s : State) (p : Nat) : State :=
  if (s.part p).ruled then s
  else
    let s1 : State := (List.range 23).foldl (fun (s : State) c => s.recallCaches p c) s
    (List.range 256).foldl (fun (s : State) r => if (s.reqr r).valid && (s.reqr r).part == p then s.recallCredit r else s) s1

/-- CHECKPOINT. The INKWELL section is read at the start, so its pools need not wait (log 38). -/
def execCheckpoint (seq : BitVec 64) (s : State) : Host.Outcome State Fault Refusal :=
  .next (s.start seq 0x20 (fun c s =>
    let p := c.f
    let x := s.ctx p c.ctxNo
    if !(x.st == .idle || x.st == .paused) then s.stateCmd c.seq
    else if s.areaBad p c.area then s.doneCmd c.seq cCMDBADREC 0
    else if (s.part p).ckpt.isSome then s.doneCmd c.seq cCKPBUSY 0
    else if s.ctxOpen p c.ctxNo then s.doneCmd c.seq cCKPOPEN 0
    else
      let s1 : State := (s.startCmd c).ckRecall p
      let man := s1.manifest c
      let k : Ckpt := { seq := c.seq, s := c.ctxNo, restore := false, watched := objGrans man, torn := false, out := 0, blocks := 0
                        phase := 0, code := 0, man, img := (s1.inkSection p).map (fun e => (imgInk + e.1, e.2)) }
      let s2 : State := (s1.setCkpt p k).setCkpPart p { s1.ckpPart p with op := 1, blocks := 0 }
      s2.ckSend p c 2 0 8 0 0))

/-- RESTORE. -/
def execRestore (seq : BitVec 64) (s : State) : Host.Outcome State Fault Refusal :=
  .next (s.start seq 0x21 (fun c s =>
    let p := c.f
    let x := s.ctx p c.ctxNo
    if !x.st.atRest then s.stateCmd c.seq
    else if s.areaBad p c.area then s.doneCmd c.seq cCMDBADREC 0
    else if (s.part p).ckpt.isSome then s.doneCmd c.seq cCKPBUSY 0
    else
      let k : Ckpt := { seq := c.seq, s := c.ctxNo, restore := true, watched := [], torn := false, out := 0, blocks := 0, phase := 10
                        code := 0, man := [], img := [] }
      let s1 : State := ((s.startCmd c).setCkpt p k).setCkpPart p { s.ckpPart p with op := 2, blocks := 0 }
      s1.ckPump p))

end Sys2Proof.Machine
end

