-- ==== Sys2Proof/Machine/Commands.lean ====
section
/-! DEFINITION. The remaining host commands: FENCE, CANCEL_BATCH and QUERY (11 R405, 06 R227), with the registers QUERY
reads (10 R391, 11 R417). -/

namespace Sys2Proof.Machine

/-- What a FENCE waits for: every earlier command of its ring, or with SCOPE 1 of its function. -/
def State.fenceWaits (s : State) (c : Cmd) : Bool :=
  s.cmds.any (fun d => d.f == c.f && (bit c.body 64 || d.r == c.r) && decide (d.seq < c.seq) && !d.final)

/-- FENCE starts, and ends when nothing earlier in its scope is unfinished. -/
def execFence (seq : BitVec 64) (s : State) : Host.Outcome State Fault Refusal :=
  .next (match s.cmd seq.toNat with
    | none => s
    | some c =>
      if c.op = 6 ∧ c.st = 1 ∧ s.plat.power = .running then
        (if s.fenceWaits c then s else (s.doneCmd c.seq 0 0).settle c.f)
      else s.start seq 6 (fun c s => if s.fenceWaits c then s.startCmd c else s.doneCmd c.seq 0 0))

/-- CANCEL_BATCH: DCANCEL with ALL = 1 for the context (06 R227). -/
def execCancelBatch (seq : BitVec 64) (s : State) : Host.Outcome State Fault Refusal :=
  .next (s.start seq 7 (fun c s => (s.cancelAll c.f c.ctxNo (c.at_ 12 2) (c.at_ 14 2)).doneCmd c.seq 0 0))

def partCode (x : PartState) : Nat :=
  match x with
  | .free => 0
  | .creating => 1
  | .active => 2
  | .draining => 3
  | .aborting => 4

/-- PRT_PART_STAT(p) (10 R391). -/
def State.partStat (s : State) (p : Nat) : Nat :=
  let x := s.part p
  partCode x.st + 8 * b2n x.ruled + 16 * (x.reason % 16) + 256 * b2n x.err + 2 ^ 9 * x.clus.length
    + (match x.resident with
       | some c => 2 ^ 16 * c + 2 ^ 19
       | none => 0)

/-- PRT_CTX_STAT(p, c) (10 R391); STOPCODE reads 0 in every state but STOPPED. -/
def State.ctxStat (s : State) (p c : Nat) : Nat :=
  let x := s.ctx p c
  ctxCode x.st + 16 * (x.prio % 4) + 64 * b2n x.rtb + 2 ^ 16 * (if x.st = .stopped then x.stopcode % 2 ^ 16 else 0) + 2 ^ 32 * (x.rperiod % 2 ^ 32)

/-- QUERY: the value goes into DETAIL (11 R405, R408). -/
def execQuery (seq : BitVec 64) (s : State) : Host.Outcome State Fault Refusal :=
  .next (s.start seq 0x30 (fun c s =>
    let v := match bits c.body 64 2 with
      | 0 => s.partStat c.f
      | 1 => s.ctxStat c.f (bits c.body 72 3)
      | _ => s.jrnHead
    s.doneCmd c.seq 0 v))

end Sys2Proof.Machine
end

