-- ==== Sys2Proof/Machine/Power.lean ====
section
/-! DEFINITION. Resets (14 R477-R479), the stop of the device (13 R457, R465, R470), clocks and the root PLL (13 R461-R465,
14 R491), rails and AVSBus (13 R452-R460), power domains (13 R466, R467), temperature (13 R468-R471) and Scribe-P's loops
(14 R493, R494). -/

namespace Sys2Proof.Machine

/-! Resets (14 R477, R478). -/

/-- What every reset keeps of the plant: the timebase, what the board and the fuses hold, and the TAP, which no reset reaches. -/
def Plat.kept (x : Plat) : Plat :=
  { tb := x.tb, tbRun := x.tbRun, tbStarted := x.tbStarted, lock := x.lock, pwrGood := x.pwrGood, power := x.power
    flash := x.flash, tapIr := x.tapIr, fieldLife := x.fieldLife }

/-- A reset or a loss of the supplies that cuts off an update or a recovery's rewrite of flash: flash may hold a partial image, and no
boot accepts what it then holds (14 R479, R488; log 122). -/
def State.cutFlash (s : State) : State :=
  let x := s.plat
  if (1 ≤ x.updSt ∧ x.updSt ≤ 3) ∨ x.recSt = 3 then
    { s.useFree with plat := { x with flash := if s.freeVal.toNat % 2 = 0 then x.flash else s.freeVal.toNat } }
  else s

/-- What a power-on reset and a loss of the auxiliary supplies leave: what lies outside the device, its fuses, and the TAP, which no
reset reaches (14 R477). -/
def State.powerState (s : State) (power : Power) : State :=
  let c := s.cutFlash
  { State.reset with
    pending := s.pending
    free := c.free
    plat := { power, flash := c.plat.flash, fieldLife := s.plat.fieldLife, tapIr := s.plat.tapIr } }

/-- A cold reset keeps the Blot Log with its positions, and the timebase; events already in the log's queue are still written
(log 40). -/
def State.coldState (s0 : State) : State :=
  let s := s0.cutFlash
  { State.reset with
    pending := s.pending
    free := s.free
    plat := s.plat.kept
    blt := s.blt
    bltHead := s.bltHead
    upsets := s.upsetsIn (fun x => match x with
      | .blot _ => true
      | _ => false)
    bltq := s.bltq
    bltNote := { next := s.bltNote.next, skip := s.bltNote.skip }
    reg := s.reg.filter (fun e => e.1 == 0x00800008) }

/-- A journal entry that is not final becomes ABORTED with the boot tick as END (11 R414). -/
def jrnAborted (now e : Nat) : Nat :=
  if bits e 288 3 ≥ 2 then e else setBits (setBits (setBits e 288 3 3) 256 16 0x0601) 384 64 now

/-- A warm reset keeps more: the journal, FAB_NODE and FAB_FM, the checkpoint registers and a trip. DRAM that partitions held
goes to be cleared. -/
def State.warmState (s : State) : State :=
  let c := s.coldState
  let held := ((List.range 16).map (fun p => if (s.part p).st = .free then [] else (s.part p).dpa)).flatten
  { c with
    plat := { c.plat with trip := s.plat.trip, warmBoot := true }
    jrn := s.jrn.map (fun e => (e.1, jrnAborted s.now e.2))
    jrnHead := s.jrnHead
    jrnWseq := s.jrnHead
    reg := s.reg.filter (fun e => e.1 == 0x00800008 || e.1 == oFabNode || e.1 == oFabFm)
    mtbf := s.mtbf
    lastFail := s.lastFail
    hasPrev := s.hasPrev
    ckp := s.ckp.map (fun e => (e.1, { e.2 with op := 0 }))
    dram := s.dram
    dramPoison := s.dramPoison
    upsets := s.upsetsIn (fun x => match x with
      | .blot _ | .journal _ | .dram _ => true
      | _ => false)
    clearing := s.clearing ++ held }

/-- The device after a cold reset, its clocks running when the root PLL is locked: boot stage 0 begins (14 R480). -/
def State.coldReset (s : State) : State :=
  let c := s.coldState
  { c with plat := { c.plat with power := if c.plat.lock then .running else .waitGood } }

/-- A warm reset; before stage 6 of a cold boot it acts as a cold one (14 R477). -/
def State.warmReset (s : State) : State :=
  if s.plat.ready6 || s.plat.warmBoot then s.warmState else s.coldReset

/-- POWER_ON_RESET: the auxiliary supplies come into range; only what lies outside the device stays. -/
def execPowerOnReset (s : State) : Host.Outcome State Fault Refusal :=
  .next (s.powerState .waitGood)

/-- PWR_GOOD_ASSERT: a cold reset, and boot begins unless COLD_RESET_L is low or the PLL is not locked. -/
def execPwrGoodAssert (s : State) : Host.Outcome State Fault Refusal :=
  let s1 : State := { s with plat := { s.plat with pwrGood := true } }
  .next (match s.plat.power with
    | .islandReset => s
    | .inReset => s1
    | .running => s
    | _ => s1.coldReset)

/-- COLD_RESET_ASSERT: COLD_RESET_L low for 1 µs puts the device in reset. -/
def execColdResetAssert (s : State) : Host.Outcome State Fault Refusal :=
  .next (if s.plat.power = .islandReset then s
    else
      let c := s.coldState
      { c with plat := { c.plat with power := .inReset, trip := s.plat.trip } })

/-- COLD_RESET_L: the pin rises again while PWR_GOOD is asserted, and a cold reset runs. -/
def execColdResetL (s : State) : Host.Outcome State Fault Refusal :=
  .next (if s.plat.power ≠ .inReset then s
    else if s.plat.pwrGood then s.coldReset
    else { s with plat := { s.plat with power := .waitGood } })

/-- WARM_RESET_L: it has no effect in reset, before PWR_GOOD, or on a stopped device. -/
def execWarmResetL (s : State) : Host.Outcome State Fault Refusal :=
  .next (if s.plat.power = .running then s.warmReset else s)

/-- FWS_RESET: the key starts a warm reset (14 R499). -/
def State.fwsReset (s : State) (v : BitVec 64) : State :=
  if s.plat.power = .running ∧ fld v 0 32 = 0x57525354 then s.warmReset else s

/-- FWS_RESET. -/
def execFwsReset (v : BitVec 64) (s : State) : Host.Outcome State Fault Refusal := .next (s.fwsReset v)

/-- AUX_SUPPLY_LOSS: the always-on island is held in reset and the Blot Log is lost (12 R425). -/
def execAuxSupplyLoss (s : State) : Host.Outcome State Fault Refusal :=
  .next (s.powerState .islandReset)

/-! The stop of the device (13 R457). -/

/-- Every working clock stops and the links go idle; only a cold reset starts the device again. -/
def State.stopDevice (s : State) : State :=
  { s with
    plat := { s.plat with power := .stopped, dom := s.plat.dom.map (fun e => (e.1, if e.2 = 0 then 0 else 3)) }
    ports := s.ports.map (fun e => (e.1, { e.2 with st := if e.2.st = .disabled then .disabled else .down }))
    link := .down }

/-- ALERT_L (13 R471). -/
def Plat.alertL (x : Plat) : Bool := x.alert || x.trip || !x.railFault.isEmpty || x.avserr

/-- PWR_GOOD_DEASSERT: the device stops, and no record is written. -/
def execPwrGoodDeassert (s : State) : Host.Outcome State Fault Refusal :=
  let s1 : State := { s with plat := { s.plat with pwrGood := false } }
  .next (if s.plat.power = .running then s1.stopDevice else s1)

/-- Whether a measured voltage of a rail is in fault (13 R452, R457); rail 9 is the reference clock. -/
def railBad (x : Plat) (r mv : Nat) : Bool :=
  let away := fun (nom tol : Nat) => decide (1000 * nom > 1000 * mv + 2 * tol * nom) || decide (1000 * mv > 1000 * nom + 2 * tol * nom)
  match r with
  | 0 => decide (mv + 20 < x.vset) || decide (mv > x.vset + 20) || decide (mv > 850)
  | 1 => away 750 30
  | 2 => away 1050 30
  | 3 => away 1800 50
  | 4 => away 850 20
  | 5 => away 1200 30
  | 6 => away 1200 50
  | 7 => away 800 30
  | 8 => away 1800 50
  | _ => false

/-- A PLT_RAIL record of a rail (13 R457), counted (12 R432). -/
def State.railRecord (s : State) (r : Nat) : State := (s.logEvent (s.event 0x0831 4 9 r 0 0 0)).count 0x0831

/-- Whether the monitor of the rails compares: while PWR_GOOD is asserted, also on a device that has stopped. -/
def Plat.monitors (x : Plat) : Bool := x.power == .running || (x.pwrGood && (x.power == .stopped || x.power == .waitGood))

/-- RAIL_FAULT: a rail measured outside twice its tolerance; rails 0 to 6 stop the device, and an auxiliary supply holds the
island in reset. -/
def execRailFault (rail : BitVec 4) (mv : BitVec 12) (s : State) : Host.Outcome State Fault Refusal :=
  let r := rail.toNat
  let p := { s.plat with railMv := tput s.plat.railMv r mv.toNat }
  .next (if !s.plat.monitors || decide (r > 8) then s
    else if !railBad s.plat r mv.toNat then { s with plat := p }
    else if r ≤ 6 then
      let p1 := { p with railFault := addOnce p.railFault r }
      (({ s with plat := p1 } : State).stopDevice).railRecord r
    else s.powerState .islandReset)

/-- PLL_LOCK_LOSS: the device stops, the timebase holds, and rail 9 is recorded (13 R465). -/
def execPllLockLoss (s : State) : Host.Outcome State Fault Refusal :=
  let p := { s.plat with lock := false, tbRun := false, refloss := true }
  .next (if s.plat.power = .islandReset || !s.plat.lock then s
    else if s.plat.power = .running then
      let p1 := { p with railFault := addOnce p.railFault 9 }
      (({ s with plat := p1 } : State).stopDevice).railRecord 9
    else { s with plat := p })

/-- ROOT_PLL_LOCK: the timebase counts on, from 0 at the first lock after power-on (14 R491); a device that waited for its
clocks boots (13 R461). -/
def execRootPllLock (s : State) : Host.Outcome State Fault Refusal :=
  .next (if s.plat.power = .islandReset || s.plat.lock then s
    else
      let p := { s.plat with lock := true, tbRun := true, tb := if s.plat.tbStarted then s.plat.tb else 0, tbStarted := true }
      let q := if p.power = .waitGood && p.pwrGood then { p with power := .running } else p
      { s with plat := q })

/-- Whether any Ruled partition exists. -/
def State.ruledExists (s : State) : Bool := (List.range 16).any (fun p => (s.part p).st != .free && (s.part p).ruled)

def oTbTrim : Nat := 0x00101010

/-- A signed step of the timebase, ignored with ERR under a Ruled partition (14 R491). -/
def State.tbStep (s : State) (v : BitVec 64) : State :=
  if s.plat.power ≠ .running then s
    else if s.ruledExists then s.setRg oTbTrim (setBits (s.rg oTbTrim) 63 1 1)
    else { s with plat := { s.plat with tb := (s.plat.tb + v.toNat) % 2 ^ 64 } }

/-- CLK_TB_STEP. -/
def execClkTbStep (v : BitVec 64) (s : State) : Host.Outcome State Fault Refusal := .next (s.tbStep v)

/-- CLK_TB_TRIM.TRIM in ppb, within its limits. -/
def State.trim (s : State) : Int := max (-200000) (min 200000 (sgn (s.rg oTbTrim) 19))

/-- One cycle of the timebase's tap (14 R491): 1, and once in 10^9 / |T| cycles 2 or 0 by the trim's sign. -/
def State.tick (s : State) : State :=
  let x := s.plat
  let acc := x.trimAcc + s.trim.natAbs
  let n := if acc < 1000000000 then 1 else if s.trim > 0 then 2 else 0
  if x.tbRun then
    { s with plat := { x with tb := (x.tb + n) % 2 ^ 64, trimAcc := if acc < 1000000000 then acc else acc - 1000000000 } }
  else s

/-! Dividers (13 R462-R464). -/

/-- Partitions with Ruled contexts, which a throttle of the whole device reaches. -/
def State.ruledParts (s : State) : List Nat := (List.range 16).filter (fun p => (s.part p).st != .free && (s.part p).ruled)

def State.isRuledClu (s : State) (n : Nat) : Bool :=
  match s.holder n with
  | some p => (s.part p).ruled
  | none => false

/-- DROOP_DETECT: VCORE more than 40 mV below its setpoint (13 R463). -/
def execDroopDetect (mv : BitVec 12) (s : State) : Host.Outcome State Fault Refusal :=
  .next (if s.plat.power ≠ .running || s.plat.swallow || decide (mv.toNat + 40 ≥ s.plat.vset) then s
    else
      let s1 : State := { s with plat := { s.plat with swallow := true } }
      s1.throttled 0 0 s.ruledParts)

/-- DIDT_RELEASE. -/
def execDidtRelease (s : State) : Host.Outcome State Fault Refusal :=
  .next { s with plat := { s.plat with swallow := false } }

/-! VCORE (13 R458-R460). -/

/-- Cluster domains that are ON. -/
def Plat.onClus (x : Plat) : List Nat := (List.range 64).filter (fun n => tgetD x.dom n 0 == 2)

/-- The voltage at which a cluster runs at a divider (13 R459). -/
def Plat.vAt (x : Plat) (d : Nat) : Nat :=
  let v : Int := (x.vnom : Int) + x.margin - 20 * ((d : Int) - 6)
  (max 550 (min 800 v)).toNat

/-- D: the smallest divider among the clusters that are ON. -/
def Plat.minDiv (x : Plat) : Nat := x.onClus.foldl (fun m n => min m (x.adiv n)) 12

/-- The smallest divider that the last confirmed voltage suits (13 R459, R460). -/
def Plat.floorDiv (x : Plat) : Nat := ((List.range' 6 7).find? (fun d => decide (x.vAt d ≤ x.vconf))).getD 12

/-- Whether Scribe-P's loops run. -/
def State.loopsRun (s : State) : Bool :=
  s.plat.power == .running && decide (3 ≤ s.plat.stage) && decide (s.plat.stage ≤ 6) && !s.plat.scribeDown.contains 1

/-- AVS_STATUS_READ: a regulator fault is recorded for rail 0, and the measured voltage kept. -/
def execAvsStatusRead (fault : Bool) (mv : BitVec 12) (s : State) : Host.Outcome State Fault Refusal :=
  .next (if !s.loopsRun then s
    else
      let s1 : State := { s with plat := { s.plat with railMv := tput s.plat.railMv 0 mv.toNat } }
      if fault then s1.railRecord 0 else s1)

/-- AVS_VOLTAGE_WRITE: Scribe-P writes the setpoint of D, or a higher one for a faster clock, none while a Ruled partition fixes
it; a write is confirmed when acknowledged and read back within 10 mV, and the third failure sets AVSERR (13 R459, R460). -/
def execAvsVoltageWrite (mv : BitVec 12) (acked : Bool) (readback : BitVec 12) (s : State) : Host.Outcome State Fault Refusal :=
  let x := s.plat
  let v := mv.toNat
  .next (if !s.loopsRun || x.avserr || s.ruledExists || !((List.range' 6 7).any (fun d => decide (d ≤ x.minDiv) && x.vAt d == v)) then s
    else if acked && decide (readback.toNat ≤ v + 10) && decide (v ≤ readback.toNat + 10) then
      { s with plat := { x with vset := v, vconf := v, avsTry := 0, railMv := tput x.railMv 0 readback.toNat } }
    else if x.avsTry < 2 then { s with plat := { x with avsTry := x.avsTry + 1 } }
    else
      let caps := (List.range 64).map (fun n => (n, max x.floorDiv (tgetD x.capDiv n 6)))
      { s with plat := { x with avserr := true, avsTry := 0, vset := x.vconf, capDiv := caps } })

/-! The cap loop (14 R493). -/

/-- PWR_CAP within its limits (14 R499). -/
def State.cap (s : State) : Nat := clampN 600 1250 (bits (s.rg 0x00200008) 0 11)

def State.onOf (s : State) (ruled : Bool) : List Nat := s.plat.onClus.filter (fun n => s.isRuledClu n == ruled)

/-- A step the loop can undo: kind 1 or 3 (dividers of Freehand or Ruled clusters, named by the mask above bit 3), 2 or 4
(NCLK). A divider is lowered only to what the confirmed voltage suits (13 R459). -/
def Plat.raise (x : Plat) (ns : List Nat) (kind : Nat) : Plat :=
  { x with capDiv := ns.foldl (fun t n => tput t n (tgetD t n 6 + 1)) x.capDiv
           capSteps := (kind + 8 * listSum (ns.map (fun n => 2 ^ n))) :: x.capSteps }

def Plat.lower (x : Plat) (ns : List Nat) : Tbl Nat :=
  ns.foldl (fun t n => tput t n (max x.floorDiv (max 6 (tgetD t n 6 - 1)))) x.capDiv

/-- The clusters of a step to be undone whose dividers may fall: not those of a Ruled partition that stand where they stood when it
was created (01 R26, 10 R387). -/
def State.undoClus (s : State) (mask : Nat) : List Nat :=
  ((List.range 64).filter (bit mask)).filter (fun n => match s.holder n with
    | some p => !(s.part p).ruled || decide (tgetD (s.part p).clk n 6 < tgetD s.plat.capDiv n 6)
    | none => true)

/-- Whether NCLK may rise again: every Ruled partition was created with the faster one (10 R387). -/
def State.undoNclk (s : State) : Bool := s.ruledParts.all (fun p => (s.part p).nclk == 4)

/-- The most recent step undone, as far as held clocks allow; a change that a Ruled partition sees is a protection throttle (14 R493). -/
def State.undoStep (s : State) (x : Plat) (k : Nat) : State :=
  let hit := fun (t : State) (ps : List Nat) => if ps.isEmpty then t else t.throttled 0 0 ps
  if k % 2 = 1 then
    let ns := s.undoClus (k / 8)
    hit { s with plat := { x with capDiv := x.lower ns } }
      (s.ruledParts.filter (fun p => ns.any (fun n => (s.part p).clus.contains n)))
  else if s.undoNclk then hit { s with plat := { x with ndiv := 4 } } s.ruledParts
  else { s with plat := x }

/-- One period of the loop at a draw of w watts. -/
def State.capStep (s : State) (w : Nat) : State :=
  let x := { s.plat with watts := w, overCnt := if w > s.cap then s.plat.overCnt + 1 else 0 }
  let free_ := (s.onOf false).filter (fun n => decide (tgetD x.capDiv n 6 < 12))
  let rul := (s.onOf true).filter (fun n => decide (tgetD x.capDiv n 6 < 12))
  if w > s.cap then
    if !free_.isEmpty then { s with plat := x.raise free_ 1 }
    else if !s.ruledExists && x.ndiv == 4 then { s with plat := { x with ndiv := 6, capSteps := 2 :: x.capSteps } }
    else if x.overCnt ≥ 10 && s.ruledExists then
      if !rul.isEmpty then ({ s with plat := x.raise rul 3 } : State).throttled 0 0 s.ruledParts
      else if x.ndiv = 4 then
        ({ s with plat := { x with ndiv := 6, capSteps := 4 :: x.capSteps } } : State).throttled 0 0 s.ruledParts
      else { s with plat := { x with floor := true } }
    else { s with plat := { x with floor := true } }
  else if w < s.cap - s.cap / 32 then
    match x.capSteps with
    | [] => { s with plat := { x with floor := false } }
    | k :: rest =>
      s.undoStep { x with capSteps := rest, floor := false } k
  else { s with plat := x }

/-- CAP_LOOP. -/
def execCapLoop (watts : BitVec 11) (s : State) : Host.Outcome State Fault Refusal :=
  .next (if s.loopsRun then s.capStep watts.toNat else s)

/-! Temperature (13 R468-R471, 14 R494). Samples are signed, in units of 0.125 °C. -/

def signed12 (v : Nat) : Int := sgn v 12

def Plat.t (x : Plat) (i : Nat) : Int := signed12 (tgetD x.temp i 0)

/-- Trip limits: DRAM dies 105 °C, the rest 125 °C. -/
def tripLimit (i : Nat) : Int := if 192 ≤ i ∧ i ≤ 223 then 840 else 1000

/-- The die quadrant of a cluster. -/
def quadrant (n : Nat) : Nat := 2 * b2n (decide (n / 8 ≥ 4)) + b2n (decide (n % 8 ≥ 4))

/-- A cluster is held from the sample at its throttle limit until that sensor reads 105 °C (13 R469). -/
def State.sampleHold (s : State) (i : Nat) (t : Int) : State :=
  let x := s.plat
  if i ≥ 192 then s
  else if t ≥ 880 && !x.holdT.contains i then
    ({ s with plat := { x with holdT := addOnce x.holdT i } } : State).throttled 1 (i / 3) (s.holder (i / 3)).toList
  else if t ≤ 840 then { s with plat := { x with holdT := x.holdT.filter (fun m => m != i) } }
  else s

/-- THERMTRIP (13 R470). -/
def State.tripNow (s : State) (i : Nat) : State :=
  let s1 : State := ({ s with plat := { s.plat with trip := true } } : State).stopDevice
  (s1.logEvent (s1.event 0x0830 4 9 i 0 0 0)).count 0x0830

/-- SENSOR_SAMPLE: sensor i reads t; the second sample in a row at its trip limit trips the device. -/
def execSensorSample (i : BitVec 8) (t : BitVec 12) (s : State) : Host.Outcome State Fault Refusal :=
  let n := i.toNat
  let v := signed12 t.toNat
  let x := s.plat
  let hot := decide (v ≥ tripLimit n)
  let mx := if signed12 (tgetD x.tmax n 0) < v then t.toNat else tgetD x.tmax n 0
  let y := { x with
    temp := tput x.temp n t.toNat
    tmax := tput x.tmax n mx
    tripAt := if hot then addOnce x.tripAt n else x.tripAt.filter (fun k => k != n)
    alert := x.alert || decide (v ≥ signed12 (bits (s.rg 0x00300000) 0 12)) }
  let s1 : State := { s with plat := y }
  .next (if x.power ≠ .running then s
    else if hot && x.tripAt.contains n then s1.tripNow n
    else s1.sampleHold n v)

/-- THERMAL_LOOP of a cluster: Th its hottest sensor, Td the hottest DRAM sensor of its die quadrant. -/
def execThermalLoop (clu : BitVec 6) (s : State) : Host.Outcome State Fault Refusal :=
  let n := clu.toNat
  let x := s.plat
  let th := max (x.t (3 * n)) (max (x.t (3 * n + 1)) (x.t (3 * n + 2)))
  let td := (List.range 8).foldl (fun m d => max m (x.t (192 + 4 * d + quadrant n))) (x.t (192 + quadrant n))
  let cur := tgetD x.thDiv n 6
  let ruled := s.isRuledClu n
  let up := if ruled then decide (th ≥ 864) || decide (td ≥ 664) else decide (th ≥ 824) || decide (td ≥ 744)
  let down := decide (th ≤ 784) && decide (td ≤ 704) && !ruled
  .next (if !s.loopsRun then s
    else
      let s1 : State := if up && decide (cur < 12) then { s with plat := { x with thDiv := tput x.thDiv n (cur + 1) } }
        else if down && decide (cur > max 6 x.floorDiv) then { s with plat := { x with thDiv := tput x.thDiv n (cur - 1) } }
        else s
      if s1.plat = s.plat then s
      else if ruled then s1.throttled 1 n (s.holder n).toList
      else s1)

/-! Power domains (13 R466, R467). -/

/-- Whether a domain should be awake. -/
def State.domWanted (s : State) (d : Nat) : Bool :=
  if d < 64 then (s.holder d).isSome
  else if d < 80 then bit (s.rg (oPortCtl (d - 64))) 0
  else decide (4 ≤ s.plat.stage) && decide (s.plat.stage ≤ 6)

/-- DOMAIN_WAKE: at most 8 domains wake at once; a domain no longer wanted goes OFF. -/
def execDomainWake (d : BitVec 7) (s : State) : Host.Outcome State Fault Refusal :=
  let n := d.toNat
  let x := s.plat
  let cur := tgetD x.dom n 0
  .next (if s.plat.power ≠ .running || s.plat.scribeDown.contains 1 || decide (n ≥ 92) then s
    else if !s.domWanted n then (if cur = 0 then s else { s with plat := { x with dom := tdel x.dom n } })
    else if cur ≠ 0 || decide ((x.dom.filter (fun e => e.2 == 1)).length ≥ 8) then s
    else { s with plat := { x with dom := tput x.dom n 1 } })

/-- DOMAIN_WAKE_DONE: the domain is ON. -/
def execDomainWakeDone (d : BitVec 7) (s : State) : Host.Outcome State Fault Refusal :=
  let n := d.toNat
  let x := s.plat
  .next (if s.plat.power ≠ .running || tgetD x.dom n 0 != 1 then s
    else { s with plat := { x with dom := tput x.dom n 2 } })

end Sys2Proof.Machine
end

