-- ==== Sys2Proof/Machine/Signature.lean ====
section
/-! DEFINITION. The signature schemes of the firmware image (00 R13, 14 R485): Ed25519 of RFC 8032 with its SHA-512, and
ML-DSA-65 of FIPS 204 in pure mode with an empty context. Byte strings are little-endian numbers or lists of bytes. PRESUMED
from the published standards (log 19). -/

namespace Sys2Proof.Machine

/-- n bytes of a number, the first lowest. -/
def bytesOf : Nat → Nat → List Nat
  | 0, _ => []
  | n + 1, v => v % 256 :: bytesOf n (v / 256)

/-- Bytes as a number, the first lowest, and the first highest. -/
def bytesNum (l : List Nat) : Nat := l.foldr (fun b v => b + 256 * v) 0

def bigEndian (l : List Nat) : Nat := l.foldl (fun v b => 256 * v + b) 0

/-! SHA-512. Its constants are the first 64 bits of the fractions of roots of primes. -/

/-- The largest r below 2^b with r^k ≤ n, from the bits already chosen. -/
def rootBits (k n : Nat) : Nat → Nat → Nat
  | 0, r => r
  | b + 1, r => rootBits k n b (if (r + 2 ^ b) ^ k ≤ n then r + 2 ^ b else r)

/-- The first 64 bits of the fraction of the k-th root of p. -/
def rootFrac (k p : Nat) : Nat := rootBits k (p * 2 ^ (64 * k)) 70 0 % 2 ^ 64

/-- The first 80 primes. -/
def primes80 : List Nat :=
  (List.range 410).filter (fun n => decide (n ≥ 2) && (List.range 21).all (fun d => d < 2 || d ≥ n || n % d != 0))

def add64 (l : List Nat) : Nat := listSum l % 2 ^ 64

/-- A word turned right. -/
def rotr64 (v n : Nat) : Nat := rotl64 v (64 - n)

def xor3 (a b c : Nat) : Nat := Nat.xor (Nat.xor a b) c

/-- The words of a block from the last sixteen, latest first: n more, then all in order. -/
def sha2Words : Nat → List Nat → List Nat
  | 0, w => w.reverse
  | n + 1, w =>
    let s0 := let x := w.getD 14 0; xor3 (rotr64 x 1) (rotr64 x 8) (x >>> 7)
    let s1 := let x := w.getD 1 0; xor3 (rotr64 x 19) (rotr64 x 61) (x >>> 6)
    sha2Words n (add64 [s1, w.getD 6 0, s0, w.getD 15 0] :: w)

/-- One round on the eight working words, with the round's constant and word. -/
def sha2Round (s : List Nat) (kw : Nat) : List Nat :=
  match s with
  | [a, b, c, d, e, f, g, h] =>
    let ch := Nat.xor (Nat.land e f) (Nat.land (m64 - 1 - e) g)
    let maj := xor3 (Nat.land a b) (Nat.land a c) (Nat.land b c)
    let t := add64 [h, xor3 (rotr64 e 14) (rotr64 e 18) (rotr64 e 41), ch, kw]
    [add64 [t, xor3 (rotr64 a 28) (rotr64 a 34) (rotr64 a 39), maj], a, b, c, add64 [d, t], e, f, g]
  | _ => s

/-- Words of eight bytes, most significant first. -/
def wordsBE : Nat → List Nat → List Nat
  | 0, _ => []
  | n + 1, l => bigEndian (l.take 8) :: wordsBE n (l.drop 8)

/-- n blocks of 128 bytes hashed. -/
def sha2Blocks (ks : List Nat) : Nat → List Nat → List Nat → List Nat
  | 0, _, s => s
  | n + 1, l, s =>
    let ws := sha2Words 64 (wordsBE 16 l).reverse
    let r := ((ks.zip ws).map (fun e => e.1 + e.2)).foldl sha2Round s
    sha2Blocks ks n (l.drop 128) (List.zipWith (fun x y => add64 [x, y]) s r)

/-- SHA-512 of a byte string: 64 bytes. -/
def sha512 (l : List Nat) : List Nat :=
  let n := (l.length + 17 + 127) / 128
  let pad := l ++ 128 :: List.replicate (128 * n - l.length - 17) 0 ++ (bytesOf 16 (8 * l.length)).reverse
  let s := sha2Blocks (primes80.map (rootFrac 3)) n pad ((primes80.take 8).map (rootFrac 2))
  (s.map (fun w => (bytesOf 8 w).reverse)).flatten

/-! Ed25519. -/

def edP : Nat := 2 ^ 255 - 19

/-- The order of the base point. -/
def edL : Nat := 2 ^ 252 + 27742317777372353535851937790883648493

/-- b to the power of the n low bits of e, modulo m. -/
def powMod (m : Nat) : Nat → Nat → Nat → Nat
  | 0, _, _ => 1 % m
  | n + 1, b, e =>
    let r := powMod m n (b * b % m) (e / 2)
    if e % 2 = 1 then b * r % m else r

def edInv (x : Nat) : Nat := powMod edP 255 x (edP - 2)

/-- The curve's d = -121665 / 121666. -/
def edD : Nat := (edP - 121665) * edInv 121666 % edP

/-- A point of the curve by X, Y and Z with x = X / Z, y = Y / Z. -/
structure EdPt where
  x : Nat
  y : Nat
  z : Nat
  deriving DecidableEq, Repr

def edSub (a b : Nat) : Nat := (a + edP - b) % edP

/-- The sum of two points; the law is complete, so it doubles too. -/
def EdPt.add (p q : EdPt) : EdPt :=
  let a := p.z * q.z % edP
  let b := a * a % edP
  let c := p.x * q.x % edP
  let d := p.y * q.y % edP
  let e := edD * (c * d % edP) % edP
  let f := edSub b e
  let g := (b + e) % edP
  { x := a * f % edP * (edSub ((p.x + p.y) * (q.x + q.y) % edP) ((c + d) % edP)) % edP
    y := a * g % edP * ((d + c) % edP) % edP
    z := f * g % edP }

/-- The n low bits of k times a point. -/
def EdPt.mul (p : EdPt) : Nat → Nat → EdPt
  | 0, _ => ⟨0, 1, 1⟩
  | n + 1, k =>
    let r := (p.add p).mul n (k / 2)
    if k % 2 = 1 then p.add r else r

def EdPt.same (p q : EdPt) : Bool := p.x * q.z % edP == q.x * p.z % edP && p.y * q.z % edP == q.y * p.z % edP

/-- The point a 32-byte string encodes (RFC 8032, 5.1.3). -/
def edDecode (v : Nat) : Option EdPt :=
  let y := v % 2 ^ 255
  let neg := v / 2 ^ 255 % 2
  let u := edSub (y * y % edP) 1
  let w := (edD * (y * y % edP) + 1) % edP
  let w3 := w * w % edP * w % edP
  let x0 := u * w3 % edP * powMod edP 255 (u * (w3 * w3 % edP * w % edP) % edP) ((edP - 5) / 8) % edP
  let t := w * (x0 * x0 % edP) % edP
  let x1 := if t = u then some x0
    else if t = edSub 0 u then some (x0 * powMod edP 255 2 ((edP - 1) / 4) % edP)
    else none
  if y ≥ edP then none
  else match x1 with
    | none => none
    | some x =>
      if x = 0 ∧ neg = 1 then none
      else some ⟨if x % 2 = neg then x else edP - x, y, 1⟩

/-- The base point: y = 4/5, x even. -/
def edBase : EdPt := (edDecode (4 * edInv 5 % edP)).getD ⟨0, 1, 1⟩

/-- Ed25519 verification of a signature over the n low bytes of a message (RFC 8032, 5.1.7), by the equation the standard
states: [8][S]B = [8]R + [8][k]A. -/
def ed25519 (key message n signature : Nat) : Bool :=
  let r := signature % 2 ^ 256
  let sc := signature / 2 ^ 256 % 2 ^ 256
  let k := bytesNum (sha512 (bytesOf 32 r ++ bytesOf 32 key ++ bytesOf n message)) % edL
  match edDecode (key % 2 ^ 256), edDecode r with
  | some a, some rp =>
    decide (sc < edL) && ((edBase.mul 256 sc).mul 4 8).same ((rp.add (a.mul 256 k)).mul 4 8)
  | _, _ => false

/-! ML-DSA-65 (FIPS 204): q, and polynomials of 256 coefficients below q as lists. -/

def dsaQ : Nat := 8380417

/-- The k low bits of n, reversed. -/
def bitRev : Nat → Nat → Nat
  | 0, _ => 0
  | k + 1, n => n % 2 * 2 ^ k + bitRev k (n / 2)

/-- The powers of 1753 by exponent below 512. -/
def zetaPow (e : Nat) : Nat := powMod dsaQ 9 1753 (e % 512)

/-- The transform: position i holds the polynomial's value at 1753 to the power 2 bitRev(i) + 1. -/
def ntt (w : List Nat) : List Nat :=
  (List.range 256).map (fun i =>
    let x := zetaPow (2 * bitRev 8 i + 1)
    w.foldr (fun c v => (c + x * v) % dsaQ) 0)

/-- The way back: coefficient j is the sum of the values by the inverse points' powers, over 256. -/
def invNtt (w : List Nat) : List Nat :=
  let byExp := (List.range 256).map (fun k => w.getD (bitRev 8 k) 0)
  (List.range 256).map (fun j =>
    let y := zetaPow (512 - 2 * j % 512)
    let v := byExp.foldr (fun c v => (c + y * v) % dsaQ) 0
    v * zetaPow (512 - j) % dsaQ * powMod dsaQ 23 256 (dsaQ - 2) % dsaQ)

def polyMul (a b : List Nat) : List Nat := List.zipWith (fun x y => x * y % dsaQ) a b

def polyAdd (a b : List Nat) : List Nat := List.zipWith (fun x y => (x + y) % dsaQ) a b

def polySub (a b : List Nat) : List Nat := List.zipWith (fun x y => (x + dsaQ - y) % dsaQ) a b

/-- n fields of w bits. -/
def fieldsOf (w : Nat) : Nat → Nat → List Nat
  | 0, _ => []
  | n + 1, v => v % 2 ^ w :: fieldsOf w n (v >>> w)

/-- The entry of the matrix at row r, column s, in transformed form: 23-bit candidates of SHAKE128, those below q. The
standard lets a bound on the candidates stand at 298; here 336. -/
def dsaEntry (rho r s : Nat) : List Nat :=
  (((fieldsOf 24 336 (shake128 1008 (rho + s * 2 ^ 256 + r * 2 ^ 264) 34)).map (· % 2 ^ 23)).filter (· < dsaQ)).take 256

/-- The challenge polynomial: 49 signs placed by SHAKE256 bytes, the first 64 bits of which are the signs. -/
def dsaChallenge (ct : Nat) : List Nat :=
  let h := shake256 272 ct 48
  let step := fun (st : List Nat × List Nat) (i : Nat) =>
    let bs := st.1.dropWhile (· > i)
    let j := bs.headD 0
    let c := (st.2.set i (st.2.getD j 0)).set j (if bit h (i - 207) then dsaQ - 1 else 1)
    (bs.drop 1, c)
  ((List.range' 207 49).foldl step (bytesOf 264 (h >>> 64), List.replicate 256 0)).2

/-- High and centred low part by 2 γ2 = 523776: whether the low part is above zero, with the high part. -/
def dsaHigh (r : Nat) : Bool × Nat :=
  let r0 := r % 523776
  let c : Int := if r0 > 261888 then (r0 : Int) - 523776 else r0
  if (r : Int) - c = dsaQ - 1 then (decide (c - 1 > 0), 0) else (decide (c > 0), (((r : Int) - c) / 523776).toNat)

/-- The hint's use: the high part moved by one, modulo 16. -/
def dsaUse (h : Bool) (r : Nat) : Nat :=
  let e := dsaHigh r
  if !h then e.2 else if e.1 then (e.2 + 1) % 16 else (e.2 + 15) % 16

/-- The hint positions of a polynomial: rising. -/
def rising : List Nat → Bool
  | a :: b :: r => decide (a < b) && rising (b :: r)
  | _ => true

/-- The hints of polynomials i, i + 1, ... (n of them) from position `at_`: none where the encoding is malformed. -/
def dsaHints (y : List Nat) : Nat → Nat → Nat → Option (List (List Nat))
  | 0, _, at_ => if (List.range' at_ (55 - at_)).all (fun j => y.getD j 0 == 0) then some [] else none
  | n + 1, i, at_ =>
    let e := y.getD (55 + i) 0
    let ps := (y.drop at_).take (e - at_)
    if e < at_ || e > 55 || !rising ps then none
    else (dsaHints y n (i + 1) e).map (fun r => ps :: r)

/-- ML-DSA-65 verification, pure mode, empty context, of a signature over the n low bytes of a message. -/
def mldsa65 (key message n signature : Nat) : Bool :=
  let rho := key % 2 ^ 256
  let t1 := fieldsOf 2560 6 (key >>> 256)
  let ct := signature % 2 ^ 384
  let zs := (fieldsOf 5120 5 (signature >>> 384)).map (fun v => (fieldsOf 20 256 v).map (fun x => (2 ^ 19 + dsaQ - x) % dsaQ))
  let small := zs.all (fun z => z.all (fun x => x < 2 ^ 19 - 196 || x > dsaQ - (2 ^ 19 - 196)))
  match dsaHints (bytesOf 61 (signature >>> (384 + 25600))) 6 0 0 with
  | none => false
  | some hs =>
    let tr := shake256 64 key 1952
    let mu := shake256 64 (tr + message % 2 ^ (8 * n) * 2 ^ (512 + 16)) (66 + n)
    let c := ntt (dsaChallenge ct)
    let zn := zs.map ntt
    let w1 := ((List.range 6).zip (t1.zip hs)).map (fun e =>
      let row := (zn.zip (List.range 5)).foldl (fun a x => polyAdd a (polyMul (dsaEntry rho e.1 x.2) x.1)) (List.replicate 256 0)
      let t := ntt ((fieldsOf 10 256 e.2.1).map (fun x => x * 2 ^ 13))
      let w := invNtt (polySub row (polyMul c t))
      (w.zip (List.range 256)).map (fun x => dsaUse (e.2.2.contains x.2) x.1))
    let enc := w1.flatten.foldr (fun v a => v + 16 * a) 0
    small && shake256 48 (mu + enc * 2 ^ 512) (64 + 768) == ct

end Sys2Proof.Machine
end

