-- ==== Sys2Proof/Machine/Boot.lean ====
section
/-! DEFINITION. Boot (14 R480, R481), the firmware image (14 R484, R485), recovery and update (14 R487, R488), and the scribes'
watchdogs (14 R489, R490). -/

namespace Sys2Proof.Machine

/-! The image (14 R484), as a number with byte 0 lowest. -/

def imMAGIC (m : Nat) : Nat := bits m 0 64
def imBODYLEN (m : Nat) : Nat := bits m 128 32
def imSectOff (m k : Nat) : Nat := bits m (256 + 64 * k) 32
def imSectLen (m k : Nat) : Nat := bits m (288 + 64 * k) 32
def imEDPK (m : Nat) : Nat := bits m 512 256
def imMLPK (m : Nat) : Nat := bits m 768 15616
def imEDSIG (m : Nat) : Nat := bits m 16384 512
def imMLSIG (m : Nat) : Nat := bits m 16896 26472
def imBody (m : Nat) : Nat := bits m 65536 (8 * imBODYLEN m)

/-- FWS_VER of an image (14 R499). -/
def imVer (m : Nat) : Nat := bits m 112 16 + bits m 96 16 * 2 ^ 16 + bits m 80 16 * 2 ^ 32 + bits m 64 16 * 2 ^ 48

/-- D: SHA3-512 over header bytes 0 to 2,047 and the body (14 R485). -/
def imDigest (m : Nat) : Nat := sha3x512 (bits m 0 16384 + imBody m * 2 ^ 16384) (2048 + imBODYLEN m)

/-- Memory of a scribe: Scribe-B, -P, -M. -/
def scribeMem (k : Nat) : Nat := if k = 2 then 2 ^ 21 else 2 ^ 20

/-- Whether two sections share a byte. -/
def sectsMeet (m i j : Nat) : Bool :=
  imSectLen m i != 0 && imSectLen m j != 0 && decide (imSectOff m i < imSectOff m j + imSectLen m j) && decide (imSectOff m j < imSectOff m i + imSectLen m i)

/-- Check 1: MAGIC, BODYLEN, reserved bytes and SECT; `n` is the number of bytes there are. -/
def imHeaderBad (m n : Nat) : Bool :=
  let b := imBODYLEN m
  decide (n < 8192) || imMAGIC m != 0x474D4957464B524D || b % 4096 != 0 || decide (b < 4096) || decide (b > 2 ^ 22)
    || decide (n < 8192 + b)
    || bits m 160 96 != 0 || bits m 448 64 != 0 || bits m 43368 22168 != 0
    || (List.range 3).any (fun k =>
      imSectOff m k % 4096 != 0 || imSectLen m k % 4096 != 0
        || decide (imSectOff m k + imSectLen m k > b) || decide (imSectLen m k > scribeMem k))
    || sectsMeet m 0 1 || sectsMeet m 0 2 || sectsMeet m 1 2

def wordsOf (f : Nat → W64) : Nat := (List.range 4).foldl (fun v i => v + (f i).toNat * 2 ^ (64 * i)) 0

/-- The BERR that refuses an image of n bytes, 0 where it is accepted (14 R485). -/
def imCheck (m n : Nat) : Nat :=
  if imHeaderBad m n then 2
  else if sha3x256 (imEDPK m) 32 ≠ wordsOf Config.keyHashEd || sha3x256 (imMLPK m) 1952 ≠ wordsOf Config.keyHashMl then 3
  else if !ed25519 (imEDPK m) (imDigest m) 64 (imEDSIG m) then 4
  else if !mldsa65 (imMLPK m) (imDigest m) 64 (imMLSIG m) then 5
  else 0

/-! Boot (14 R480). -/

/-- Recovery is entered; a check that failed is recorded (14 R487; log 41). -/
def State.enterRecovery (s : State) (berr : Nat) : State :=
  let s1 : State := { s with plat := { s.plat with stage := 7, berr, recSt := 0, recErr := 0, recBytes := 0, image := 0 } }
  if berr = 0 then s1 else (s1.logEvent (s1.event 0x0832 4 6 0 0 0 0)).count 0x0832

/-- The image runs: stage 3 begins with its version and digest (14 R485, R486). -/
def State.runImage (s : State) (m : Nat) (rec : Bool) : State :=
  { s with plat := { s.plat with stage := 3, berr := 0, image := m, digest := imDigest m, recBoot := rec } }

def flashBytes : Nat := 2 ^ 23

def oDbistRes (c : Nat) : Nat := 0x02102000 + 8 * c

/-- Boot's bond BIST leaves every channel's result (14 R480, R498). -/
def State.bootBist (s : State) (bad : Bool) : State :=
  if bad then { s with plat := { s.plat with dbistFail := true } }
  else (List.range 192).foldl (fun (s : State) c => s.setRg (oDbistRes c) 1) s

/-- Stage 4 ends: domains 80 to 91 are ON, reserved DRAM is laid out; on a cold boot all of DRAM is still to be cleared, so that
no partition is granted any before (14 R480, 10 R366). -/
def State.bootMemory (s : State) (fail : Nat) : State :=
  let dom := (List.range' 80 12).foldl (fun t d => tput t d 2) s.plat.dom
  let s1 : State := { s with link := .training, clearing := if s.plat.warmBoot then s.clearing else [(0, 16 * quadGrans)], plat := { s.plat with stage := 5, dom, berr := if fail = 6 ∨ fail = 7 then fail else 0 } }
  (s1.bootBist (decide (fail = 7))).setRg oDrmRsv (Config.rsvUnits.toNat * 2 ^ 25)

/-- Stage 6 ends: on a cold boot all DRAM outside reserved DRAM reads zero; a recovery boot has written its image to flash and
read it back, with FLASHERR when it differs. -/
def State.bootEnd (s : State) (fail : Nat) : State :=
  let x := s.plat
  let s1 : State := if x.warmBoot then s else s.dramCleared
  if x.recBoot then
    (if fail = 0 then { s1 with plat := { x with ready6 := true, flash := x.image, recSt := 4 } }
     else { s1.useFree with plat := { x with ready6 := true, flashErr := true, flash := s1.freeVal.toNat, recSt := 4 } })
  else { s1 with plat := { x with ready6 := true } }

/-- BOOT_STAGE_COMPLETE. `fail` is what the hardware of the stage reports: 1 a flash read (stage 1; in a recovery boot the
read-back of stage 6), 6 DRAM training, 7 bond BIST (stage 4). -/
def execBootStageComplete (fail : BitVec 4) (s : State) : Host.Outcome State Fault Refusal :=
  let x := s.plat
  let f := fail.toNat
  .next (if x.power ≠ .running || x.ready6 then s
    else match x.stage with
    | 0 =>
      let v := 660 + min 100 Config.vnomStep.toNat
      { s with plat := { x with stage := 1, vnom := v } }
    | 1 => if f = 1 then s.enterRecovery 1 else { s with plat := { x with stage := 2, image := x.flash } }
    | 2 => if imCheck x.image flashBytes = 0 then s.runImage x.image false else s.enterRecovery (imCheck x.image flashBytes)
    | 3 =>
      let m := min 40 Config.agingMargin.toNat
      { s with plat := { x with stage := 4, margin := m } }
    | 4 => s.bootMemory f
    | 5 => if x.berr ≠ 0 || s.link ≠ .up then s else { s with plat := { x with stage := 6, ready5 := true } }
    | 6 => if x.recBoot && x.scribeDown.contains 0 then s else s.bootEnd f
    | _ => s)

/-! Recovery (14 R487). -/

/-- RECOVERY_BEGIN: in recovery, or before stage 3, which it forces into recovery. -/
def State.recoveryBegin (s : State) : State :=
  let x := s.plat
  if x.power ≠ .running || x.scribeDown.contains 0 || !(x.stage == 7 || decide (x.stage < 3)) then s
    else
      let s1 : State := if x.stage = 7 then s else s.enterRecovery 0
      { s1 with plat := { s1.plat with recSt := 1, recBytes := 0, recErr := 0, image := 0 } }

/-- RECOVERY_BEGIN. -/
def execRecoveryBegin (s : State) : Host.Outcome State Fault Refusal := .next s.recoveryBegin

/-- RECOVERY_DATA: 8 B appended. -/
def State.recoveryData (s : State) (v : BitVec 64) : State :=
  let x := s.plat
  if x.power ≠ .running || x.stage ≠ 7 || x.recSt ≠ 1 || decide (x.recBytes + 8 ≥ 2 ^ 23) then s
    else { s with plat := { x with image := x.image + v.toNat * 2 ^ (8 * x.recBytes), recBytes := x.recBytes + 8 } }

/-- RECOVERY_DATA. -/
def execRecoveryData (v : BitVec 64) (s : State) : Host.Outcome State Fault Refusal := .next (s.recoveryData v)

/-- RECOVERY_GO: the received image is checked, and runs or is refused with its cause. STATE is 3 from then until flash has
been written (log 41). -/
def State.recoveryGo (s : State) : State :=
  let x := s.plat
  if x.power ≠ .running || x.stage ≠ 7 || x.recSt ≠ 1 then s
    else
      let e := imCheck x.image x.recBytes
      if e = 0 then
        let s1 : State := s.runImage x.image true
        { s1 with plat := { s1.plat with recSt := 3 } }
      else { s with plat := { x with recSt := 5, recErr := e } }

/-- RECOVERY_GO. -/
def execRecoveryGo (s : State) : Host.Outcome State Fault Refusal := .next s.recoveryGo

/-- RECOVERY_ABORT: the received image is discarded. -/
def State.recoveryAbort (s : State) : State :=
  let x := s.plat
  if x.power ≠ .running || x.stage ≠ 7 then s
    else { s with plat := { x with recSt := 0, recBytes := 0, recErr := 0, image := 0 } }

/-- RECOVERY_ABORT. -/
def execRecoveryAbort (s : State) : Host.Outcome State Fault Refusal := .next s.recoveryAbort

/-! Update (14 R488). -/

def oUpdLen : Nat := 0x00400408

/-- UPDATE_GO: ignored while STATE is 1 to 3. -/
def State.updateGo (s : State) : State :=
  let x := s.plat
  if x.power ≠ .running || decide (x.stage < 3) || x.stage = 7 || (decide (1 ≤ x.updSt) && decide (x.updSt ≤ 3)) then s
    else { s with plat := { x with updSt := 1, updErr := 0, updBytes := 0 } }

/-- UPDATE_GO. -/
def execUpdateGo (s : State) : Host.Outcome State Fault Refusal := .next s.updateGo

/-- UPDATE_DONE: the image as read from the companion processor is checked; only then is flash programmed, and read back.
What a failed read-back leaves in flash is open. -/
def execUpdateDone (ok : Bool) (image : Nat) (s : State) : Host.Outcome State Fault Refusal :=
  let x := s.plat
  let n := bits (s.rg oUpdLen) 0 23
  let m := image % 2 ^ (8 * n)
  .next (if x.power ≠ .running || x.updSt = 0 || decide (x.updSt > 3) || x.scribeDown.contains 0 || s.link ≠ .up then s
    else
      let y := { x with updBytes := n }
      let e := imCheck m n
      if e ≠ 0 then { s with plat := { y with updSt := 5, updErr := e } }
      else if ok then { s with plat := { y with updSt := 4, updErr := 0, flash := m } }
      else { s.useFree with plat := { y with updSt := 5, updErr := 1, flash := s.freeVal.toNat } })

/-! Scribes (14 R489, R490). -/

def oRestarts (k : Nat) : Nat := 0x00400108 + 0x10 * k

/-- A scribe is reset alone: recorded with its program counter, counted, and for Scribe-P ACLK held at divider 12. -/
def State.scribeReset (s : State) (k : Nat) : State :=
  let pc := s.freeVal
  let s1 : State := ({ s.useFree with plat := { s.plat with scribeDown := addOnce s.plat.scribeDown k
                                                            holdP := s.plat.holdP || k == 1 } } : State)
  let s2 : State := (s1.count 0x0820).logEvent (s1.event 0x0820 3 6 k pc.toNat 0 0)
  let s3 : State := s2.countAt (oRestarts k) 0x0820 1
  if k = 1 ∧ s.plat.holdP = false then s3.throttled 0 0 s3.ruledParts else s3

/-- Whether a scribe runs. -/
def State.scribeUp (s : State) (k : Nat) : Bool :=
  s.plat.power == .running && decide (3 ≤ s.plat.stage) && decide (s.plat.stage ≤ 6) && !s.plat.scribeDown.contains k

/-- WATCHDOG_EXPIRY. -/
def execWatchdogExpiry (k : BitVec 2) (s : State) : Host.Outcome State Fault Refusal :=
  .next (if k.toNat ≤ 2 && s.scribeUp k.toNat then s.scribeReset k.toNat else s)

/-- SCRIBE_MEMORY_UE: the scribe restarts as its watchdog restarts it (12 R419). -/
def execScribeMemoryUe (k : BitVec 2) (s : State) : Host.Outcome State Fault Refusal :=
  .next (if k.toNat ≤ 2 && s.scribeUp k.toNat then s.scribeReset k.toNat else s)

end Sys2Proof.Machine
end

