-- ==== Sys2Proof/Machine/LinkDown.lean ====
section
/-! DEFINITION. The device's requests to the host and the loss of DynerLink (11 R397-R399): what an answer or a failure means
to whom it concerns, and the link going DOWN. -/

namespace Sys2Proof.Machine

/-- The partition whose CHECKPOINT a journal number names. -/
def State.ckptSeq (s : State) (seq : Nat) : Option Nat :=
  (List.range 16).find? (fun p => match (s.part p).ckpt with
    | some k => k.seq == seq
    | none => false)

/-- A failure counted at its source: the fabric's codes and PLT_POISON (08 R323, 12 R422). -/
def State.countFail (s : State) (code : Nat) : State :=
  if (0x0401 ≤ code ∧ code ≤ 0x041E) ∨ code = cPOISON then s.count code else s

/-- The failure of a write that an engine sent outside the device reaches whom R57 names: the issuing core, the status of a
move, the contributors of a group. -/
def State.farFail (s : State) (e : FarBlk) (code : Nat) : State :=
  match e.who with
  | .mover q =>
    match (s.mover q).run with
    | some r => s.setMover q { s.mover q with run := some { r with status := if r.status = 0 then code else r.status } }
    | none => s
  | .ductus l _ pcAt => s.asyncFail l code (s.ctx l.p l.s).lnode e.off pcAt
  | .lig g _ _ => s.ligFault g code (s.ctx (s.grp g).p (s.grp g).s).lnode 0 e.off
  | .cmd _ | .ring _ => s

/-- What waited for the pieces or the writes of an engine goes on: a Ligature group, or the completion of a Ductus
instruction none of whose writes is outside any more. -/
def State.farNudge (s : State) (w : Who) : State :=
  match w with
  | .lig g _ _ => s.ligPump g
  | .ductus l _ _ =>
    match s.far.find? (fun e => e.who == w && e.st == 4) with
    | some e =>
      if s.farBusy w then s
      else ({ s with far := s.far.filter (fun x => x.id != e.id) } : State).addCounter l e.data 1
    | none => s
  | _ => s

/-- A piece has come, or a write has been performed. -/
def State.farArrive (s : State) (id v : Nat) (pz : Bool) : State :=
  match s.far.find? (fun e => e.id == id) with
  | none => s
  | some e =>
    let s1 : State :=
      if e.st = 3 then { s with far := s.far.filter (fun x => x.id != id) }
      else { s with far := s.far.map (fun x => if x.id = id then { x with st := 1, data := v, pz } else x) }
    s1.farPump.farNudge e.who

/-- A read or a write of an engine outside the device has failed, counted at its source; a Ductus instruction with a failed
write does not complete (06 R231). -/
def State.farLost (s : State) (id code : Nat) : State :=
  match s.far.find? (fun e => e.id == id) with
  | none => s
  | some e =>
    let s0 : State := match e.who with
      | .lig .. => s
      | _ => s.countFail code
    let s1 : State :=
      if e.st = 3 then
        ({ s0 with far := s0.far.filter (fun x => x.id != id && !(x.who == e.who && x.st == 4)) } : State).farFail e code
      else { s0 with far := s0.far.map (fun x => if x.id = id then { x with st := 2, code } else x) }
    s1.farPump.farNudge e.who

/-- A device request to the host that fails with FAB_PERM (11 R399); a ring record is read again when the ring is served. -/
def State.hostLost (s : State) (w : HostWait) (code : Nat) : State :=
  match w with
  | .tier3 k => if code = cFABPERM then s.refuse k else s.answer k 0xA code 0 0
  | .copyRead q i =>
    match s.ckptSeq q with
    | some p => s.ckLost p code
    | none => s.copyFail q (i % 64) code
  | .copyWrite q i => s.copyFail q (i % 64) code
  | .stage p o b _ => s.stageLost p o b
  | .move p g _ => s.moveLost p g
  | .far i => (if code = cFABPERM then s.count 0x0417 else s).farLost i code
  | _ => s

/-- The host's answer to a request, other than a ring record's. -/
def State.hostArrive (s : State) (w : HostWait) (v : Nat) (pz : Bool) : State :=
  match w with
  | .tier3 k => if pz && k.ptype != 1 then s.answer k 0xA cPOISON 0 0 else s.performed k v pz
  | .copyRead q i =>
    match s.ckptSeq q with
    | some p => s.ckHostArrive p i v pz
    | none => s.copyArrive q i v pz
  | .stage p o b i => s.stageArrive p o b i v pz
  | .move p g i => if i < 256 then s.moveArrive p g i v pz else s.moveAcked p g
  | .far i => s.farArrive i v pz
  | _ => s

/-- What waited for lines that the host has given up goes on. -/
def State.afterRecall (s : State) : State :=
  let s1 : State := (List.range 16).foldl (fun (s : State) p => (s.unmapCheck p).ckPump p) s
  s1.ligPumpAll

/-- A claimed line is poisoned at its home (11 R399). -/
def State.poisonLine (s : State) (f line : Nat) : State :=
  match s.homeOf f (64 * line) with
  | some h => s.hmark h 64
  | none => s

/-- The link goes DOWN: claimed lines poisoned, the filter emptied, T3 operations refused, COPY, FILL and other transfers with
host memory failed (11 R399). -/
def State.linkDown (s : State) (counted : Bool) : State :=
  let s1 : State := (s.sf.filter SfEnt.claimed).foldl (fun (s : State) e => s.poisonLine e.f e.line) s
  let rs := s1.hreqs.foldl (fun (a : List HostReq) r => if a.any (fun x => x.grp == r.grp) then a else a ++ [r]) []
  let s2 : State := { s1 with sf := [], recalls := [], blocked := [], hreqs := [], link := .down, linkWidth := 0, hostTx := [] }
  let s3 : State := rs.foldl (fun (s : State) r => s.hostLost r.wait cFABPERM) s2
  (if counted then s3.count 0x0613 else s3).afterRecall

end Sys2Proof.Machine
end

