-- ==== Sys2Proof/Machine/Monitor.lean ====
section
/-! DEFINITION. The Saturation Monitor (12 R433-R436), the checkpoint interval (12 R445-R447), and a scribe's return
(14 R489). -/

namespace Sys2Proof.Machine

/-! The Saturation Monitor. -/

def oSatCfg : Nat := 0x02010000

/-- Level l's field of PRF_SAT_UTIL or PRF_SAT_STALL, at most 1,024. -/
def satField (v : W64) (l : Nat) : Nat := min 1024 (fld v (12 * (l - 1)) 11)

def satPack (v : W64) : Nat := (List.range' 1 5).foldl (fun a l => a + satField v l * 2 ^ (12 * (l - 1))) 0

/-- SAT_LEVEL: the level with the largest STALL among those whose UTIL reaches THRESH, ties to the lower (12 R435). -/
def satLevel (thresh : Nat) (util stall : W64) : Nat :=
  (List.range' 1 5).foldl (fun best l =>
    if satField util l < thresh then best
    else if best = 0 ∨ satField stall best < satField stall l then l else best) 0

/-- SAT_WINDOW_END: the 1 µs window that holds the present tick closes with its measured UTIL and STALL; a write of
PRF_SAT_CFG counts from the next window (12 R436). -/
def execSatWindowEnd (util stall : BitVec 64) (s : State) : Host.Outcome State Fault Refusal :=
  .next (if s.plat.power ≠ .running || !s.plat.tbRun then s
    else
      let w := s.now / 1050
      let s1 : State := s.reach (1050 * (w + 1))
      let lv := satLevel (min 1024 (bits s.satCfg 0 11)) util stall
      let cur := w64 (lv + w % 2 ^ 48 * 2 ^ 16)
      let s2 : State := { s1 with
        satCur := cur, satUtil := w64 (satPack util), satStall := w64 (satPack stall), satHist := tput s1.satHist (w % 64) cur
        satCfg := s1.rg oSatCfg }
      if lv = 0 then s2 else s2.countAt (0x02010400 + 8 * lv) 0 1)

/-! The checkpoint interval. -/

def oCkpCfg : Nat := 0x00B02008

/-- CKP_CFG.ALPHA: 0 acts as 1. -/
def State.ckAlpha (s : State) : Nat := max 1 (bits (s.rg oCkpCfg) 0 3)

def State.ckMerge (s : State) : Nat := bits (s.rg oCkpCfg) 16 16

def tickRate : Nat := 1050000000

/-- M after a failure d ticks after the last: M + (d - M) / 2^a in seconds, rounded to the nearest (12 R445; log 42). -/
def mtbfNext (m a d : Nat) : Nat :=
  let den := 2 ^ a * tickRate
  (m * (2 ^ a - 1) * tickRate + d + den / 2) / den

/-- A failure recorded at tick t. -/
def State.ckFailAt (s : State) (t : Nat) : State :=
  if !s.hasPrev then { s with hasPrev := true, lastFail := t }
  else if t - s.lastFail < s.ckMerge * tickRate then s
  else ({ s with mtbf := mtbfNext s.mtbf s.ckAlpha (t - s.lastFail) % 2 ^ 32, lastFail := t } : State).ckRecompute

/-- CKP_FAIL: a GO write; while Scribe-M restarts it is latched with its tick (12 R447). -/
def State.ckpFailGo (s : State) : State :=
  if s.plat.scribeDown.contains 2 then { s with plat := { s.plat with failLatch := s.plat.failLatch ++ [s.now] } }
  else s.ckFailAt s.now

def execCkpFail (s : State) : Host.Outcome State Fault Refusal :=
  .next (if s.plat.power = .running then s.ckpFailGo else s)

/-- CKP_DUE: the timebase passes CKP_LAST plus the interval (12 R446). -/
def execCkpDue (p : BitVec 4) (s : State) : Host.Outcome State Fault Refusal :=
  let n := p.toNat
  let k := s.ckpPart n
  .next (if s.plat.power ≠ .running || k.due then s
    else
      let s1 : State := s.reach (k.last + 1050000 * k.interval)
      s1.setCkpPart n { k with due := true })

/-! Scribes. -/

/-- SCRIBE_RESTART_DONE: the scribe runs again; Scribe-P's hold ends, and Scribe-M records latched failures. -/
def execScribeRestartDone (k : BitVec 2) (s : State) : Host.Outcome State Fault Refusal :=
  let n := k.toNat
  let x := s.plat
  .next (if x.power ≠ .running || !x.scribeDown.contains n then s
    else
      let s1 : State := { s with plat := { x with
        scribeDown := x.scribeDown.filter (fun i => i != n)
        holdP := x.holdP && n != 1
        failLatch := if n = 2 then [] else x.failLatch } }
      if n = 2 then x.failLatch.foldl (fun (s : State) t => s.ckFailAt t) s1 else s1)

end Sys2Proof.Machine
end

