-- ==== Sys2Proof/Machine/Test.lean ====
section
/-! DEFINITION. Test access: the TAP (14 R495, R496), loopback (14 R497), bond BIST (14 R498), and the I3C target's dynamic
address (14 R482). -/

namespace Sys2Proof.Machine

/-! The TAP. No reset of the device reaches it (14 R477). -/

/-- EXTEST: the device stops as under R457, with no record. -/
def execExtest (s : State) : Host.Outcome State Fault Refusal :=
  let s1 : State := { s with plat := { s.plat with tapIr := 0x00 } }
  .next (if s.plat.power = .running then s1.stopDevice else s1)

/-- IDCODE, which reads 0x14B1_97EB. -/
def idcodeValue : W32 := 0x14B197EB

def execIdcode (s : State) : Host.Outcome State Fault Refusal := .next { s with plat := { s.plat with tapIr := 0x01 } }

/-- SAMPLE/PRELOAD. -/
def execSamplePreload (s : State) : Host.Outcome State Fault Refusal := .next { s with plat := { s.plat with tapIr := 0x02 } }

/-- IJTAG. -/
def execIjtag (s : State) : Host.Outcome State Fault Refusal := .next { s with plat := { s.plat with tapIr := 0x10 } }

/-- BYPASS, and every code that is assigned to nothing else; a code of another instruction is no BYPASS. -/
def execBypass (code : BitVec 8) (s : State) : Host.Outcome State Fault Refusal :=
  .next (if [0x00, 0x01, 0x02, 0x10].contains code.toNat then s else { s with plat := { s.plat with tapIr := code.toNat } })

/-- TRST_L: the TAP is reset, which selects IDCODE. -/
def execTrstL (s : State) : Host.Outcome State Fault Refusal := .next { s with plat := { s.plat with tapIr := 0x01 } }

/-! I3C. -/

/-- I3C_DYNAMIC_ADDRESS, by SETDASA or ENTDAA. -/
def execI3cDynamicAddress (a : BitVec 7) (s : State) : Host.Outcome State Fault Refusal :=
  .next (if s.plat.power = .islandReset then s else { s with plat := { s.plat with i3cDyn := some a.toNat } })

/-! Loopback. -/

/-- Whether a depth's requirement on this device holds (14 R497). -/
def State.depthOk (s : State) (i d : Nat) : Bool :=
  let off := i == 16 || !bit (s.rg (oPortCtl i)) 0
  match d with
  | 0 => true
  | 1 | 2 | 3 | 4 | 6 => off
  | _ => i != 16 && (s.port i).st == .up

/-- A write of TST_LB(i).DEPTH. Modes 1 to 4 and 6 of DynerLink take the link DOWN. -/
def State.setDepth (s : State) (i d : Nat) : State :=
  if !s.depthOk i d then s
  else
    let s1 : State := s.setRg (oLb i) (setBits (s.rg (oLb i)) 0 3 d)
    if i = 16 && d != 0 && s.link != .down then s1.linkDown true else s1

/-- LOOPBACK_DEPTH. -/
def execLoopbackDepth (i : BitVec 5) (depth : BitVec 3) (s : State) : Host.Outcome State Fault Refusal :=
  .next (if s.plat.power ≠ .running || decide (i.toNat > 16) then s else s.setDepth i.toNat depth.toNat)

/-- Setting RUN clears CHK and ERR. -/
def State.lbRun (s : State) (i : Nat) : State :=
  ((s.setRg (oLb i) (setBits (s.rg (oLb i)) 3 1 1)).setCnt (oLb i + 8) 0).setCnt (oLb i + 16) 0

/-- LOOPBACK_RUN: RUN is set and the generator and checker run over so many bits, of which so many differ. -/
def execLoopbackRun (i : BitVec 5) (nbits errs : BitVec 48) (s : State) : Host.Outcome State Fault Refusal :=
  let n := i.toNat
  .next (if s.plat.power ≠ .running || decide (n > 16) then s
    else
      let s1 : State := s.lbRun n
      let d := bits (s.rg (oLb n)) 0 3
      if [1, 2, 3, 6, 7].contains d then
        (s1.countAt (oLb n + 8) 0 nbits.toNat).countAt (oLb n + 16) 0 (min nbits.toNat errs.toNat)
      else s1)

/-! Bond BIST. -/

/-- Whether a channel lies in a Ruled partition's quad. -/
def State.ruledChannel (s : State) (c : Nat) : Bool :=
  (List.range 16).any (fun p =>
    let x := s.part p
    x.st != .free && x.ruled && x.quads.contains (quadOf (c / 3)))

/-- DBIST_GO: ignored while BUSY. -/
def State.dbistGo (s : State) : State :=
  if s.plat.power ≠ .running || s.plat.dbistBusy then s
    else { s with plat := { s.plat with dbistBusy := true, dbistFail := false } }

/-- DBIST_GO. -/
def execDbistGo (s : State) : Host.Outcome State Fault Refusal := .next s.dbistGo

/-- The result of a channel: the die and bond bit of its first failure. -/
def dbistResult (fails : List (BitVec 8 × BitVec 3 × BitVec 9)) (c : Nat) : Nat :=
  match fails.find? (fun e => e.1.toNat == c) with
  | some e => 2 + 4 * e.2.1.toNat + 32 * e.2.2.toNat
  | none => 1

/-- DBIST_DONE: every channel outside Ruled quads has its result. -/
def execDbistDone (fails : List (BitVec 8 × BitVec 3 × BitVec 9)) (s : State) : Host.Outcome State Fault Refusal :=
  let mine := fails.filter (fun e => !s.ruledChannel e.1.toNat)
  .next (if s.plat.power ≠ .running || !s.plat.dbistBusy then s
    else
      let s1 : State := { s with plat := { s.plat with dbistBusy := false, dbistFail := !mine.isEmpty } }
      (List.range 192).foldl (fun (s : State) c => s.setRg (oDbistRes c) (if s.ruledChannel c then 0 else dbistResult mine c)) s1)

end Sys2Proof.Machine
end

