-- ==== Sys2Proof/Machine/JobSend.lean ====
section
/-! DEFINITION. The sending of a JOBSTART (09 R356) and the notices' queue (08 R321). -/

namespace Sys2Proof.Machine

def oJsArg : Nat := 0x00E00020
def oJsStart : Nat := 0x00E00028

/-- Whether this device is the fabric manager's node (08 R321). -/
def State.isFm (s : State) : Bool := s.nodeValid && s.fmValid && s.fmNode == s.pnode

/-- The JOBSTART that LIG_JS_ARG and LIG_JS_START name, on its tree. -/
def State.jobPacket (s : State) (sl u : Nat) : Packet :=
  let a := s.rg oJsArg
  let r : RReq := { ptype := 12, cls := 0, size := 7, off := 6, space := 0, tree := bits a 32 10
                    data := bits a 0 32 + s.rg oJsStart * 2 ^ 64, words := 8 }
  r.packet s.srcEpoch s.pnode 0 0 0 0 sl u 0 0

/-- The JOBSTART sent. -/
def State.jobSend (s : State) : State :=
  let sl := s.freeSlot
  let u := (tgetD s.use sl 0 + 1) % 1024
  let o : Op := { use := u, owner := .jobstart, dest := .none, part := 16, lnode := 0, space := 0, off := 0, pnode := s.pnode
                  epoch := s.srcEpoch, tick := s.now, circ := none }
  ({ s with ops := tput s.ops sl o, use := tput s.use sl u } : State).put (s.jobPacket sl u)

/-- A slot has become free: the operation that waited longest for one is sent (08 R317). -/
def State.sendWaiting (s : State) : State :=
  match s.waitq with
  | [] => s
  | x :: rest =>
    if s.slotsFull then s
    else
      let s1 : State := { s with waitq := rest }
      if x.owner = .jobstart then s1.jobSend else s1.sendOn x.part x.owner x.dest x.lnode x.req

/-- LIG_JS_CMD.GO: ignored while BUSY is 1 or on a device that is not the fabric manager's node. The JOBSTART waits while no slot is
free (08 R317). -/
def State.jobGo (s : State) : State :=
  if s.plat.power ≠ .running || s.jsBusy || !s.isFm then s
  else
    let s1 : State := { s with jsBusy := true, jsTick := s.now }
    if s.slotsFull then
      { s1 with waitq := s.waitq ++ [{ part := 16, owner := .jobstart, dest := .none, lnode := 0
                                       req := { ptype := 12, cls := 0, size := 7, off := 6, space := 0 } }] }
    else s1.jobSend

/-- The result of a JOBSTART. -/
def State.jobResult (s : State) (status : Nat) : State := { s with jsBusy := false, jsDone := true, jsStatus := status }

/-- JOBSTART_GO. -/
def execJobstartGo (s : State) : Host.Outcome State Fault Refusal := .next s.jobGo

/-- JOBSTART_TIMEOUT: no MACK within LIG_JS_TMO; a later one finds its slot empty (09 R356, 08 R317). -/
def execJobstartTimeout (s : State) : Host.Outcome State Fault Refusal :=
  .next (if s.plat.power ≠ .running || !s.jsBusy then s
    else
      let s1 : State := s.reach (s.jsTick + bits (s.rg 0x00E00008) 0 32)
      ((s1.dropOps (fun o => match o.owner with
        | .jobstart => true
        | _ => false)).count 0x0522).jobResult 0x0522)

end Sys2Proof.Machine
end

