-- ==== Sys2Proof/Machine/Registers.lean ====
section
/-! DEFINITION. The control window (15 R500-R506): every register of R505 with what a read of it returns and what a write does,
and the ways to it (11 R395, 14 R482). -/

namespace Sys2Proof.Machine

/-! Counters with the layout of R232 (12 R423). -/

/-- Windows of counters: base, stride, count. -/
def counterWins : List (Nat × Nat × Nat) :=
  [(0x00601008, 8, 9), (0x00601080, 8, 5), (0x00801008, 8, 6), (0x00801080, 8, 4), (0x00801100, 8, 2), (0x00801180, 8, 3),
   (0x00A01008, 8, 9), (0x00A01080, 8, 2), (0x00B01000, 8, 1), (0x00D01008, 8, 5), (0x00D01080, 8, 15),
   (0x00E01008, 8, 5), (0x00E01080, 8, 4), (0x00E01100, 8, 3), (0x00E00100, 8, 16), (0x00400108, 0x10, 3),
   (0x02010408, 8, 5), (0x02100008, 0x20, 17), (0x02100010, 0x20, 17)]
    ++ (List.range 16).map (fun p => (0x00920008 + 0x100 * p, 0x10, 8))

/-- The same in a CLU block, from its base. -/
def cluCounterWins : List (Nat × Nat × Nat) := [(0x8000, 8, 64), (0x10000, 8, 4), (0x20000, 8, 1)]

/-- The index of an offset in a window of registers. -/
def winIdx (base stride count o : Nat) : Option Nat :=
  if base ≤ o ∧ (o - base) % stride = 0 ∧ (o - base) / stride < count then some ((o - base) / stride) else none

def inWins (ws : List (Nat × Nat × Nat)) (o : Nat) : Bool := ws.any (fun w => (winIdx w.1 w.2.1 w.2.2 o).isSome)

/-- The cluster whose CLU block holds an offset (15 R500). -/
def cluOf (o : Nat) : Option Nat := if 0x01000000 ≤ o ∧ o < 0x02000000 then some ((o - 0x01000000) / 0x40000) else none

def isCounter (o : Nat) : Bool :=
  match cluOf o with
  | some _ => inWins cluCounterWins (o % 0x40000)
  | none => inWins counterWins o

def State.counterWrite (s : State) (o v : Nat) : State := s.setCnt o (cntWrite (s.cnt o) v)

/-! Windows. A register that software cannot write ignores writes. -/

/-- Registers at base + stride * i for i below count: what a read returns, and the state after a write. -/
structure Win where
  base : Nat
  stride : Nat
  count : Nat
  rd : State → Nat → Nat
  wr : State → Nat → Nat → State := fun s _ _ => s

def Win.at_ (base : Nat) (rd : State → Nat) (wr : State → Nat → State := fun s _ => s) : Win :=
  { base, stride := 8, count := 1, rd := fun s _ => rd s, wr := fun s _ v => wr s v }

/-- Plain stored registers whose writable bits are the mask. -/
def Win.stored (base stride count mask : Nat) : Win :=
  { base, stride, count, rd := fun s i => s.rg (base + stride * i)
    wr := fun s i v => s.setRg (base + stride * i) (v &&& mask) }

def ones (n : Nat) : Nat := 2 ^ n - 1

/-! GLB (15 R503, R504). -/

def glbId : Nat := 0x4192 + Config.stepping.toNat * 2 ^ 16 + 8 * 2 ^ 20

def State.glbStat (s : State) : Nat :=
  b2n s.ruledExists + 2 * b2n s.plat.ready5 + 4 * b2n s.plat.ready6
    + 2 ^ 8 * ((List.range 16).filter (fun p => (s.part p).st != .free)).length

def glbWins : List Win := [.at_ 0 (fun _ => glbId), .at_ 8 State.glbStat]

/-! CLK, PWR, THM (13 R476, 14 R499). -/

/-- CLK_ACLK(n): the divider, pulse suppression, a hardware hold. -/
def Plat.aclk (x : Plat) (n : Nat) : Nat :=
  x.adiv n + 16 * b2n x.swallow + 32 * b2n (x.holdP || x.holdT.any (fun k => k / 3 == n))

def Plat.hot (x : Plat) : Nat := (List.range 256).foldl (fun m i => if x.t m < x.t i then i else m) 0

def State.tbTrimWrite (s : State) (v : Nat) : State :=
  s.setRg oTbTrim (v % 2 ^ 19 + (if bit (s.rg oTbTrim) 63 && !bit v 63 then 2 ^ 63 else 0))

def platWins : List Win :=
  [.at_ 0x00100000 (fun s => b2n s.plat.lock + 2 * b2n s.plat.refloss)
     (fun s v => if bit v 1 then { s with plat := { s.plat with refloss := false } } else s),
   .at_ 0x00100008 (fun s => s.plat.ndiv + 16 * s.plat.fdiv),
   { base := 0x00100100, stride := 8, count := 64, rd := fun s n => s.plat.aclk n },
   .at_ 0x00101000 State.now,
   .at_ 0x00101008 (fun _ => 0) (fun s v => s.tbStep (w64 v)),
   .at_ oTbTrim (fun s => s.rg oTbTrim) State.tbTrimWrite,
   .at_ 0x00200000 (fun s => s.plat.vset + 2 ^ 10 * s.plat.vnom + 2 ^ 20 * s.plat.margin + 2 ^ 26 * b2n s.plat.avserr)
     (fun s v => if bit v 26 then { s with plat := { s.plat with avserr := false } } else s),
   .stored 0x00200008 8 1 (ones 11),
   .at_ 0x00200010 (fun s => s.plat.watts + 2 ^ 11 * b2n s.plat.floor),
   { base := 0x00200100, stride := 8, count := 10
     rd := fun s r => tgetD s.plat.railMv r 0 % 2 ^ 12 + 2 ^ 16 * (tgetD s.plat.railA r 0 % 2 ^ 11)
       + 2 ^ 32 * b2n (s.plat.railFault.contains r)
     wr := fun s r v => if bit v 32 then { s with plat := { s.plat with railFault := s.plat.railFault.filter (fun x => x != r) } } else s },
   { base := 0x00201000, stride := 8, count := 92, rd := fun s d => tgetD s.plat.dom d 0 },
   .at_ 0x00300000 (fun s => s.rg 0x00300000) (fun s v => s.setRg 0x00300000 (setBits (s.rg 0x00300000) 0 12 v)),
   .at_ 0x00300008 (fun s => b2n s.plat.alert + 2 * b2n (!s.plat.holdT.isEmpty) + 4 * b2n s.plat.trip + 2 ^ 8 * s.plat.hot)
     (fun s v => if bit v 0 then { s with plat := { s.plat with alert := false } } else s),
   { base := 0x00300100, stride := 8, count := 256
     rd := fun s i => tgetD s.plat.temp i 0 + 2 ^ 16 * tgetD s.plat.tmax i 0
     wr := fun s i v => { s with plat := { s.plat with tmax := tput s.plat.tmax i (bits v 16 12) } } }]

/-! FWS, SEC (14 R499). -/

def Plat.ver (x : Plat) : Nat := if 3 ≤ x.stage ∧ x.stage ≤ 6 then imVer x.image else 0

def Plat.fwsStat (x : Plat) : Nat := x.stage + 2 ^ 3 * x.berr + 2 ^ 7 * b2n x.recBoot + 2 ^ 8 * b2n x.flashErr

def State.recCmd (s : State) (v : Nat) : State :=
  match v % 4 with
  | 1 => s.recoveryBegin
  | 2 => s.recoveryGo
  | 3 => s.recoveryAbort
  | _ => s

def fwsWins : List Win :=
  [.at_ 0x00400000 (fun s => s.plat.ver),
   .at_ 0x00400008 (fun s => s.plat.fwsStat),
   { base := 0x00400040, stride := 8, count := 8, rd := fun s i => bits s.plat.digest (64 * i) 64 },
   .stored 0x00400100 0x10 3 (ones 10),
   .at_ 0x00400200 (fun _ => 0) (fun s v => s.fwsReset (w64 v)),
   .at_ 0x00400300 (fun _ => 0) State.recCmd,
   .at_ 0x00400308 (fun _ => 0) (fun s v => s.recoveryData (w64 v)),
   .at_ 0x00400310 (fun s => s.plat.recBytes + 2 ^ 32 * s.plat.recSt + 2 ^ 35 * s.plat.recErr),
   .stored 0x00400400 8 1 (ones 48),
   .stored 0x00400408 8 1 (ones 23),
   .at_ 0x00400410 (fun _ => 0) (fun s v => if bit v 0 then s.updateGo else s),
   .at_ 0x00400418 (fun s => s.plat.updBytes + 2 ^ 32 * s.plat.updSt + 2 ^ 35 * s.plat.updErr),
   .at_ 0x00500000 (fun _ => Config.deviceId.toNat),
   { base := 0x00500100, stride := 8, count := 4, rd := fun _ i => (Config.keyHashEd i).toNat },
   { base := 0x00500120, stride := 8, count := 4, rd := fun _ i => (Config.keyHashMl i).toNat },
   .at_ 0x00500200 (fun s => b2n s.plat.fieldLife)]

/-! CMD, JRN (11 R417). -/

/-- CMD_WL(i). -/
def oWl (i : Nat) : Nat := 0x00620000 + 8 * i

def ctlWL (v : Nat) : Nat := bits v 9 12

/-- Whether a watched line is assigned to a function. -/
def State.wlOf (s : State) (f i : Nat) : Bool := bit (s.rg (oWl i)) 4 && bits (s.rg (oWl i)) 0 4 == f

/-- CMD_RQ and CMD_CQ: ignored while the ring is not DISABLED. -/
def State.ringBase (s : State) (k o v : Nat) : State :=
  if (s.ring k).st ≠ 0 then s else s.setRg o (v &&& 0xFFFFFFFFFFFC1)

/-- Completions that are due on a ring that is no longer ACTIVE are not written (11 R403). -/
def State.dropDue (s : State) (f r : Nat) : State :=
  let gone := (s.cmds.filter (fun c => c.f == f && c.r == r && c.final)).map Cmd.seq
  { s with order := s.order.filter (fun q => !gone.contains q), cmds := s.cmds.filter (fun c => !gone.contains c.seq) }

/-- CMD_RING_CTL(f, r) (11 R417): a write that changes another field is ignored while ENABLE is 1; ENABLE needs its watched
line. -/
def State.ringCtlWrite (s : State) (f r v : Nat) : State :=
  let k := ringKey f r
  let o := oRing f r + 0x10
  let old := s.rg o
  let new := v % 2 ^ 36
  if bit old 0 && old / 2 != new / 2 then s
  else if bit new 0 && !bit old 0 then
    (if s.wlOf f (ctlWL new) then (s.setRg o new).setRing k { s.ring k with st := 1 }
     else s.setRg o (new - 1))
  else if !bit new 0 then ((s.setRg o new).setRing k { s.ring k with st := 0, woken := false }).dropDue f r
  else s

def ringRd (s : State) (k : Nat) : Nat := s.ringCtl (k / 64) (k % 64) + 2 ^ 36 * (s.ring k).st

/-- CMD_RING_STAT: ignored unless the ring is DISABLED. -/
def State.ringStatWrite (s : State) (k v : Nat) : State :=
  if (s.ring k).st ≠ 0 then s else s.setRing k { s.ring k with head := bits v 0 32, cqt := bits v 32 32 }

/-- Whether an enabled ring names a watched line. -/
def State.wlNamed (s : State) (i : Nat) : Bool :=
  (List.range 1024).any (fun k => (s.ring k).st != 0 && ctlWL (s.ringCtl (k / 64) (k % 64)) == i)

def State.jrnStat (s : State) : Nat :=
  (s.cmds.filter (fun c => !c.final)).length + 2 ^ 19 * b2n s.jrnWait + 2 ^ 32 * (s.jrnWseq % 2 ^ 32)

def cmdWins : List Win :=
  [{ base := 0x00610000, stride := 0x20, count := 1024, rd := fun s k => s.rg (0x00610000 + 0x20 * k)
     wr := fun s k v => s.ringBase k (0x00610000 + 0x20 * k) v },
   { base := 0x00610008, stride := 0x20, count := 1024, rd := fun s k => s.rg (0x00610008 + 0x20 * k)
     wr := fun s k v => s.ringBase k (0x00610008 + 0x20 * k) v },
   { base := 0x00610010, stride := 0x20, count := 1024, rd := ringRd
     wr := fun s k v => s.ringCtlWrite (k / 64) (k % 64) v },
   { base := 0x00610018, stride := 0x20, count := 1024
     rd := fun s k => (s.ring k).head + 2 ^ 32 * (s.ring k).cqt, wr := State.ringStatWrite },
   { base := 0x00620000, stride := 8, count := 4096, rd := fun s i => s.rg (oWl i)
     wr := fun s i v => if s.wlNamed i then s else s.setRg (oWl i) (v % 32) },
   .at_ 0x00700000 (fun s => s.jrnHead),
   .at_ 0x00700008 State.jrnStat]

/-! BLT (12 R432). -/

def oBltRd : Nat := 0x00800008

/-- A record as the window shows it: all zero where an error in it cannot be corrected (12 R419). -/
def State.bltRecord (s : State) (i : Nat) : Nat := if s.ruined (.blot i) then 0 else tgetD s.blt i 0

def bltWins : List Win :=
  [.at_ 0x00800000 (fun s => s.bltHead),
   .stored oBltRd 8 1 (ones 64),
   .stored 0x00800010 8 1 (ones 3),
   .stored 0x00800018 8 1 (ones 12),
   { base := 0x00880000, stride := 8, count := 65536
     rd := fun s k => bits (s.bltRecord (8192 * bits (s.rg 0x00800010) 0 3 + k / 8)) (64 * (k % 8)) 64 }]

/-! PRT (10 R391). -/

def maskOf (l : List Nat) : Nat := listSum (l.map (fun n => 2 ^ n))

def State.lclu (s : State) (p i : Nat) : Nat :=
  listSum ((List.range 8).map (fun b =>
    match (s.part p).clus[8 * i + b]? with
    | some n => (n + 128) * 2 ^ (8 * b)
    | none => 0))

def prtWins : List Win :=
  [{ base := 0x00900000, stride := 0x40, count := 16, rd := State.partStat
     wr := fun s p v => if bit v 8 then s.setPart p { s.part p with err := false } else s },
   { base := 0x00900008, stride := 0x40, count := 16, rd := fun s p => maskOf (s.part p).clus },
   { base := 0x00900010, stride := 0x40, count := 16, rd := fun s p => maskOf (s.part p).quads },
   { base := 0x00900018, stride := 0x40, count := 16, rd := fun s p => (s.part p).share },
   .stored 0x00900020 0x40 16 0xFFFFF000FFFFF,
   { base := 0x00910000, stride := 8, count := 128, rd := fun s k => s.lclu (k / 8) (k % 8) }]
    ++ (List.range 16).map (fun p =>
      { base := 0x00920000 + 0x100 * p, stride := 0x10, count := 8, rd := fun s c => s.ctxStat p c })

/-! INK (07 R252). -/

def poolCode (x : PoolState) : Nat :=
  match x with
  | .disabled => 0
  | .enabling => 1
  | .active => 2
  | .draining => 3
  | .failed => 4

def State.poolStat (s : State) (p c : Nat) : Nat :=
  let q := s.pool (poolKey p c)
  let cached := listSum (s.fe.map (fun e => if (s.part p).clus.contains e.1 then (tgetD e.2.cache c []).length else 0))
  poolCode q.st + 8 * b2n q.err + 2 ^ 16 * q.free + 2 ^ 48 * cached

def State.poolCmd (s : State) (p c v : Nat) : State :=
  match v % 8 with
  | 1 => s.poolEnable p c
  | 2 => s.poolDrain p c
  | 3 => s.poolDisable p c
  | 4 => s.poolReclaim p c
  | _ => s

/-- INK_REQ_CFG: a write that changes PART, KIND or CTX while INUSE is not zero is ignored. -/
def State.reqCfgWrite (s : State) (i v : Nat) : State :=
  let q := s.reqr i
  let n := { q with valid := bit v 0, kind := bits v 1 2, part := bits v 3 4, ctx := bits v 7 3 }
  if q.inuse ≠ 0 ∧ n.cfg / 2 ≠ q.cfg / 2 then s else s.setReqr i n

def inkWins : List Win :=
  [.at_ 0x00A00000 (fun s => inkMetaSize + 2 ^ 32 * s.metaUsed),
   .stored 0x00A00100 8 16 (ones 3),
   .stored 0x00A00200 8 23 (ones 5),
   { base := 0x00A20000, stride := 0x20, count := 256, rd := fun s i => (s.reqr i).cfg, wr := State.reqCfgWrite },
   { base := 0x00A20008, stride := 0x20, count := 256, rd := fun s i => (s.reqr i).quota
     wr := fun s i v => s.setReqr i { s.reqr i with quota := bits v 0 40 } },
   { base := 0x00A20010, stride := 0x20, count := 256
     rd := fun s i => (s.reqr i).inuse + 2 ^ 48 * ((s.creditOf i + 2 ^ 20 - 1) / 2 ^ 20) },
   { base := 0x00A20018, stride := 0x20, count := 256, rd := fun s i => (s.reqr i).hiwater
     wr := fun s i v => s.setReqr i { s.reqr i with hiwater := bits v 0 40 } }]
    ++ ((List.range 16).map (fun p =>
      [{ base := 0x00A10000 + 0x400 * p, stride := 0x20, count := 23
         rd := fun s c => poolCfg (s.pool (poolKey p c))
         wr := fun s c v =>
           let q := s.pool (poolKey p c)
           if q.st = .disabled then s.setPool (poolKey p c) { q with base := bits v 0 27, ngran := bits v 27 27 } else s },
       { base := 0x00A10008 + 0x400 * p, stride := 0x20, count := 23, rd := fun s c => s.poolStat p c
         wr := fun s c v =>
           if bit v 3 then s.setPool (poolKey p c) { s.pool (poolKey p c) with err := false } else s },
       { base := 0x00A10010 + 0x400 * p, stride := 0x20, count := 23, rd := fun _ _ => 0
         wr := fun s c v => s.poolCmd p c v }])).flatten

/-! TMV: the checkpoint registers (12 R447); DRM (07 R268). -/

def ckpWins : List Win :=
  [.at_ 0x00B02000 (fun s => s.mtbf)
     (fun s v => ({ s with mtbf := v % 2 ^ 32, lastFail := 0, hasPrev := false } : State).ckRecompute),
   .stored oCkpCfg 8 1 0xFFFF0007,
   .at_ 0x00B02010 (fun s => s.rg 0x00B02010) (fun s v => (s.setRg 0x00B02010 v).ckRecompute),
   .at_ 0x00B02018 (fun _ => 0) (fun s v => if bit v 0 then s.ckpFailGo else s),
   .at_ 0x00B02020 (fun s => s.lastFail),
   { base := 0x00B02100, stride := 0x20, count := 16, rd := fun s p => (s.ckpPart p).cost % 2 ^ 32 },
   { base := 0x00B02108, stride := 0x20, count := 16
     rd := fun s p => (s.ckpPart p).interval % 2 ^ 32 + 2 ^ 32 * b2n (s.ckpPart p).due },
   { base := 0x00B02110, stride := 0x20, count := 16, rd := fun s p => (s.ckpPart p).last },
   { base := 0x00B02118, stride := 0x20, count := 16
     rd := fun s p => (s.ckpPart p).op + 2 ^ 16 * (s.ckpPart p).code + 2 ^ 32 * ((s.ckpPart p).blocks % 2 ^ 32) }]

def drmWins : List Win :=
  [.at_ 0x00C00000 (fun s => s.rg 0x00C00000)
     (fun s v => if (List.range 16).any (fun p => (s.part p).st != .free) then s else s.setRg 0x00C00000 (v % 2)),
   .at_ 0x00C00008 (fun s => s.rg 0x00C00008),
   { base := 0x00C00100, stride := 8, count := 16, rd := fun s q => s.rg (0x00C00100 + 8 * q) }]

/-! FAB (08 R293, R297, R300, R302, R324). -/

def portCode (x : PortState) : Nat :=
  match x with
  | .disabled => 0
  | .training => 1
  | .aligning => 2
  | .init => 3
  | .up => 4
  | .down => 5

def State.portStat (s : State) (n : Nat) : Nat :=
  let p := s.port n
  portCode p.st + 8 * b2n p.rev + 16 * p.pnode + 2 ^ 20 * b2n p.pvalid + 2 ^ 21 * p.pport

/-- FAB_PORT_CTL: ENABLE and RETRAIN, ignored while a loopback depth is set (14 R497). -/
def State.portCtlWrite (s : State) (n v : Nat) : State :=
  if s.looping n then s
  else
    let on := bit (s.rg (oPortCtl n)) 0
    let s1 : State := if bit v 0 && !on then s.portEnable n else if !bit v 0 && on then s.portDisable n else s
    if bit v 1 then s1.upFails n 4 else s1

def State.epochStat (s : State) : Nat := s.srcEpoch + 2 * s.verA.st + 8 * s.verB.st + 32 * b2n s.epochErr

/-- A route word: four entries, written only while the version is INVALID (08 R293, R295). -/
def State.routeWrite (s : State) (k v : Nat) : State :=
  let w := k / 16384
  if (s.version w).st ≠ 0 then { s with epochErr := true }
  else
    (List.range 4).foldl (fun (s : State) m =>
      let i := 65536 * w + 4 * (k % 16384) + m
      { s.mend (.route i) with route := tput s.route i (BitVec.ofNat 16 (bits v (16 * m) 10)) }) s

def treeMask : Nat := ones 16 + 7 * 2 ^ 16 + 15 * 2 ^ 24 + 127 * 2 ^ 32

/-- A word of a 128-bit register: the low word fills the staging word, the high word writes the whole (15 R501). -/
def State.write128 (s : State) (o v : Nat) (put : State → Nat → State) : State :=
  if o % 16 = 0 then { s with stage128 := tput s.stage128 o (w64 v) }
  else put s ((tgetD s.stage128 (o - 8) 0).toNat + v * 2 ^ 64)

def State.treeWrite (s : State) (k v : Nat) : State :=
  let w := k / 1024
  if (s.version w).st ≠ 0 then { s with epochErr := true }
  else { s.mend (.tree k) with tree := tput s.tree k (BitVec.ofNat 128 (v &&& treeMask)) }

def circMask : Nat := ones 8 + ones 12 * 2 ^ 16 + ones 10 * 2 ^ 32 + ones 5 * 2 ^ 48 + ones 16 * 2 ^ 64

/-- The share of an output that a circuit entry in use reserves. -/
def ciHeld (e : BitVec 128) : Nat := if ciVALID e && !ciTDM e then ciSHARE e else 0

/-- A circuit entry written, unless the shares on its output would exceed 896 (08 R303). -/
def State.circWrite (s : State) (c v : Nat) : State :=
  let e := BitVec.ofNat 128 (v &&& circMask)
  let others := s.circ.filter (fun x => x.1 != c && ciOUT x.2 == ciOUT e)
  if ciHeld e != 0 && decide (listSum (others.map (fun x => ciHeld x.2)) + ciHeld e > 896) then s
  else { s.mend (.circ c) with circ := tput s.circ c e }

def State.circRead (s : State) (c : Nat) : Nat := (s.circOf c).toNat + s.outstanding c * 2 ^ 96

/-- A word of TDM slots: a write that would make a slot s with s mod 8 = 7 owned is ignored (08 R302). -/
def State.tdmWrite (s : State) (k v : Nat) : State :=
  if k % 2 = 1 && bit v 60 then s
  else { s with tdm := (List.range 4).foldl (fun t m =>
      tput t (1024 * (k / 256) + 4 * (k % 256) + m) (BitVec.ofNat 16 (bits v (16 * m) 13))) s.tdm }

def fourOf (t : Tbl W16) (k : Nat) : Nat := listSum ((List.range 4).map (fun m => (tgetD t (k + m) 0).toNat * 2 ^ (16 * m)))

def State.lntSel (s : State) : Nat × Nat := (bits (s.rg 0x00D00040) 16 4, bits (s.rg 0x00D00040) 0 16)

def fabWins : List Win :=
  [.stored oFabNode 8 1 (ones 17),
   .stored oFabFm 8 1 (ones 17),
   .at_ 0x00D00010 State.epochStat (fun s v => if bit v 5 then { s with epochErr := false } else s),
   .at_ 0x00D00018 (fun _ => 0) (fun s v => s.epochCmd (v % 4) (bits v 2 1)),
   .stored 0x00D00020 8 1 (ones 32),
   .stored 0x00D00028 8 1 0xFF1F,
   .stored 0x00D00030 8 1 (ones 12),
   .stored 0x00D00040 8 1 (ones 20),
   .at_ 0x00D00048 (fun s => (s.lnt s.lntSel.1 s.lntSel.2).toNat) (fun s v => s.setLnt s.lntSel.1 s.lntSel.2 (w64 v)),
   .at_ 0x00D00050 (fun s => s.nqHead),
   .stored 0x00D00058 8 1 (ones 64),
   .stored 0x00D00060 8 1 (ones 12),
   { base := 0x00D00100, stride := 8, count := 16, rd := fun s n => s.rg (oPortCtl n) % 2, wr := State.portCtlWrite },
   { base := 0x00D00180, stride := 8, count := 16, rd := State.portStat },
   .stored 0x00D00200 0x10 16 (ones 36),
   .stored 0x00D00208 0x10 16 (ones 20),
   { base := 0x00D20000, stride := 8, count := 32768, rd := fun s k => fourOf s.route (4 * k), wr := State.routeWrite },
   { base := 0x00D60000, stride := 8, count := 4096
     rd := fun s k => bits (tgetD s.tree (k / 2) 0).toNat (64 * (k % 2)) 64
     wr := fun s k v => s.write128 (0x00D60000 + 8 * k) v (fun s v => s.treeWrite (k / 2) v) },
   { base := 0x00D70000, stride := 8, count := 8192, rd := fun s k => bits (s.circRead (k / 2)) (64 * (k % 2)) 64
     wr := fun s k v => s.write128 (0x00D70000 + 8 * k) v (fun s v => s.circWrite (k / 2) v) },
   { base := 0x00D80000, stride := 8, count := 4096, rd := fun s k => fourOf s.tdm (4 * k), wr := State.tdmWrite }]

/-! LIG (09 R360). -/

/-- LIG_GRP(e). GSEQ is the number that the contributor furthest on will use next. -/
def Group.stat (g : Group) : Nat :=
  if g.st = 0 then 0
  else g.p + 2 ^ 4 * g.s + 2 ^ 7 * g.gid + 2 ^ 13 * g.st + 2 ^ 15 * b2n g.bypass + 2 ^ 16 * b2n (gdROOT g.desc)
    + 2 ^ 17 * (g.slots + g.rslots)
    + 2 ^ 32 * (g.next.foldl (fun m e => if (e.2 + 2 ^ 32 - m) % 2 ^ 32 < 2 ^ 31 then e.2 else m) g.fin)

def ligWins : List Win :=
  [.at_ 0x00E00000 (fun s => s.lfree + 2 ^ 16 * s.lrfree),
   .stored 0x00E00008 8 1 (ones 32),
   .at_ 0x00E00010 (fun s => s.ligLast.toNat),
   .at_ 0x00E00018 (fun s => s.ligSkew % 2 ^ 48),
   .stored oJsArg 8 1 (ones 42),
   .stored oJsStart 8 1 (ones 64),
   .at_ 0x00E00030 (fun _ => 0) (fun s v => if bit v 0 then s.jobGo else s),
   .at_ 0x00E00038 (fun s => s.jsStatus + 2 ^ 16 * b2n s.jsBusy + 2 ^ 17 * b2n s.jsDone)
     (fun s v => if bit v 17 then { s with jsDone := false } else s),
   { base := 0x00E00200, stride := 8, count := 16, rd := fun s p => (tgetD s.jsRec p 0).toNat },
   { base := 0x00E10000, stride := 0x10, count := 256, rd := fun s e => (s.grp e).stat },
   { base := 0x00E10008, stride := 0x10, count := 256
     rd := fun s e => if (s.grp e).st = 0 then 0 else (s.grp e).base + 2 ^ 32 * (s.grp e).total }]

/-! DLK (11 R417). -/

def oDlkSf : Nat := 0x00F00010

def dlkWins : List Win :=
  [.at_ 0x00F00000 (fun s => portCode s.link + 8 * s.linkWidth),
   .stored 0x00F00008 8 1 (ones 20),
   .at_ oDlkSf (fun s => s.sf.length + 2 ^ 21 * s.rg oDlkSf) (fun s v => s.setRg oDlkSf (bits v 21 21))]

/-! PRF (12 R436), TST (14 R497-R499). -/

def prfWins : List Win :=
  [.stored oSatCfg 8 1 (ones 16),
   .at_ 0x02010008 (fun s => s.satCur.toNat),
   .at_ 0x02010010 (fun s => s.satUtil.toNat),
   .at_ 0x02010018 (fun s => s.satStall.toNat),
   { base := 0x02010100, stride := 8, count := 64, rd := fun s i => (tgetD s.satHist i 0).toNat }]

/-- TST_LB(i): PAT and RUN, then DEPTH; setting RUN clears the counters (14 R497). -/
def State.lbWrite (s : State) (i v : Nat) : State :=
  let old := s.rg (oLb i)
  let s1 : State := s.setRg (oLb i) (setBits old 4 1 (bits v 4 1))
  let s2 : State :=
    if bit v 3 && !bit old 3 then s1.lbRun i
    else if bit v 3 then s1 else s1.setRg (oLb i) (setBits (s1.rg (oLb i)) 3 1 0)
  if bits v 0 3 = bits old 0 3 then s2 else s2.setDepth i (bits v 0 3)

def tstWins : List Win :=
  [{ base := 0x02100000, stride := 0x20, count := 17, rd := fun s i => s.rg (oLb i), wr := State.lbWrite },
   .at_ 0x02101000 (fun s => 2 * b2n s.plat.dbistBusy + 4 * b2n s.plat.dbistFail) (fun s v => if bit v 0 then s.dbistGo else s),
   { base := oDbistRes 0, stride := 8, count := 192, rd := fun s c => s.rg (oDbistRes c) }]

/-! CLU (06 R232, 10 R388). -/

def CtEntry.stat (e : CtEntry) : Nat :=
  e.batch + 2 ^ 16 * e.gen + 2 ^ 32 * e.half + 2 ^ 33 * e.st + 2 ^ 35 * b2n e.armed.isSome

/-- The windows of cluster n's block, from its base. -/
def cluWins (n : Nat) : List Win :=
  [{ base := 0x10040, stride := 8, count := 8, rd := fun s c => tgetD (s.ductus n).floor c 0xFFFF },
   { base := 0x10100, stride := 8, count := 128, rd := fun s i => ((s.ductus n).entry i).stat },
   { base := 0x30000, stride := 8, count := 1024, rd := fun s k => fourOf s.mslot (4096 * n + 4 * k) }]

/-! The whole window. -/

/-- The windows of a block (15 R500). -/
def blockWins (o : Nat) : List Win :=
  match o / 2 ^ 20 with
  | 0 => glbWins
  | 1 | 2 | 3 => platWins
  | 4 | 5 => fwsWins
  | 6 | 7 => cmdWins
  | 8 => bltWins
  | 9 => prtWins
  | 10 => inkWins
  | 11 => ckpWins
  | 12 => drmWins
  | 13 => fabWins
  | 14 => ligWins
  | 15 => dlkWins
  | 32 => prfWins
  | 33 => tstWins
  | _ => []

def Win.find (ws : List Win) (o : Nat) : Option (Win × Nat) :=
  ws.findSome? (fun w => (winIdx w.base w.stride w.count o).map (fun i => (w, i)))

/-- The register at an offset, other than a counter: its window and its index there. -/
def regWin (o : Nat) : Option (Win × Nat) :=
  match cluOf o with
  | some n => Win.find (cluWins n) (o % 0x40000)
  | none => Win.find (blockWins o) o

/-- Whether a register occupies an offset. -/
def occupied (o : Nat) : Bool := isCounter o || (regWin o).isSome

/-- What a read of an offset returns: zero where no register is (15 R501). -/
def State.regRead (s : State) (o : Nat) : Nat :=
  if isCounter o then s.cnt o
  else match regWin o with
    | some (w, i) => w.rd s i % 2 ^ 64
    | none => 0

/-- A write of an offset; ignored where no register is (15 R501). -/
def State.regWrite (s : State) (o v : Nat) : State :=
  if isCounter o then s.counterWrite o v
  else match regWin o with
    | some (w, i) => w.wr s i v
    | none => s

/-! Who reaches the window. -/

/-- The SEC block. -/
def inSec (o : Nat) : Bool := o / 2 ^ 20 == 5

/-- Whether a path reaches an offset now (11 R395, 08 R319, 14 R482): DynerLink once it is UP; I3C the FWS block only in
stages 0 to 2 and in recovery, and the scribes' blocks and the Blot Log on a stopped device (13 R457; log 44); the fabric
everything but SEC, not while Scribe-M restarts. -/
def State.pathOpen (s : State) (path : RegPath) (o : Nat) : Bool :=
  (s.plat.power == .stopped && path == .i3c && [1, 2, 3, 4, 5, 8].contains (o / 2 ^ 20)) || s.plat.power == .running &&
    (match path with
     | .dynerlink => s.link == .up
     | .i3c => decide (3 ≤ s.plat.stage) && decide (s.plat.stage ≤ 6) || o / 2 ^ 20 == 4
     | .fabric => !inSec o && !s.plat.scribeDown.contains 2 && occupied o && s.fmValid)

/-- REGISTER_WRITE. -/
def execRegisterWrite (path : RegPath) (off : BitVec 26) (v : BitVec 64) (s : State) : Host.Outcome State Fault Refusal :=
  .next (if s.pathOpen path off.toNat then s.regWrite off.toNat v.toNat else s)

/-- COUNTER_WRITE. -/
def execCounterWrite (off : BitVec 26) (v : BitVec 64) (s : State) : Host.Outcome State Fault Refusal :=
  .next (if s.plat.power = .running ∧ isCounter off.toNat = true then s.counterWrite off.toNat v.toNat else s)

/-- I3C_PRIVATE_WRITE: bits [25:0] of the offset are used. -/
def execI3cPrivateWrite (off : BitVec 32) (v : BitVec 64) (s : State) : Host.Outcome State Fault Refusal :=
  let o := off.toNat % 2 ^ 26
  .next (if s.pathOpen .i3c o then s.regWrite o v.toNat else s)

/-- I3C_PRIVATE_READ: the value goes out on the bus. -/
def execI3cPrivateRead (off : BitVec 32) (s : State) : Host.Outcome State Fault Refusal :=
  let o := off.toNat % 2 ^ 26
  .next (if s.pathOpen .i3c o then { s with plat := { s.plat with i3cOut := w64 (s.regRead o) } } else s)

end Sys2Proof.Machine
end

