-- ==== Sys2Proof/Machine/DynerLink.lean ====
section
/-! DEFINITION. Host requests over DynerLink (11 R395, R396), the snoop filter (11 R397), watched lines (11 R400), the answers of
the host, and the link's states (11 R393, R399). -/

namespace Sys2Proof.Machine

def cDLKREFUSED : Nat := 0x0609

/-! Answers. -/

def State.tell (s : State) (m : HostMsg) : State := { s with hostTx := s.hostTx ++ [m] }

/-- A host request that is refused changes nothing else (11 R395); DLK_REFUSED and PLT_POISON are counted. -/
def State.hostRefuse (s : State) (t : HostTarget) (addr code : Nat) : State :=
  (if code = cDLKREFUSED ∨ code = cPOISON then s.count code else s).tell (.reply t addr code false 0 0)

def State.hostReply (s : State) (t : HostTarget) (addr : Nat) (copy : Bool) (size data : Nat) : State :=
  s.tell (.reply t addr 0 copy size data)

/-- Whether the device serves host requests. -/
def State.linkUp (s : State) : Bool := s.plat.power == .running && s.link == .up

/-! Where a host address lies. -/

def wlBase : Nat := 0xFFFFFFE40000

/-- The watched line that a Reservoir address names (11 R400). -/
def wlIndex (a : Nat) : Option Nat := if wlBase ≤ a ∧ a < wlBase + 0x40000 then some ((a - wlBase) / 64) else none

/-- The home of a T1 or T2 byte of an ACTIVE partition, none for any other (11 R395); a STREAM object's granule is where its
backing lies. -/
def State.hostHome (s : State) (f a : Nat) : Option Home :=
  let h := match s.objAt f (a / granSize) with
    | none => none
    | some o =>
      if dPolicy o.desc = 2 then (tget o.place (a / granSize - dGran o.desc)).map (fun (pl : Place) => pl.home (a % granSize))
      else s.homeOf f a
  match h with
  | some (.mem d x) => if (s.part f).st = PartState.active then some (.mem d x) else none
  | _ => none

/-- Why a host write is refused though its home is on the device: an RO or STREAM object, or a RESTORE under way (07 R253,
12 R442; log 45). -/
def State.hostRo (s : State) (f a : Nat) : Bool :=
  (match s.objAt f (a / granSize) with
   | some o => dRO o.desc || dPolicy o.desc == 2
   | none => false)
  || (match (s.part f).ckpt with
      | some k => k.restore && k.watched.contains (a / granSize)
      | none => false)

/-- A host access to a line on the device: refused, waiting for a block that is being moved, or served at its home. -/
inductive HostAcc where
  | refused (code : Nat)
  | waits
  | home (h : Home)

def State.hostAcc (s : State) (f a : Nat) (write : Bool) : HostAcc :=
  match s.hostHome f a with
  | none => .refused cDLKREFUSED
  | some h =>
    if write && s.hostRo f a then .refused cFABPERM
    else if s.migBusy f a then .waits
    else .home h

/-! The snoop filter (11 R397). -/

def State.sfSetOf (s : State) (f line : Nat) : List SfEnt := s.sf.filter (fun e => Config.sfSet e.f e.line == Config.sfSet f line)

/-- The filter takes an entry, or the one it has becomes claimed. -/
def State.sfInsert (s : State) (f line : Nat) (claim : Bool) : State :=
  let s1 : State := match s.sfEntry f line with
    | some _ => { s with sf := s.sf.map (fun e => if e.f == f && e.line == line then { e with claimed := e.claimed || claim } else e) }
    | none => { s with sf := s.sf ++ [{ f, line, claimed := claim }] }
  s1.setRg oDlkSf (max (s1.rg oDlkSf) s1.sf.length)

def State.sfRemove (s : State) (f line : Nat) : State := { s.mend (.snoop f line) with sf := s.sf.filter (fun e => !(e.f == f && e.line == line)) }

/-- LoadShare and LoadClaim of a line on the device: an entry is needed, and a full set first gives up the one inserted
earliest. -/
def State.shareServe (s : State) (b : Blocked) (claim : Bool) (h : Home) : State :=
  let t := HostTarget.func (BitVec.ofNat 4 b.f)
  if s.hpoison h 64 then s.hostRefuse t b.addr cPOISON
  else
    let line := b.addr / 64
    let full := (s.sfEntry b.f line).isNone && decide ((s.sfSetOf b.f line).length ≥ 16)
    match (s.sfSetOf b.f line).head? with
    | some v =>
      if full then
        let s1 : State := { s with blocked := s.blocked ++ [b] }
        if s.recalls.contains (v.f, v.line) then s1 else (s1.count 0x0612).sendRecall v.f v.line
      else (s.sfInsert b.f line claim).hostReply t b.addr true 64 (s.hread h 64)
    | none => (s.sfInsert b.f line claim).hostReply t b.addr true 64 (s.hread h 64)

/-- A look into the set of a line meets the errors of its entries (12 R419): whether one cannot be corrected. -/
def State.eccFilter (s : State) (f line : Nat) : State × Bool :=
  let us := s.upsetsIn (fun x => match x with
    | .snoop g l => Config.sfSet g l == Config.sfSet f line
    | _ => false)
  (us.foldl (fun (s : State) u => s.found u 0 0x0806 5 31 0) s, us.any Upset.hard)

/-- The bytes of `new` that a mask names over `old`, n bytes. -/
def maskBytes (mask new old n : Nat) : Nat :=
  (List.range n).foldl (fun v i => v + (if bit mask i then bits new (8 * i) 8 else bits old (8 * i) 8) * 2 ^ (8 * i)) 0

/-- A StoreMask to a line at its home. Whole 256 B lines lose poison only as they are written whole (07 R266). -/
def State.maskAt (s : State) (f a : Nat) (h : Home) (mask data : Nat) : State :=
  (s.hwrite h 64 (maskBytes mask data (s.hread h 64) 64)).noteWrite f a

/-- The bytes of a host atomic: 4 or 8 of an ADD, 8 or 16 of a CAS. -/
def atomSize (cas wide : Bool) (ty : Nat) : Nat := if cas then (if wide then 16 else 8) else if ty = 0 then 4 else 8

/-- What a host atomic of n bytes leaves over an old value. -/
def hostAtom (cas : Bool) (n ty x y old : Nat) : Nat :=
  if cas then (if old = y % 2 ^ (8 * n) then x else old) else atomFn 0 ty old x

/-- Whether a host request writes, or may be written later. -/
def HostOp.writes (o : HostOp) : Bool :=
  match o with
  | .share claim => claim
  | .peek _ => false
  | _ => true

/-- A request served at the home of its bytes (11 R396). A poisoned home is not read, and an atomic leaves it (12 R420). -/
def State.serveHome (s : State) (b : Blocked) (h : Home) : State :=
  let t := HostTarget.func (BitVec.ofNat 4 b.f)
  match b.op with
  | .share claim => s.shareServe b claim h
  | .peek n => if s.hpoison h n then s.hostRefuse t b.addr cPOISON else s.hostReply t b.addr false n (s.hread h n)
  | .mask mask data => (s.maskAt b.f b.addr h mask data).hostReply t b.addr false 0 0
  | .atomic cas wide ty x y =>
    let n := atomSize cas wide ty
    let old := s.hread h n
    if s.hpoison h n then s.hostRefuse t b.addr cPOISON
    else ((s.hwrite h n (hostAtom cas n ty x y old)).noteWrite b.f b.addr).hostReply t b.addr false n old

/-- Bytes that a request reads or may write. -/
def HostOp.bytes (o : HostOp) : Nat :=
  match o with
  | .peek n => n
  | .atomic cas wide ty _ _ => atomSize cas wide ty
  | _ => 64

/-- A request on a function's Reservoir: refused, waiting for a block that is being moved, or served (11 R395, R396). An entry of the
snoop filter that cannot be corrected takes the link DOWN instead (12 R419). -/
def State.hostServe (s : State) (b : Blocked) : State :=
  match s.hostAcc b.f b.addr b.op.writes with
  | .refused code => s.hostRefuse (.func (BitVec.ofNat 4 b.f)) b.addr code
  | .waits => { s with blocked := s.blocked ++ [b] }
  | .home h =>
    let r := s.eccFilter b.f (b.addr / 64)
    if r.2 then r.1.linkDown true else (r.1.eccHome h b.op.bytes).serveHome b h

/-- Requests that waited are tried again, in order, while the link is UP. -/
def State.retryBlocked (s : State) : State :=
  s.blocked.foldl (fun (s : State) b => if s.link = .up then s.hostServe b else s) ({ s with blocked := [] } : State)

/-- A line that the host gave up: what waited for it goes on. -/
def State.lineBack (s : State) (f line : Nat) : State := ((s.sfRemove f line).afterRecall).retryBlocked

/-- A host line write at its home, wherever it has moved. -/
def State.lineWrite (s : State) (f line data : Nat) : State := s.tblPut none f 0 (64 * line) (64 * line) 64 data false

/-! Reads. -/

/-- Bytes of the journal window or the notice queue from byte i (11 R414, 08 R321). -/
def windowRead (t : Tbl Nat) (w i n : Nat) : Nat :=
  (List.range (n / w + 2)).foldl (fun v j =>
    let e := i / w + j
    v + (tgetD t e 0 % 2 ^ (8 * w)) * 2 ^ (8 * w * j)) 0 / 2 ^ (8 * (i % w)) % 2 ^ (8 * n)

def peekOk (a n : Nat) : Bool := decide (8 ≤ n) && decide (n ≤ 256) && decide (a % 256 + n ≤ 256)

/-- A read of MGMT (11 R395). -/
def State.mgmtRead (s : State) (a n : Nat) : Option Nat :=
  if a < 0x04000000 then (if n = 8 ∧ a % 8 = 0 then some (s.regRead a) else none)
  else if a < 0x05000000 then (if peekOk a n then some (windowRead s.jrn 64 (a - 0x04000000) n) else none)
  else if a < 0x05080000 then (if peekOk a n then some (windowRead s.nqEnt 128 (a - 0x05000000) n) else none)
  else none

/-- Whether a read of MGMT names bytes of a journal entry that holds an uncorrectable error (12 R420). -/
def State.jrnLost (s : State) (a n : Nat) : Bool :=
  decide (0x04000000 ≤ a) && decide (a < 0x05000000) && s.upsets.any (fun u => u.hard && (match u.at_ with
    | .journal i => inWords 64 (a - 0x04000000) n i
    | _ => false))

/-- A host LoadPeek (11 R396): current data, nothing cached. -/
def State.peek (s : State) (t : HostTarget) (a n : Nat) : State :=
  match t with
  | .mgmt => match s.mgmtRead a n with
    | some v => if s.jrnLost a n then s.hostRefuse t a cPOISON else s.hostReply t a false n v
    | none => s.hostRefuse t a cDLKREFUSED
  | .func g =>
    let f := g.toNat
    if !peekOk a n then s.hostRefuse t a cDLKREFUSED
    else match wlIndex a with
      | some i =>
        if (List.range (n / 64 + 2)).all (fun j => decide (64 * j ≥ a % 64 + n) || s.wlOf f (i + j)) then
          s.hostReply t a false n (mread s.wl (a - wlBase) n)
        else s.hostRefuse t a cDLKREFUSED
      | none => s.hostServe { f, addr := a, op := .peek n }

/-- LOADPEEK. -/
def execLoadpeek (t : HostTarget) (addr : BitVec 64) (size : BitVec 9) (s : State) : Host.Outcome State Fault Refusal :=
  .next (if s.linkUp then s.peek t addr.toNat size.toNat else s)

/-- A LoadShare or LoadClaim: a watched line comes without a copy; MGMT has no lines to hold (log 46). -/
def State.share (s : State) (t : HostTarget) (a : Nat) (claim : Bool) : State :=
  match t with
  | .mgmt => s.hostRefuse t a cDLKREFUSED
  | .func g =>
    let f := g.toNat
    if a % 64 ≠ 0 then s.hostRefuse t a cDLKREFUSED
    else match wlIndex a with
      | some i => if s.wlOf f i then s.hostReply t a false 64 (mread s.wl (a - wlBase) 64) else s.hostRefuse t a cDLKREFUSED
      | none => s.hostServe { f, addr := a, op := .share claim }

/-- LOADSHARE. -/
def execLoadshare (t : HostTarget) (addr : BitVec 64) (s : State) : Host.Outcome State Fault Refusal :=
  .next (if s.linkUp then s.share t addr.toNat false else s)

/-- LOADCLAIM. -/
def execLoadclaim (t : HostTarget) (addr : BitVec 64) (s : State) : Host.Outcome State Fault Refusal :=
  .next (if s.linkUp then s.share t addr.toNat true else s)

/-! Writes. -/

/-- A store to a watched line wakes the enabled rings that name it (11 R400, R402). -/
def State.wakeLine (s : State) (i : Nat) : State :=
  let idle := s.rings.all (fun e => !e.2.woken)
  { s with
    turnRing := if idle then 1024 else s.turnRing
    turnTaken := if idle then 0 else s.turnTaken
    rings := s.rings.map (fun e =>
      if e.2.st == 1 && ctlWL (s.ringCtl (e.1 / 64) (e.1 % 64)) == i then (e.1, { e.2 with woken := true }) else e) }

/-- The one aligned 8 B word that a mask covers. -/
def wordOfMask (mask : Nat) : Option Nat := (List.range 8).find? (fun i => mask == 0xFF * 2 ^ (8 * i))

/-- A StoreMask (11 R396). -/
def State.storeMask (s : State) (t : HostTarget) (a mask data : Nat) : State :=
  if a % 64 ≠ 0 then s.hostRefuse t a cDLKREFUSED
  else match t with
    | .mgmt => match wordOfMask mask with
      | some i =>
        if a < 0x04000000 then (s.hostReply t a false 0 0).regWrite (a + 8 * i) (bits data (64 * i) 64)
        else s.hostRefuse t a cDLKREFUSED
      | none => s.hostRefuse t a cDLKREFUSED
    | .func g =>
      let f := g.toNat
      match wlIndex a with
      | some i =>
        if s.wlOf f i then
          (({ s with wl := mwrite s.wl (64 * i) 64 (maskBytes mask data (mread s.wl (64 * i) 64) 64) } : State).wakeLine i).hostReply
            t a false 0 0
        else s.hostRefuse t a cDLKREFUSED
      | none => s.hostServe { f, addr := a, op := .mask mask data }

/-- STOREMASK. -/
def execStoremask (t : HostTarget) (addr : BitVec 64) (mask : BitVec 64) (data : BitVec 512) (s : State) :
    Host.Outcome State Fault Refusal :=
  .next (if s.linkUp then s.storeMask t addr.toNat mask.toNat data.toNat else s)

/-- A host atomic (11 R396): ADD on INT32 or INT64, CAS of 8 or 16 B, in place of 4, 8 or 16 aligned bytes; the old value is
returned. One on a watched line of its function writes it and wakes its rings as a StoreMask does (11 R400; log 121). -/
def State.hostAtomic (s : State) (t : HostTarget) (a : Nat) (cas wide : Bool) (ty x y : Nat) : State :=
  let n := atomSize cas wide ty
  match t with
  | .mgmt => s.hostRefuse t a cDLKREFUSED
  | .func g =>
    let f := g.toNat
    if (!cas && (wide || decide (ty > 1))) || a % n ≠ 0 then s.hostRefuse t a cDLKREFUSED
    else match wlIndex a with
      | some i =>
        let old := mread s.wl (a - wlBase) n
        if s.wlOf f i then
          (({ s with wl := mwrite s.wl (a - wlBase) n (hostAtom cas n ty x y old) } : State).wakeLine i).hostReply t a false n old
        else s.hostRefuse t a cDLKREFUSED
      | none => s.hostServe { f, addr := a, op := .atomic cas wide ty x y }

/-- HOST_ATOMIC. -/
def execHostAtomic (t : HostTarget) (addr : BitVec 64) (cas : Bool) (wide : Bool) (atype : BitVec 2)
    (operand compare : BitVec 128) (s : State) : Host.Outcome State Fault Refusal :=
  .next (if s.linkUp then s.hostAtomic t addr.toNat cas wide atype.toNat operand.toNat compare.toNat else s)

/-! Copies given back. -/

/-- A ReturnDirty: a claimed line is written at its home and its entry removed; a line the host has not claimed is refused
(log 46). -/
def State.returnDirty (s : State) (t : HostTarget) (a data : Nat) : State :=
  match t with
  | .mgmt => s.hostRefuse t a cDLKREFUSED
  | .func g =>
    let f := g.toNat
    let line := a / 64
    if a % 64 ≠ 0 || (s.part f).st != .active || !(s.sfEntry f line).any SfEnt.claimed then s.hostRefuse t a cDLKREFUSED
    else ((s.lineWrite f line data).hostReply t a false 0 0).lineBack f line

/-- RETURNDIRTY. -/
def execReturndirty (t : HostTarget) (addr : BitVec 64) (data : BitVec 512) (s : State) : Host.Outcome State Fault Refusal :=
  .next (if s.linkUp then s.returnDirty t addr.toNat data.toNat else s)

/-- Whether a function reaches the line at an address (11 R395): a line of T1 or T2, one that the filter holds wherever its granule
lies now (11 R397), or a watched line of its own. -/
def State.reachesLine (s : State) (f a : Nat) : Bool :=
  a % 64 == 0 && (match wlIndex a with
    | some i => s.wlOf f i
    | none => (s.hostHome f a).isSome || ((s.part f).st == .active && (s.sfEntry f (a / 64)).isSome))

/-- A ReturnClean: the copy is given up. -/
def State.returnClean (s : State) (t : HostTarget) (a : Nat) : State :=
  match t with
  | .mgmt => s.hostRefuse t a cDLKREFUSED
  | .func g =>
    if !s.reachesLine g.toNat a then s.hostRefuse t a cDLKREFUSED
    else (s.hostReply t a false 0 0).lineBack g.toNat (a / 64)

/-- RETURNCLEAN. -/
def execReturnclean (t : HostTarget) (addr : BitVec 64) (s : State) : Host.Outcome State Fault Refusal :=
  .next (if s.linkUp then s.returnClean t addr.toNat else s)

/-- RECALL_RESPONSE: the host gives up its copy of a line, with the line's data when it was modified. -/
def execRecallResponse (f : BitVec 4) (line : BitVec 48) (dirty : Bool) (data : BitVec 512) (s : State) :
    Host.Outcome State Fault Refusal :=
  let n := f.toNat
  let l := line.toNat
  .next (if !s.linkUp || !s.recalls.contains (n, l) then s
    else
      let s0 : State := { s with recalls := s.recalls.filter (fun r => r != (n, l)) }
      let s1 : State := if dirty && (s.sfEntry n l).any SfEnt.claimed then s0.lineWrite n l data.toNat else s0
      s1.lineBack n l)

/-- RECALL_TIMEOUT: a Recall unanswered for SNP_TMO takes the link DOWN (11 R397). -/
def execRecallTimeout (f : BitVec 4) (line : BitVec 48) (s : State) : Host.Outcome State Fault Refusal :=
  .next (if s.linkUp && s.recalls.contains (f.toNat, line.toNat) then s.linkDown true else s)

/-! The link. -/

/-- DYNERLINK_DOWN. -/
def execDynerlinkDown (s : State) : Host.Outcome State Fault Refusal :=
  .next (if s.linkUp then s.linkDown true else s)

def widthCode (w : LinkWidth) : Nat :=
  match w with
  | .low => 1
  | .high => 2
  | .full => 3

/-- DYNERLINK_TRAINING: from boot stage 5 on the link trains, on all lanes or on the half that trains fully (11 R393, 14 R480);
not while a loopback depth takes its lanes (14 R497). -/
def execDynerlinkTraining (w : LinkWidth) (s : State) : Host.Outcome State Fault Refusal :=
  .next (if s.plat.power ≠ .running || s.link == .up || decide (s.plat.stage < 5) || decide (s.plat.stage > 6)
      || [1, 2, 3, 4, 6].contains (bits (s.rg (oLb 16)) 0 3) then s
    else { s with link := .up, linkWidth := widthCode w })

end Sys2Proof.Machine
end

