-- ==== Sys2Proof/Machine/Logs.lean ====
section
/-! DEFINITION. The Blot Log (12 R426-R430) and the notice queue of the fabric manager's node (08 R321). -/

namespace Sys2Proof.Machine

/-! Records (12 R427). -/

def rcSeq (r : Nat) : Nat := bits r 0 64
def rcTime (r : Nat) : Nat := bits r 64 64
def rcCode (r : Nat) : Nat := bits r 128 16
def rcClass (r : Nat) : Nat := bits r 144 3
/-- SRCK and SRCID. -/
def rcSource (r : Nat) : Nat := bits r 152 40
def rcCount (r : Nat) : Nat := bits r 224 32

/-- The record number n of an event. -/
def Event.record (e : Event) (n : Nat) : Nat :=
  n + e.time % 2 ^ 64 * 2 ^ 64 + e.code % 2 ^ 16 * 2 ^ 128 + e.cls % 8 * 2 ^ 144 + e.srck % 256 * 2 ^ 152
    + e.srcid % 2 ^ 32 * 2 ^ 160
    + (if e.pv then e.lnode % 2 ^ 16 * 2 ^ 192 + e.part % 16 * 2 ^ 208 + e.ctx % 8 * 2 ^ 212 + 2 ^ 215 else 0)
    + 2 ^ 224 + e.d0.toNat * 2 ^ 256 + e.d1.toNat * 2 ^ 320 + e.d2.toNat * 2 ^ 384 + n % 2 ^ 64 * 2 ^ 448

/-- The record of a number, while it has not been overwritten. -/
def State.record (s : State) (n : Nat) : Option Nat := (tget s.blt (n % 65536)).filter (fun r => rcSeq r == n && !s.ruined (.blot (n % 65536)))

def State.putRecord (s : State) (r : Nat) : State := { s.mend (.blot (rcSeq r % 65536)) with blt := tput s.blt (rcSeq r % 65536) r }

def oBltCfg : Nat := 0x00800018

/-- BLT_CFG.FOLD in ticks. -/
def State.foldTicks (s : State) : Nat := usTicks (bits (s.rg oBltCfg) 0 11)

def State.noticesOn (s : State) : Bool := bit (s.rg oBltCfg) 11

/-- The record that an event of class 0 is folded into (12 R429). -/
def State.foldInto (s : State) (e : Event) : Option Nat :=
  if e.cls ≠ 0 then none
  else
    ((s.blt.map Prod.snd).find? (fun r =>
      rcCode r == e.code && rcSource r == e.srck + e.srcid * 2 ^ 8 && decide (e.time - rcTime r < s.foldTicks)))

/-- The event at the front of the log's queue is written or folded; a record that the host had not consumed is counted as it
is overwritten (12 R430). -/
def State.logWrite (s : State) : State :=
  match s.bltq with
  | [] => s
  | e :: rest =>
    let s0 : State := { s with bltq := rest }
    match s0.foldInto e with
    | some r => s0.putRecord (setBits r 224 32 (min (rcCount r + 1) (2 ^ 32 - 1)))
    | none =>
      let n := s0.bltHead
      let rd := min (s0.rg 0x00800008) n
      let s1 : State := { s0.putRecord (e.record n) with
        bltHead := n + 1
        bltNote := if s0.noticesOn then s0.bltNote else { s0.bltNote with skip := n :: s0.bltNote.skip } }
      if n > 65536 ∧ n - 65536 ≥ rd then s1.count 0x0812 else s1

/-- LOG_RECORD_WRITE: the log goes on while only the always-on island runs (13 R457). -/
def execLogRecordWrite (s : State) : Host.Outcome State Fault Refusal :=
  .next (if s.plat.power = .islandReset then s else s.logWrite)

/-! The notice queue. -/

/-- The entry of a notice (08 R321). -/
def noticeEntry (n now rec snode : Nat) : Nat :=
  rec % 2 ^ 512 + n % 2 ^ 64 * 2 ^ 512 + now % 2 ^ 64 * 2 ^ 576 + snode % 2 ^ 16 * 2 ^ 640 + n % 2 ^ 64 * 2 ^ 960

/-- A notice is written into the queue; each entry is a batch of its own for event messages. -/
def State.noticeWrite (s : State) (rec snode : Nat) : State :=
  let n := s.nqHead
  let rd := min (s.rg 0x00D00058) n
  let cfg := s.rg 0x00D00060
  let s1 : State := { s with nqEnt := tput s.nqEnt (n % 4096) (noticeEntry n s.now rec snode), nqHead := n + 1 }
  let s2 : State := if n > 4096 ∧ n - 4096 ≥ rd then s1.count 0x041D else s1
  if bit cfg 11 && s2.link == .up then { s2 with hostTx := s2.hostTx ++ [.event (bits cfg 0 11)] } else s2

/-! Sending (12 R431, 08 R320). -/

/-- Records that are sent as notices: classes 1 to 4, and FAB_LINK_DOWN, FAB_LINK_UP, FAB_C0_OVER and LIG_STALL. -/
def noticeKind (r : Nat) : Bool :=
  (decide (1 ≤ rcClass r) && decide (rcClass r ≤ 4)) || [0x0411, 0x041E, 0x0415, 0x0504].contains (rcCode r)

/-- Whether notices may be sent now. -/
def State.maySendNotice (s : State) : Bool :=
  s.plat.power == .running && decide (3 ≤ s.plat.stage) && decide (s.plat.stage ≤ 6) && !s.plat.scribeDown.contains 2
    && s.noticesOn && s.nodeValid && s.fmValid

/-- The next record to send: the lowest number still in the log. -/
def State.noticeDue (s : State) : Option Nat :=
  (((s.blt.map Prod.snd).filter (fun r =>
    noticeKind r && decide (rcSeq r ≥ s.bltNote.next) && !s.bltNote.skip.contains (rcSeq r))).map rcSeq).foldl
    (fun m n => some (match m with
      | none => n
      | some k => min k n)) none

/-- NOTIFIED is set in a record that the log still holds. -/
def State.setNotified (s : State) (n : Nat) : State :=
  match s.record n with
  | some r => s.putRecord (setBits r 147 1 1)
  | none => s

/-- Scribe-M goes on after record n. -/
def State.noticeNext (s : State) (n : Nat) : State :=
  { s with bltNote := { s.bltNote with cur := none, tries := 0, next := n + 1 } }

/-- A record sent to the fabric manager as a NOTICE. -/
def State.noticeIssue (s : State) (n rec tries : Nat) : State :=
  let sl := s.freeSlot
  let u := (tgetD s.use sl 0 + 1) % 1024
  let r : RReq := { ptype := 12, cls := 0, size := 7, off := 4, space := 0, data := rec, words := 8 }
  let o : Op := { use := u, owner := .notice, dest := .none, part := 16, lnode := 0, space := 0, off := 0, pnode := s.fmNode
                  epoch := s.srcEpoch, tick := s.now, circ := none }
  { s with
    ops := tput s.ops sl o
    use := tput s.use sl u
    mgmtOut := s.mgmtOut ++ [r.packet s.srcEpoch s.pnode s.fmNode 0 0 0 sl u 0 0]
    bltNote := { s.bltNote with cur := some n, tries, sentAt := s.now } }

/-- NOTICE_SEND: the next record goes out; the fabric manager's own go straight into its queue. -/
def execNoticeSend (s : State) : Host.Outcome State Fault Refusal :=
  .next (if !s.maySendNotice || s.bltNote.cur.isSome then s
    else match s.noticeDue.bind (fun n => (s.record n).map (fun r => (n, r))) with
      | none => s
      | some (n, r) =>
        if s.isFm then ((s.noticeWrite r s.pnode).setNotified n).noticeNext n
        else if s.slotsFull then s
        else s.noticeIssue n r 1)

/-- A sending failed: three in all, then the notice is lost, counted and logged. A record that has been overwritten is not
sent again. -/
def State.noticeFailed (s : State) (n : Nat) : State :=
  match s.record n with
  | none => s.noticeNext n
  | some r =>
    if s.bltNote.tries < 3 then s.noticeIssue n r (s.bltNote.tries + 1)
    else
      let s1 : State := s.count 0x0813
      (s1.logEvent (s1.event 0x0813 5 6 2 n 0 0)).noticeNext n

def Owner.isNotice (o : Owner) : Bool :=
  match o with
  | .notice => true
  | _ => false

/-- The operation that a response completes: both parts of its TID match (08 R317). -/
def State.answered (s : State) (k : Packet) : Option Op := (tget s.ops k.rslot).filter (fun o => o.use == k.ruse)

/-- A response in its turn, sent to this device. -/
def State.respReaches (s : State) (k : Packet) (types : List Nat) : Bool := s.reaches k types

/-- The response has come: the slot is free at once. -/
def State.release_ (s : State) (k : Packet) : State := { s.take k with ops := tdel s.ops k.rslot }

/-- NOTICE_RESPONSE. A MGMT response that answers nothing of this device is stale. -/
def execNoticeResponse (p : Packet) (s : State) : Host.Outcome State Fault Refusal :=
  .next (if !s.respReaches p [13] then s.dropBad p
    else if s.unnumbered p then (s.take p).count 0x0413
    else match s.answered p, s.bltNote.cur with
      | some o, some n =>
        if !o.owner.isNotice || p.rsub ≠ 4 then (s.take p).count 0x041A
        else (if p.status = 0 then ((s.release_ p).setNotified n).noticeNext n
          else if s.maySendNotice then (s.release_ p).noticeFailed n
          else s.release_ p).sendWaiting
      | _, _ => (s.take p).count 0x041A)

/-- NOTICE_RESEND_TIMEOUT: 1 ms without a response. -/
def execNoticeResendTimeout (s : State) : Host.Outcome State Fault Refusal :=
  .next (match s.bltNote.cur with
    | none => s
    | some n =>
      if !s.maySendNotice || (s.slotsFull && decide (s.bltNote.tries < 3)) then s
      else
        let s1 : State := s.reach (s.bltNote.sentAt + usTicks 1000)
        let s2 : State := s1.dropOps (fun o => o.owner.isNotice)
        ({ s2 with mgmtOut := s2.mgmtOut.filter (fun k => !(k.ptype == 12 && k.sub == 4)) } : State).noticeFailed n)

end Sys2Proof.Machine
end

