-- ==== Sys2Proof/Machine/Rings.lean ====
section
/-! DEFINITION. Rings: the intake of commands (11 R401, R402, R404, R405, R412, R413, R415) and their completions (11 R403, R408). -/

namespace Sys2Proof.Machine

/-! The check of a record (11 R404, R405). -/

/-- Bits [lo + n - 1 : lo] of the record from byte i. -/
def recField (i lo n : Nat) : Nat := (2 ^ n - 1) * 2 ^ (8 * i + lo)

def recHeader : Nat := recField 0 0 11 + recField 4 0 32

/-- The operand bits that an opcode assigns; none for an unassigned opcode. -/
def recOperands (op : Nat) : Option Nat :=
  match op with
  | 0x01 => some (recField 8 0 4 + recField 12 0 32 + recField 16 0 192 + recField 40 0 18 + recField 48 0 64)
  | 0x02 => some (recField 8 0 3 + recField 16 0 192)
  | 0x03 => some (recField 8 0 3 + recField 24 0 192)
  | 0x04 => some (recField 16 0 384)
  | 0x05 => some (recField 16 0 96)
  | 0x06 => some (recField 8 0 1)
  | 0x07 => some (recField 8 0 3 + recField 12 0 32)
  | 0x10 => some (recField 16 0 256)
  | 0x11 => some 0
  | 0x18 | 0x19 => some (recField 8 0 3 + recField 9 0 2)
  | 0x1A | 0x1B | 0x1C | 0x1D => some (recField 8 0 3)
  | 0x20 | 0x21 => some (recField 8 0 3 + recField 16 0 128)
  | 0x30 => some (recField 8 0 2 + recField 9 0 3)
  | _ => none

/-- An address operand outside its range. -/
def addrBad (v : Nat) : Bool :=
  bits v 52 10 != 0 || v % 8 != 0 ||
    (match bits v 62 2 with
     | 0 => bits v 48 4 != 0
     | 1 => bits v 48 4 != 0 || offsetBad 1 (bits v 0 48)
     | 2 => false
     | _ => true)

def lenBad (v : Nat) : Bool := v % 8 != 0 || v == 0 || decide (v > 2 ^ 40 - 8)

/-- An operand outside its range, by opcode. -/
def Cmd.rangeBad (c : Cmd) : Bool :=
  match c.op with
  | 0x01 => (!bit c.body 67 && (c.at_ 12 2 != 0 || c.at_ 14 2 != 0)) || c.at_ 40 4 % 8 != 0 || decide (c.at_ 48 8 ≥ 2 ^ 48)
  | 0x02 => addrBad (c.at_ 16 8) || addrBad (c.at_ 24 8) || lenBad (c.at_ 32 8)
  | 0x03 => addrBad (c.at_ 24 8) || lenBad (c.at_ 32 8)
  | 0x10 => bits c.body 128 4 != c.f
  | 0x30 => bits c.body 64 2 == 3
  | _ => false

def Cmd.badRec (c : Cmd) : Bool :=
  match recOperands c.op with
  | none => true
  | some m => c.body &&& (recHeader + m) != c.body || c.rangeBad

/-! Ring memory (11 R401, R417). -/

def ringSize (v lo : Nat) : Nat := 2 ^ (min 10 (bits v lo 4) + 6)

def State.rqSize (s : State) (f r : Nat) : Nat := ringSize (s.ringCtl f r) 1
def State.cqSize (s : State) (f r : Nat) : Nat := ringSize (s.ringCtl f r) 5

/-- The ring word: TAIL and CQH. -/
def State.ringWord (s : State) (f r : Nat) : Nat :=
  mread s.wl (64 * ctlWL (s.ringCtl f r) + 8 * bits (s.ringCtl f r) 21 3) 8

def State.ringTail (s : State) (f r : Nat) : Nat := bits (s.ringWord f r) 0 32
def State.ringCqh (s : State) (f r : Nat) : Nat := bits (s.ringWord f r) 32 32

/-- A difference of ring indices. -/
def idxDiff (a b : Nat) : Nat := (a + 2 ^ 32 - b) % 2 ^ 32

/-- The address of an entry of a ring whose base register is v, with LOC in bit 0. -/
def ringAddr (v i n : Nat) : Nat := v / 64 % 2 ^ 46 * 64 + 64 * (i % n)

/-- A ring whose indices are out of range enters ERROR; completions due are dropped (11 R402, R403). -/
def State.ringError (s : State) (f r : Nat) : State :=
  ((s.setRing (ringKey f r) { s.ring (ringKey f r) with st := 2, woken := false }).count 0x0610).dropDue f r

def State.ringOut (s : State) (f r : Nat) : Bool :=
  let g := s.ring (ringKey f r)
  decide (idxDiff (s.ringTail f r) g.head > s.rqSize f r) || decide (idxDiff g.cqt (s.ringCqh f r) > s.cqSize f r)

/-! Intake. -/

/-- Whether a ring has its turn's work: woken, ACTIVE, and its function not at its limit of 256 (11 R402). -/
def State.ringReady (s : State) (k : Nat) : Bool :=
  let g := s.ring k
  g.st == 1 && g.woken && decide ((s.liveCmds (k / 64)).length < 256)

/-- The ring whose record is taken next: the ring in turn for up to 16 records, then the next one round. -/
def State.nextRing (s : State) : Option Nat :=
  if s.turnTaken < 16 && s.turnTaken != 0 && s.ringReady s.turnRing then some s.turnRing
  else
    let after := (s.rings.map Prod.fst).filter (fun k => s.ringReady k)
    match after.find? (fun k => decide (k > s.turnRing)) with
    | some k => some k
    | none => after.head?

/-- Whether a record is accepted after a PART_DISABLE of its function that has not finished: all but QUERY and PART_CREATE then
complete with CMD_STATE (10 R385, 11 R406). -/
def State.afterDisable (s : State) (c : Cmd) : Bool :=
  c.op != 0x30 && c.op != 0x10 && (s.liveCmds c.f).any (fun d => d.op == 0x11 && decide (d.seq < c.seq))

/-- A record is accepted: its journal entry is written, HEAD advances, and a bad record, or one after a PART_DISABLE, completes at
once (11 R404, R406, R413). -/
def State.accept (s : State) (f r : Nat) (rec : Option Nat) : State :=
  let k := ringKey f r
  let g := s.ring k
  let body := rec.getD 0
  let c : Cmd := { seq := s.jrnHead, f, r, ridx := g.head, body, st := 0, parts := 0, fails := [], code := 0, detail := 0
                   accept := s.now, fin := 0 }
  let s1 : State := { s.mend (.journal (jrnIndex c.seq)) with
    jrn := tput s.jrn (jrnIndex c.seq) (c.entry (sha3x256 body 64 % 2 ^ 64))
    jrnHead := s.jrnHead + 1
    jrnWait := false
    cmds := s.cmds ++ [c]
    turnRing := k
    turnTaken := if s.turnRing = k then s.turnTaken % 16 + 1 else 1 }
  let s2 : State := s1.setRing k { g with head := (g.head + 1) % 2 ^ 32 }
  if rec.isNone || c.badRec then s2.doneCmd c.seq 0x0603 0
  else if s.afterDisable c then s2.stateCmd c.seq
  else s2

/-- Whether acceptance must wait for journal room (11 R415). -/
def State.jrnFull (s : State) : Bool :=
  match tget s.jrn (jrnIndex s.jrnHead) with
  | some e => decide (bits e 288 3 < 2)
  | none => false

/-- The record at HEAD of a ring in the Reservoir (11 R401, R417): lines that the host holds come back first, and a record outside the
device is read where it lies. A record that cannot be read is a bad record (12 R420; log 47). -/
def State.recordServe (s : State) (f r a : Nat) : State :=
  let w := Who.ring (ringKey f r)
  if a ≥ 2 ^ 48 ∨ (s.tblBad f a 0 64 false).isSome = true ∨ (s.tblLost w f a 0 64).isSome = true then (s.tblEnd w).accept f r none
  else match s.tblHeld w f a 0 64 false with
    | [] => ((s.eccTbl f a 0 64).tblEnd w).accept f r
        (if s.tblPoison w f 0 a 0 64 then none else some (s.tblRead w f 0 a 0 64))
    | x :: xs => s.gather w f (x :: xs)

/-- RING_SERVICE: one record of the ring in turn; none before stage 5 or after a boot that failed (14 R480, R481). A record in host memory
is asked for by a LoadPeek (11 R398), and accepted when it comes. The command's third operand plays no part: a record's bytes are
always those that ring memory holds. -/
def execRingService (f : BitVec 4) (r : BitVec 6) (_rec : BitVec 512) (s : State) : Host.Outcome State Fault Refusal :=
  let n := f.toNat
  let q := r.toNat
  let k := ringKey n q
  let g := s.ring k
  let base := s.rg (oRing n q)
  let a := ringAddr base g.head (s.rqSize n q)
  .next (if s.plat.power ≠ .running || decide (s.plat.stage < 5) || s.plat.berr != 0 || s.nextRing != some k then s
    else if s.ringOut n q then s.ringError n q
    else if s.ringTail n q = g.head then
      { s.setRing k { g with woken := false } with turnTaken := if s.turnRing = k then 0 else s.turnTaken }
    else if s.jrnFull then (if s.jrnWait then s else ({ s with jrnWait := true } : State).count 0x0611)
    else if bit base 0 then s.recordServe n q a
    else if s.link ≠ .up || s.hreqs.any (fun x => x.wait == .record k) then s
    else s.hostAsk 0 a 64 0 (.record k))

/-! Answers of the host. -/

/-- The record that a ring asked the host for has come: it is accepted where the ring still waits for it; one that is poisoned is a bad
record (11 R402, R404, 12 R420). -/
def State.recordArrive (s : State) (k a v : Nat) (pz : Bool) : State :=
  let f := k / 64
  let r := k % 64
  let g := s.ring k
  if g.st = 1 ∧ s.ringTail f r ≠ g.head ∧ a = ringAddr (s.rg (oRing f r)) g.head (s.rqSize f r) ∧ s.jrnFull = false then
    s.accept f r (if pz then none else some v)
  else s

/-- What an answer of the host brings about. -/
def State.hostAnswer (s : State) (r : HostReq) (v : Nat) (pz : Bool) : State :=
  match r.wait with
  | .record k => s.recordArrive k r.addr v pz
  | w => s.hostArrive w v pz

/-- HOST_RESPONSE: the answer to a device request (11 R398); a write is done when its last StoreMask is answered. A piece of a COPY
waits for lines that the host must give up first; host requests that waited for a block being moved are tried again. -/
def execHostResponse (id : BitVec 32) (status : BitVec 16) (data : Nat) (s : State) : Host.Outcome State Fault Refusal :=
  .next (if !s.linkUp then s
    else match s.hreqs.find? (fun r => r.id % 2 ^ 32 == id.toNat) with
      | none => s
      | some r =>
        let held : Option (Nat × List Nat) := match r.wait with
          | .copyRead q i => (s.copyPiece q i).map (fun c => (c.1.f, s.arriveHeld q i))
          | _ => none
        match held with
        | some (f, l :: ls) => s.recallAll f (l :: ls)
        | _ =>
          let s1 : State := { s with hreqs := s.hreqs.filter (fun x => x.id != r.id) }
          if status = 0 ∨ status.toNat = cPOISON then
            (if r.kind = 1 ∧ s1.hreqs.any (fun x => x.grp == r.grp) = true then s1
             else s1.hostAnswer r (data % 2 ^ (8 * r.size)) (status != 0)).retryBlocked
          else (({ s with hreqs := s.hreqs.filter (fun x => x.id != r.id && !(r.kind == 1 && x.grp == r.grp)) } : State).hostLost
            r.wait status.toNat).retryBlocked)

/-! Completions. -/

/-- A completion (11 R408). -/
def Cmd.completion (c : Cmd) (phase : Bool) : Nat :=
  c.seq % 2 ^ 64 + c.user * 2 ^ 64 + c.code % 2 ^ 16 * 2 ^ 96 + c.op * 2 ^ 112 + b2n phase * 2 ^ 120
    + c.parts % 2 ^ 64 * 2 ^ 128 + c.ridx % 2 ^ 32 * 2 ^ 192 + c.detail % 2 ^ 64 * 2 ^ 256 + c.accept % 2 ^ 64 * 2 ^ 320
    + c.fin % 2 ^ 64 * 2 ^ 384

/-- The completion of a ring that falls due first. -/
def State.dueOn (s : State) (f r : Nat) : Option Cmd :=
  (s.order.filterMap s.cmd).find? (fun c => c.f == f && c.r == r)

/-- A command leaves the device's list: its result stays in the journal. -/
def State.forget (s : State) (seq : Nat) : State :=
  { s with order := s.order.filter (fun q => q != seq), cmds := s.cmds.filter (fun c => c.seq != seq) }

/-- The completion is in ring memory: CQT advances, and an event message goes out unless the command is QUIET (11 R403;
log 47: each completion is a batch of its own). -/
def State.completed (s : State) (c : Cmd) : State :=
  let k := ringKey c.f c.r
  let ctl := s.ringCtl c.f c.r
  let s1 : State := (s.forget c.seq).setRing k { s.ring k with cqt := ((s.ring k).cqt + 1) % 2 ^ 32 }
  if bit ctl 35 && !c.quiet then s1.tell (.event (bits ctl 24 11)) else s1

/-- COMPLETION_WRITE: the next completion of a ring, while the completion ring has room. While the link is down none is written
(11 R399). -/
def execCompletionWrite (f : BitVec 4) (r : BitVec 6) (s : State) : Host.Outcome State Fault Refusal :=
  let n := f.toNat
  let q := r.toNat
  let g := s.ring (ringKey n q)
  let base := s.rg (oRing n q + 8)
  let a := ringAddr base g.cqt (s.cqSize n q)
  .next (match s.dueOn n q with
    | none => s
    | some c =>
      let v := c.completion (g.cqt / s.cqSize n q % 2 == 0)
      if s.plat.power ≠ .running || g.st ≠ 1 then s
      else if s.ringOut n q then s.ringError n q
      else if idxDiff g.cqt (s.ringCqh n q) ≥ s.cqSize n q then s
      else if s.link ≠ .up then s.forget c.seq
      else if bit base 0 then
        (if decide (a ≥ 2 ^ 48) || (s.tblBad n a 0 64 true).isSome then s.forget c.seq
         else if (s.held n a 64 true).isEmpty then (s.tblPut none n 0 a a 64 v false).completed c
         else s.recallAll n (s.held n a 64 true))
      else (s.hostAsk 1 a 64 v .complete).completed c)

/-! Ring control (11 R417). -/

/-- RING_ENABLE: a write of CMD_RING_CTL with ENABLE = 1. -/
def execRingEnable (f : BitVec 4) (r : BitVec 6) (v : BitVec 64) (s : State) : Host.Outcome State Fault Refusal :=
  .next (if s.plat.power = .running ∧ bit v.toNat 0 = true then s.ringCtlWrite f.toNat r.toNat v.toNat else s)

/-- RING_DISABLE: a write of CMD_RING_CTL with ENABLE = 0. -/
def execRingDisable (f : BitVec 4) (r : BitVec 6) (v : BitVec 64) (s : State) : Host.Outcome State Fault Refusal :=
  .next (if s.plat.power = .running ∧ bit v.toNat 0 = false then s.ringCtlWrite f.toNat r.toNat v.toNat else s)

end Sys2Proof.Machine
end

