-- ==== Sys2Proof/Machine/FabricMgmt.lean ====
section
/-! DEFINITION. Management requests at this device (08 R316-R319, R321; 09 R355). -/

namespace Sys2Proof.Machine

/-! Answers. -/

/-- The MGMT response to a request: status, data, the same SUB (08 R318; log 24). -/
def State.mgmtReply (s : State) (k : Packet) (status words data : Nat) : Packet :=
  let r := k.reply 0xD s.srcEpoch status words data s.pnode
  { r with w1 := putFld r.w1 48 8 k.sub }

/-- An answer of the management hardware. -/
def State.hwAnswer (s : State) (k : Packet) (status : Nat) : State := s.put (s.mgmtReply k status 0 0)

/-- An answer of the management agent, behind what its queue holds; none after a reset that the request itself asked for. -/
def State.agentAnswer (s : State) (k : Packet) (status words data : Nat) : State :=
  if s.plat.power = .running then { s with mgmtOut := s.mgmtOut ++ [s.mgmtReply k status words data] } else s

/-- FAB_AGENT: a request that is refused. -/
def State.agentRefuse (s : State) (k : Packet) : State := (s.count 0x0405).agentAnswer k 0x0405 0 0

/-- The fabric manager's node sent it (08 R319). -/
def State.fmSent (s : State) (k : Packet) : Bool := s.fmValid && k.snode == s.fmNode

/-- A management request that this device takes: none where it stays, else the state without it, refusals counted (08 R287,
R319). -/
def State.mgmtTake (s : State) (k : Packet) (act : State → State) : State :=
  if s.unnumbered k then (s.take k).count 0x0413
  else if !s.fmSent k then (s.take k).count 0x0418
  else act (s.take k)

/-- Word i of a payload. -/
def mgmtWord (k : Packet) (i : Nat) : Nat := bits k.data (64 * i) 64

/-- The control-window offset that a payload word names. -/
def offOf (v : Nat) : Nat := v % 2 ^ 26

/-- An offset that REGRD and REGWR may reach. -/
def mgmtOff (v : Nat) : Bool := occupied (offOf v) && !inSec (offOf v)

/-- REGRD. -/
def State.regrd (s : State) (k : Packet) : State :=
  let n := k.size / 8
  let os := (List.range n).map (mgmtWord k)
  if !s.scribeUp 2 || decide (n > 8) || !os.all mgmtOff then s.agentRefuse k
  else s.agentAnswer k 0 n (packElems 64 (os.map (fun o => s.regRead (offOf o))))

def execRegrd (p : Packet) (s : State) : Host.Outcome State Fault Refusal :=
  .next (if !s.reaches p [12] || p.sub ≠ 1 then s.dropBad p else s.mgmtTake p (fun s => s.regrd p))

/-- REGWR: the pairs in order, then the answer. -/
def State.regwr (s : State) (k : Packet) : State :=
  let n := k.size / 8
  let ps := (List.range (n / 2)).map (fun i => (mgmtWord k (2 * i), mgmtWord k (2 * i + 1)))
  if !s.scribeUp 2 || decide (n > 8) || n % 2 != 0 || !ps.all (fun e => mgmtOff e.1) then s.agentRefuse k
  else (ps.foldl (fun (s : State) e => s.regWrite (offOf e.1) e.2) s).agentAnswer k 0 0 0

def execRegwr (p : Packet) (s : State) : Host.Outcome State Fault Refusal :=
  .next (if !s.reaches p [12] || p.sub ≠ 2 then s.dropBad p else s.mgmtTake p (fun s => s.regwr p))

/-- LNTWR. -/
def State.lntwr (s : State) (k : Packet) : State :=
  let n := k.size / 8
  let h := mgmtWord k 0
  let first := bits h 0 16
  let part := bits h 16 8
  let es := (List.range (n - 1)).map (fun i => (first + i, w64 (mgmtWord k (i + 1))))
  if !s.scribeUp 2 || decide (n < 2) || decide (n > 8) || decide (part ≥ 16) || bits h 24 40 != 0
    || !es.all (fun e => decide (e.1 ≤ 65535) && lnMask e.2 == e.2) then s.agentRefuse k
  else (es.foldl (fun (s : State) e => s.setLnt part e.1 e.2) s).agentAnswer k 0 0 0

def execLntwr (p : Packet) (s : State) : Host.Outcome State Fault Refusal :=
  .next (if !s.reaches p [12] || p.sub ≠ 3 then s.dropBad p else s.mgmtTake p (fun s => s.lntwr p))

/-- NOTICE at the fabric manager's node, from any node; elsewhere it is discarded (08 R321). -/
def execNotice (p : Packet) (s : State) : Host.Outcome State Fault Refusal :=
  .next (if !s.reaches p [12] || p.sub ≠ 4 then s.dropBad p
    else if s.unnumbered p then (s.take p).count 0x0413
    else if !s.isFm then (s.take p).count 0x0418
    else if p.size ≠ 64 then (s.take p).agentRefuse p
    else ((s.take p).noticeWrite p.data p.snode).agentAnswer p 0 0 0)

/-- MGMT_UNKNOWN_SUB. -/
def execMgmtUnknownSub (p : Packet) (s : State) : Host.Outcome State Fault Refusal :=
  .next (if !s.reaches p [12] || (decide (1 ≤ p.sub) && decide (p.sub ≤ 6)) then s.dropBad p
    else s.mgmtTake p (fun s => s.agentRefuse p))

/-! TEARDOWN (08 R316, 10 R386). -/

/-- Epoch e is newer than epoch p. -/
def epochNewer (e p : Nat) : Bool :=
  let d := (e + 65536 - p % 65536) % 65536
  decide (1 ≤ d) && decide (d ≤ 32767)

/-- The images of a running context, from which it was restored, are what is left of it (10 R386). -/
def State.fallBack (s : State) (p c : Nat) : State :=
  let b := 4096 * (8 * p + c)
  { s with cores := s.cores.filter (fun e => decide (e.1 < b)) ++ s.saved.filter (fun e => inCtx p c e.1)
      ++ s.cores.filter (fun e => decide (b + 4096 ≤ e.1)) }

/-- A context at a teardown: STOPPED with CMD_ABORTED, its LAUNCH completed. No image is written, and one being restored or saved
carries no guarantee (10 R386). -/
def State.tearCtx (s : State) (p c : Nat) : State :=
  let x := s.ctx p c
  let stop := fun (s : State) =>
    ((s.setCtx p c { s.ctx p c with st := .stopped, stopcode := 0x0601, holdJob := none }).endLaunch p c 0x0601).endPauses p c 0x0604
  match x.st with
  | .held | .ready | .paused => stop s
  | .running => stop (if s.restored p c then s.fallBack p c else s.spoilImage p c)
  | .restoring | .saving => stop (s.spoilImage p c)
  | _ => s

/-- What waits for operations that the teardown ended. -/
def State.tornOwner (s : State) (o : Owner) : State :=
  match o with
  | .copy q i => s.copyFail q (i % 64) 0x0601
  | .stage p b k _ => s.stageLost p b k
  | .move p g _ => s.moveLost p g
  | _ => s

/-- The steps of R316 on a partition. -/
def State.tearPart (s : State) (p : Nat) : State :=
  let clus := (s.part p).clus
  let s1 : State := s.setTorn p
  let s2 : State := match (s1.part p).ckpt with
    | some k => if k.restore then s1.restoreFail p k 0x0601 else s1.ckFail p k 0x0601
    | none => s1
  let s3 : State := (slots8.foldl (fun (s : State) c => s.tearCtx p c) s2).unseat p
  let gone := (s3.ops.filter (fun e => s3.endsWith p e.2)).map (fun e => e.2.owner)
  let s4 : State := (((s3.dropOps (s3.endsWith p)).closeEntries p (fun _ => true)).closeCollects p).closeGroups (fun g => g.p == p)
  let s5 : State := { s4 with
    far := s4.far.filter (fun e => e.part != p)
    cores := s4.cores.map (fun e => if e.1 / 32768 == p then (e.1, { e.2 with dmas := [], fence := false, held := [] }) else e)
    duc := s4.duc.map (fun e => if clus.contains e.1 then (e.1, { e.2 with run := [], q := [], loads := [] }) else e)
    tm := s4.tm.map (fun e => (e.1, { e.2 with
      q := e.2.q.filter (fun o => o.p != p)
      run := e.2.run.filter (fun r => r.op.p != p) })) }
  let s6 : State := (List.range 16).foldl (fun (s : State) q => s.tmvClear q p) s5
  (gone.foldl (fun (s : State) o => s.tornOwner o) s6).settle p

/-- A TEARDOWN of one 8 B word: the partitions of the job whose epoch is not newer, and not yet TORN. -/
def State.tear (s : State) (k : Packet) : State × Nat :=
  if k.size ≠ 8 || bits k.data 32 32 != 0 then (s.count 0x0405, 0x0405)
  else
    let ps := (List.range 16).filter (fun p =>
      (s.part p).st != .free && s.job p == bits k.data 0 16 && !epochNewer (s.jepoch p) (bits k.data 16 16) && !s.torn p)
    (ps.foldl (fun (s : State) p => s.tearPart p) s, 0)

/-! JOBSTART (09 R355). -/

def State.jobRequest (s : State) (k : Packet) : State × Nat :=
  if k.size ≠ 64 || bits k.data 32 32 != 0 || bits k.data 128 384 != 0 then (s.count 0x0405, 0x0405)
  else s.jobStart (bits k.data 0 16) (bits k.data 16 16) (bits k.data 64 64)

/-! Requests on a tree (08 R298, R318; 09 R356). -/

/-- The part of this device: done at once and merged; a request that does not come from the fabric manager's node is counted and
not answered (08 R319). -/
def State.treeLocal (s : State) (k : Packet) (act : State → State × Nat) : State :=
  if !s.fmSent k then s.count 0x0418
  else
    let r := act s
    r.1.aggMerge (fun a => a == k) r.2

/-- A management request on a tree at this router. -/
def State.mgmtTree (s : State) (k : Packet) (act : State → State × Nat) : State :=
  let v := k.epoch
  let e := s.treeOf v k.tree
  let own := k.snode == s.pnode
  let inp := s.inputOf k
  let dead := (s.version v).st == 0
  let ports := (List.range 16).filter (fun i => bit (trMASK e) i)
  if !s.mayTake k || k.bad then s.dropBad k
  else if s.unnumbered k then (s.take k).count 0x0413
  else if own && (dead || !trVALID e || !trROOT e) then ((s.take k).eccAt (.tree (1024 * v + k.tree))).answer k 0xA cFABPERM 0 0
  else if own && !ports.isEmpty && !s.nodeValid then (s.take k).count 0x0413
  else if dead then (s.take k).count 0x0412
  else if !trVALID e then ((s.take k).eccAt (.tree (1024 * v + k.tree))).count 0x0413
  else if k.hops + 1 ≥ 64 then (s.take k).count 0x0414
  else if decide (s.aggs.length ≥ 4096) then s.stay k
  else
    let s0 : State := s.take k
    let n := ports.length + b2n (trLOCAL e)
    if n = 0 then s0.sendMack k e 0
    else
      let s1 : State := ports.foldl (fun (s : State) i => s.enqueuePort i k.hop inp none) s0
      let s2 : State := { s1 with aggs := s1.aggs ++ [{ ver := v, tree := k.tree, left := n, status := 0, pkt := k }] }
      if trLOCAL e then s2.treeLocal k act else s2

/-- TEARDOWN, to this device or on a tree; the router's hardware carries it out. -/
def execTeardown (p : Packet) (s : State) : Host.Outcome State Fault Refusal :=
  .next (if p.ptype ≠ 12 || p.sub ≠ 5 then s
    else if p.onTree then s.mgmtTree p (fun s => s.tear p)
    else if !s.reaches p [12] then s.dropBad p
    else s.mgmtTake p (fun s =>
      let r := s.tear p
      r.1.hwAnswer p r.2))

/-- JOBSTART. -/
def execJobstart (p : Packet) (s : State) : Host.Outcome State Fault Refusal :=
  .next (if p.ptype ≠ 12 || p.sub ≠ 6 then s else s.mgmtTree p (fun s => s.jobRequest p))

end Sys2Proof.Machine
end

