-- ==== Sys2Proof/Machine/FabricResp.lean ====
section
/-! DEFINITION. Responses at their source: what a returned operation means to its issuer (02 R57, R58; 03 R87, R91; 08 R298,
R312, R314, R317), timeouts and the slots of the outstanding-operation table. -/

namespace Sys2Proof.Machine

/-- Returned data in their place, with their poison (03 R87, 12 R420). -/
def State.deliver (s : State) (d : Dest) (v : Nat) (pz : Bool) : State :=
  match d with
  | .none => s
  | .reg l x =>
    let c := s.core l
    let c1 := ({ c with xPend := c.xPend.filter (· != x) } : CoreSt).setX x (w64 v)
    s.setCore l (if pz && x != 0 then { c1 with xPoison := addOnce c1.xPoison x } else c1)
  | .spad l a n =>
    let s1 := s.spadWrite l a n (v % 2 ^ (8 * n))
    if pz then s1.spadMark l a n else s1

/-- A failed operation leaves its destination as it was (03 R87). -/
def State.undeliver (s : State) (d : Dest) : State :=
  match d with
  | .reg l x => let c := s.core l; s.setCore l { c with xPend := c.xPend.filter (· != x) }
  | _ => s

/-- A piece of a tile DMA transfer is back. -/
def State.dmaBack (s : State) (l : Loc) (id : Nat) : State × Option Dma :=
  let c := s.core l
  match c.dmas.find? (fun x => x.id == id) with
  | none => (s, none)
  | some x =>
    let y := { x with out := x.out - 1 }
    (s.setCore l { c with dmas := replaceDma y c.dmas }, some y)

/-- Whether a unit of an engine still runs the instruction of a serial number. -/
def State.runIs (s : State) (clu unit id : Nat) : Bool := (tget (s.ductus clu).run unit).any (fun r => r.id == id)

/-- An operation has succeeded: `v` is the data of a DATA response, `load` whether it is one. -/
def State.succeed (s : State) (o : Op) (v : Nat) (load pz : Bool) : State :=
  match o.owner with
  | .core l _ => ((if load then s.deliver o.dest v pz else s).undeliver o.dest).fenceCheck l
  | .dma l _ id =>
    let r := s.dmaBack l id
    let s1 := if load then r.1.deliver o.dest v pz else r.1
    match r.2 with
    | some y => s1.dmaDone l y
    | none => s1
  | .ductus clu unit id _ _ tag => if s.runIs clu unit id then s.ductusReply clu unit tag v else s
  | .tmv q last => s.tmvAck q last
  | .lig e kind _ _ _ _ => (if kind = 1 then s.ligOpenDone e else s).ligPump e
  | .ligStatus l cnt _ => s.addCounter l cnt 1
  | .fwd k => if k.ptype = 6 then s.aggMerge (fun a => a == k) 0 else s.performed k v pz
  | .combine ks => ks.foldl (fun (s : State) k => s.answer k 0x8 0 0 0) s
  | .copy q i => if load then s.copyArrive q i v pz else s
  | .ckpt p key => s.ckArrive p (key % 2 ^ 64) (key / 2 ^ 64) v pz load
  | .stage p b k i => if load then s.stageArrive p b k i v pz else s
  | .move p g i => (if load then s.moveArrive p g i v pz else s.moveAcked p g).retryBlocked
  | .jobstart => s.jobResult 0
  | .far i => s.farArrive i v pz
  | .notice | .free => s

/-- An operation has failed with a code: a refusal, or FAB_TIMEOUT (02 R57). -/
def State.failOp (s : State) (o : Op) (code : Nat) : State :=
  let e0 := o.lnode + o.space * 2 ^ 16
  match o.owner with
  | .core l pcAt => (((s.countFail code).undeliver o.dest).fenceCheck l).asyncFail l code e0 o.off pcAt
  | .dma l _ id =>
    let r := (s.countFail code).dmaBack l id
    match r.2 with
    | some y => r.1.dmaFail l y code o.off
    | none => r.1
  | .ductus clu unit id _ _ tag =>
    if s.runIs clu unit id then (s.countFail code).ductusLost clu unit tag code o.lnode o.space o.off else s
  | .tmv q _ => (s.countFail code).tmvLost q code
  | .lig e kind _ _ _ _ =>
    if kind ≤ 1 && code == cFABPERM then s.ligTreeBad e
    else
      let s1 := s.ligFault e code o.lnode o.space o.off
      (if kind = 1 then s1.ligOpenDone e else s1).ligPump e
  | .ligStatus l _ pcAt => (s.countFail code).asyncFail l code e0 o.off pcAt
  | .fwd k => if k.ptype = 6 then s.aggMerge (fun a => a == k) code else s.answer k 0xA code 0 0
  | .combine ks => ks.foldl (fun (s : State) k => s.answer k 0xA code 0 0) s
  | .copy q i => (s.countFail code).copyFail q (i % 64) code
  | .ckpt p _ => (s.countFail code).ckLost p code
  | .stage p b k _ => (s.countFail code).stageLost p b k
  | .move p g _ => ((s.countFail code).moveLost p g).retryBlocked
  | .jobstart => s.jobResult code
  | .far i => s.farLost i code
  | .notice | .free => s

/-- A response at its source: stale where its TID names no operation (08 R317), else its slot is free and its operation resolved. -/
def State.response (s : State) (k : Packet) (act : State → Op → State) : State :=
  if s.unnumbered k then (s.take k).count 0x0413
  else match s.answered k with
    | none => (s.take k).count 0x041A
    | some o => if o.owner.isNotice then (s.take k).count 0x041A else (act (s.release_ k) o).sendWaiting

/-- DALLOC_ATTEMPT_REPLY: the Inkwell's DATA response to an allocation of DALLOC is on the mesh, or arrives (06 R208). -/
def execDallocAttemptReply (p : Packet) (s : State) : Host.Outcome State Fault Refusal :=
  .next (match (s.answered p).map Op.owner with
    | some (.ductus clu unit _ _ _ tag) =>
      if !s.reaches p [9] then s.dropBad p
      else if s.unnumbered p then (s.take p).count 0x0413
      else if !((tget (s.ductus clu).run unit).any isDalloc && decide (tag % 8 ≥ 2)) then s
      else ((s.release_ p).ductusReply clu unit tag (p.data % 2 ^ 64)).sendWaiting
    | _ => s)

/-- ACK_RESPONSE. -/
def execAckResponse (p : Packet) (s : State) : Host.Outcome State Fault Refusal :=
  .next (if !s.reaches p [8] then s.dropBad p else s.response p (fun s o => s.succeed o 0 false false))

/-- Lines on this device that the host must give up before a response's data are written. -/
def State.respHeld (s : State) (k : Packet) : Option (Nat × List Nat) :=
  match (s.answered k).map Op.owner with
  | some (.copy q i) => (s.copyPiece q i).map (fun c => (c.1.f, s.arriveHeld q i))
  | _ => none

/-- DATA_RESPONSE: PLT_POISON in STATUS marks the data poisoned. -/
def execDataResponse (p : Packet) (s : State) : Host.Outcome State Fault Refusal :=
  .next (if !s.reaches p [9] then s.dropBad p
    else match s.respHeld p with
      | some (f, l :: ls) => (s.recallAll f (l :: ls)).stay p
      | _ => s.response p (fun s o => s.succeed o p.data true (p.status == cPOISON)))

/-- NAK_RESPONSE. -/
def execNakResponse (p : Packet) (s : State) : Host.Outcome State Fault Refusal :=
  .next (if !s.reaches p [0xA] then s.dropBad p else s.response p (fun s o => s.failOp o p.status))

/-- MACK_RESPONSE: merged into the aggregation entry that awaits it, or, the root's own, the end of the multicast. -/
def execMackResponse (p : Packet) (s : State) : Host.Outcome State Fault Refusal :=
  let m := fun (a : Packet) => a.snode == p.dnode && a.slot == p.rslot && a.use == p.ruse
  .next (if p.ptype ≠ 0xB || !s.mayTake p || p.bad then s.dropBad p
    else if p.snode = s.pnode then
      (if p.dnode = s.pnode then
        s.response p (fun s o => if p.status = 0 then s.succeed o 0 false false else s.failOp o p.status)
      else s)
    else if s.unnumbered p then (s.take p).count 0x0413
    else (s.take p).aggMerge m p.status)

/-! Timers and slots (08 R314, R317). -/

/-- Operations that have a timer: those of a core, an engine, a Tier Mover or the command processor, and what an object's home
forwards; a combined packet and the local copy of a multicast have none (log 49). -/
def Op.timed (o : Op) : Bool :=
  match o.owner with
  | .notice | .jobstart | .combine _ | .free => false
  | .fwd k => k.ptype != 6
  | _ => true

/-- FAB_TIMEOUT: no response within FAB_PART_TMO; the slot stays unused for the longest one. -/
def execFabTimeout (slot : BitVec 22) (s : State) : Host.Outcome State Fault Refusal :=
  let i := slot.toNat
  .next (match tget s.ops i with
    | none => s
    | some o =>
      if s.plat.power ≠ .running || !o.timed then s
      else
        let s1 : State := s.reach (o.tick + s.tmo o.part)
        ({ s1 with ops := tdel s1.ops i, quar := tput s1.quar i (s1.now + s1.maxTmo) } : State).failOp o cFABTIMEOUT)

/-- SLOT_QUARANTINE_END. -/
def execSlotQuarantineEnd (slot : BitVec 22) (s : State) : Host.Outcome State Fault Refusal :=
  let i := slot.toNat
  .next (match tget s.quar i with
    | none => s
    | some t =>
      if s.plat.power ≠ .running then s
      else
        let s1 : State := s.reach t
        ({ s1 with quar := tdel s1.quar i } : State).sendWaiting)

end Sys2Proof.Machine
end

