-- ==== Sys2Proof/Machine/Dispatch.lean ====
section
/-! DEFINITION. One arm for each command, each a direct call of its meaning. -/

namespace Sys2Proof.Machine

def exec (i : Instr) (s : State) : Host.Outcome State Fault Refusal :=
  match i with
  | .nop c w => Sys2Proof.Machine.execNop c w s
  | .alu c w => Sys2Proof.Machine.execAlu c w s
  | .alui c w => Sys2Proof.Machine.execAlui c w s
  | .lih c w => Sys2Proof.Machine.execLih c w s
  | .ld c w => Sys2Proof.Machine.execLd c w s
  | .st c w => Sys2Proof.Machine.execSt c w s
  | .br c w => Sys2Proof.Machine.execBr c w s
  | .jal c w => Sys2Proof.Machine.execJal c w s
  | .jalr c w => Sys2Proof.Machine.execJalr c w s
  | .srd c w => Sys2Proof.Machine.execSrd c w s
  | .swr c w => Sys2Proof.Machine.execSwr c w s
  | .eret c w => Sys2Proof.Machine.execEret c w s
  | .brk c w => Sys2Proof.Machine.execBrk c w s
  | .trap c w => Sys2Proof.Machine.execTrap c w s
  | .ifence c w => Sys2Proof.Machine.execIfence c w s
  | .illegalInstruction c w0 w1 => Sys2Proof.Machine.execIllegalInstruction c w0 w1 s
  | .cset c w => Sys2Proof.Machine.execCset c w s
  | .cadd c w => Sys2Proof.Machine.execCadd c w s
  | .crd c w => Sys2Proof.Machine.execCrd c w s
  | .cwait c w => Sys2Proof.Machine.execCwait c w s
  | .coreWaitTimeout c => Sys2Proof.Machine.execCoreWaitTimeout c s
  | .rfence c w => Sys2Proof.Machine.execRfence c w s
  | .rld c w => Sys2Proof.Machine.execRld c w s
  | .rst c w => Sys2Proof.Machine.execRst c w s
  | .ratom c w => Sys2Proof.Machine.execRatom c w s
  | .ratomF c w => Sys2Proof.Machine.execRatomF c w s
  | .rcas c w => Sys2Proof.Machine.execRcas c w s
  | .rmcst c w => Sys2Proof.Machine.execRmcst c w s
  | .tdma c w => Sys2Proof.Machine.execTdma c w s
  | .tdmaPieceIssue c => Sys2Proof.Machine.execTdmaPieceIssue c s
  | .bput c w => Sys2Proof.Machine.execBput c w s
  | .bflush c w => Sys2Proof.Machine.execBflush c w s
  | .batchWaitExpiry c => Sys2Proof.Machine.execBatchWaitExpiry c s
  | .asyncExceptionTake c => Sys2Proof.Machine.execAsyncExceptionTake c s
  | .mmaF c w => Sys2Proof.Machine.execMmaF c w s
  | .mmaS c w => Sys2Proof.Machine.execMmaS c w s
  | .sparsify c w => Sys2Proof.Machine.execSparsify c w s
  | .sparsifyT c w => Sys2Proof.Machine.execSparsifyT c w s
  | .matrixStreamStart c arr => Sys2Proof.Machine.execMatrixStreamStart c arr s
  | .matrixComplete c arr => Sys2Proof.Machine.execMatrixComplete c arr s
  | .sparsifyComplete c arr => Sys2Proof.Machine.execSparsifyComplete c arr s
  | .vld c w => Sys2Proof.Machine.execVld c w s
  | .vst c w => Sys2Proof.Machine.execVst c w s
  | .vldx c w => Sys2Proof.Machine.execVldx c w s
  | .vstx c w => Sys2Proof.Machine.execVstx c w s
  | .vmovx c w => Sys2Proof.Machine.execVmovx c w s
  | .viota c w => Sys2Proof.Machine.execViota c w s
  | .vfp c w => Sys2Proof.Machine.execVfp c w s
  | .vfma c w => Sys2Proof.Machine.execVfma c w s
  | .vun c w => Sys2Proof.Machine.execVun c w s
  | .vint c w => Sys2Proof.Machine.execVint c w s
  | .vcmp c w => Sys2Proof.Machine.execVcmp c w s
  | .vsel c w => Sys2Proof.Machine.execVsel c w s
  | .vcvt c w => Sys2Proof.Machine.execVcvt c w s
  | .vcvtm c w => Sys2Proof.Machine.execVcvtm c w s
  | .vred c w => Sys2Proof.Machine.execVred c w s
  | .scan c w => Sys2Proof.Machine.execScan c w s
  | .smax c w => Sys2Proof.Machine.execSmax c w s
  | .topk c w => Sys2Proof.Machine.execTopk c w s
  | .sortk c w => Sys2Proof.Machine.execSortk c w s
  | .hist c w => Sys2Proof.Machine.execHist c w s
  | .vrand c w => Sys2Proof.Machine.execVrand c w s
  | .gload c w => Sys2Proof.Machine.execGload c w s
  | .gatingGlyphLoad clu => Sys2Proof.Machine.execGatingGlyphLoad clu s
  | .gatt c w => Sys2Proof.Machine.execGatt c w s
  | .gdrain c w => Sys2Proof.Machine.execGdrain c w s
  | .vectorQueueStart c => Sys2Proof.Machine.execVectorQueueStart c s
  | .drainGlyphTile c arr => Sys2Proof.Machine.execDrainGlyphTile c arr s
  | .dscore c w => Sys2Proof.Machine.execDscore c w s
  | .dtopk c w => Sys2Proof.Machine.execDtopk c w s
  | .dnorm c w => Sys2Proof.Machine.execDnorm c w s
  | .dhist c w => Sys2Proof.Machine.execDhist c w s
  | .dscan c w => Sys2Proof.Machine.execDscan c w s
  | .dalloc c w => Sys2Proof.Machine.execDalloc c w s
  | .dallocAttemptReply p => Sys2Proof.Machine.execDallocAttemptReply p s
  | .dsendDispatch c w => Sys2Proof.Machine.execDsendDispatch c w s
  | .dsendReturn c w => Sys2Proof.Machine.execDsendReturn c w s
  | .dsplit c w => Sys2Proof.Machine.execDsplit c w s
  | .dcollect c w => Sys2Proof.Machine.execDcollect c w s
  | .dcombineGate c w => Sys2Proof.Machine.execDcombineGate c w s
  | .dcombineSeg c w => Sys2Proof.Machine.execDcombineSeg c w s
  | .dcancel c w => Sys2Proof.Machine.execDcancel c w s
  | .ductusQueueStart clu unit => Sys2Proof.Machine.execDuctusQueueStart clu unit s
  | .returnStoreArrival p => Sys2Proof.Machine.execReturnStoreArrival p s
  | .inkAlloc => Sys2Proof.Machine.execInkAlloc s
  | .inkFree => Sys2Proof.Machine.execInkFree s
  | .feAlloc clu => Sys2Proof.Machine.execFeAlloc clu s
  | .feRefill clu cls => Sys2Proof.Machine.execFeRefill clu cls s
  | .feCreditReturn clu req => Sys2Proof.Machine.execFeCreditReturn clu req s
  | .poolEnable p cls => Sys2Proof.Machine.execPoolEnable p cls s
  | .poolEnableDone p cls => Sys2Proof.Machine.execPoolEnableDone p cls s
  | .poolDrain p cls => Sys2Proof.Machine.execPoolDrain p cls s
  | .poolDisable p cls => Sys2Proof.Machine.execPoolDisable p cls s
  | .poolReclaim p cls => Sys2Proof.Machine.execPoolReclaim p cls s
  | .poolReclaimDone p cls => Sys2Proof.Machine.execPoolReclaimDone p cls s
  | .tmvPortStore p => Sys2Proof.Machine.execTmvPortStore p s
  | .tmvMove quad => Sys2Proof.Machine.execTmvMove quad s
  | .tmvGlyphLoad quad => Sys2Proof.Machine.execTmvGlyphLoad quad s
  | .tmvComplete quad => Sys2Proof.Machine.execTmvComplete quad s
  | .migrateBlock p gran => Sys2Proof.Machine.execMigrateBlock p gran s
  | .streamStage p addr => Sys2Proof.Machine.execStreamStage p addr s
  | .promotion p => Sys2Proof.Machine.execPromotion p s
  | .dramRefresh ch => Sys2Proof.Machine.execDramRefresh ch s
  | .ruledRefresh quad => Sys2Proof.Machine.execRuledRefresh quad s
  | .refreshCatchup ch => Sys2Proof.Machine.execRefreshCatchup ch s
  | .rldRequest p => Sys2Proof.Machine.execRldRequest p s
  | .rstRequest p => Sys2Proof.Machine.execRstRequest p s
  | .postedAtomicRequest p => Sys2Proof.Machine.execPostedAtomicRequest p s
  | .fetchAddRequest p => Sys2Proof.Machine.execFetchAddRequest p s
  | .casRequest p => Sys2Proof.Machine.execCasRequest p s
  | .multicastStore p => Sys2Proof.Machine.execMulticastStore p s
  | .ackResponse p => Sys2Proof.Machine.execAckResponse p s
  | .dataResponse p => Sys2Proof.Machine.execDataResponse p s
  | .nakResponse p => Sys2Proof.Machine.execNakResponse p s
  | .mackResponse p => Sys2Proof.Machine.execMackResponse p s
  | .packetForward p => Sys2Proof.Machine.execPacketForward p s
  | .circuitForward p => Sys2Proof.Machine.execCircuitForward p s
  | .portEnable port => Sys2Proof.Machine.execPortEnable port s
  | .portDisable port => Sys2Proof.Machine.execPortDisable port s
  | .retrain port => Sys2Proof.Machine.execRetrain port s
  | .trainingComplete port rev => Sys2Proof.Machine.execTrainingComplete port rev s
  | .trainingTimeout port => Sys2Proof.Machine.execTrainingTimeout port s
  | .alignLock port => Sys2Proof.Machine.execAlignLock port s
  | .alignTimeout port => Sys2Proof.Machine.execAlignTimeout port s
  | .downRetry port => Sys2Proof.Machine.execDownRetry port s
  | .fecLockLost port => Sys2Proof.Machine.execFecLockLost port s
  | .fecUeRateExceeded port => Sys2Proof.Machine.execFecUeRateExceeded port s
  | .flitSilenceTimeout port => Sys2Proof.Machine.execFlitSilenceTimeout port s
  | .dataFlit port hdr slots => Sys2Proof.Machine.execDataFlit port hdr slots s
  | .idleFlit port hdr => Sys2Proof.Machine.execIdleFlit port hdr s
  | .initFlit port hdr slot1 => Sys2Proof.Machine.execInitFlit port hdr slot1 s
  | .nakFlit port hdr => Sys2Proof.Machine.execNakFlit port hdr s
  | .crcFailFlit port hdr => Sys2Proof.Machine.execCrcFailFlit port hdr s
  | .badLinkHeaderFlit port hdr => Sys2Proof.Machine.execBadLinkHeaderFlit port hdr s
  | .epochLoaded v => Sys2Proof.Machine.execEpochLoaded v s
  | .epochFlip v => Sys2Proof.Machine.execEpochFlip v s
  | .epochRetire v => Sys2Proof.Machine.execEpochRetire v s
  | .epochDrainExpiry v => Sys2Proof.Machine.execEpochDrainExpiry v s
  | .tdmFrameStart port => Sys2Proof.Machine.execTdmFrameStart port s
  | .meshFrameStart clu link => Sys2Proof.Machine.execMeshFrameStart clu link s
  | .fabTimeout slot => Sys2Proof.Machine.execFabTimeout slot s
  | .slotQuarantineEnd slot => Sys2Proof.Machine.execSlotQuarantineEnd slot s
  | .fabStall port vc => Sys2Proof.Machine.execFabStall port vc s
  | .lntDataWrite v => Sys2Proof.Machine.execLntDataWrite v s
  | .regrd p => Sys2Proof.Machine.execRegrd p s
  | .regwr p => Sys2Proof.Machine.execRegwr p s
  | .lntwr p => Sys2Proof.Machine.execLntwr p s
  | .notice p => Sys2Proof.Machine.execNotice p s
  | .teardown p => Sys2Proof.Machine.execTeardown p s
  | .jobstart p => Sys2Proof.Machine.execJobstart p s
  | .mgmtUnknownSub p => Sys2Proof.Machine.execMgmtUnknownSub p s
  | .noticeSend => Sys2Proof.Machine.execNoticeSend s
  | .noticeResponse p => Sys2Proof.Machine.execNoticeResponse p s
  | .noticeResendTimeout => Sys2Proof.Machine.execNoticeResendTimeout s
  | .lopen c w => Sys2Proof.Machine.execLopen c w s
  | .lcoll c w => Sys2Proof.Machine.execLcoll c w s
  | .lclose c w => Sys2Proof.Machine.execLclose c w s
  | .openReport p => Sys2Proof.Machine.execOpenReport p s
  | .rankMessage p => Sys2Proof.Machine.execRankMessage p s
  | .chunkUp p data => Sys2Proof.Machine.execChunkUp p data s
  | .chunkDown p data => Sys2Proof.Machine.execChunkDown p data s
  | .ligStall entry input => Sys2Proof.Machine.execLigStall entry input s
  | .jobstartGo => Sys2Proof.Machine.execJobstartGo s
  | .jobstartTimeout => Sys2Proof.Machine.execJobstartTimeout s
  | .heldLaunchRelease p x => Sys2Proof.Machine.execHeldLaunchRelease p x s
  | .launch seq => Sys2Proof.Machine.execLaunch seq s
  | .copy seq => Sys2Proof.Machine.execCopy seq s
  | .fill seq => Sys2Proof.Machine.execFill seq s
  | .copyPartEnd seq part => Sys2Proof.Machine.execCopyPartEnd seq part s
  | .map seq => Sys2Proof.Machine.execMap seq s
  | .unmap seq => Sys2Proof.Machine.execUnmap seq s
  | .fence seq => Sys2Proof.Machine.execFence seq s
  | .cancelBatch seq => Sys2Proof.Machine.execCancelBatch seq s
  | .partCreate seq => Sys2Proof.Machine.execPartCreate seq s
  | .partCreateDone p => Sys2Proof.Machine.execPartCreateDone p s
  | .dramClearDone => Sys2Proof.Machine.execDramClearDone s
  | .partDisable seq => Sys2Proof.Machine.execPartDisable seq s
  | .drainLimitExpiry p => Sys2Proof.Machine.execDrainLimitExpiry p s
  | .partAbortDone p => Sys2Proof.Machine.execPartAbortDone p s
  | .ctxCreate seq => Sys2Proof.Machine.execCtxCreate seq s
  | .ctxPrio seq => Sys2Proof.Machine.execCtxPrio seq s
  | .ctxPause seq => Sys2Proof.Machine.execCtxPause seq s
  | .ctxResume seq => Sys2Proof.Machine.execCtxResume seq s
  | .ctxReset seq => Sys2Proof.Machine.execCtxReset seq s
  | .ctxDestroy seq => Sys2Proof.Machine.execCtxDestroy seq s
  | .checkpoint seq => Sys2Proof.Machine.execCheckpoint seq s
  | .restore seq => Sys2Proof.Machine.execRestore seq s
  | .query seq => Sys2Proof.Machine.execQuery seq s
  | .quantumExpiry p => Sys2Proof.Machine.execQuantumExpiry p s
  | .saveComplete p => Sys2Proof.Machine.execSaveComplete p s
  | .coreRestoreStart p lclu core => Sys2Proof.Machine.execCoreRestoreStart p lclu core s
  | .ruledStartTick p => Sys2Proof.Machine.execRuledStartTick p s
  | .loadshare t addr => Sys2Proof.Machine.execLoadshare t addr s
  | .loadclaim t addr => Sys2Proof.Machine.execLoadclaim t addr s
  | .loadpeek t addr size => Sys2Proof.Machine.execLoadpeek t addr size s
  | .storemask t addr mask data => Sys2Proof.Machine.execStoremask t addr mask data s
  | .returndirty t addr data => Sys2Proof.Machine.execReturndirty t addr data s
  | .returnclean t addr => Sys2Proof.Machine.execReturnclean t addr s
  | .hostAtomic t addr cas wide atype operand compare => Sys2Proof.Machine.execHostAtomic t addr cas wide atype operand compare s
  | .recallResponse f line dirty data => Sys2Proof.Machine.execRecallResponse f line dirty data s
  | .recallTimeout f line => Sys2Proof.Machine.execRecallTimeout f line s
  | .hostResponse id status data => Sys2Proof.Machine.execHostResponse id status data s
  | .ringService f r rec => Sys2Proof.Machine.execRingService f r rec s
  | .completionWrite f r => Sys2Proof.Machine.execCompletionWrite f r s
  | .dynerlinkTraining w => Sys2Proof.Machine.execDynerlinkTraining w s
  | .ringEnable f r v => Sys2Proof.Machine.execRingEnable f r v s
  | .ringDisable f r v => Sys2Proof.Machine.execRingDisable f r v s
  | .counterWrite off v => Sys2Proof.Machine.execCounterWrite off v s
  | .registerWrite path off v => Sys2Proof.Machine.execRegisterWrite path off v s
  | .satWindowEnd util stall => Sys2Proof.Machine.execSatWindowEnd util stall s
  | .ckpDue p => Sys2Proof.Machine.execCkpDue p s
  | .fwsReset v => Sys2Proof.Machine.execFwsReset v s
  | .railFault rail mv => Sys2Proof.Machine.execRailFault rail mv s
  | .sensorSample j t => Sys2Proof.Machine.execSensorSample j t s
  | .droopDetect mv => Sys2Proof.Machine.execDroopDetect mv s
  | .capLoop watts => Sys2Proof.Machine.execCapLoop watts s
  | .thermalLoop clu => Sys2Proof.Machine.execThermalLoop clu s
  | .avsStatusRead fault mv => Sys2Proof.Machine.execAvsStatusRead fault mv s
  | .avsVoltageWrite mv acked readback => Sys2Proof.Machine.execAvsVoltageWrite mv acked readback s
  | .domainWake d => Sys2Proof.Machine.execDomainWake d s
  | .domainWakeDone d => Sys2Proof.Machine.execDomainWakeDone d s
  | .watchdogExpiry x => Sys2Proof.Machine.execWatchdogExpiry x s
  | .scribeRestartDone x => Sys2Proof.Machine.execScribeRestartDone x s
  | .bootStageComplete fail => Sys2Proof.Machine.execBootStageComplete fail s
  | .recoveryData v => Sys2Proof.Machine.execRecoveryData v s
  | .updateDone ok image => Sys2Proof.Machine.execUpdateDone ok image s
  | .clkTbStep v => Sys2Proof.Machine.execClkTbStep v s
  | .dbistDone fails => Sys2Proof.Machine.execDbistDone fails s
  | .loopbackDepth j depth => Sys2Proof.Machine.execLoopbackDepth j depth s
  | .loopbackRun j bits errs => Sys2Proof.Machine.execLoopbackRun j bits errs s
  | .bypass code => Sys2Proof.Machine.execBypass code s
  | .i3cPrivateWrite off v => Sys2Proof.Machine.execI3cPrivateWrite off v s
  | .i3cPrivateRead off => Sys2Proof.Machine.execI3cPrivateRead off s
  | .i3cDynamicAddress a => Sys2Proof.Machine.execI3cDynamicAddress a s
  | .flitBuild port => Sys2Proof.Machine.execFlitBuild port s
  | .frontEndGrant clu => Sys2Proof.Machine.execFrontEndGrant clu s
  | .scribeMemoryUe x => Sys2Proof.Machine.execScribeMemoryUe x s
  | .dynerlinkDown => Sys2Proof.Machine.execDynerlinkDown s
  | .logRecordWrite => Sys2Proof.Machine.execLogRecordWrite s
  | .ckpFail => Sys2Proof.Machine.execCkpFail s
  | .powerOnReset => Sys2Proof.Machine.execPowerOnReset s
  | .pwrGoodAssert => Sys2Proof.Machine.execPwrGoodAssert s
  | .pwrGoodDeassert => Sys2Proof.Machine.execPwrGoodDeassert s
  | .coldResetL => Sys2Proof.Machine.execColdResetL s
  | .warmResetL => Sys2Proof.Machine.execWarmResetL s
  | .pllLockLoss => Sys2Proof.Machine.execPllLockLoss s
  | .didtRelease => Sys2Proof.Machine.execDidtRelease s
  | .recoveryBegin => Sys2Proof.Machine.execRecoveryBegin s
  | .recoveryGo => Sys2Proof.Machine.execRecoveryGo s
  | .recoveryAbort => Sys2Proof.Machine.execRecoveryAbort s
  | .updateGo => Sys2Proof.Machine.execUpdateGo s
  | .dbistGo => Sys2Proof.Machine.execDbistGo s
  | .extest => Sys2Proof.Machine.execExtest s
  | .idcode => Sys2Proof.Machine.execIdcode s
  | .samplePreload => Sys2Proof.Machine.execSamplePreload s
  | .ijtag => Sys2Proof.Machine.execIjtag s
  | .trstL => Sys2Proof.Machine.execTrstL s
  | .rootPllLock => Sys2Proof.Machine.execRootPllLock s
  | .coldResetAssert => Sys2Proof.Machine.execColdResetAssert s
  | .auxSupplyLoss => Sys2Proof.Machine.execAuxSupplyLoss s

end Sys2Proof.Machine
end

