-- ==== Sys2Proof/Safety.lean ====
section
/-! DEFINITION. What claims are stated with: when an instruction may issue (03 R92-R98), tables of the spec written out a second
time to compare the model with, and the invariants of the device. -/

namespace Sys2Proof.Machine

/-! Issue. -/

/-- An instruction of n bytes may issue on core c, which is l: clocks run, the core runs, nothing stalls it or must be taken
first, and its word is aligned and unpoisoned. -/
abbrev Issues (s : State) (c : CoreId) (l : Loc) (n : Nat) : Prop :=
  s.plat.power = .running ∧ s.locate c = some l ∧ (s.core l).run = .running ∧ (s.core l).stall = none
    ∧ (s.core l).mustTake = false ∧ (s.core l).pc % n = 0 ∧ (s.core l).fetchBad n = none

/-- Registers and scratchpad ranges that an instruction reads are there, and unpoisoned. -/
abbrev Readable (cs : CoreSt) (rs : List Nat) (ranges : List (Nat × Nat) := []) : Prop :=
  cs.pendingAny rs = false ∧ cs.dataUe rs ranges = none

/-- A register that an instruction writes is not waiting for a load. -/
abbrev Writable (cs : CoreSt) (r : Nat) : Prop := cs.xPend.contains r = false

/-- Whether a command runs on a device whose clocks run. -/
abbrev On (s : State) : Prop := s.plat.power = .running

/-! The ALU's table (03 R76). -/

/-- Codes that R76 assigns. -/
def aluCode (n : Nat) : Bool := n ≤ 0x0D || n == 0x10 || n == 0x11 || n == 0x12 || (0x14 ≤ n && n ≤ 0x17)

/-- The results of R76 in integers: each signed result is taken modulo 2^64. -/
def aluTable (code : Nat) (a b : W64) : W64 :=
  let i := fun (z : Int) => BitVec.ofInt 64 z
  if code = 0x00 then i (a.toInt + b.toInt)
  else if code = 0x01 then i (a.toInt - b.toInt)
  else if code = 0x02 then a &&& b
  else if code = 0x03 then a ||| b
  else if code = 0x04 then a ^^^ b
  else if code = 0x05 then i (a.toInt * 2 ^ (b.toNat % 64))
  else if code = 0x06 then i (a.toNat / 2 ^ (b.toNat % 64) : Nat)
  else if code = 0x07 then i (a.toInt / 2 ^ (b.toNat % 64))
  else if code = 0x08 then (if a.toInt < b.toInt then 1 else 0)
  else if code = 0x09 then (if a.toNat < b.toNat then 1 else 0)
  else if code = 0x0A then i (min a.toInt b.toInt)
  else if code = 0x0B then i (max a.toInt b.toInt)
  else if code = 0x0C then i (min a.toNat b.toNat : Nat)
  else if code = 0x0D then i (max a.toNat b.toNat : Nat)
  else if code = 0x10 then i (a.toInt * b.toInt)
  else if code = 0x11 then i (a.toInt * b.toInt / 2 ^ 64)
  else if code = 0x12 then i (a.toNat * b.toNat / 2 ^ 64 : Nat)
  else if code = 0x14 then (if b = 0 then i (-1) else i (a.toInt.tdiv b.toInt))
  else if code = 0x15 then (if b = 0 then i (-1) else i (a.toNat / b.toNat : Nat))
  else if code = 0x16 then (if b = 0 then a else i (a.toInt.tmod b.toInt))
  else (if b = 0 then a else i (a.toNat % b.toNat : Nat))

/-- The conditions of BR (03 R79). -/
abbrev brTable (cond : Nat) (a b : W64) : Prop :=
  (cond = 0 ∧ a = b) ∨ (cond = 1 ∧ a ≠ b) ∨ (cond = 2 ∧ a.toInt < b.toInt) ∨ (cond = 3 ∧ b.toInt ≤ a.toInt)
    ∨ (cond = 4 ∧ a.toNat < b.toNat) ∨ (cond = 5 ∧ b.toNat ≤ a.toNat)

/-! Ductus instructions (06 R188). -/

/-- The queued form of a Ductus instruction of core l: its descriptor and the register values it read. -/
def ductusOp (cs : CoreSt) (l : Loc) (op : Nat) (w : FormX) (desc : Nat) : DOp :=
  { loc := l, op, fn8 := w.r.fn8.toNat, cnt := w.r.a.toNat, w1 := w.w1, desc, xc := cs.getX w.r.c.toNat
    xd := cs.getX w.r.d.toNat, rc := w.r.c.toNat, pcAt := cs.pc }

/-- A Ductus instruction of core l has room in a unit and reads its registers and its descriptor at [a, a + n). -/
abbrev DReads (s : State) (c : CoreId) (l : Loc) (unit : Nat) (rs : List Nat) (a n : Nat) : Prop :=
  Issues s c l 16 ∧ (tgetD (s.ductus (s.phys l.p l.l)).q unit []).length < 16 ∧ (s.ductus (s.phys l.p l.l)).held l < 4
    ∧ (s.ductus (s.phys l.p l.l)).loads = []
    ∧ Readable (s.core l) rs (if n = 0 then [] else [(a, n)]) ∧ s.hazard l (if n = 0 then [] else [.now a n false]) = false

/-- A unit of a cluster's engine runs nothing and has nothing waiting, and no bit error stands in a store. -/
abbrev DIdle (s : State) (n unit : Nat) : Prop :=
  tgetD (s.ductus n).q unit [] = [] ∧ tget (s.ductus n).run unit = none ∧ s.upsets = []

/-- The state in which an instruction starts in an idle unit at once: it has passed through the queue. -/
def State.ductusTaken (s : State) (n unit : Nat) (o : DOp) : State :=
  s.setDuctus n { s.ductus n with q := tput (tput (s.ductus n).q unit [o]) unit [] }

/-- The state in which an instruction has joined a unit's queue. -/
def State.ductusQueued (s : State) (n unit : Nat) (o : DOp) : State :=
  s.setDuctus n { s.ductus n with q := tput (s.ductus n).q unit (tgetD (s.ductus n).q unit [] ++ [o]) }

/-- The collect entry a DSEND with RETINK = 0 opens at issue (06 R222). -/
def openedEntry (d half : Nat) : CtEntry :=
  { st := 1, batch := lyBATCH d, gen := lyGEN d, half, region := bits (lyRET d) 0 48 }

/-! Host commands (11 R404-R413). -/

/-- An accepted command that may start now: its ring's earlier commands let it, and so does its partition's state (11 R406). -/
abbrev Starts (s : State) (seq op : Nat) (c : Cmd) : Prop :=
  s.cmd seq = some c ∧ c.op = op ∧ c.st = 0 ∧ s.heldLaunch c = false ∧ s.mayStart c = true ∧ s.admits c = some true

/-! Reset (15 R505). -/

/-- Offsets of the control window with the values that 15 R505 gives them after a power-on reset: the first and the last register of
each row that has one. -/
def resetTable : List (Nat × Nat) :=
  [(0x00000008, 0x0), (0x00100008, 0x84), (0x00100100, 0x6), (0x001002F8, 0x6), (0x00101008, 0x0),
     (0x00101010, 0x0), (0x00200008, 0x4E2), (0x00200010, 0x0), (0x00201000, 0x0), (0x002012D8, 0x0),
     (0x00300000, 0x3E803700320), (0x00300008, 0x0), (0x00400008, 0x0), (0x00400100, 0x64), (0x00400120, 0x64),
     (0x00400108, 0x0), (0x00400128, 0x0), (0x00400200, 0x0), (0x00400300, 0x0), (0x00400308, 0x0),
     (0x00400310, 0x0), (0x00400400, 0x0), (0x00400408, 0x0), (0x00400410, 0x0), (0x00400418, 0x0),
     (0x00601008, 0x0), (0x00601048, 0x0), (0x00610000, 0x0), (0x00617FE0, 0x0), (0x00610008, 0x0),
     (0x00617FE8, 0x0), (0x00610010, 0x0), (0x00617FF0, 0x0), (0x00610018, 0x0), (0x00617FF8, 0x0),
     (0x00620000, 0x0), (0x00627FF8, 0x0), (0x00700000, 0x1), (0x00700008, 0x0), (0x00800000, 0x1),
     (0x00800008, 0x1), (0x00800010, 0x0), (0x00800018, 0xBE8), (0x00801008, 0x0), (0x00801030, 0x0)]
    ++ [(0x00900000, 0x0), (0x009003C0, 0x0), (0x00900008, 0x0), (0x009003C8, 0x0), (0x00900010, 0x0),
     (0x009003D0, 0x0), (0x00900018, 0x0), (0x009003D8, 0x0), (0x00900020, 0x1388000007D0), (0x009003E0, 0x1388000007D0),
     (0x00910000, 0x0), (0x009103F8, 0x0), (0x00920000, 0x0), (0x00920F70, 0x0), (0x00920008, 0x0),
     (0x00920F78, 0x0), (0x00A00100, 0x3), (0x00A00178, 0x3), (0x00A00200, 0x10), (0x00A002B0, 0x0),
     (0x00A01008, 0x0), (0x00A01048, 0x0), (0x00A10000, 0x0), (0x00A13EC0, 0x0), (0x00A10008, 0x0),
     (0x00A13EC8, 0x0), (0x00A10010, 0x0), (0x00A13ED0, 0x0), (0x00A20000, 0x0), (0x00A21FE0, 0x0),
     (0x00A20008, 0x0), (0x00A21FE8, 0x0), (0x00A20010, 0x0), (0x00A21FF0, 0x0), (0x00A20018, 0x0),
     (0x00A21FF8, 0x0), (0x00B01000, 0x0), (0x00B02000, 0x2A30), (0x00B02008, 0xA0003), (0x00B02010, 0xE100000001E),
     (0x00B02018, 0x0), (0x00B02020, 0x0), (0x00B02100, 0x0), (0x00B022E0, 0x0), (0x00B02108, 0x7530)]
    ++ [(0x00B022E8, 0x7530), (0x00B02110, 0x0), (0x00B022F0, 0x0), (0x00B02118, 0x0), (0x00B022F8, 0x0),
     (0x00C00000, 0x0), (0x00C00100, 0x0), (0x00C00178, 0x0), (0x00D00000, 0x0), (0x00D00008, 0x0),
     (0x00D00010, 0x0), (0x00D00018, 0x0), (0x00D00020, 0x19A28), (0x00D00028, 0xC14), (0x00D00030, 0x184),
     (0x00D00040, 0x0), (0x00D00048, 0x0), (0x00D00050, 0x1), (0x00D00058, 0x1), (0x00D00060, 0x0),
     (0x00D00100, 0x0), (0x00D00178, 0x0), (0x00D00180, 0x0), (0x00D001F8, 0x0), (0x00D00200, 0x0),
     (0x00D002F0, 0x0), (0x00D00208, 0x7D0), (0x00D002F8, 0x7D0), (0x00D01008, 0x0), (0x00D01028, 0x0),
     (0x00D20000, 0x0), (0x00D5FFF8, 0x0), (0x00D60000, 0x0), (0x00D67FF0, 0x0), (0x00D70000, 0x0),
     (0x00D7FFF0, 0x0), (0x00D80000, 0x0), (0x00D87FF8, 0x0), (0x00E00000, 0x1000F0), (0x00E00008, 0x200B20),
     (0x00E00010, 0x0), (0x00E00018, 0x0), (0x00E00020, 0x0), (0x00E00028, 0x0), (0x00E00030, 0x0)]
    ++ [(0x00E00038, 0x0), (0x00E00100, 0x0), (0x00E00178, 0x0), (0x00E00200, 0x0), (0x00E00278, 0x0),
     (0x00E01008, 0x0), (0x00E01028, 0x0), (0x00E10000, 0x0), (0x00E10FF0, 0x0), (0x00E10008, 0x0),
     (0x00E10FF8, 0x0), (0x00F00000, 0x0), (0x00F00008, 0x64), (0x00F00010, 0x0), (0x01008000, 0x0),
     (0x01FC81F8, 0x0), (0x01010000, 0x0), (0x01FD0000, 0x0), (0x01010008, 0x0), (0x01FD0008, 0x0),
     (0x01010010, 0x0), (0x01FD0010, 0x0), (0x01010018, 0x0), (0x01FD0018, 0x0), (0x01010040, 0xFFFF),
     (0x01FD0078, 0xFFFF), (0x01010100, 0x0), (0x01FD04F8, 0x0), (0x01020000, 0x0), (0x01FE0000, 0x0),
     (0x01030000, 0x0), (0x01FF1FF8, 0x0), (0x02010000, 0x39A), (0x02010008, 0x0), (0x02010010, 0x0),
     (0x02010018, 0x0), (0x02010100, 0x0), (0x020102F8, 0x0), (0x02010408, 0x0), (0x02010428, 0x0),
     (0x02100000, 0x0), (0x02100200, 0x0), (0x02100008, 0x0), (0x02100208, 0x0), (0x02100010, 0x0)]
    ++ [(0x02100210, 0x0), (0x02101000, 0x0), (0x02102000, 0x0), (0x021025F8, 0x0)]

/-! Invariants. -/

/-- The routing versions (08 R295, R324): states 0 to 2, a source version 0 or 1 that is never DRAINING. -/
abbrev EpochsLegal (s : State) : Prop :=
  s.verA.st ≤ 2 ∧ s.verB.st ≤ 2 ∧ s.srcEpoch ≤ 1 ∧ (s.version s.srcEpoch).st ≠ 2

end Sys2Proof.Machine
end

