-- ==== Sys2Proof/Certificates/Slice0/Obligations.lean ====
section
/-! DEFINITION. The statements for the provers, by the spec's numbered rules: what each command does, when it completes, what it leaves
unchanged, and what every step keeps. R<n> names a rule of spec/. -/

open Sys2Proof Sys2Proof.Machine

/-! Scalar instructions (03 R73-R81). -/

/-- R76: ALU and ALUI write the table's result for x[B] and x[C] or IMM32, computed in integers, into x[A], and go on to the
next instruction; nothing else changes. A code that the table does not assign raises CORE_ILLEGAL. -/
def Claims.ScalarArithmeticFollowsTable : Prop :=
  ∀ (s : State) (c : CoreId) (l : Loc), Issues s c l 8 →
    (∀ w : FormR, aluCode w.fn8.toNat = true → w.d = 0 → w.fmt = 0 → w.rsv = 0 → Readable (s.core l) [w.b.toNat, w.c.toNat] →
      Writable (s.core l) w.a.toNat →
      exec (.alu c w) s = .next (s.setCore l (((s.core l).setX w.a.toNat
        (aluTable w.fn8.toNat ((s.core l).getX w.b.toNat) ((s.core l).getX w.c.toNat))).adv 8))) ∧
    (∀ w : FormI, aluCode w.fn12.toNat = true → Readable (s.core l) [w.b.toNat] → Writable (s.core l) w.a.toNat →
      exec (.alui c w) s = .next (s.setCore l (((s.core l).setX w.a.toNat
        (aluTable w.fn12.toNat ((s.core l).getX w.b.toNat) (w.imm.signExtend 64))).adv 8))) ∧
    (∀ w : FormR, aluCode w.fn8.toNat = false → (s.core l).pendingAny [w.b.toNat, w.c.toNat] = false → Writable (s.core l) w.a.toNat →
      exec (.alu c w) s = .next (s.syncExc l 0x0101 0 0 (w.w0 0x02))) ∧
    (∀ w : FormI, aluCode w.fn12.toNat = false → (s.core l).pendingAny [w.b.toNat] = false → Writable (s.core l) w.a.toNat →
      exec (.alui c w) s = .next (s.syncExc l 0x0101 0 0 (w.w0 0x03)))

/-- R73, R77, R80: LIH replaces the high half of x[A]; NOP and IFENCE only go on. -/
def Claims.LihNopIfence : Prop :=
  ∀ (s : State) (c : CoreId) (l : Loc), Issues s c l 8 →
    (∀ w : FormI, w.fn12 = 0 → w.b = 0 → Readable (s.core l) [w.a.toNat] →
      exec (.lih c w) s = .next (s.setCore l (((s.core l).setX w.a.toNat
        (w.imm ++ ((s.core l).getX w.a.toNat).extractLsb' 0 32)).adv 8))) ∧
    exec (.nop c ⟨0, 0, 0, 0, 0, 0, 0⟩) s = .next (s.setCore l ((s.core l).adv 8)) ∧
    exec (.ifence c ⟨0, 0, 0, 0, 0, 0, 0⟩) s = .next (s.setCore l ((s.core l).adv 8))

/-- R78: LD and ST of 2^k bytes at (x[B] + IMM32) modulo 2^18, rounded down. -/
def Obligations.LoadsAndStores : Prop :=
  ∀ (s : State) (c : CoreId) (l : Loc) (w : FormI) (k : Nat), Issues s c l 8 → k < 4 →
    let cs := s.core l
    let a := (cs.getX w.b.toNat + w.imm.signExtend 64).toNat % 2 ^ 18 / 2 ^ k * 2 ^ k
    ((w.fn12.toNat = k ∨ w.fn12.toNat = k + 4) → Writable cs w.a.toNat → Readable cs [w.b.toNat] [(a, 2 ^ k)] →
      s.hazard l [.now a (2 ^ k) false] = false →
      exec (.ld c w) s = .next (s.setCore l ((cs.setX w.a.toNat
        (if w.fn12.toNat = k then w64 (sread cs.spad a (2 ^ k))
         else (BitVec.ofNat (8 * 2 ^ k) (sread cs.spad a (2 ^ k))).signExtend 64)).adv 8))) ∧
    (w.fn12.toNat = k → Readable cs [w.a.toNat, w.b.toNat] → s.hazard l [.now a (2 ^ k) true] = false →
      ∃ d : CoreSt, exec (.st c w) s = .next (s.setCore l d) ∧ d.spad = swrite cs.spad a (2 ^ k) (cs.getX w.a.toNat).toNat
        ∧ d = { cs with spad := d.spad, spadPoison := d.spadPoison, pc := (cs.pc + 8) % 2 ^ 18 }
        ∧ ∀ j, j < 2 ^ 18 → (j < a ∨ a + 2 ^ k ≤ j) → mget d.spad j = mget cs.spad j)

/-- R79: BR goes to PC + 8 times its offset where the condition holds, else on; JAL and JALR write PC + 8 to x[A] and jump. Every
target is modulo 2^18. A misaligned JALR target raises CORE_ALIGN. -/
def Obligations.BranchesAndJumps : Prop :=
  ∀ (s : State) (c : CoreId) (l : Loc), Issues s c l 8 →
    let cs := s.core l
    (∀ w : FormB, w.d = 0 → w.cond.toNat ≤ 5 → Readable cs [w.a.toNat, w.b.toNat] →
      (brTable w.cond.toNat (cs.getX w.a.toNat) (cs.getX w.b.toNat) →
        exec (.br c w) s = .next (s.setCore l { cs with pc := (((cs.pc : Int) + 8 * w.off.toInt) % 2 ^ 18).toNat })) ∧
      (¬ brTable w.cond.toNat (cs.getX w.a.toNat) (cs.getX w.b.toNat) →
        exec (.br c w) s = .next (s.setCore l { cs with pc := (cs.pc + 8) % 2 ^ 18 }))) ∧
    (∀ w : FormI, w.fn12 = 0 → w.b = 0 → Writable cs w.a.toNat →
      exec (.jal c w) s = .next (s.setCore l { cs.setX w.a.toNat (w64 (cs.pc + 8)) with
        pc := (((cs.pc : Int) + 8 * w.imm.toInt) % 2 ^ 18).toNat })) ∧
    (∀ w : FormI, w.fn12 = 0 → Writable cs w.a.toNat → Readable cs [w.b.toNat] →
      (cs.getX w.b.toNat + w.imm.signExtend 64).toNat % 2 ^ 18 % 8 = 0 →
      exec (.jalr c w) s = .next (s.setCore l { cs.setX w.a.toNat (w64 (cs.pc + 8)) with
        pc := (cs.getX w.b.toNat + w.imm.signExtend 64).toNat % 2 ^ 18 })) ∧
    (∀ w : FormI, w.fn12 = 0 → Writable cs w.a.toNat → cs.pendingAny [w.b.toNat] = false →
      (cs.getX w.b.toNat + w.imm.signExtend 64).toNat % 2 ^ 18 % 8 ≠ 0 →
      exec (.jalr c w) s = .next (s.syncExc l 0x0105 0 0 (w.w0 0x12)))

/-- R74, R79: a reserved COND raises CORE_RESFIELD, the model's reading (log 5). -/
def Claims.ReservedCondition : Prop :=
  ∀ (s : State) (c : CoreId) (l : Loc) (w : FormB), Issues s c l 8 → 5 < w.cond.toNat →
    (s.core l).pendingAny [w.a.toNat, w.b.toNat] = false → exec (.br c w) s = .next (s.syncExc l 0x0102 0 0 (w.w0 0x10))

/-- R75: SRD copies a state word that the table lists into x[A], and SWR writes x[A] into one whose access is RW, in its bits. -/
def Claims.StateWords : Prop :=
  ∀ (s : State) (c : CoreId) (l : Loc) (w : FormI), Issues s c l 8 → w.fn12 = 0 → w.b = 0 →
    let cs := s.core l
    let rd := fun (v : Nat) => exec (.srd c w) s = .next (s.setCore l ((cs.setX w.a.toNat (w64 v)).adv 8))
    let x := cs.getX w.a.toNat
    (Writable cs w.a.toNat →
      (w.imm = 0x000 → rd ((s.ctx l.p l.s).lnode % 2 ^ 16)) ∧ (w.imm = 0x001 → rd l.l) ∧ (w.imm = 0x002 → rd l.k) ∧
      (w.imm = 0x003 → rd (s.part l.p).clus.length) ∧ (w.imm = 0x004 → rd (if (s.part l.p).ruled then 1 else 0)) ∧
      (w.imm = 0x005 → rd s.plat.tb) ∧ (w.imm = 0x006 → rd (s.coreOps l + 2 ^ 16 * s.dmaOps l)) ∧
      (w.imm = 0x010 → rd cs.evec.toNat) ∧ (w.imm = 0x011 → rd cs.epc.toNat) ∧ (w.imm = 0x012 → rd cs.ecode) ∧
      (w.imm = 0x013 → rd cs.einfo0.toNat) ∧ (w.imm = 0x014 → rd cs.einfo1.toNat) ∧ (w.imm = 0x015 → rd cs.einfo2.toNat) ∧
      (w.imm = 0x016 → rd ((if cs.inh then 1 else 0) + (if cs.asyncB then 2 else 0) + 4 * min cs.more 255)) ∧
      (w.imm = 0x017 → rd cs.escratch.toNat) ∧ (w.imm = 0x020 → rd cs.batwait)) ∧
    (Readable cs [w.a.toNat] →
      (w.imm = 0x010 → exec (.swr c w) s = .next (s.setCore l (({ cs with evec := x &&& 0x3FFF8 } : CoreSt).adv 8))) ∧
      (w.imm = 0x011 → exec (.swr c w) s = .next (s.setCore l (({ cs with epc := x &&& 0x3FFFF } : CoreSt).adv 8))) ∧
      (w.imm = 0x017 → exec (.swr c w) s = .next (s.setCore l (({ cs with escratch := x } : CoreSt).adv 8))) ∧
      (w.imm = 0x020 → exec (.swr c w) s = .next (s.setCore l (({ cs with batwait := x.toNat % 2 ^ 24 } : CoreSt).adv 8))))

/-- R75: an index that the table does not list, and an SWR to a word that is not RW, raises CORE_ILLEGAL. -/
def Claims.UnlistedStateWordIsIllegal : Prop :=
  ∀ (s : State) (c : CoreId) (l : Loc) (w : FormI), Issues s c l 8 → w.fn12 = 0 → w.b = 0 →
    (Writable (s.core l) w.a.toNat →
      w.imm.toNat ∉ [0, 1, 2, 3, 4, 5, 6, 0x10, 0x11, 0x12, 0x13, 0x14, 0x15, 0x16, 0x17, 0x20] →
      exec (.srd c w) s = .next (s.syncExc l 0x0101 0 0 (w.w0 0x18))) ∧
    (Readable (s.core l) [w.a.toNat] → w.imm.toNat ∉ [0x10, 0x11, 0x17, 0x20] →
      exec (.swr c w) s = .next (s.syncExc l 0x0101 0 0 (w.w0 0x19)))

/-- R97, R99, R101: BRK, TRAP and an unassigned first word enter the handler: what was issued earlier completes locally, SW_EPC holds
the address of the instruction, SW_ECODE its code, SW_EINFO2 its first word, INH is 1, and the core goes on at SW_EVEC. -/
def Claims.SynchronousExceptionEntry : Prop :=
  ∀ (s : State) (c : CoreId) (l : Loc),
    let s1 := s.engOut l (drainLocal (s.env l) (s.core l))
    let d := s1.core l
    let into := fun (code e0 w0 : Nat) => s1.setCore l { d with
      epc := w64 d.pc, ecode := code, einfo0 := w64 e0, einfo1 := 0, einfo2 := w64 w0, inh := true, asyncB := false
      pc := d.evec.toNat % 2 ^ 18, stall := none }
    (drainLocal (s.env l) (s.core l)).ue = none → d.inh = false → d.evec ≠ 0 →
    (Issues s c l 8 → exec (.brk c ⟨0, 0, 0, 0, 0, 0, 0⟩) s = .next (into 0x0109 0 0x1B)) ∧
    (∀ w : FormI, Issues s c l 8 → w.fn12 = 0 → w.a = 0 → w.b = 0 → w.imm.toNat < 2 ^ 16 →
      exec (.trap c w) s = .next (into 0x010A w.imm.toNat (w.w0 0x1C))) ∧
    (∀ w0 w1 : W64, Issues s c l (if w0.getLsbD 7 then 16 else 8) → illegalWord w0.toNat = true →
      exec (.illegalInstruction c w0 w1) s = .next (into 0x0101 0 w0.toNat))

/-- R81: ERET clears INH and MORE and goes on at SW_EPC. R374: TRAP 0 with no handler ends the core's part of the run. -/
def Claims.ReturnAndEnd : Prop :=
  ∀ (s : State) (c : CoreId) (l : Loc), Issues s c l 8 →
    ((s.core l).inh = true → exec (.eret c ⟨0, 0, 0, 0, 0, 0, 0⟩) s = .next (s.setCore l { s.core l with
      inh := false, more := 0, pc := (s.core l).epc.toNat % 2 ^ 18 })) ∧
    (let s1 := s.engOut l (drainLocal (s.env l) (s.core l))
     (drainLocal (s.env l) (s.core l)).ue = none → (s1.core l).evec = 0 → exec (.trap c ⟨0, 0, 0, 0⟩) s =
      .next ((s1.setCore l { s1.core l with run := .ended }).contextEnd l.p l.s))

/-! Counters, the fence and asynchronous failures (02 R51-R53, 03 R82-R101). -/

/-- R82, R88: CSET, CADD and CRD; RFENCE is over at once where nothing of the core is in flight, and otherwise waits. CSET writes a
poisoned counter anew; R96, R101: CADD, CRD and CWAIT of one raise CORE_DATA_UE with its number. -/
def Claims.CountersAndFence : Prop :=
  ∀ (s : State) (c : CoreId) (l : Loc), Issues s c l 8 →
    let cs := s.core l
    (∀ w : FormI, w.fn12 = 0 → Readable cs [w.b.toNat] →
      exec (.cset c w) s = .next (s.setCore l (({ cs with
        cnt := tput cs.cnt w.a.toNat (BitVec.ofNat 32 (cs.getX w.b.toNat).toNat)
        cntPoison := cs.cntPoison.filter (· != w.a.toNat) } : CoreSt).adv 8)) ∧
      (w.a.toNat ∈ cs.cntPoison →
        exec (.cadd c w) s = .next (s.syncExc l 0x010C (2 ^ 63 + w.a.toNat) 0 (w.w0 0x21)) ∧
        exec (.cwait c w) s = .next (s.syncExc l 0x010C (2 ^ 63 + w.a.toNat) 0 (w.w0 0x23))) ∧
      (w.a.toNat ∉ cs.cntPoison → exec (.cadd c w) s = .next (s.setCore l (({ cs with
        cnt := tput cs.cnt w.a.toNat (tgetD cs.cnt w.a.toNat 0 + BitVec.ofNat 32 (cs.getX w.b.toNat).toNat + w.imm) }
          : CoreSt).adv 8)))) ∧
    (∀ w : FormI, w.fn12 = 0 → Writable cs w.b.toNat →
      (w.a.toNat ∈ cs.cntPoison → exec (.crd c w) s = .next (s.syncExc l 0x010C (2 ^ 63 + w.a.toNat) 0 (w.w0 0x22))) ∧
      (w.a.toNat ∉ cs.cntPoison →
        exec (.crd c w) s = .next (s.setCore l ((cs.setX w.b.toNat (w64 (tgetD cs.cnt w.a.toNat 0).toNat)).adv 8)))) ∧
    exec (.rfence c ⟨0, 0, 0, 0, 0, 0, 0⟩) s = .next (s.setCore l (({ cs with
      fence := !(s.coreOps l == 0 && cs.dmas.isEmpty) } : CoreSt).adv 8))

/-- R53, R83: CWAIT goes on where (cnt − v) mod 2^32 is below 2^31, and otherwise stalls until an arrival
makes it so, unless a failure is to be taken first (R98); after its timeout it raises CORE_WAIT_TIMEOUT with the counter's number and
value. -/
def Claims.WaitForCounter : Prop :=
  ∀ (s : State) (c : CoreId) (l : Loc),
    (∀ w : FormI, Issues s c l 8 → w.fn12 = 0 → Readable (s.core l) [w.b.toNat] → w.a.toNat ∉ (s.core l).cntPoison →
      let cs := s.core l
      let v := BitVec.ofNat 32 (cs.getX w.b.toNat).toNat
      ((tgetD cs.cnt w.a.toNat 0 - v).toNat < 2 ^ 31 → exec (.cwait c w) s = .next (s.setCore l (cs.adv 8))) ∧
      (2 ^ 31 ≤ (tgetD cs.cnt w.a.toNat 0 - v).toNat → exec (.cwait c w) s = .next (s.setCore l { cs with
        stall := some { cnt := w.a.toNat, v, start := s.now, tmo := w.imm.toNat, w0 := w64 (w.w0 0x23) } }))) ∧
    (∀ st : CStall, On s → s.locate c = some l → (s.core l).run = .running → (s.core l).mustTake = false →
      (s.core l).stall = some st → st.tmo ≠ 0 →
      exec (.coreWaitTimeout c) s = .next ((s.reach (st.start + st.tmo)).syncExc l 0x010B st.cnt
        (tgetD (s.core l).cnt st.cnt 0).toNat st.w0.toNat)) ∧
    (∀ (st : CStall) (n : Nat) (v : W32), (s.core l).stall = some st →
      let cs := s.core l
      let d := { cs with cnt := tput cs.cnt n (tgetD cs.cnt n 0 + v) }
      ((tgetD d.cnt st.cnt 0 - st.v).toNat < 2 ^ 31 → cs.mustTake = false →
        s.addCounter l n v = s.setCore l { d with stall := none, pc := (cs.pc + 8) % 2 ^ 18 }) ∧
      (2 ^ 31 ≤ (tgetD d.cnt st.cnt 0 - st.v).toNat ∨ cs.mustTake = true → s.addCounter l n v = s.setCore l d))

/-- R98, R99: the first asynchronous failure that waits enters the handler at the next boundary, with its detail words and ASYNC. R96,
R100: one that stops the core, whatever waits before it and whatever handler runs, stops it. -/
def Claims.AsynchronousExceptionEntry : Prop :=
  ∀ (s : State) (c : CoreId) (l : Loc) (f : Fail) (rest : List Fail), On s → s.locate c = some l → (s.core l).run = .running →
    let stops := fun (g : Fail) => g.code ∈ [0x010C, 0x0401, 0x0402, 0x0502, 0x0805]
    (∀ before, (s.core l).pend = before ++ f :: rest → (∀ g ∈ before, ¬ stops g) → stops f →
      exec (.asyncExceptionTake c) s = .next ((s.setCore l { s.core l with
        pend := before ++ rest, stall := none }).coreStop l { f with late := false })) ∧
    ((s.core l).pend = f :: rest → (s.core l).inh = false → (s.core l).evec ≠ 0 → (∀ g ∈ f :: rest, ¬ stops g) →
    exec (.asyncExceptionTake c) s = .next (s.setCore l { s.core l with
      pend := rest, stall := none, epc := w64 (s.core l).pc, ecode := f.code, einfo0 := f.e0, einfo1 := f.e1, einfo2 := f.e2
      inh := true, asyncB := true, pc := (s.core l).evec.toNat % 2 ^ 18 }))
/-! Remote instructions and the tile DMA (02 R40-R48, 03 R84-R91). -/

/-- R84-R87: a remote instruction that passes its checks sends one operation: a slot of the table names the core, and one request
stands on the mesh. The instruction is over; a destination register waits for its data.
The model's own readings, where the spec is open: log 20. -/
def Obligations.RemoteInstructionsSend : Prop :=
  ∀ (s : State) (c : CoreId) (l : Loc) (w : FormX), Issues s c l 16 →
    let cs := s.core l
    let node := ((cs.getX w.r.b.toNat).toNat % 2 ^ 16)
    let off := (cs.getX w.r.c.toNat).toNat
    let sp := rSPACE w.w1
    let n := 8 * (rSZ w.w1 + 1)
    let x := (cs.getX w.r.d.toNat).toNat
    let sent := fun (cs1 : CoreSt) (d : Dest) (r : RReq) =>
      Host.Outcome.next (φ := Fault) (ρ := Refusal) ((s.setCore l (cs1.adv 16)).sendOn l.p (.core l cs.pc) d node r)
    let wait := fun (r : Nat) => if r = 0 then cs else { cs with xPend := addOnce cs.xPend r }
    s.remoteStall l cs node sp off = false → lnLive (s.lnt l.p node) = true → offsetBad sp off = false →
    w.r.fmt = 0 → w.r.rsv = 0 → w1Rsv w.w1 = false →
    s.ownClusterBad (s.lnt l.p node) sp off (rNT w.w1) (rNCLU w.w1) = false →
    -- RLD into a register
    (w.r.fn8 = 0 → ldstRsv w true = false → rREG w.w1 = true → blockBad off n = false →
      Readable cs [w.r.b.toNat, w.r.c.toNat] → Writable cs w.r.a.toNat →
      exec (.rld c w) s = sent (wait w.r.a.toNat) (.reg l w.r.a.toNat) (w1Req w.w1 1 off)) ∧
    -- RLD into the scratchpad
    (w.r.fn8 = 0 → ldstRsv w true = false → rREG w.w1 = false → blockBad off n = false →
      Readable cs [w.r.b.toNat, w.r.c.toNat, w.r.d.toNat] → s.hazard l [.wr (x % 2 ^ 18) n] = false →
      exec (.rld c w) s = sent cs (.spad l (x % 2 ^ 18) n) (w1Req w.w1 1 off)) ∧
    -- RST from a register, and from the scratchpad
    (w.r.fn8 = 0 → ldstRsv w false = false → rREG w.w1 = true → blockBad off n = false →
      Readable cs [w.r.b.toNat, w.r.c.toNat, w.r.d.toNat] →
      exec (.rst c w) s = sent cs .none { w1Req w.w1 2 off with data := x, words := rSZ w.w1 + 1 }) ∧
    (w.r.fn8 = 0 → ldstRsv w false = false → rREG w.w1 = false → blockBad off n = false →
      Readable cs [w.r.b.toNat, w.r.c.toNat, w.r.d.toNat] [(x % 2 ^ 18, n)] →
      s.hazard l [.now (x % 2 ^ 18) n false] = false →
      exec (.rst c w) s = sent cs .none { w1Req w.w1 2 off with data := sread cs.spad x n, words := rSZ w.w1 + 1 }) ∧
    -- RATOM and RATOM.F
    (w.r.fn8.toNat ≤ 2 → rREG w.w1 = false → rSZ w.w1 = 0 → w.r.a = 0 → atomBad sp off (rATYPE w.w1) = false →
      Readable cs [w.r.b.toNat, w.r.c.toNat, w.r.d.toNat] →
      exec (.ratom c w) s = sent cs .none { w1Req w.w1 3 off with aop := w.r.fn8.toNat, data := x, words := 1 }) ∧
    (w.r.fn8 = 0 → rREG w.w1 = false → rSZ w.w1 = 0 → atomBad sp off (rATYPE w.w1) = false →
      Readable cs [w.r.b.toNat, w.r.c.toNat, w.r.d.toNat] → Writable cs w.r.a.toNat →
      exec (.ratomF c w) s = sent (wait w.r.a.toNat) (.reg l w.r.a.toNat) { w1Req w.w1 4 off with data := x, words := 1 }) ∧
    -- RCAS in registers
    (w.r.fn8 = 0 → rREG w.w1 = true → rSZ w.w1 = 0 → rNT w.w1 = false → rATYPE w.w1 = 0 → (sp = 2 ∨ off % 8 = 0) →
      Readable cs [w.r.b.toNat, w.r.c.toNat, w.r.a.toNat, w.r.d.toNat] → Writable cs w.r.a.toNat →
      exec (.rcas c w) s = sent (wait w.r.a.toNat) (.reg l w.r.a.toNat)
        { w1Req w.w1 5 off with data := (cs.getX w.r.a.toNat).toNat + x * 2 ^ 64, words := 2 }) ∧
    -- RCAS in the scratchpad
    (w.r.fn8 = 0 → rREG w.w1 = false → rSZ w.w1 ≤ 1 → w.r.a = 0 → rNT w.w1 = false → rATYPE w.w1 = 0 → (sp = 2 ∨ off % n = 0) →
      Readable cs [w.r.b.toNat, w.r.c.toNat, w.r.d.toNat] [(x % 2 ^ 18, 2 * n)] →
      s.hazard l [.wr (x % 2 ^ 18) n, .now (x % 2 ^ 18 + n) n false] = false →
      exec (.rcas c w) s = sent cs (.spad l (x % 2 ^ 18) n)
        { w1Req w.w1 5 off with data := sread cs.spad (x % 2 ^ 18) (2 * n), words := 2 * (rSZ w.w1 + 1) }) ∧
    -- RMCST on a tree
    (w.r.fn8 = 0 → ldstRsv w false = false → rREG w.w1 = true → blockBad off n = false →
      Readable cs [w.r.b.toNat, w.r.c.toNat, w.r.d.toNat] →
      exec (.rmcst c w) s = sent cs .none { w1Req w.w1 6 off with
        data := x, words := rSZ w.w1 + 1, tree := (cs.getX w.r.b.toNat).toNat % 2 ^ 10 }) ∧
    (w.r.fn8 = 0 → ldstRsv w false = false → rREG w.w1 = false → blockBad off n = false →
      Readable cs [w.r.b.toNat, w.r.c.toNat, w.r.d.toNat] [(x % 2 ^ 18, n)] → s.hazard l [.now (x % 2 ^ 18) n false] = false →
      exec (.rmcst c w) s = sent cs .none { w1Req w.w1 6 off with
        data := sread cs.spad x n, words := rSZ w.w1 + 1, tree := (cs.getX w.r.b.toNat).toNat % 2 ^ 10 })

/-- R282: the request's header carries, each in its own bits, what the operation and the source's tables give. -/
def Claims.RequestHeaderFields : Prop :=
  ∀ (r : RReq) (epoch snode dnode dpart dctx wg slot use job jepoch : Nat),
    r.ptype < 16 → r.cls < 4 → epoch < 2 → r.words ≤ 32 → dnode < 2 ^ 16 → snode < 2 ^ 16 → r.off < 2 ^ 48 → r.space < 4 →
    r.atype < 4 → r.aop < 4 → r.size < 32 → dpart < 16 → dctx < 8 → wg < 16 → r.ncnt < 64 → r.ncore < 64 → r.nclu < 64 →
    r.circ < 2 ^ 12 → r.tree < 2 ^ 10 → slot < 2 ^ 22 → use < 2 ^ 10 → job < 2 ^ 16 → jepoch < 2 ^ 16 →
    let k := r.packet epoch snode dnode dpart dctx wg slot use job jepoch
    k.ptype = r.ptype ∧ k.cls = r.cls ∧ k.epoch = epoch ∧ k.ext = r.ext ∧ k.slots = r.slots ∧ k.dnode = dnode ∧
    k.snode = snode ∧ k.hops = 0 ∧ k.offset = r.off ∧ k.space = r.space ∧ k.atype = r.atype ∧ k.aop = r.aop ∧
    k.size = 8 * (r.size + 1) ∧ k.nt = r.nt ∧ k.comb = r.comb ∧ k.dpart = dpart ∧ k.dctx = dctx ∧ k.wgrp = wg ∧
    k.ncnt = r.ncnt ∧ k.ncore = r.ncore ∧ k.nclu = r.nclu ∧ k.circ = r.circ ∧ k.tree = r.tree ∧ k.slot = slot ∧
    k.use = use ∧ k.job = job ∧ k.jepoch = jepoch

/-- R317: the slot an operation takes neither holds an operation nor stays unused. -/
def Claims.SlotTakenIsFree : Prop :=
  ∀ s : State, tget s.ops s.freeSlot = none ∧ tget s.quar s.freeSlot = none

/-- R89-R91: TDMA reads and checks its descriptor and hands the transfer to the DMA unit; each piece sends one operation of at most
256 B, within one 256 B block, and the transfer goes on behind it. -/
def Claims.TileDma : Prop :=
  ∀ (s : State) (c : CoreId) (l : Loc),
    (∀ w : FormX, Issues s c l 16 →
      let cs := s.core l
      let ad := (cs.getX w.r.b.toNat).toNat % 2 ^ 18
      let d := sread cs.spad ad 32
      let e := s.lnt l.p (dmaNode d)
      cs.fence = false → cs.dmas.any Dma.left = false → w.r.fn8.toNat ≤ 1 → tdmaRsv w = false → dmaDescBad d = false →
      dmaRangeBad d = false → s.ownClusterBad e (dmaSpace d) (dmaRoff d) (rNT w.w1) (rNCLU w.w1) = false →
      s.ownClusterBad e (dmaSpace d) (dmaLast d) false 0 = false → lnLive e = true →
      Readable cs [w.r.b.toNat] [(ad, 32)] → s.hazard l [.now ad 32 false, dmaRng d (w.r.fn8 = 1)] = false →
      ∃ id, (∀ y ∈ cs.dmas, y.id < id) ∧ exec (.tdma c w) s = .next (s.setCore l (({ cs with
        dmas := cs.dmas ++ [{ desc := d, store := (w.r.fn8 = 1 : Bool), w1 := w.w1, cnt := w.r.a.toNat, pcAt := cs.pc, row := 0
                              byte := 0, out := 0, failed := false, id }] } : CoreSt).adv 16))) ∧
    (∀ x : Dma, On s → s.locate c = some l → (s.core l).dmas.find? Dma.left = some x →
      s.slotsFull = false → s.dmaOps l < 256 → lnLive (s.lnt l.p (dmaNode x.desc)) = true →
      let p := x.piece
      s.flipWait l (dmaNode x.desc) (dmaSpace x.desc) p.1 = false → (x.store = true → (s.core l).poisonIn p.2.1 p.2.2 = none) →
      exec (.tdmaPieceIssue c) s = .next ((s.setCore l { s.core l with
          dmas := replaceDma (x.next p.2.2) (s.core l).dmas }).sendOn l.p (.dma l x.pcAt x.id)
        (if x.store then .none else .spad l p.2.1 p.2.2) (dmaNode x.desc)
        { w1Req x.w1 (if x.store then 2 else 1) p.1 with
          size := p.2.2 / 8 - 1, space := dmaSpace x.desc
          data := if x.store then sread (s.core l).spad p.2.1 p.2.2 else 0
          words := if x.store then p.2.2 / 8 else 0 }))

/-- R91: a piece lies within one 256 B block, and pieces follow each other through each row and from row to row. -/
def Claims.DmaPiecesCoverRows : Prop :=
  ∀ x : Dma, x.byte < dmaRbytes x.desc →
    let p := x.piece
    0 < p.2.2 ∧ p.2.2 ≤ 256 ∧ p.1 % 256 + p.2.2 ≤ 256 ∧ x.byte + p.2.2 ≤ dmaRbytes x.desc ∧
    p.1 = dmaRoff x.desc + x.row * dmaRstride x.desc + x.byte ∧
    (x.byte + p.2.2 < dmaRbytes x.desc → (x.next p.2.2).row = x.row ∧ (x.next p.2.2).byte = x.byte + p.2.2) ∧
    (x.byte + p.2.2 = dmaRbytes x.desc → (x.next p.2.2).row = x.row + 1 ∧ (x.next p.2.2).byte = 0)

/-! The decode batcher (03 R103-R106). -/

/-- R103, R104: a BPUT whose template has an open group adds its request to it, the eighth makes the group issue, and one whose
template passes its checks opens a group. BFLUSH issues every group its queues take, and so does the expiry of the wait for the
earliest whose array has room.
The model's own readings, where the spec is open: log 8, 9, 96. -/
def Obligations.DecodeBatcher : Prop :=
  ∀ (s : State) (c : CoreId) (l : Loc),
    (∀ (w : FormX) (g : BGroup), Issues s c l 16 → w.r.fn8 = 0 → w.r.fmt = 0 → w.r.rsv = 0 → w.w1 = 0 →
      let cs := s.core l
      let x := fun (r : BitVec 6) => (cs.getX r.toNat).toNat % 2 ^ 18
      let q : BReq := { row := x w.r.b, out := x w.r.c, cnt := w.r.a.toNat }
      let waits := (s.part l.p).ruled = true ∨ 0 < cs.batwait
      Readable cs [w.r.b.toNat, w.r.c.toNat, w.r.d.toNat] → q.out % 8 = 0 →
      (cs.batch = [g] → g.tmpl = x w.r.d → s.outBusy l cs g q = false → s.hazard l (g.rowRng q) = false →
        (g.reqs.length < 7 → waits →
          exec (.bput c w) s = .next (s.setCore l (({ cs with batch := [{ g with reqs := g.reqs ++ [q] }] } : CoreSt).adv 16))) ∧
        (g.reqs.length = 7 → cs.room g.arr = true →
          exec (.bput c w) s = .next (s.setCore l
            (({ cs.issueGroup { g with reqs := g.reqs ++ [q] } with batch := [] } : CoreSt).adv 16)))) ∧
      (let t := sread cs.spad (x w.r.d) 32
       let wr := bits t 20 6
       let kk := 32 * (bits t 64 7 + 1)
       let h := sread cs.spad g.wgt 16
       cs.batch = [] → g = { tmpl := x w.r.d, t0 := w64 (bits t 0 64), t1 := w64 (bits t 64 64), wgt := (cs.getX wr).toNat % 2 ^ 18
                             hdr := h, reqs := [], opened := s.now } →
       Readable cs [wr] [(x w.r.d, 32)] → templateBad t = false → hdrFmt h ≤ 12 → pairBad (bits t 40 4) (hdrFmt h) = false →
       hdrBad h kk = false → (bit t 35 = true → (cs.drainGlyph (bits t 32 2)).isSome = true) → g.wgt % 16 = 0 →
       s.outBusy l cs g q = false →
       s.hazard l (g.rowRng q ++ .now (x w.r.d) 32 false :: (wgtRanges h g.wgt kk).map (fun r => .now r.1 r.2 false)) = false → waits →
         exec (.bput c w) s = .next (s.setCore l (({ cs with batch := [{ g with reqs := [q] }] } : CoreSt).adv 16)))) ∧
    (Issues s c l 8 → (s.core l).batch = [] →
      exec (.bflush c ⟨0, 0, 0, 0, 0, 0, 0⟩) s = .next (s.setCore l ((s.core l).adv 8))) ∧
    (∀ g : BGroup, Issues s c l 8 → (s.core l).batch = [g] → (s.core l).room g.arr = true →
      exec (.bflush c ⟨0, 0, 0, 0, 0, 0, 0⟩) s =
        .next (s.setCore l (({ (s.core l).issueGroup g with batch := [] } : CoreSt).adv 8))) ∧
    (∀ (g : BGroup) (full r : List BGroup), On s → s.locate c = some l → (s.core l).batch = full ++ g :: r →
      (s.part l.p).ruled = false → (∀ x ∈ full, (s.core l).room x.arr = false) → (s.core l).room g.arr = true →
      exec (.batchWaitExpiry c) s = .next ((s.reach (g.opened + min (s.core l).batwait 10500000)).setCore l
        { (s.core l).issueGroup g with batch := full ++ r }))

/-! Matrix arrays (04 R110-R146). -/

/-- R110-R112: a matrix instruction that passes its checks enters its array's queue with the register values it read. -/
def Claims.MatrixIssue : Prop :=
  ∀ (s : State) (c : CoreId) (l : Loc) (w : FormX), Issues s c l 16 →
    let cs := s.core l
    let i := w.r.fn8.toNat % 4
    let a := cs.arr i
    let op := fun (k : MKind) => mmaOp k cs w (w.r.w0 (match k with
      | .mmaF => 0x90
      | .mmaS => 0x91
      | .sparsify => 0x92
      | .sparsifyT => 0x93))
    let queued := fun (k : MKind) (d : CoreSt) =>
      Host.Outcome.next (φ := Fault) (ρ := Refusal)
        (s.setCore l ((d.setArr i { a with q := a.q ++ [op k] }).adv 16))
    let rng := fun (k : MKind) => (op k).rngs (if k = .sparsify ∨ k = .sparsifyT then none else cs.drainGlyph i)
    let reads := fun (k : MKind) => ((rng k).filter (fun r => !r.w)).map (fun r => (r.a, r.n))
    cs.room i = true →
    (∀ k : MKind, k = .mmaF ∨ k = .mmaS → firstErr (mmaErrs k cs w) = none →
      Readable cs ([w.r.a.toNat, w.r.b.toNat, w.r.c.toNat]
        ++ (if k = .mmaS ∨ (op k).acc.isSome = true then [w.r.d.toNat] else [])) (reads k) →
      s.hazard l (rng k) = false →
      exec (if k = .mmaF then .mmaF c w else .mmaS c w) s = queued k cs) ∧
    (∀ k : MKind, k = .sparsify ∨ k = .sparsifyT →
      let o := op k
      let h := sread cs.spad o.row 16
      bits w.r.fn8.toNat 2 6 = 0 → w.r.d = 0 → w.r.fmt = 0 → w.r.rsv = 0 → fld w.w1 7 57 = 0 → hdrFmt h ≤ 12 →
      hdrSparse h = false → hdrBad h o.depth = false → o.row % 16 = 0 → o.out % 16 = 0 → Writable cs o.dst →
      Readable cs [w.r.a.toNat, w.r.b.toNat] (reads k) → s.hazard l (rng k) = false →
      exec (if k = .sparsify then .sparsify c w else .sparsifyT c w) s =
        queued k (if o.dst = 0 then cs else { cs with xPend := addOnce cs.xPend o.dst }))

/-- R110, R123, R127, R144: an array takes its queue's head into a free set with its products formed; when it completes, its rows
stand at their addresses, and a batcher group's counters have risen by 1; a SPARSIFY writes its operand and its overflow count. R145:
an instruction whose feeders read a poisoned word ends without effect, and CORE_DATA_UE stops the core. -/
def Claims.MatrixStreamAndComplete : Prop :=
  ∀ (s : State) (c : CoreId) (l : Loc) (arr : BitVec 2), On s → s.locate c = some l →
    let cs := s.core l
    let a := cs.arr arr.toNat
    (∀ (o : MOp) (rest : List MOp), a.q = o :: rest → a.act.length < 2 → a.act.any (fun x => x.op.isSparsify) = false → a.bad = false →
      exec (.matrixStreamStart c arr) s =
        .next (s.setCore l (cs.setArr arr.toNat { a with q := rest, act := a.act ++ [o.start cs] }))) ∧
    (∀ (m : MAct) (rest : List MAct), a.act = m :: rest →
      (m.op.isSparsify = false → m.ready = true →
        exec (.matrixComplete c arr) s = .next ((s.engOut l (completeHead (s.env l) cs arr.toNat)).wake l)) ∧
      (m.op.isSparsify = true →
        exec (.sparsifyComplete c arr) s = .next (s.engOut l (completeHead (s.env l) cs arr.toNat))) ∧
      (∀ x, m.op.isSparsify = false → m.bad = some x → x < 2 ^ 18 →
        exec (.matrixComplete c arr) s = .next (((s.setCore l (cs.setArr arr.toNat { a with act := rest })).coreStop l
          ⟨0x010C, w64 x, 0, m.op.w0, false⟩).wake l)) ∧
      (m.op.kind = .mmaF → m.op.gly = false → m.op.breqs = none → m.bad = none →
        let d := (completeHead (s.env l) cs arr.toNat).c
        d.spad = writeRows (fun r => plainRow m r (s.env l).free) (m.op.rowAt m.op.ofmt) (fmtBits m.op.ofmt / 8) 8 0 cs.spad ∧
        d.cnt = cs.cnt ∧ d.x = cs.x ∧ d.pc = cs.pc ∧ d.vr = cs.vr ∧ (d.arr arr.toNat).act = rest))

/-! The vector engine (05 R148-R172, R185). -/

/-- A vector instruction as it waits in the engine's queue. -/
abbrev vop (cs : CoreSt) (op : Nat) (w : FormV) : VOp :=
  { op, w, n := vcount cs w, xv := if scalarB op then cs.getX w.b.toNat else 0 }

/-- A vector instruction issues: its checks pass and its operands are readable. -/
abbrev VIssues (s : State) (c : CoreId) (l : Loc) (op : Nat) (w : FormV) (xs : List Nat) : Prop :=
  let cs := s.core l
  Issues s c l 8 ∧ xs = (if scalarB op then [w.b.toNat] else []) ++ (if w.cr = 1 then [cntReg w] else []) ∧
  firstErr (vErrs op cs w) = none ∧ Readable cs xs ((vop cs op w).reads (s.env l) cs) ∧ s.hazard l (vop cs op w).rngs = false ∧
  cs.vrPoisoned (vgroups op w (vcount cs w)) = none

/-- A vector instruction may start at once: it issues and the engine is idle. -/
abbrev VStarts (s : State) (c : CoreId) (l : Loc) (op : Nat) (w : FormV) (xs : List Nat) : Prop :=
  VIssues s c l op w xs ∧ (s.core l).vBusy = false ∧ (s.core l).vq = []

/-- The core after a vector instruction that started at once. -/
def vnext (s : State) (l : Loc) (d : CoreSt) : Host.Outcome State Fault Refusal :=
  .next (s.setCore l (({ d with vBusy := true } : CoreSt).adv 8))

/-- R155, R156, R161: loads, stores, moves and index generation of n elements of the format. -/
def Claims.VectorMemoryAndMoves : Prop :=
  ∀ (s : State) (c : CoreId) (l : Loc) (w : FormV) (xs : List Nat),
    let cs := s.core l
    let f := w.fmt.toNat
    let n := vcount cs w
    let sz := fmtBits f / 8
    let x := (cs.getX w.b.toNat).toNat
    let base := roundDown (x % 2 ^ 18) sz
    let at_ := (vget cs w.c.toNat 12 n).map (fun i => roundDown ((x + i * sz) % 2 ^ 18) sz)
    (VStarts s c l 0x30 w xs → exec (.vld c w) s = vnext s l (vput cs w.a.toNat f (selems cs.spad sz n base))) ∧
    (VStarts s c l 0x31 w xs → exec (.vst c w) s = vnext s l
      (({ cs with spad := putSelems cs.spad sz base (vget cs w.a.toNat f n) } : CoreSt).clean [(base, n * sz)])) ∧
    (VStarts s c l 0x32 w xs → exec (.vldx c w) s = vnext s l
      (vput cs w.a.toNat f (at_.map (fun p => sread cs.spad p sz)))) ∧
    (VStarts s c l 0x33 w xs → exec (.vstx c w) s = vnext s l
      { cs with spad := (at_.zip (vget cs w.a.toNat f n)).foldl (fun m e => swrite m e.1 sz e.2) cs.spad }) ∧
    (VStarts s c l 0x34 w xs → exec (.vmovx c w) s = vnext s l
      (vput cs w.a.toNat f (List.replicate n (x % 2 ^ fmtBits f)))) ∧
    (VStarts s c l 0x35 w xs → exec (.viota c w) s = vnext s l
      (vput cs w.a.toNat f ((List.range n).map (fun (i : Nat) => if f = 0 then toF32 (.ofInt (i : Int)) else i))))

/-- R158-R164: the element-wise functions: each element of vd is the function of the same element of the sources, rounded once;
conversions, also to and from MX blocks in the scratchpad, round to nearest even or with the random words of stream 0.
The model's own readings, where the spec is open: log 22. -/
def Obligations.VectorElementwise : Prop :=
  ∀ (s : State) (c : CoreId) (l : Loc) (w : FormV) (xs : List Nat),
    let cs := s.core l
    let f := w.fmt.toNat
    let fn := w.fn8.toNat
    let n := vcount cs w
    let a := vget cs w.b.toNat f n
    let b := vget cs w.c.toNat f n
    let d := vget cs w.d.toNat f n
    let rnd := fun (i : Nat) => if w.sr = 1 then Rnd.sto ((s.env l).word 0 cs.seq0 i) else .rne
    let seq0 := if w.sr = 1 then cs.seq0 + (n + 3) / 4 else cs.seq0
    let vd := fun (vs : List Nat) => vnext s l (vput cs w.a.toNat f vs)
    (VStarts s c l 0x38 w xs → exec (.vfp c w) s =
      vd ((nums f a).zipWith (fun p q => ofNum f .rne (vfpFn fn p q)) (nums f b))) ∧
    (VStarts s c l 0x39 w xs → exec (.vfma c w) s =
      vd ((((nums f a).zip (nums f b)).zip (nums f d)).map (fun e => ofNum f .rne (vfmaFn fn e.1.1 e.1.2 e.2)))) ∧
    (VStarts s c l 0x3A w xs → exec (.vun c w) s = vd ((nums f a).map (fun p => ofNum f .rne (vunFn fn p)))) ∧
    (VStarts s c l 0x3B w xs → exec (.vint c w) s = vd (a.zipWith (vintFn fn (fmtBits f)) b)) ∧
    (VStarts s c l 0x3C w xs → exec (.vcmp c w) s = vnext s l
      { cs with vr := mwrite cs.vr (1024 * w.a.toNat) 1024 (setBits (vmask cs w.a.toNat) 0 n
          (packBits ((nums f a).zipWith (vcmpFn fn (f ≥ 11)) (nums f b)))) }) ∧
    (VStarts s c l 0x3D w xs → exec (.vsel c w) s =
      vd (((a.zip b).zip (List.range n)).map (fun e => if (vmask cs w.d.toNat).testBit e.2 then e.1.1 else e.1.2))) ∧
    (VStarts s c l 0x3E w xs → exec (.vcvt c w) s =
      vnext s l { vput cs w.a.toNat f (((vget cs w.b.toNat (fn % 16) n).zip (List.range n)).map (fun e =>
          ofNum f (rnd e.2) (toNum (fn % 16) e.1))) with seq0 := seq0 }) ∧
    (VStarts s c l 0x3F w xs →
      let ew := fmtBits (fn / 16)
      let p := (cs.getX w.b.toNat).toNat
      let sc := p + 8 * ((n * ew + 63) / 64)
      (fn % 2 = 1 → exec (.vcvtm c w) s = vd ((List.range n).map (fun i =>
        ofNum f .rne (mxNum (fn / 16) (sread cs.spad (sc + i / 32) 1) (bits (sread cs.spad p (n * ew / 8)) (ew * i) ew))))) ∧
      (fn % 2 = 0 →
        let bs := (chunks32 (n / 32) (((vget cs w.a.toNat f n).zip (List.range n)).map (fun e => (toNum f e.1, rnd e.2)))).map
          (mxBlock (fn / 16))
        exec (.vcvtm c w) s = vnext s l { ({ cs with
          spad := putSelems (swrite cs.spad p (n * ew / 8) (packElems ew (bs.map Prod.snd).flatten)) 1 sc (bs.map Prod.fst) }
            : CoreSt).clean [(p, n * ew / 8), (sc, n / 32)] with seq0 := seq0 }))

/-- R165-R172: reductions, scans, softmax, selection, sorting, histograms and random words.
The model's own readings, where the spec is open: log 21, 22, 103. -/
def Obligations.VectorAcrossElements : Prop :=
  ∀ (s : State) (c : CoreId) (l : Loc) (w : FormV) (xs : List Nat),
    let cs := s.core l
    let f := w.fmt.toNat
    let fn := w.fn8.toNat
    let n := vcount cs w
    let a := vget cs w.b.toNat f n
    (VStarts s c l 0x40 w xs → exec (.vred c w) s = vnext s l (vput cs w.a.toNat f [
      if fn = 0 then (if f = 12 then listSum a % 2 ^ 32 else ofNum f .rne (Num.sum (nums f a)))
      else if fn = 1 then ofNum f .rne ((nums f a).foldl Num.max (.inf true))
      else ofNum f .rne ((nums f a).foldl Num.min (.inf false))])) ∧
    (VStarts s c l 0x41 w xs →
      let sums := (List.range n).map (fun i => if f = 12 then listSum (a.take (i + 1)) % 2 ^ 32
        else ofNum f .rne (Num.sum (nums f (a.take (i + 1)))))
      exec (.scan c w) s = vnext s l (vput cs w.a.toNat f (if fn % 2 = 0 then sums else 0 :: sums.take (n - 1)))) ∧
    (VStarts s c l 0x42 w xs →
      let r := smax f (((nums f a).zip (List.range n)).map (fun e => (e.1, fn % 2 == 0 || (vmask cs w.c.toNat).testBit e.2)))
      exec (.smax c w) s = vnext s l (vput (vput cs w.a.toNat f r.1) w.d.toNat 0 [r.2.1, r.2.2.1, r.2.2.2])) ∧
    (VStarts s c l 0x43 w xs →
      let ix := (keyOrder (bit fn 6) (nums f a)).take (fn % 64 + 1)
      exec (.topk c w) s = vnext s l (vput (vput cs w.a.toNat f (ix.map (fun i => a.getD i 0))) w.d.toNat 12 ix)) ∧
    (VStarts s c l 0x44 w xs →
      let ix := keyOrder (!bit fn 0) (nums f a)
      exec (.sortk c w) s = vnext s l (vput (vput cs w.a.toNat f (ix.map (fun i => a.getD i 0))) w.d.toNat 12
        (if bit fn 1 then ix else ix.map (fun i => (vget cs w.c.toNat 12 n).getD i 0)))) ∧
    (VStarts s c l 0x45 w xs →
      let nb := 2 ^ (fn % 16)
      exec (.hist c w) s = vnext s l (vput cs w.a.toNat 12
        (histGo nb a (if bit fn 4 then vget cs w.a.toNat 12 nb else List.replicate nb 0)))) ∧
    (VStarts s c l 0x46 w xs → exec (.vrand c w) s =
      vnext s l { vput cs w.a.toNat f ((List.range n).map (fun i =>
          if f = 12 then (s.env l).word 2 cs.seq2 i
          else toF32 (.fin false ((s.env l).word 2 cs.seq2 i / 256) (-24) false))) with
        seq2 := cs.seq2 + (n + 3) / 4 })

/-- The vector instructions with their operation codes. -/
abbrev vectorRows : List ((CoreId → FormV → Instr) × Nat) :=
  [(.vld, 0x30), (.vst, 0x31), (.vldx, 0x32), (.vstx, 0x33), (.vmovx, 0x34), (.viota, 0x35), (.vfp, 0x38), (.vfma, 0x39),
   (.vun, 0x3A), (.vint, 0x3B), (.vcmp, 0x3C), (.vsel, 0x3D), (.vcvt, 0x3E), (.vcvtm, 0x3F), (.vred, 0x40), (.scan, 0x41),
   (.smax, 0x42), (.topk, 0x43), (.sortk, 0x44), (.hist, 0x45), (.vrand, 0x46)]

/-- R185: a vector instruction that finds the engine busy, or others waiting, waits in its queue of four with the scalar it read;
when the one in progress has finished, the queue's head starts. -/
def Claims.VectorQueue : Prop :=
  ∀ (s : State) (c : CoreId) (l : Loc),
    (∀ e ∈ vectorRows, ∀ (w : FormV) (xs : List Nat), VIssues s c l e.2 w xs →
      (s.core l).vBusy = true ∨ (s.core l).vq ≠ [] → (s.core l).vq.length < 4 →
      exec (e.1 c w) s = .next (s.setCore l (({ s.core l with
        vq := (s.core l).vq ++ [vop (s.core l) e.2 w] } : CoreSt).adv 8))) ∧
    (On s → s.locate c = some l →
      ((s.core l).vq = [] → exec (.vectorQueueStart c) s = .next (s.setCore l { s.core l with vBusy := false })) ∧
      (∀ (o : VOp) (r : List VOp), (s.core l).vq = o :: r → exec (.vectorQueueStart c) s =
        .next (s.setCore l { vexec (s.env l) { s.core l with vq := r } o with vBusy := true })))

/-! Glyphs (05 R173-R184). -/

/-- R177, R178, R181, R183, R184: GLOAD puts its image into a drain slot, or sends it to the cluster's Ductus engine, where it
takes effect later; GATT attaches and detaches; GDRAIN of an empty buffer only goes on, and one of a part block writes it as the
block's place in the tile asks, values it does not hold counting as +0; a tile drains through its glyph.
The model's own readings, where the spec is open: log 29, 95, 98. -/
def Obligations.GlyphSlots : Prop :=
  ∀ (s : State) (c : CoreId) (l : Loc),
    (∀ w : FormX, Issues s c l 16 →
      let cs := s.core l
      let fn := w.r.fn8.toNat
      let ad := (cs.getX w.r.b.toNat).toNat % 2 ^ 18 / 16 * 16
      let img := sread cs.spad ad 528
      fn < 8 → glyRsv w true = false → cs.vq.length < 4 → Readable cs [w.r.b.toNat] [(ad, 528)] →
      s.hazard l [.now ad 528 false] = false →
      (fn < 4 → firstErr (glyErrs img false) = none →
        (∀ i, i < 4 → (cs.arr i).att = some fn → (cs.arr i).holds (fun o => o.gly) = false) →
        exec (.gload c w) s = .next (s.setCore l (({ cs with glyph := tput cs.glyph fn img } : CoreSt).adv 16))) ∧
      (4 ≤ fn → firstErr (glyErrs img true) = none →
        let n := s.phys l.p l.l
        exec (.gload c w) s = .next ((s.setDuctus n { s.ductus n with
          loads := (s.ductus n).loads ++ [{ p := l.p, s := l.s, l := l.l, slot := fn - 4, image := img }] }).setCore l
            (cs.adv 16)))) ∧
    (∀ w : FormX, Issues s c l 16 → glyRsv w false = false →
      let cs := s.core l
      let i := w.r.fn8.toNat % 4
      let a := cs.arr i
      a.holds (fun o => o.gly) = false →
      (w.r.fn8.toNat < 16 → exec (.gatt c w) s = .next (s.setCore l ((cs.setArr i { a with
        att := some (w.r.fn8.toNat / 4), dseq := 0, mx := [], mxf := 0 }).adv 16))) ∧
      (w.r.fn8.toNat = 16 + i → exec (.gatt c w) s = .next (s.setCore l ((cs.setArr i { a with
        att := none, mx := [], mxf := 0 }).adv 16)))) ∧
    (∀ w : FormX, Issues s c l 16 → glyRsv w true = false → w.r.fn8.toNat < 4 → Readable (s.core l) [w.r.b.toNat] →
      ((s.core l).arr w.r.fn8.toNat).holds (fun _ => true) = false → ((s.core l).arr w.r.fn8.toNat).mx = [] →
      exec (.gdrain c w) s = .next (s.setCore l ((s.core l).adv 16))) ∧
    (∀ w : FormX, Issues s c l 16 → glyRsv w true = false → w.r.fn8.toNat < 4 → Readable (s.core l) [w.r.b.toNat] →
      let cs := s.core l
      let i := w.r.fn8.toNat
      let a := cs.arr i
      let ad := (cs.getX w.r.b.toNat).toNat % 2 ^ 18
      let b := a.dseq / 4 % 4
      a.holds (fun _ => true) = false → a.mx ≠ [] → a.bad = false → s.hazard l [.now ad (tileSize (a.mxf % 16)) true] = false →
      exec (.gdrain c w) s = .next (s.setCore l ((({ cs.setArr i { a with mx := [], mxf := 0, dseq := (a.dseq / 4 + 1) * 4 % 2 ^ 16 }
        with spad := mxWrite cs.spad a.mx a.mxf (mxTile ad) b } : CoreSt).clean (mxRanges (mxTile ad) a.mxf b)).adv 16))) ∧
    (∀ (arr : BitVec 2) (m : MAct) (rest : List MAct), On s → s.locate c = some l →
      ((s.core l).arr arr.toNat).act = m :: rest → m.op.gly = true → m.drained < m.op.nrows → m.bad = none →
      exec (.drainGlyphTile c arr) s = .next (({ s with free := s.free + 8 * m.op.nrows } : State).setCore l
        (drainTile (s.env l) (s.core l) arr.toNat))) ∧
    (∀ (clu : BitVec 6) (g : GateLoad) (rest : List GateLoad), On s → (s.ductus clu.toNat).loads = g :: rest →
      (s.ductus clu.toNat).run = [] →
      let x := s.ctx g.p g.s
      exec (.gatingGlyphLoad clu) s = .next ((s.setDuctus clu.toNat { s.ductus clu.toNat with loads := rest }).setCtx g.p g.s
        { x with gates := tput x.gates (4 * g.l + g.slot) g.image }))
/-! The Ductus engine (06 R188-R233). -/

/-- R188, R192, R194: a Ductus instruction that passes its checks leaves its core and joins its unit's queue behind others, with its
descriptor as it stood and the register values it read; DALLOC's result register waits, and a DSEND opens its collect entry. -/
def Claims.DuctusQueues : Prop :=
  ∀ (s : State) (c : CoreId) (l : Loc) (w : FormX),
    let cs := s.core l
    let n := s.phys l.p l.l
    let ad := fun (size al : Nat) => if size = 0 then 0 else (cs.getX w.r.b.toNat).toNat % 2 ^ 18 / al * al
    let desc := fun (size al : Nat) => if size = 0 then (cs.getX w.r.b.toNat).toNat else sread cs.spad (ad size al) size
    let queued := fun (i : Instr) (s1 : State) (cs1 : CoreSt) (op unit size al : Nat) =>
      exec i s = .next ((s1.setCore l (cs1.adv 16)).ductusQueued n unit (ductusOp cs l op w (desc size al)))
    let room := fun (unit : Nat) (rs : List Nat) (size al : Nat) =>
      DReads s c l unit rs (ad size al) size ∧ tgetD (s.ductus n).q unit [] ≠ []
    let layer := firstErr (layerErrs (desc 128 16)) = none
    (room 0 [w.r.b.toNat] 128 16 → layer → ductusRsv w true false false false = false →
      (w.r.fn8 = 0 → s.noGate l (desc 128 16) = false → queued (.dscore c w) s cs 0xB0 0 128 16) ∧
      (w.r.fn8 = 0 → queued (.dtopk c w) s cs 0xB1 0 128 16) ∧
      (w.r.fn8.toNat < 2 → queued (.dnorm c w) s cs 0xB2 0 128 16)) ∧
    (room 1 [w.r.b.toNat] 128 16 → layer → ductusRsv w true false false false = false → w.r.fn8 = 0 →
      queued (.dhist c w) s cs 0xB3 1 128 16 ∧ queued (.dscan c w) s cs 0xB4 1 128 16) ∧
    (room 1 [w.r.b.toNat] 64 16 → splitBad (desc 64 16) = false → ductusRsv w true false false false = false → w.r.fn8 = 0 →
      queued (.dsplit c w) s cs 0xBA 1 64 16) ∧
    (room 2 [w.r.b.toNat] 128 16 → layer → ductusRsv w true true false true = false → w.r.fn8 = 0 → Writable cs w.r.c.toNat →
      queued (.dalloc c w) s (if w.r.c = 0 then cs else { cs with xPend := addOnce cs.xPend w.r.c.toNat }) 0xB5 2 128 16) ∧
    (∀ i : Nat, room 2 [w.r.b.toNat] 128 16 → layer → ductusRsv w true false false true = false → w.r.fn8.toNat < 2 →
      let d := desc 128 16
      let u := s.ductus n
      genLive (lyGEN d) (u.floorOf l.s) = true → u.find l.s (lyBATCH d) (lyGEN d) w.r.fn8.toNat = none → u.freeEntry l.s = some i →
      exec (.dsendDispatch c w) s = .next (((s.setCore l (cs.adv 16)).setDuctus n { u with
        ct := tput u.ct i (openedEntry d w.r.fn8.toNat) }).ductusQueued n 2 (ductusOp cs l 0xB6 w d))) ∧
    (room 2 [w.r.b.toNat, w.r.d.toNat] 32 1 → ductusRsv w true false true true = false → w.r.fn8 = 2 → itSEG (desc 32 1) = 0 →
      0 < itSEGS (desc 32 1) → queued (.dsendReturn c w) s cs 0xB6 2 32 1) ∧
    (room 3 [w.r.b.toNat, w.r.c.toNat] 128 16 → layer → ductusRsv w true true false false = false →
      w.r.fn8.toNat < 8 → w.r.fn8.toNat % 2 = 0 →
      (let k := keyOf (cs.getX w.r.c.toNat).toNat
       ((s.ductus n).find l.s k.1 k.2.1 k.2.2).isSome = true) →
      queued (.dcombineGate c w) s cs 0xB8 3 128 16) ∧
    (room 3 [w.r.b.toNat, w.r.c.toNat, w.r.d.toNat] 0 1 → ductusRsv w true true true false = false → w.r.fn8 = 1 →
      shapeBad (cs.getX w.r.c.toNat) = false → queued (.dcombineSeg c w) s cs 0xB8 3 0 1) ∧
    (room 2 [w.r.c.toNat] 0 1 → ductusRsv w false true false false = false → w.r.fn8.toNat < 2 →
      queued (.dcancel c w) s cs 0xB9 2 0 1)

/-- R199-R204: in an idle unit and over tables it may read and write, a selection or count instruction writes its table and adds 1 to
its counter: DSCORE the scores through the gating glyph, DTOPK the k best of each token, DNORM their weights, DHIST the counts, ranks
and bad experts, DSCAN each half's exclusive prefix sums.
The model's own readings, where the spec is open: log 13, 14, 73. -/
def Obligations.DuctusSelectsAndCounts : Prop :=
  ∀ (s : State) (c : CoreId) (l : Loc) (w : FormX),
    let cs := s.core l
    let u := s.phys l.p l.l
    let ad := (cs.getX w.r.b.toNat).toNat % 2 ^ 18 / 16 * 16
    let d := sread cs.spad ad 128
    let n := lyN d
    let e := lyE d
    let k := lyK d
    let starts := fun (i : Instr) (op unit : Nat) (rs : List (Nat × Nat × Nat × Bool)) (f : State → DOp → Bool → State) =>
      DReads s c l unit [w.r.b.toNat] ad 128 → DIdle s u unit → firstErr (layerErrs d) = none →
      ductusRsv w true false false false = false →
      let o := ductusOp cs l op w d
      let s1 := (s.setCore l (cs.adv 16)).ductusTaken u unit o
      s1.tblCheck o rs = .ok →
      exec i s = .next (((f s1 o (s1.tblsPoison o rs)).tblEnd o.who).ductusDone o)
    (w.r.fn8 = 0 → s.noGate l d = false →
      starts (.dscore c w) 0xB0 0 [(lySCORES d, 0, 4 * (n * e), false), (lySCORES d, 0, 4 * (n * e), true)] (fun s1 o pz =>
        let g := s1.gate o (splitN 32 (n * e) (s1.rdT o (lySCORES d) 0 (4 * (n * e))))
        g.1.wrT o (lySCORES d) 0 (4 * (n * e)) (packElems 32 g.2) pz)) ∧
    (w.r.fn8 = 0 →
      starts (.dtopk c w) 0xB1 0 [(lySCORES d, 0, 4 * (n * e), false), (lySEL d, 0, 16 * n * k, true)] (fun s1 o pz =>
        (List.range n).foldl (fun t i =>
          let row := splitN 32 e (s1.rdT o (lySCORES d) 0 (4 * (n * e)) >>> (32 * (i * e)))
          (((keyOrder false (nums 0 row)).take k).zip (List.range k)).foldl (fun t x =>
            t.wrT o (lySEL d) (16 * (i * k + x.2)) 8 (x.1 + row.getD x.1 0 * 2 ^ 32) pz) t) s1)) ∧
    (w.r.fn8 = 1 →
      starts (.dnorm c w) 0xB2 0 [(lySEL d, 0, 16 * n * k, false), (lySEL d, 0, 16 * n * k, true)] (fun s1 o pz =>
        let recs := splitN 128 (n * k) (s1.rdT o (lySEL d) 0 (16 * n * k))
        s1.wrT o (lySEL d) 0 (16 * n * k) (packElems 128 ((List.range n).map (fun t =>
          let row := (recs.drop (t * k)).take k
          let ws := nums 0 (row.map (fun r => bits r 32 32))
          let sum := f32 (toF32 (Num.sum ws))
          (row.zip ws).map (fun x => setBits (setBits x.1 32 32 (toF32 (x.2.div sum))) 98 3 0))).flatten) pz)) ∧
    (w.r.fn8 = 0 →
      starts (.dhist c w) 0xB3 1 [(lySEL d, 0, 16 * n * k, false), (lySEL d, 0, 16 * n * k, true), (lyCNT d, 0, 8 * e, true)]
        (fun s1 o pz =>
          let recs := splitN 128 (n * k) (s1.rdT o (lySEL d) 0 (16 * n * k))
          let r := (recs.zip (List.range (n * k))).foldl (fun st x => histStep e st (x.1, lyHalf d (x.2 / k))) ([], [], 0)
          ((s1.wrT o (lySEL d) 0 (16 * n * k) (packElems 128 r.2.1.reverse) pz).wrT o (lyCNT d) 0 (8 * e)
            (packElems 32 ((List.range (2 * e)).map (fun i => tgetD r.1 i 0))) pz).ducCount u 0x0302 r.2.2)) ∧
    (w.r.fn8 = 0 →
      starts (.dscan c w) 0xB4 1 [(lyCNT d, 0, 8 * e, false), (lyOFFS d, 0, 8 * e, true)] (fun s1 o pz =>
        let cnts := splitN 32 (2 * e) (s1.rdT o (lyCNT d) 0 (8 * e))
        let before := fun (h x : Nat) => listSum ((List.range x).map (fun y => cnts.getD (2 * y + h) 0)) % 2 ^ 32
        s1.wrT o (lyOFFS d) 0 (8 * e)
          (packElems 32 ((List.range e).map (fun x => [before 0 x, before 1 x])).flatten) pz))

/-- R203: what DHIST leaves in the records and the counts. Record i of a known expert holds in RANK how many earlier records name the
same expert and half; the count of an expert and half is how many records name them; bit 97 marks a record whose expert is out of range. -/
def Claims.HistRanksAndCounts : Prop :=
  ∀ (e : Nat) (xs : List (Nat × Nat)), (∀ x ∈ xs, x.1 < 2 ^ 128 ∧ x.2 < 2) →
    let r := xs.foldl (histStep e) ([], [], 0)
    let same := fun (ys : List (Nat × Nat)) (ex h : Nat) => (ys.filter (fun y => bits y.1 0 32 == ex && y.2 == h)).length
    r.2.1.length = xs.length ∧ r.2.2 = (xs.filter (fun x => decide (e ≤ bits x.1 0 32))).length ∧
    (∀ ex h, ex < e → h < 2 → tgetD r.1 (2 * ex + h) 0 = same xs ex h) ∧
    (∀ i x, xs[i]? = some x → ∃ y, r.2.1.reverse[i]? = some y ∧ bits y 0 32 = bits x.1 0 32 ∧ bits y 32 32 = bits x.1 32 32 ∧
      bits y 96 1 = 0 ∧ bits y 97 1 = (if e ≤ bits x.1 0 32 then 1 else 0) ∧
      (bits x.1 0 32 < e → bits y 64 32 = same (xs.take i) (bits x.1 0 32) x.2 % 2 ^ 32))

/-- R217, R218: DSPLIT's dense items of a record cover its rows once and in order, on group boundaries, at most 512 rows an item; and
each item is dealt to the core whose list costs least so far, the lower one on a tie. -/
def Claims.SplitCoversAndBalances : Prop :=
  (∀ rec_ count : Nat,
    let xs := itemsDense rec_ count
    listSum (xs.map (fun t => t.rows)) = count ∧
    (∀ i t, xs[i]? = some t → t.first = listSum ((xs.take i).map (fun t => t.rows)) ∧ t.first % 8 = 0 ∧ 1 ≤ t.rows ∧ t.rows ≤ 512 ∧
      t.at_ = rec_ ∧ t.seg = 0 ∧ t.segs = 1)) ∧
  (∀ (rec_ b : Nat) (nz : List Nat), 0 < b →
    let xs := itemsNnz rec_ b nz.length 0 nz
    listSum (xs.map (fun t => t.nzc)) = listSum nz ∧ ∀ t ∈ xs, t.nzc ≤ b ∧ t.seg < t.segs) ∧
  (∀ cs : List Nat, cs ≠ [] → leastOf cs < cs.length ∧
    ∀ i x, cs[i]? = some x → cs.getD (leastOf cs) 0 ≤ x ∧ (i < leastOf cs → cs.getD (leastOf cs) 0 < x))

/-- R216-R219: DSPLIT in an idle unit, over tables it may use, splits the valid records of the inboxes into items, by rows or by
the budget of their nonzeros, deals them, writes each record's item count to REMAIN, clears what it consumes, and writes each
core's list, whose bytes alone it must be allowed to write. -/
def Claims.DuctusSplits : Prop :=
  ∀ (s : State) (c : CoreId) (l : Loc) (w : FormX),
    let cs := s.core l
    let u := s.phys l.p l.l
    let ad := (cs.getX w.r.b.toNat).toNat % 2 ^ 18 / 16 * 16
    let d := sread cs.spad ad 64
    let o := ductusOp cs l 0xBA w d
    let s1 := (s.setCore l (cs.adv 16)).ductusTaken u 1 o
    let ibs := inboxes d (s1.rdT o (spHOME d) 0 (16 * spNHOME d))
    let addrs := (ibs.map (fun b => (List.range (min (s1.rdT o b.1 0 8) b.2)).map (fun i => b.1 + 64 + 64 * i))).flatten
    let good := (addrs.map (fun a => (a, s1.rdT o a 0 64))).filter (fun r => rcVALID r.2)
    let rows := fun (rs : List (Nat × Nat)) => listSum (rs.map (fun r => rcCOUNT r.2))
    let rs0 := [(spHOME d, 0, 16 * spNHOME d, false)]
    let rs1 := ibs.map (fun b => (b.1, 0, 8, false))
    let rs2 := addrs.map (fun a => (a, 0, 64, false)) ++ addrs.map (fun a => (a, 0, 64, true))
      ++ (if spConsume d then ibs.map (fun b => (b.1, 0, 8, true)) else [])
    let rs3 := if spNnz d then [(spCOST d, 0, 4 * rows good, false)] else []
    let pz := s1.tblsPoison o (rs0 ++ rs1 ++ rs2 ++ rs3)
    let costs := splitN 32 (rows good) (s1.rdT o (spCOST d) 0 (4 * rows good))
    let items := (good.zip (List.range good.length)).map (fun (r, j) => (r.1,
      if spNnz d then itemsNnz r.1 (spBUDGET d) (rcCOUNT r.2) 0 ((costs.drop (rows (good.take j))).take (rcCOUNT r.2))
      else itemsDense r.1 (rcCOUNT r.2)))
    let dealt := deal (spNnz d) (items.map Prod.snd).flatten (List.replicate (spNCORE d) 0)
    let lists := (List.range (spNCORE d)).map (fun k =>
      (k, workList (spNnz d) (spSTRIDE d) ((dealt.filter (fun y => y.1 == k)).map Prod.snd)))
    DReads s c l 1 [w.r.b.toNat] ad 64 → DIdle s u 1 → splitBad d = false → ductusRsv w true false false false = false → w.r.fn8 = 0 →
    s1.tblCheck o rs0 = .ok → s1.tblCheck o rs1 = .ok → s1.tblCheck o rs2 = .ok → s1.tblCheck o rs3 = .ok →
    s1.tblCheck o (lists.map (fun x => (spWL d, x.1 * spSTRIDE d, x.2.2.1, true))) = .ok →
    let s2 := items.foldl (fun (t : State) b => t.wrT o b.1 40 4 b.2.length pz) s1
    let s3 := if spConsume d then good.foldl (fun (t : State) r => t.wrT o r.1 28 1 (bits r.2 224 7) pz) s2 else s2
    let s4 := if spConsume d then ibs.foldl (fun (t : State) b => t.wrT o b.1 0 8 0 pz) s3 else s3
    let s5 := lists.foldl (fun (t : State) x =>
      (t.wrT o (spWL d) (x.1 * spSTRIDE d) x.2.2.1 x.2.1 pz).ducCount u 0x0302 x.2.2.2) s4
    exec (.dsplit c w) s = .next (((s5.ducCount u 0x0302 (addrs.length - good.length)).tblEnd o.who).ductusDone o)

/-- R207, R213: the exchange unit, idle, starts an instruction by sending its operations: DALLOC one reservation for each half with
pairs, DSEND the rows and tags of each expert and then its record, for the half it names. -/
def Claims.DuctusExchangeStarts : Prop :=
  ∀ (s : State) (c : CoreId) (l : Loc) (w : FormX),
    let cs := s.core l
    let u := s.phys l.p l.l
    let ad := (cs.getX w.r.b.toNat).toNat % 2 ^ 18 / 16 * 16
    let d := sread cs.spad ad 128
    let e := lyE d
    DReads s c l 2 [w.r.b.toNat] ad 128 → DIdle s u 2 →
    (firstErr (layerErrs d) = none → ductusRsv w true true false true = false → w.r.fn8 = 0 → Writable cs w.r.c.toNat →
      let o := ductusOp cs l 0xB5 w d
      let cs1 := if w.r.c = 0 then cs else { cs with xPend := addOnce cs.xPend w.r.c.toNat }
      let s1 := (s.setCore l (cs1.adv 16)).ductusTaken u 2 o
      s1.tblCheck o (dallocTables o) = .ok →
      let cnt := fun (i h : Nat) => bits (s1.rdT o (lyCNT d) 0 (8 * e)) (32 * (2 * i + h)) 32
      let em := fun (i : Nat) => bits (s1.rdT o (lyEMAP d) 0 (16 * e)) (128 * i) 128
      let lads := ((List.range e).filter (fun i => decide (0 < cnt i 0 + cnt i 1))).map (fun i =>
        ({ e := i, em := em i, c0 := cnt i 0, c1 := cnt i 1 } : Ladder))
      let tails := (lads.map (fun x => (if 0 < x.c0 then [tailReq o x 0] else []) ++ (if 0 < x.c1 then [tailReq o x 1] else []))).flatten
      exec (.dalloc c w) s = .next (State.engPump u 2 s1 { op := o, ladders := lads, todo := tails })) ∧
    (∀ i, firstErr (layerErrs d) = none → ductusRsv w true false false true = false → w.r.fn8.toNat < 2 →
      let h := w.r.fn8.toNat
      genLive (lyGEN d) ((s.ductus u).floorOf l.s) = true → (s.ductus u).find l.s (lyBATCH d) (lyGEN d) h = none →
      (s.ductus u).freeEntry l.s = some i →
      let o := ductusOp cs l 0xB6 w d
      let s0 := (s.setCore l (cs.adv 16)).setDuctus u { s.ductus u with ct := tput (s.ductus u).ct i (openedEntry d h) }
      let s1 := s0.ductusTaken u 2 o
      let m := lyN d * lyK d
      let recs := splitN 128 m (s1.rdT o (lySEL d) 0 (16 * m))
      let cnts := splitN 32 (2 * e) (s1.rdT o (lyCNT d) 0 (8 * e))
      let offs := splitN 32 (2 * e) (s1.rdT o (lyOFFS d) 0 (8 * e))
      let em := fun (x : Nat) => (splitN 128 e (s1.rdT o (lyEMAP d) 0 (16 * e))).getD x 0
      let al := fun (x : Nat) => (splitN 256 e (s1.rdT o (lyALLOC d) 0 (32 * e))).getD x 0
      s1.tblCheck o [(lySEL d, 0, 16 * m, false), (lyCNT d, 0, 8 * e, false), (lyOFFS d, 0, 8 * e, false),
        (lyEMAP d, 0, 16 * e, false), (lyALLOC d, 0, 32 * e, false)] = .ok →
      s1.tblCheck o ((((recs.zip (List.range m)).filter (fun x => bits x.1 96 2 == 0 && lyHalf d (x.2 / lyK d) == h)).map
        (fun x => (linePieces d (x.2 / lyK d) 0).map (fun y => (lyTOK d, y.2.1, y.2.2, false)))).flatten) = .ok →
      let base := bits (lyRET d) 0 48 + (if h = 1 then listSum (halfOf 0 cnts) * lyAB d else 0)
      let todo := ((List.range e).map (fun x => s1.rowReqs o recs (em x) (al x) x h ++ s1.recReqs o (em x) (al x) x h
        (base + offs.getD (2 * x + h) 0 * lyAB d))).flatten
      let s2 := s1.fillEntry u o h base (listSum (halfOf h cnts) * lyAB d)
        (lyAB d * listSum ((List.range e).map (fun x => rERows (al x) h)))
      exec (.dsendDispatch c w) s = .next (State.engPump u 2 s2 { op := o, todo }))

/-- R220: a return, in an idle exchange unit, sends one store for each block of its rows to the node and the region its record names,
each with its row's tag and collector, and poisoned where its row or tag is. -/
def Claims.DuctusReturns : Prop :=
  ∀ (s : State) (c : CoreId) (l : Loc) (w : FormX),
    let cs := s.core l
    let u := s.phys l.p l.l
    let ad := (cs.getX w.r.b.toNat).toNat % 2 ^ 18
    let d := sread cs.spad ad 32
    let o := ductusOp cs l 0xB6 w d
    let s1 := (s.setCore l (cs.adv 16)).ductusTaken u 2 o
    let r := s1.rdT o (itREC d) 0 64
    let tags := bits r 0 48 + rcTAGOFF r
    let src := fun (j : Nat) => (cs.getX w.r.d.toNat).toNat + j * rcAB r
    DReads s c l 2 [w.r.b.toNat, w.r.d.toNat] ad 32 → DIdle s u 2 → ductusRsv w true false true true = false → w.r.fn8 = 2 →
    itSEG d = 0 → 0 < itSEGS d →
    s1.tblCheck o [(itREC d, 0, 64, false), (itREC d, 40, 4, true)] = .ok → itFIRST d + itROWS d ≤ rcCOUNT r →
    s1.tblCheck o [(tags, 8 * itFIRST d, 8 * itROWS d, false)] = .ok →
    exec (.dsendReturn c w) s = .next (State.engPump u 2 s1 { op := o, todo :=
      ((List.range (itROWS d)).map (fun j => storeReqs o (rcRETNODE r) (rcRETADDR r + (itFIRST d + j) * rcAB r) (rcAB r)
        (sread cs.spad (src j) (rcAB r)) 1 (some (s1.rdT o tags (8 * (itFIRST d + j)) 8, rcRETCLU r))
        (fun i m => ((s1.core l).poisonIn ((cs.getX w.r.d.toNat).toNat + j * rcAB r + i) m).isSome
          || s1.tblPoison o.who l.p l.s tags (8 * (itFIRST d + j)) 8))).flatten })

/-- R207, R208: the ladder of DALLOC. An expert's first attempt asks for all its pairs, half 0 first; a refusal of the ladder halves the
rows, with half 1 giving way first, and ends at 0; a reserved record beyond the inbox drops the expert; another code ends the ladder. -/
def Claims.AllocationLadder : Prop :=
  ∀ (x : Ladder) (o : DOp),
    (∀ a, 0 < a → a ≤ x.c0 → x.attempt o a =
      ({ x with a, a0 := a, a1 := 0, buf0 := 0, buf1 := 0, phase := 1 }, [allocReq o x a])) ∧
    (∀ a, x.c0 < a → 0 < x.c0 → x.attempt o a =
      ({ x with a, a0 := x.c0, a1 := a - x.c0, buf0 := 0, buf1 := 0, phase := 1 }, [allocReq o x x.c0])) ∧
    (∀ a, 0 < a → x.c0 = 0 → x.attempt o a =
      ({ x with a, a0 := 0, a1 := a, buf0 := 0, buf1 := 0, phase := 2 }, [allocReq o x a])) ∧
    (x.attempt o 0 = ({ x with a := 0, a0 := 0, a1 := 0, buf0 := 0, buf1 := 0, phase := 4 }, [])) ∧
    (∀ v, x.phase = 1 → bit v 63 = true → bits v 0 16 ∈ [0x0201, 0x0202, 0x0207] → x.reply o 2 v = x.attempt o (x.a / 2)) ∧
    (∀ v, x.phase = 1 → bit v 63 = true → bits v 0 16 ∉ [0x0201, 0x0202, 0x0207] → x.reply o 2 v = x.attempt o 0) ∧
    (∀ v, x.phase = 1 → bit v 63 = false → 0 < x.a1 → x.reply o 2 v =
      ({ x with buf0 := bits v 0 48, phase := 2 }, [allocReq o x x.a1])) ∧
    (∀ v, x.phase = 2 → bit v 63 = true → 0 < x.a0 → (x.reply o 2 v).2 = [freeReq o x x.buf0]) ∧
    (∀ v, x.c0 = 0 → emCAP x.em ≤ v → (x.reply o 1 v).1.full = true ∧ (x.reply o 1 v).2 = [])

/-- R208: a reply to an allocation of DALLOC frees its slot and moves its expert's ladder. -/
def Claims.DuctusReplies : Prop :=
  ∀ (p : Packet) (s : State) (e : Op) (clu unit id tag : Nat) (l : Loc) (pc : Nat) (r : DRun),
    s.reaches p [9] = true → s.unnumbered p = false → tget s.ops p.rslot = some e → e.owner = .ductus clu unit id l pc tag →
    e.use = p.ruse → tget (s.ductus clu).run unit = some r → isDalloc r = true → 2 ≤ tag % 8 →
    exec (.dallocAttemptReply p) s = .next ((({ s.take p with ops := tdel s.ops p.rslot } : State).ductusReply clu unit tag
      (p.data % 2 ^ 64))).sendWaiting

/-- R223-R227: DCOLLECT counts at once for a complete entry and arms an open one; a combine of partial rows adds them in ascending
order; DCANCEL retires a live generation, closes the entries it retires, and keeps the others, of which one may come to owe the
return region of a closed one.
The model's own readings, where the spec is open: log 70. -/
def Obligations.DuctusCollectsAndCancels : Prop :=
  ∀ (s : State) (c : CoreId) (l : Loc) (w : FormX),
    let cs := s.core l
    let n := s.phys l.p l.l
    let k := keyOf (cs.getX w.r.c.toNat).toNat
    (∀ i, Issues s c l 16 → w.r.fn8 = 0 → ductusRsv w false true false false = false → Readable cs [w.r.c.toNat] →
      (s.ductus n).find l.s k.1 k.2.1 k.2.2 = some i →
      let e := (s.ductus n).entry i
      (e.st = 2 → exec (.dcollect c w) s = .next ((s.setCore l (cs.adv 16)).addCounter l w.r.a.toNat 1)) ∧
      (e.st ≠ 2 → exec (.dcollect c w) s = .next ((s.setCore l (cs.adv 16)).setDuctus n { s.ductus n with
        ct := tput (s.ductus n).ct i { e with armed := some (l, w.r.a.toNat) } }))) ∧
    (DReads s c l 3 [w.r.b.toNat, w.r.c.toNat, w.r.d.toNat] 0 0 → DIdle s n 3 → w.r.fn8 = 1 → ductusRsv w true true true false = false →
      shapeBad (cs.getX w.r.c.toNat) = false →
      let o := ductusOp cs l 0xB8 w (cs.getX w.r.b.toNat).toNat
      let m := fld (cs.getX w.r.c.toNat) 32 32
      ∃ t : State, exec (.dcombineSeg c w) s = .next (t.addCounter l w.r.a.toNat 1) ∧
        (t.core l).pc = (cs.pc + 16) % 2 ^ 18 ∧ (t.core l).x = cs.x ∧
        (t.core l).spad = swrite cs.spad ((cs.getX w.r.d.toNat).toNat % 2 ^ 18) (4 * m)
          (packElems 32 (segSum m cs.spad (o.desc % 2 ^ 18) (fld (cs.getX w.r.c.toNat) 0 16)))) ∧
    (DReads s c l 2 [w.r.c.toNat] 0 0 → DIdle s n 2 → w.r.fn8 = 0 → ductusRsv w false true false false = false →
      let o := ductusOp cs l 0xB9 w (cs.getX w.r.b.toNat).toNat
      let s1 := (s.setCore l (cs.adv 16)).ductusTaken n 2 o
      exec (.dcancel c w) s = .next ((s1.cancelOn l.p l.s k.1 k.2.1 n).addCounter l w.r.a.toNat 1)) ∧
    (∀ (s : State) (p ctx b g clu : Nat),
      let f := (s.ductus clu).floorOf ctx
      let t := s.cancelOn p ctx b g clu
      (genLive g f = true → (t.ductus clu).floorOf ctx = g) ∧ (genLive g f = false → (t.ductus clu).floorOf ctx = f) ∧
      ∀ i, 16 * ctx ≤ i → i < 16 * ctx + 16 →
        let e := (s.ductus clu).entry i
        (e.st ≠ 0 → e.batch = b → genLive e.gen (if genLive g f then g else f) = false →
          tget (t.ductus clu).ct i = none) ∧
        ((e.batch ≠ b ∨ genLive e.gen (if genLive g f then g else f) = true) →
          ∃ o : Bool, tget (t.ductus clu).ct i = (tget (s.ductus clu).ct i).map (fun x => { x with owed := o }) ∧ (e.owed = true → o = true)))

/-- R188: an idle unit starts the first instruction in its queue whose context is on its cores. -/
def Claims.DuctusQueueStarts : Prop :=
  ∀ (s : State) (clu : BitVec 6) (unit : BitVec 2) (o : DOp) (held rest : List DOp), On s → (∀ e ∈ s.far, e.st ≠ 5) →
    tget (s.ductus clu.toNat).run unit.toNat = none → tgetD (s.ductus clu.toNat).q unit.toNat [] = held ++ o :: rest →
    (∀ h ∈ held, s.ductusLive h = false) → s.ductusLive o = true →
    let d := s.ductus clu.toNat
    exec (.ductusQueueStart clu unit) s = .next (
      match (s.setDuctus clu.toNat { d with q := tput d.q unit.toNat (held ++ rest) }).startDuctus clu.toNat unit.toNat o with
      | .went t => t
      | .wait t => t.setDuctus clu.toNat { t.ductus clu.toNat with q := tput (t.ductus clu.toNat).q unit.toNat (held ++ o :: rest) })

/-- R224: DCOMBINE over one half writes each token's weighted sum of its kept answers and frees the entry where FREE is 1.
The model's own readings, where the spec is open: log 13, 14. -/
def Obligations.DuctusCombines : Prop :=
  ∀ (s : State) (c : CoreId) (l : Loc) (w : FormX) (i : Nat),
    let cs := s.core l
    let n := s.phys l.p l.l
    let ad := (cs.getX w.r.b.toNat).toNat % 2 ^ 18 / 16 * 16
    let d := sread cs.spad ad 128
    let k := keyOf (cs.getX w.r.c.toNat).toNat
    let o := ductusOp cs l 0xB8 w d
    let s1 := (s.setCore l (cs.adv 16)).ductusTaken n 3 o
    DReads s c l 3 [w.r.b.toNat, w.r.c.toNat] ad 128 → DIdle s n 3 → firstErr (layerErrs d) = none →
    ductusRsv w true true false false = false → w.r.fn8.toNat < 8 → w.r.fn8.toNat % 2 = 0 →
    (s.ductus n).find l.s k.1 k.2.1 k.2.2 = some i → ((s.ductus n).entry i).st = 2 →
    let recs := splitN 128 (lyN d * lyK d) (s1.rdT o (lySEL d) 0 (16 * lyN d * lyK d))
    let cnts := splitN 32 (2 * lyE d) (s1.rdT o (lyCNT d) 0 (8 * lyE d))
    let offs := splitN 32 (2 * lyE d) (s1.rdT o (lyOFFS d) 0 (8 * lyE d))
    let m := lyAB d / (fmtBits (lyAFMT d) / 8)
    let osz := fmtBits (lyOFMT d) / 8
    let toks := (List.range (lyN d)).filter (fun t => lyHalf d t == k.2.2)
    let at_ := fun (r : Nat) => ansOff d k.2.2 cnts offs (bits r 0 32) (bits r 64 32)
    let rs0 := [(lySEL d, 0, 16 * lyN d * lyK d, false), (lyCNT d, 0, 8 * lyE d, false), (lyOFFS d, 0, 8 * lyE d, false)]
    let rs1 := (toks.map (fun t => (keptOf d recs t).map (fun r => (lyRET d, at_ r, lyAB d, false)))).flatten
      ++ toks.map (fun t => (lyOUT d, t * m * osz, m * osz, true))
    s1.tblCheck o rs0 = .ok → s1.tblCheck o (rs0 ++ rs1) = .ok →
    let s2 := toks.foldl (fun (s : State) t =>
      let xs := (keptOf d recs t).map (fun r => (f32 (bits r 32 32),
        nums (lyAFMT d) (splitN (fmtBits (lyAFMT d)) m (s.rdT o (lyRET d) (at_ r) (lyAB d)))))
      s.wrT o (lyOUT d) (t * m * osz) (m * osz)
        (packElems (fmtBits (lyOFMT d)) ((gateRow (bit w.r.fn8.toNat 1) m xs).map (ofNum (lyOFMT d) .rne)))
        (s1.tblsPoison o rs0 || s.tblsPoison o ((keptOf d recs t).map (fun r => (lyRET d, at_ r, lyAB d, false))))) s1
    exec (.dcombineGate c w) s =
      .next ((if bit w.r.fn8.toNat 2 then s2.closeEntry l.p l.s n i else s2).tblEnd o.who |>.ductusDone o)
/-! The Inkwell (07 R234-R252). -/

/-- R234: the class of a size is the smallest whose buffers hold it; R236: a pool hands out the buffer freed last, else the lowest never
handed out, and a buffer freed is handed out next. -/
def Claims.ClassesAndStacks : Prop :=
  (∀ n, n ≤ 2 ^ 30 → classOf n ≤ 22 ∧ n ≤ 256 * 2 ^ classOf n ∧ ∀ c, c < classOf n → 256 * 2 ^ c < n) ∧
  (∀ (p : Pool) (i : Nat), ((p.push i).pop).1 = i ∧ ((p.push i).pop).2.top = p.top ∧ ((p.push i).pop).2.fresh = p.fresh ∧
    tget (p.push i).md i = none) ∧
  (∀ (p : Pool) (i : Nat) (r : List Nat), p.top = i :: r → p.pop = (i, { p with top := r })) ∧
  (∀ p : Pool, p.top = [] → p.pop = (p.fresh, { p with fresh := p.fresh + 1 })) ∧
  (∀ p : Pool, p.fresh ≤ p.total → 0 < p.free → (p.pop.2).free + 1 = p.free)

/-- R242-R245, R251: the central Inkwell serves the ALLOC at its head from its own class's pool: the buffer leaves the pool and belongs
to its requester, the class's bytes are charged, and the offset is the reply; an ALLOC over quota gets INK_QUOTA, one without room
INK_EMPTY, and each refusal is counted. -/
def Claims.InkwellAllocates : Prop :=
  ∀ (s : State) (q : InkReq) (rest : List InkReq), On s → s.upsets = [] → s.inkq = q :: rest → inkOp q.operand ≠ 2 →
    let s0 : State := { s with inkq := rest }
    let v := q.operand
    let c := classOf (inkSize v)
    let k := poolKey q.pkt.dpart c
    let pool := s.pool k
    let r := inkReqId v
    let reply := fun (t : State) (x : Nat) => exec .inkAlloc s = .next ((t.notify q.pkt).answer q.pkt 0x9 0 1 x)
    (∀ code, s0.allocBad q.pkt v = some code → reply (s0.count (code % 2 ^ 16)) (2 ^ 63 + code)) ∧
    (s0.allocBad q.pkt v = none → inkNofb v = true → q.step = 0 → pool.st = .active → pool.reclaim = false → pool.free ≠ 0 →
      (s.reqr r).inuse + classSize c ≤ (s.reqr r).quota → pool.base * 2 ^ 21 + (pool.pop).1 * classSize c < 2 ^ 48 →
      reply ((s0.setPool k { (pool.pop).2 with md := tput (pool.pop).2.md (pool.pop).1 (256 + r) }).use_ r (classSize c) 0)
        (pool.base * 2 ^ 21 + (pool.pop).1 * classSize c + c * 2 ^ 48)) ∧
    (s0.allocBad q.pkt v = none → inkNofb v = true → q.step = 0 → pool.st = .active → pool.reclaim = false → pool.free ≠ 0 →
      s.creditOf r = 0 → s.fe = [] → (s.reqr r).quota < (s.reqr r).inuse + classSize c →
      ∃ t : State, reply (t.count 0x0202) (2 ^ 63 + 0x0202) ∧ t.pools = s.pools) ∧
    (s0.allocBad q.pkt v = none → inkNofb v = true → q.step = 0 → pool.st = .disabled → pool.reclaim = false →
      reply (s0.count 0x0201) (2 ^ 63 + 0x0201)) ∧
    (s0.allocBad q.pkt v = none → inkNofb v = true → q.step = 0 → pool.reclaim = true →
      exec .inkAlloc s = .next { s0 with inkWait := s.inkWait ++ [q] })

/-- R220, R224, R249: a FREE of an allocated buffer pushes it back and uncharges its owner; the other offsets get the code that names
what is wrong, and change no pool. An engine's own FREE does the same and has no reply. -/
def Claims.InkwellFrees : Prop :=
  ∀ (s : State) (q : InkReq) (rest : List InkReq), On s → s.upsets = [] → s.inkq = q :: rest → inkOp q.operand = 2 →
    inkBad q.operand = false →
    let s0 : State := { s with inkq := rest }
    let p := q.part
    let off := match q.own with
      | some x => x.2.2
      | none => inkOff q.operand
    let node := match q.own with
      | some x => x.2.1
      | none => s0.nodeOf p q.pkt
    let ends := fun (t : State) (v : Nat) => exec .inkFree s = .next (match q.own with
      | some _ => t
      | none => (t.notify q.pkt).answer q.pkt 0x9 0 1 v)
    (∀ c, s.poolOf p off = some c →
      let pool := s.pool (poolKey p c)
      let i := (off - pool.base * 2 ^ 21) / classSize c
      let m := tgetD pool.md i 0
      (pool.st = .active → pool.reclaim = false → off % classSize c = 0 → mdAllocated m = true → mdCached m = false →
        ends ((s0.setPool (poolKey p c) { pool with top := i :: pool.top, md := tdel pool.md i }).use_ (mdOwner m) 0 (classSize c)) 0) ∧
      (pool.reclaim = true → exec .inkFree s = .next { s0 with freeWait := s.freeWait ++ [match q.own with
        | some x => { pkt := ⟨0, 0, 0, 0, 0, 0, 0⟩, step := 0, own := some x }
        | none => q] }) ∧
      (∀ code, pool.reclaim = false →
        (code = 0x0209 ∧ pool.st = .failed ∨ code = 0x0204 ∧ pool.st ≠ .failed ∧ off % classSize c ≠ 0 ∨
          code = 0x0205 ∧ pool.st ≠ .failed ∧ off % classSize c = 0 ∧ mdCached m = false ∧ mdAllocated m = false) →
        ends (s0.freeRefused p node off code c) (2 ^ 63 + code))) ∧
    (s.poolOf p off = none → ends (s0.freeRefused p node off 0x0203 0) (2 ^ 63 + 0x0203))

/-- R247: a front end serves an ALLOC from its cache and the credit it holds for the requester, and passes on what it cannot serve,
obtaining a grant where the credit falls short; its cache is filled to its depth, and what is above it goes back; a grant becomes
an allocation at the central Inkwell; credit goes back.
The model's own readings, where the spec is open: log 69, 108, 110. -/
def Obligations.FrontEnds : Prop :=
  ∀ (s : State) (clu : BitVec 6), On s →
    let n := clu.toNat
    let f := s.front n
    (∀ (q : InkReq) (rest : List InkReq), f.q = q :: rest →
      let p := q.pkt.dpart
      let c := classOf (inkSize q.operand)
      let r := inkReqId q.operand
      let have_ := tgetD f.credit r 0
      let got := min (2 ^ 20) ((s.reqr r).quota - (s.reqr r).inuse)
      let passed := fun (g : FrontEnd) => ({ s.setFront n g with inkq := s.inkq ++ [q] } : State)
      (tgetD f.cache c [] = [] → classSize c ≤ have_ → exec (.feAlloc clu) s = .next (passed { f with q := rest })) ∧
      (have_ < classSize c → s.feMine n q = true → 0 < got → exec (.feAlloc clu) s = .next
        ((passed { f with q := rest, credit := tput f.credit r (have_ + got) }).use_ r got 0)) ∧
      (have_ < classSize c → s.feMine n q = false ∨ got = 0 → exec (.feAlloc clu) s = .next (passed { f with q := rest })) ∧
      (∀ (i : Nat) (more : List Nat), tgetD f.cache c [] = i :: more → s.feMine n q = true →
        (s.pool (poolKey p c)).st = .active → (s.pool (poolKey p c)).reclaim = false → classSize c ≤ have_ →
        (s.reqr r).inuse ≤ (s.reqr r).quota → (s.pool (poolKey p c)).base * 2 ^ 21 + i * classSize c < 2 ^ 48 →
        let f1 := { f with
          q := rest, cache := tput f.cache c more, credit := tput f.credit r (have_ - classSize c)
          grants := f.grants ++ [{ p, cls := c, idx := i, req := r }] }
        exec (.feAlloc clu) s = .next (((s.setFront n f1).notify q.pkt).answer q.pkt 0x9 0 1
          ((s.pool (poolKey p c)).base * 2 ^ 21 + i * classSize c + c * 2 ^ 48)))) ∧
    (∀ (cls : BitVec 5) (p : Nat), s.fePart n = some p → cls.toNat ≤ 22 →
      let pool := s.pool (poolKey p cls.toNat)
      let d := s.feDepth cls.toNat
      let keep := (tgetD f.cache cls.toNat []).take d
      let back := ((tgetD f.cache cls.toNat []).drop d).foldr (fun i (q : Pool) => q.push i) pool
      let r := if 2 * keep.length < d then fillCache (d - keep.length) back keep else (back, keep)
      pool.st = .active → pool.reclaim = false →
      exec (.feRefill clu cls) s = .next ((s.setPool (poolKey p cls.toNat) r.1).setFront n { f with
        cache := tput f.cache cls.toNat r.2 })) ∧
    (∀ req : BitVec 8, tgetD f.credit req.toNat 0 ≠ 0 →
      exec (.feCreditReturn clu req) s = .next ((s.setFront n { f with credit := tdel f.credit req.toNat }).use_ req.toNat 0
        (tgetD f.credit req.toNat 0))) ∧
    (∀ (g : Grant) (rest : List Grant), f.grants = g :: rest →
      let pool := s.pool (poolKey g.p g.cls)
      exec (.frontEndGrant clu) s = .next (((s.setFront n { f with grants := rest }).setPool (poolKey g.p g.cls) { pool with
        md := tput pool.md g.idx (256 + g.req) }).wakeInk))

/-- R235, R237, R238, R266: the pool commands. ENABLE of a legal configuration starts to build the pool and holds its metadata, an illegal
one sets its error; it becomes ACTIVE when done; DRAIN of a pool with buffers allocated, DISABLE, RECLAIM and its
completion. Metadata read with an error that cannot be corrected send an ACTIVE pool to FAILED. -/
def Claims.PoolLifecycle : Prop :=
  ∀ (s : State) (p : BitVec 4) (cls : BitVec 5), On s → cls.toNat ≤ 22 →
    let k := poolKey p.toNat cls.toNat
    let q := s.pool k
    let n := q.ngran * 2 ^ 21 / classSize cls.toNat
    (∀ u ∈ s.upsets, u.at_ = .metadata k → u.hard = true → q.st = .active → ((s.eccMeta p.toNat cls.toNat).pool k).st = .failed) ∧
    (s.upsets = [] → (q.st = .disabled → s.poolOk p.toNat cls.toNat = true → exec (.poolEnable p cls) s = .next { s.setPool k
      { st := .enabling, base := q.base, ngran := q.ngran, total := n } with metaUsed := s.metaUsed + metaUnits n }) ∧
    (q.st = .disabled → s.poolOk p.toNat cls.toNat = false →
      exec (.poolEnable p cls) s = .next ((s.setPool k { q with err := true }).count 0x0211)) ∧
    (q.st = .enabling → exec (.poolEnableDone p cls) s = .next (s.setPool k { q with st := .active })) ∧
    (q.st = .active → (s.recallCaches p.toNat cls.toNat).pool k = q → q.allocated = true →
      exec (.poolDrain p cls) s = .next ((s.recallCaches p.toNat cls.toNat).setPool k { q with st := .draining })) ∧
    (q.st = .active ∨ q.st = .draining ∨ q.st = .failed →
      ∃ t : State, exec (.poolDisable p cls) s = .next t ∧
        t.pool k = { base := q.base, ngran := q.ngran, err := q.err } ∧ t.metaUsed = s.metaUsed - metaUnits q.total) ∧
    (q.st = .active →
      ∃ t : State, exec (.poolReclaim p cls) s = .next t ∧ (t.pool k).top = [] ∧ (t.pool k).fresh = 0 ∧ (t.pool k).md = [] ∧
        (t.pool k).reclaim = true ∧ (t.pool k).st = .active) ∧
    (q.st = .active → q.reclaim = true → exec (.poolReclaimDone p cls) s = .next (s.setPool k { q with reclaim := false }).wakeInk))

/-! Memory on the device, the Tier Mover and the homes (07 R253-R267). -/

/-- R6, R78: what is written is read back, modulo its width; every other byte reads as before; and the form of the store is kept. -/
def Obligations.MemoryReadsBack : Prop :=
  ∀ (m : Mem) (a n v : Nat),
    mread (mwrite m a n v) a n = v % 2 ^ (8 * n) ∧ (∀ j, j < a ∨ a + n ≤ j → mget (mwrite m a n v) j = mget m j) ∧
    (∀ b k, b + k ≤ a ∨ a + n ≤ b → mread (mwrite m a n v) b k = mread m b k) ∧
    (Memory.wf m = true → Memory.wf (mwrite m a n v) = true ∧ Memory.wf (mclear m a n) = true)

/-- R258-R261: a Tier Mover takes the store at its port, runs its operations one at a time, and reports: a move of rows whose tables are
reached copies each row its index names, through its glyph where GLY is 1, writing zeros for an index at or beyond SROWS; a bad descriptor reports TMV_DESC with nothing
moved; a glyph image that passes is kept in the partition's slot; the status then goes to the NOTE node.
The model's own readings, where the spec is open: log 13, 14, 76. -/
def Obligations.TierMoverRuns : Prop :=
  ∀ (s : State) (quad : BitVec 4), On s →
    let q := quad.toNat
    let w := Who.mover q
    let m := s.mover q
    (∀ (o : TmOp) (rest : List TmOp), m.q = o :: rest → m.run = none → m.wait = [] →
      let d := o.desc
      let ended := fun (t : State) (st dr : Nat) => Host.Outcome.next (φ := Fault) (ρ := Refusal) (t.setMover q { t.mover q with
        q := rest, run := some { op := o, status := st, drops := dr, out := 0, done := true } })
      (tmOP d = 0 → tmBad d = true → exec (.tmvMove quad) s = ended s 0x0710 0) ∧
      (tmOP d = 0 → tmBad d = false → s.moveGlyphBad q o = true →
        exec (.tmvMove quad) s = ended s 0x0713 0) ∧
      (tmOP d = 0 → tmBad d = false → s.moveGlyphBad q o = false → s.moveHeld q o = [] →
        let r := (List.range ((tmNROWS d + 7) / 8 * 8)).foldl (fun (x : State × Moving) j => x.1.moveRow q o x.2 j) (s, ⟨0, 0, 0⟩)
        r.1.mover q = m → exec (.tmvMove quad) s = ended ((if tmGLY d then r.1.spend9 q o (r.2.drawn * tmK d) else r.1).tblEnd
          (.mover q)) r.2.status r.2.drops) ∧
      (tmOP d = 1 → tmBad d = true → exec (.tmvGlyphLoad quad) s = ended s 0x0710 0) ∧
      (tmOP d = 1 → s.upsets = [] → tmBad d = false → s.tblBad o.p (tmSRC d) 0 528 false = none → s.tblLost w o.p (tmSRC d) 0 528 = none →
        s.tblHeld w o.p (tmSRC d) 0 528 false = [] → s.tblPoison w o.p o.s (tmSRC d) 0 528 = false →
        let img := s.tblRead w o.p o.s (tmSRC d) 0 528
        (firstErr (glyErrs img false) = none → exec (.tmvGlyphLoad quad) s = ended ((s.tblEnd w).setMover q { m with
          glyph := tput m.glyph (4 * o.p + tmGSLOT d) img }) 0 0) ∧
        (firstErr (glyErrs img false) ≠ none → exec (.tmvGlyphLoad quad) s = ended (s.tblEnd w) 0x0713 0))) ∧
    (∀ r : TmRun, m.run = some r → r.done = true → r.out = 0 → s.slotsFull = false → s.farBusy w = false →
      let n := bits (tmNOTE r.op.desc) 0 16
      lnLive (s.lnt r.op.p n) = true →
      exec (.tmvComplete quad) s = .next ((s.setMover q { m with run := some { r with out := 1 } }).sendOn r.op.p (.tmv q false) .none n
        { ptype := 2, cls := 2, size := 0, off := tmSTATUS r.op.desc, space := 0
          data := r.status + r.drops % 2 ^ 32 * 2 ^ 32, words := 1 }))

/-- R259: one row of a move, at status 0; without a glyph the row is copied as it is. -/
def Claims.MoveRow : Prop :=
  ∀ (s : State) (q : Nat) (o : TmOp) (m : Moving) (j : Nat),
    let d := o.desc
    let zero := s.putRow q o j 0 0 false
    s.upsets = [] → (m.status ≠ 0 → s.moveRow q o m j = (s, m)) ∧
    (m.status = 0 → tmNROWS d ≤ j → ∀ t, zero.1 = some t → s.moveRow q o m j = (t, m)) ∧
    (m.status = 0 → j < tmNROWS d → tmNoIdx d = false → s.tblBad o.p (tmIDX d) (4 * j) 4 false = none →
      s.tblLost (.mover q) o.p (tmIDX d) (4 * j) 4 = none →
      tmSROWS d ≤ s.tblRead (.mover q) o.p o.s (tmIDX d) (4 * j) 4 → ∀ t, ((s.count 0x0702).putRow q o j 0 0 false).1 = some t →
      s.moveRow q o m j = (t, { m with drops := m.drops + 1 })) ∧
    (m.status = 0 → j < tmNROWS d → tmNoIdx d = true → j < tmSROWS d → tmGLY d = false →
      let n := rowBytes (tmSFMT d) (tmK d)
      let v := s.tblRead (.mover q) o.p o.s (tmSRC d) (j * n) n
      let w := tmK d * fmtBits (tmSFMT d)
      s.tblBad o.p (tmSRC d) (j * n) n false = none → s.tblLost (.mover q) o.p (tmSRC d) (j * n) n = none →
      s.tblPoison (.mover q) o.p o.s (tmSRC d) (j * n) n = false →
      ∀ t, (s.putRow q o j (v % 2 ^ w) (v / 2 ^ w) false).1 = some t → s.moveRow q o m j = (t, m))

/-- R36, R254-R256, R267: the next block of a migrating granule, once no access to it is under way outside the device, is copied and the
next one follows, or its pieces are asked for or sent outside; a STREAM read stages its block, is served, and stages the next three; a
promotion starts one migration to the better tier; a refresh changes nothing, and a caught-up refresh marks the Ruled partition it slows. -/
def Claims.PlacesAndRefresh : Prop :=
  ∀ (s : State), On s →
    (∀ (p : BitVec 4) (gran : BitVec 27) (m : Mig), (s.part p.toNat).migs.find? (fun x => x.gran == gran.toNat) = some m →
      s.moving p.toNat m.gran = false →
      let b := 65536 * m.next
      let src := fun (i : Nat) => m.src.home (b + 256 * i)
      let dst := fun (i : Nat) => m.dst.home (b + 256 * i)
      s.homeBusy p.toNat (src 0) 65536 = false → s.homeBusy p.toNat (dst 0) 65536 = false →
      (m.src.onChip = true → m.dst.onChip = true →
        exec (.migrateBlock p gran) s = .next ((s.copyBlock p.toNat m.src m.dst m.next).moveNext p.toNat m)) ∧
      (m.src.onChip = true → m.dst.onChip = false → s.link = .up → s.upsets = [] →
        exec (.migrateBlock p gran) s = .next (((List.range 256).foldl (fun (t : State) i =>
          t.moveOut p.toNat m.gran i (dst i) (t.hread (src i) 256) (t.hpoison (src i) 256)) s).moveCheck p.toNat m)) ∧
      (m.src.onChip = false → s.link = .up → exec (.migrateBlock p gran) s = .next ((List.range 256).foldl (fun (t : State) i =>
        t.askHome p.toNat (src i) (.move p.toNat m.gran i) (.move p.toNat m.gran i)) s))) ∧
    (∀ (p : BitVec 4) (addr : BitVec 48) (o : Obj), s.objAt p.toNat (addr.toNat / 2 ^ 21) = some o → dPolicy o.desc = 2 →
      let b := (addr.toNat - dGran o.desc * 2 ^ 21) / 65536
      o.staged.contains b = false → exec (.streamStage p addr) s =
        .next ([b + 1, b + 2, b + 3].foldl (fun t i => t.stageBlock p.toNat o.id i)
          ((s.stageBlock p.toNat o.id b).serveStaged p.toNat o.id b))) ∧
    (∀ (p : BitVec 4) (o : Obj) (g : Nat) (src dst : Place), (s.part p.toNat).objs = [o] → (s.part p.toNat).ruled = false →
      (s.part p.toNat).st = .active → (s.part p.toNat).migs = [] → dPolicy o.desc = 1 → o.place = [(g, src)] → g < 2 ^ 28 →
      dTiers o.desc = [dst.tier, src.tier] → dst.tier ≠ src.tier → s.room p.toNat o.desc g dst.tier (s.usedPlaces p.toNat) = some dst →
      exec (.promotion p) s = .next (s.setPart p.toNat { s.part p.toNat with
        migs := [{ gran := dGran o.desc + g, src, dst, next := 0 }] })) ∧
    (∀ ch : BitVec 8, exec (.dramRefresh ch) s = .next s) ∧ (∀ quad : BitVec 4, exec (.ruledRefresh quad) s = .next s) ∧
    (∀ (ch : BitVec 8) (p : Nat), ch.toNat < 192 → s.holder (ch.toNat / 3) = some p →
      ((s.part p).ruled = true → exec (.refreshCatchup ch) s = .next (s.throttled 4 ch.toNat [p])) ∧
      ((s.part p).ruled = false → exec (.refreshCatchup ch) s = .next s))
/-! Requests and responses on the fabric (02 R37-R58, 08 R281-R324). -/

/-- A request that this device performs now: addressed to it, well formed, in its turn, allowed by every check of R309 or admitted by
them when it came (R311), waiting for nothing. -/
abbrev Admitted (s : State) (k : Packet) (types : List Nat) : Prop :=
  s.reaches k types = true ∧ s.unnumbered k = false ∧ s.admitted k k.dpart k.dctx = true ∧ s.homeWait k k.dpart = none

/-- R43, R44, R52, R285, R312, R398: in memory on the device a load answers the bytes that stand there, a store writes its bytes, a posted
atomic writes what its operands leave in their order, and a fetch-add and a compare-and-swap write the new value and answer the old one;
a notify counter rises first. Poison is answered to a load, marked by a store that carries it, and refuses an atomic. Where the
home is the host, the request goes there. -/
def Claims.RequestsInMemory : Prop :=
  ∀ (s : State) (k : Packet), k.space = 0 → k.isPort = false → k.ext = false →
    let s0 := (s.take k).uncarry k
    let xs := if k.comb = true ∧ 2 ≤ k.atype then splitN 64 (k.size / 8) k.data else [k.data % 2 ^ 64]
    let ab := atomBytes k.atype
    (∀ (b : Bool) (a : Nat), s.homeOf k.dpart k.offset = some (.mem b a) → s.upsets = [] →
      let h := Home.mem b a
      let wrote := fun (n v : Nat) => ((s0.hwrite h n v).noteWrite k.dpart k.offset).notify k
      let marked := fun (t : State) => if s.carries k then t.hmark h k.size else t
      (Admitted s k [1] → exec (.rldRequest k) s = .next ((s0.notify k).answer k 0x9 (if s.hpoison h k.size then cPOISON else 0)
        (k.size / 8) (s.hread h k.size))) ∧
      (Admitted s k [2] → exec (.rstRequest k) s = .next (((marked ((s0.hwrite h k.size k.data).noteWrite k.dpart k.offset)).notify
        k).answer k 0x8 0 0 0)) ∧
      (Admitted s k [3] → exec (.postedAtomicRequest k) s = .next (if s.hpoison h ab then s0.answer k 0xA cPOISON 0 0
        else (wrote ab (xs.foldl (fun v x => atomFn k.aop k.atype v x) (s.hread h ab))).answer k 0x8 0 0 0)) ∧
      (Admitted s k [4] → exec (.fetchAddRequest k) s = .next (if s.hpoison h ab then s0.answer k 0xA cPOISON 0 0
        else (wrote ab (xs.foldl (fun v x => atomFn 0 k.atype v x) (s.hread h ab))).answer k 0x9 0 1 (s.hread h ab))) ∧
      (Admitted s k [5] → exec (.casRequest k) s = .next (if s.hpoison h k.size then s0.answer k 0xA cPOISON 0 0
        else (wrote k.size (if s.hread h k.size = k.data % 2 ^ (8 * k.size) then k.data / 2 ^ (8 * k.size) % 2 ^ (8 * k.size)
          else s.hread h k.size)).answer k 0x9 0 (k.size / 8) (s.hread h k.size)))) ∧
    (∀ a : Nat, s.homeOf k.dpart k.offset = some (.host a) → s.carries k = false →
      let s1 := s.take k
      let sent := fun (kind n : Nat) => Host.Outcome.next (φ := Fault) (ρ := Refusal)
        ((if kind = 0 then s1 else s1.noteWrite k.dpart k.offset).hostAsk kind a n k.data (.tier3 k))
      (Admitted s k [1] → exec (.rldRequest k) s = sent 0 k.size) ∧ (Admitted s k [2] → exec (.rstRequest k) s = sent 1 k.size) ∧
      (Admitted s k [3] → exec (.postedAtomicRequest k) s = sent 2 ab) ∧ (Admitted s k [4] → exec (.fetchAddRequest k) s = sent 2 ab) ∧
      (Admitted s k [5] → exec (.casRequest k) s = sent 2 k.size))

/-- R43: the integer atomics, in their width. -/
def Claims.AtomicResults : Prop :=
  ∀ old x : Nat, old < 2 ^ 64 →
    atomFn 0 1 old x = (old + x) % 2 ^ 64 ∧ atomFn 0 0 old x = (old + x) % 2 ^ 32 ∧
    sgn (atomFn 1 1 old x) 64 = min (sgn old 64) (sgn (x % 2 ^ 64) 64) ∧ sgn (atomFn 2 1 old x) 64 = max (sgn old 64) (sgn (x % 2 ^ 64) 64)

/-- R37, R43, R51, R56: a load of a scratchpad of the context answers its bytes, a store changes exactly its bytes there, an atomic
writes the new value; an add to a counter adds to it and a fetch-add answers the old count. -/
def Claims.RequestsOnChip : Prop :=
  ∀ (s : State) (k : Packet), k.isPort = false → k.ext = false →
    let s0 := (s.take k).uncarry k
    let l := offLoc k.dpart k.dctx k.offset
    let a := k.offset % 2 ^ 18
    let old := mread (s.core l).spad a
    let ab := atomBytes k.atype
    let clean := fun (n : Nat) => (s.core l).poisonIn a n = none
    (k.space = 1 → Admitted s k [1] → exec (.rldRequest k) s = .next ((s0.notify k).answer k 0x9
      (if ((s.core l).poisonIn a k.size).isSome then cPOISON else 0) (k.size / 8) (old k.size))) ∧
    (k.space = 1 → Admitted s k [2] → s.carries k = false → a + k.size ≤ 2 ^ 18 →
      ∃ t : State, exec (.rstRequest k) s = .next (t.answer k 0x8 0 0 0) ∧ t.dram = s.dram ∧ t.cstore = s.cstore ∧
        (t.core l).spad = mwrite (s.core l).spad a k.size k.data ∧ (t.core l).x = (s.core l).x) ∧
    (k.space = 1 → Admitted s k [3] → k.comb = false → clean ab → exec (.postedAtomicRequest k) s = .next (((s0.spadWrite l a ab
      (atomFn k.aop k.atype (old ab) (k.data % 2 ^ 64))).notify k).answer k 0x8 0 0 0)) ∧
    (k.space = 1 → Admitted s k [4] → k.comb = false → clean ab → exec (.fetchAddRequest k) s = .next (((s0.spadWrite l a ab
      (atomFn 0 k.atype (old ab) (k.data % 2 ^ 64))).notify k).answer k 0x9 0 1 (old ab))) ∧
    (k.space = 1 → Admitted s k [5] → clean k.size → exec (.casRequest k) s = .next (((s0.spadWrite l a k.size
      (if old k.size = k.data % 2 ^ (8 * k.size) then k.data / 2 ^ (8 * k.size) % 2 ^ (8 * k.size) else old k.size)).notify k).answer k
        0x9 0 (k.size / 8) (old k.size))) ∧
    (k.space = 2 → Admitted s k [3] → exec (.postedAtomicRequest k) s = .next
      (((s0.addCounter l (k.offset % 64) (BitVec.ofNat 32 k.data)).notify k).answer k 0x8 0 0 0)) ∧
    (k.space = 2 → Admitted s k [4] → exec (.fetchAddRequest k) s = .next
      (((s0.addCounter l (k.offset % 64) (BitVec.ofNat 32 k.data)).notify k).answer k 0x9 0 1 ((s.core l).getCnt (k.offset % 64)).toNat))

/-- R57, R309, R323: a request that a check refuses writes nothing: FAB_PERM is counted and answered. -/
def Claims.RequestsRefused : Prop :=
  ∀ (s : State) (k : Packet), s.reaches k [k.ptype] = true → s.unnumbered k = false → s.admitted k k.dpart k.dctx = false →
    k.isPort = false → k.ext = false →
    let t := (((s.take k).uncarry k).count 0x0417).answer k 0xA 0x0403 0 0
    (k.ptype = 1 → exec (.rldRequest k) s = .next t) ∧ (k.ptype = 2 → exec (.rstRequest k) s = .next t) ∧
    (k.ptype = 3 → exec (.postedAtomicRequest k) s = .next t) ∧ (k.ptype = 4 → exec (.fetchAddRequest k) s = .next t) ∧
    (k.ptype = 5 → exec (.casRequest k) s = .next t) ∧ t.dram = s.dram ∧ t.cstore = s.cstore ∧ t.cores = s.cores

/-- R222, R241, R258, R311: the ports. A descriptor store joins its Tier Mover's queue; a permission update sets the permission of the
writer group and granule it names; an ALLOC reaches the front end that it names and a FREE
the central Inkwell; an answer store that matches its entry writes and counts its bytes, another is discarded and counted. -/
def Claims.Ports : Prop :=
  ∀ (s : State) (k : Packet),
    let s1 := s.take k
    (∀ q, s.reaches k [2] = true → s.unnumbered k = false → k.space = 0 → portQuad k.offset = some q →
      s.portOk k (k.size == 64 && decide (q < (s.part k.dpart).quads.length) && k.wgrp == s.wg k.dpart) = true →
      let n := (s.part k.dpart).quads.getD q 0
      let m := s.mover n
      s.isCopy k = false → m.wait = [] → m.q.length < 64 → exec (.tmvPortStore k) s = .next (((s1.setMover n { m with
        q := m.q ++ [{ p := k.dpart, s := k.dctx, desc := k.data % 2 ^ 512 }] }).notify k).answer k 0x8 0 0 0)) ∧
    (s.reaches k [2] = true → s.unnumbered k = false → k.ext = false → k.isPort = true → k.offset = permPort →
      s.isCopy k = false → s.portOk k (s.permOk k) = true →
      exec (.rstRequest k) s = .next (((s1.setPart k.dpart { s.part k.dpart with
        perm := tput (s.part k.dpart).perm (16 * bits k.data 0 27 + bits k.data 27 4) (bits k.data 31 2) }).notify k).answer k 0x8 0 0 0)) ∧
    (s.reaches k [4] = true → s.unnumbered k = false → k.isPort = true →
      s.portOk k (k.offset == inkPort && k.atype == 1) = true →
      let v := k.data % 2 ^ 64
      let n := s.phys k.dpart (inkClu v)
      (inkOp v = 2 → exec (.fetchAddRequest k) s = .next { s1 with inkq := s.inkq ++ [{ pkt := k, step := 0 }] }) ∧
      (inkOp v = 1 → inkBad v = false → k.snode = s.pnode → inkClu v < s.nclu k.dpart → (s.part k.dpart).ruled = false →
        exec (.fetchAddRequest k) s = .next (s1.setFront n { s.front n with q := (s.front n).q ++ [{ pkt := k, step := 0 }] }))) ∧
    (k.ext = true → Admitted s k [2] → fld k.x1 0 6 < s.nclu k.dpart →
      let clu := s.phys k.dpart (fld k.x1 0 6)
      let e := (s.ductus clu).entry (s1.returnFate clu k.dctx k).2
      ((s1.returnFate clu k.dctx k).1 = 2 → exec (.returnStoreArrival k) s = .next
        (((s1.setDuctus clu { s.ductus clu with ct := tput (s.ductus clu).ct (s1.returnFate clu k.dctx k).2 { e with
          got := e.got + k.size } }).perform k k.dpart k.dctx).ctCheck clu (s1.returnFate clu k.dctx k).2)) ∧
      ((s1.returnFate clu k.dctx k).1 ≠ 2 → exec (.returnStoreArrival k) s = .next ((((s1.uncarry k).ducCount clu
        (0x0301 + (s1.returnFate clu k.dctx k).1) 1).notify k).answer k 0x8 0 0 0)))

/-- R57, R87, R317: a response completes the operation whose slot and use count it names, frees the slot for one that waits, and gives a load's data to
its register; a refusal raises its code at the core with the operation's node, space and offset; one that names no operation is
counted as stale and changes nothing else. -/
def Claims.Responses : Prop :=
  ∀ (s : State) (k : Packet) (o : Op) (l : Loc) (pc : Nat), s.unnumbered k = false → s.answered k = some o → o.owner = .core l pc →
    let s1 : State := { s.take k with ops := tdel s.ops k.rslot }
    (s.reaches k [8] = true → o.dest = .none → exec (.ackResponse k) s = .next (s1.fenceCheck l).sendWaiting) ∧
    (∀ x, s.reaches k [9] = true → o.dest = .reg l x → k.status = 0 →
      let c := s.core l
      exec (.dataResponse k) s = .next (((s1.setCore l (({ c with xPend := c.xPend.filter (· != x) } : CoreSt).setX x
        (w64 k.data))).undeliver (.reg l x)).fenceCheck l).sendWaiting) ∧
    (s.reaches k [0xA] = true → o.dest = .none → exec (.nakResponse k) s = .next
      (((s1.countFail k.status).fenceCheck l).asyncFail l k.status (o.lnode + o.space * 2 ^ 16) o.off pc).sendWaiting) ∧
    (∀ (k2 : Packet) (types : List Nat), s.answered k2 = none → s.unnumbered k2 = false → s.reaches k2 types = true →
      let t := (s.take k2).count 0x041A
      (types = [8] → exec (.ackResponse k2) s = .next t) ∧ (types = [0xA] → exec (.nakResponse k2) s = .next t))

/-- R297-R299: a multicast store at a valid tree entry goes to each port of its mask and makes an aggregation entry; an entry without
members answers at once; the local copy goes to the member context; an answer that leaves others due is merged, and the last one sends the MACK on. -/
def Claims.Multicast : Prop :=
  ∀ (s : State) (k : Packet),
    let e := s.treeOf k.epoch k.tree
    (s.mayTake k = true → k.ptype = 6 → k.bad = false → s.unnumbered k = false → (s.version k.epoch).st ≠ 0 → trVALID e = true →
      let ports := (List.range 16).filter (fun i => bit (trMASK e) i)
      let n := ports.length + b2n (trLOCAL e)
      (k.snode = s.pnode → trROOT e = true ∧ (ports = [] ∨ s.ruledOp k = false ∧ s.nodeValid = true)) → k.hops + 1 < 64 →
      s.aggs.length < 4096 → s.slotsFull = false →
      let t1 := ports.foldl (fun t i => t.enqueuePort i k.hop (s.inputOf k) none) (s.take k)
      let t : State := { t1 with aggs := t1.aggs ++ [{ ver := k.epoch, tree := k.tree, left := n, status := 0, pkt := k }] }
      (n ≠ 0 → exec (.multicastStore k) s = .next (if trLOCAL e then t.localCopy k e else t)) ∧
      (n = 0 → exec (.multicastStore k) s = .next ((s.take k).sendMack k e 0))) ∧
    (∀ a : Agg, k.ptype = 0xB → s.mayTake k = true → k.bad = false → k.snode ≠ s.pnode → s.unnumbered k = false → s.aggs = [a] →
      a.pkt.snode = k.dnode → a.pkt.slot = k.rslot → a.pkt.use = k.ruse →
      (2 ≤ a.left → exec (.mackResponse k) s = .next { s.take k with
        aggs := [{ a with left := a.left - 1, status := mergeStatus a.status k.status }] }) ∧
      (a.left = 1 → exec (.mackResponse k) s = .next (({ s.take k with aggs := [] } : State).sendMack a.pkt
        (s.treeOf a.ver a.tree) (mergeStatus a.status k.status))))

/-- R293-R296, R300, R305, R312: a packet for another node leaves by its routing entry's UP port with its hop count raised, or joins an
ADD that waits there, or is discarded and counted; a C1 request of another node leaves by its circuit entry. -/
def Claims.Routing : Prop :=
  ∀ (s : State) (k : Packet), On s → s.mayTake k = true → k.bad = false → k.ptype ≠ 6 → k.ptype ≠ 0xB → k.onTree = false →
    s.nodeValid = true → k.dnode ≠ s.pnode → s.mgmtOut = [] → s.upsets = [] →
    (k.cls ≠ 1 ∨ k.isReq = false → s.ofRuled k = false →
      let t := s.take k
      ((s.version k.epoch).st = 0 → exec (.packetForward k) s = .next (t.count 0x0412)) ∧
      ((s.version k.epoch).st ≠ 0 → 63 ≤ k.hops → exec (.packetForward k) s = .next (t.count 0x0414)) ∧
      ((s.version k.epoch).st ≠ 0 → k.hops < 63 → s.outPort k = none → exec (.packetForward k) s = .next (t.count 0x0413)) ∧
      (∀ n, (s.version k.epoch).st ≠ 0 → k.hops < 63 → s.outPort k = some n →
        exec (.packetForward k) s = .next (match (if k.combines then t.findJoin k.hop (t.outQueue n) else none) with
          | some q => t.joinAt n q k.hop
          | none => t.enqueuePort n k.hop (s.inputOf k) none))) ∧
    (k.isReq = true → k.cls = 1 → k.snode ≠ s.pnode → k.hops < 63 →
      let e := s.circOf k.circ
      (ciVALID e = true → ciOUT e < 16 → s.portUp (ciOUT e) = true → exec (.circuitForward k) s = .next ((s.take k).enqueuePort (ciOUT e)
        ({ k with w2 := putFld k.w2 30 12 (ciNEXT e) } : Packet).hop (s.inputOf k) (some k.circ))) ∧
      (ciVALID e = false → exec (.circuitForward k) s = .next ((s.take k).count 0x0419)))

/-- R294: the port chosen is one that the entry names as valid and that is UP, the alternate where the parity bit says so. -/
def Claims.OutPortIsValid : Prop :=
  ∀ (s : State) (k : Packet) (n : Nat), s.outPort k = some n →
    let e := s.routeOf k.epoch k.dnode
    s.portUp n = true ∧ (n = rtPORT e ∧ rtPV e = true ∨ n = rtALT e ∧ rtAV e = true) ∧
    (rtPV e = true → rtAV e = true → s.portUp (rtPORT e) = true → s.portUp (rtALT e) = true →
      n = if altBit k then rtALT e else rtPORT e)

/-- R272, R273, R467, R497: the states of a port that no loopback holds, and what moves it between them. -/
def Claims.PortStates : Prop :=
  ∀ (s : State) (port : BitVec 4), On s →
    let n := port.toNat
    let p := s.port n
    let goes := fun (i : Instr) (from_ : PortState) (s1 : State) (p1 : Port) (st : PortState) =>
      p.st = from_ → exec i s = .next (s1.setPort n { p1 with st := st, since := s1.now })
    s.looping n = false →
    (p.st = .disabled → exec (.portEnable port) s = .next ((s.setRg (0x00D00100 + 8 * n) 1).setPort n { p with
      st := .training, since := (s.setRg (0x00D00100 + 8 * n) 1).now })) ∧
    (∃ t : State, exec (.portDisable port) s = .next t ∧ (t.port n).st = .disabled ∧
      t.rg (0x00D00100 + 8 * n) = 0) ∧
    (∀ rev, s.plat.domOn (64 + n) = true → p.st = .training ∨ p.st = .down → ∃ t : State, exec (.trainingComplete port rev) s = .next t ∧
      t.port n = { p with rev, st := .aligning, since := s.now }) ∧
    goes (.trainingTimeout port) .training (s.reach (p.since + usTicks 200000)) p .down ∧
    (p.st = .aligning → ∃ t : State, exec (.alignLock port) s = .next t ∧
      t.port n = { p with initSent := false, initRcvd := false, st := .init, since := s.now }) ∧
    goes (.alignTimeout port) .aligning (s.reach (p.since + usTicks 10000)) p .down ∧
    goes (.downRetry port) .down (s.reach (p.since + usTicks 100000)) p .down ∧
    (p.st = .up →
      exec (.retrain port) s = .next (s.portDown n 4) ∧ exec (.fecLockLost port) s = .next (s.portDown n 0) ∧
      exec (.fecUeRateExceeded port) s = .next (s.portDown n 1) ∧ exec (.flitSilenceTimeout port) s = .next (s.portDown n 3) ∧
      (p.outq = [] → ∀ cause, ((s.portDown n cause).port n).st = .down ∧ ((s.portDown n cause).port n).retry = []))

/-- R273, R275-R280, R393, R409: a DATA flit in sequence advances the number expected and its slots are taken, another is discarded and a
NAK is due; IDLE returns credit and acknowledges; NAK has the unacknowledged flits sent again, and the eighth failed retry takes the
port DOWN; both ends' INIT bring the port UP; a flit that fails its CRC or breaks its header changes nothing but the NAK it makes due. A
NAK on DynerLink counts the flits sent again there. -/
def Claims.FlitsReceived : Prop :=
  ∀ (s : State) (port : BitVec 4) (h : BitVec 64), On s →
    let n := port.toNat
    let p := s.port n
    let acked := (p.takeAck (fhACK h)).takeCredit (fhCVC h) (fhCCNT h)
    (p.st = .up →
      (∀ slots, fhBad h = false → fhTYPE h = 0 → fhSEQ h ≠ p.rxNext →
        exec (.dataFlit port h slots) s = .next (s.setPort n { p with nakDue := true })) ∧
      (∀ slots, fhBad h = false → fhTYPE h = 0 → fhSEQ h = p.rxNext →
        exec (.dataFlit port h slots) s = .next (((slots.take 15).zip (List.range 15)).foldl (fun t x => t.slotIn n (bit (fhSOP h) x.2) x.1)
          (s.setPort n { acked with rxNext := (p.rxNext + 1) % 4096, retries := 0 }))) ∧
      (fhBad h = false → fhTYPE h = 1 → exec (.idleFlit port h) s = .next (s.setPort n acked)) ∧
      (∀ q : BitVec 5, q.toNat = n → fhBad h = false → fhTYPE h = 3 →
        let f := acked.failed + b2n (acked.resent && !acked.retry.isEmpty)
        let s1 := s.setPort n { acked with replay := acked.retry, failed := f, resent := false }
        let s2 := if acked.retry = [] then s1 else s1.portThrottle n
        (f + acked.retries < 8 → exec (.nakFlit q h) s = .next s2) ∧ (8 ≤ f + acked.retries → exec (.nakFlit q h) s = .next (s2.portDown n 2))) ∧
      (fhTYPE h = 0 → exec (.crcFailFlit port h) s = .next (s.setPort n { p with nakDue := true })) ∧
      (fhBad h = true → p.failed + p.retries < 7 → ∃ t : State, exec (.badLinkHeaderFlit port h) s = .next t ∧
        t.port n = { p with nakDue := true, retries := p.retries + 1 })) ∧
    (∀ slot1 : BitVec 128, p.st = .init → fhBad h = false → fhTYPE h = 2 →
      ∃ t : State, exec (.initFlit port h slot1) s = .next t ∧ (t.port n).st = (if p.initSent then .up else .init) ∧
        (t.port n).initRcvd = true ∧ (t.port n).pnode = fld slot1 0 16 ∧ (t.port n).pport = fld slot1 24 4 ∧
        ∀ v, v < 8 → tgetD (t.port n).credit v 0 = fld slot1 (32 + 12 * v) 12 + (if v = fhCVC h then fhCCNT h else 0)) ∧
    (s.link = .up → exec (.nakFlit 16 h) s = .next (s.countN 0x0614 (1 + s.freeVal.toNat % 512)).useFree)

/-- R276-R278, R287, R302, R303: the next flit of a port. A NAK that is due goes first, then what is to be sent again, then packets in a DATA
flit of the next number, which stays in the retry buffer, then IDLE; a port in INIT sends its INIT flit. Frames begin at the ticks the
spec gives. -/
def Claims.FlitsSent : Prop :=
  ∀ (s : State) (port : BitVec 4), On s →
    let n := port.toNat
    let p := s.port n
    let late := fun (t : State) => Host.Outcome.next (φ := Fault) (ρ := Refusal) (t.missed n p (s.slotOwner n))
    (p.st = .up → p.nakDue = true → exec (.flitBuild port) s = late (s.setPort n
      { (p.header 3 0).2 with nakDue := false, tx := p.tx ++ [mkFlit (p.header 3 0).1 []] })) ∧
    (∀ f rest, p.st = .up → p.nakDue = false → s.nodeValid = true → p.replay = f :: rest → exec (.flitBuild port) s = late ((s.setPort n
      { p with replay := rest, frameSlot := min 1024 (p.frameSlot + 1), frameFlag := false
               resent := p.resent || p.retry.head? == some f, tx := p.tx ++ [p.again f] }).count 0x0410)) ∧
    (p.st = .up → p.nakDue = false → s.nodeValid = false ∨ p.replay = [] ∧ p.outq = [] ∧ p.partial_ = [] →
      exec (.flitBuild port) s = late (s.setPort n { (p.header 1 0).2 with tx := p.tx ++ [mkFlit (p.header 1 0).1 []] })) ∧
    (p.st = .up → p.nakDue = false → s.nodeValid = true → p.replay = [] → p.retry.length < 512 → p.txSeq < 4096 →
      let ready := s.ready [] p.outq
      let own := (s.slotOwner n).filter (fun o => (p.cands ready).any (fun c => c.circ == some o))
      let r := fillFlit s.weights (s.sharesOf n) ready own 15 p []
      r.2 ≠ [] → ∃ (t : State) (f : Flit), exec (.flitBuild port) s = .next t ∧ fhTYPE f.hdr = 0 ∧ fhSEQ f.hdr = p.txSeq ∧
        f.slots = r.2.map Prod.fst ∧ (t.port n).tx = p.tx ++ [f] ∧ (t.port n).retry = p.retry ++ [f] ∧
        (t.port n).txSeq = (p.txSeq + 1) % 4096) ∧
    (p.st = .init → p.initRcvd = false → exec (.flitBuild port) s = .next (s.setPort n { (p.header 2 0).2 with
      initSent := true, tx := p.tx ++ [mkFlit (p.header 2 0).1 [⟨0, BitVec.ofNat 128 (s.initSlot n)⟩]] })) ∧
    (let s1 := s.reach (roundUp s.now 1377)
     exec (.tdmFrameStart port) s = .next (s1.setPort n { p with
       frameSlot := 0, frameFlag := true
       deficit := (s.circ.filter (fun e => ciVALID e.2 && !ciTDM e.2 && ciOUT e.2 == n && ciSHARE e.2 != 0)).map
         (fun e => (e.1, 15 * ciSHARE e.2)) })) ∧
    (∀ (clu : BitVec 6) (link : BitVec 2),
      let s1 := s.reach (roundUp s.now 512)
      exec (.meshFrameStart clu link) s = .next (({ s1 with
        mframe := tput s1.mframe (4 * clu.toNat + link.toNat) (s1.now / 512) } : State).serveLink (4 * clu.toNat + link.toNat)))

/-- R295, R324: the commands of the routing versions, each refused with the error bit outside its states, and the end of a drain. -/
def Claims.VersionCommands : Prop :=
  ∀ (s : State) (v : BitVec 1), On s →
    let n := v.toNat
    let x := s.version n
    let set := fun (t : State) (y : Version) => if n = 0 then { t with verA := y } else { t with verB := y }
    exec (.epochLoaded v) s = .next (if x.st = 0 then set s { st := 1, since := s.now } else { s with epochErr := true }) ∧
    exec (.epochFlip v) s = .next (if x.st = 1 then { s with srcEpoch := n } else { s with epochErr := true }) ∧
    exec (.epochRetire v) s = .next (if x.st = 1 ∧ s.srcEpoch ≠ n then set s { st := 2, since := s.now }
      else { s with epochErr := true }) ∧
    (x.st = 2 → let s1 := s.reach (x.since + bits (s.rg 0x00D00020) 0 32)
      exec (.epochDrainExpiry v) s = .next (set { s1 with aggs := s.aggs.filter (fun a => a.ver != n) } { st := 0, since := s1.now }))

/-- R290, R314, R317, R320: an operation without a response for its partition's limit fails with FAB_TIMEOUT, and its slot stays unused
until the longest limit has passed; a stalled channel is counted; a write of FAB_LNT_DATA sets the entry that FAB_LNT_SEL names. -/
def Claims.FabricTimers : Prop :=
  ∀ s : State, On s →
    (∀ (slot : BitVec 22) (o : Op), tget s.ops slot.toNat = some o → o.timed = true →
      let s1 := s.reach (o.tick + s.tmo o.part)
      exec (.fabTimeout slot) s = .next (({ s1 with
        ops := tdel s1.ops slot.toNat, quar := tput s1.quar slot.toNat (s1.now + s1.maxTmo) } : State).failOp o 0x0401)) ∧
    (∀ (slot : BitVec 22) (t : Nat), tget s.quar slot.toNat = some t →
      exec (.slotQuarantineEnd slot) s = .next ({ s.reach t with quar := tdel (s.reach t).quar slot.toNat } : State).sendWaiting) ∧
    (∀ (port : BitVec 4) (vc : BitVec 3) (q : QEnt), (s.port port.toNat).outq.find? (fun q => q.pkt.vc == vc.toNat) = some q →
      tgetD (s.port port.toNat).credit vc.toNat 0 < q.pkt.slots →
      exec (.fabStall port vc) s = .next ((s.reach (q.at_ + usTicks 1000)).count 0x041C)) ∧
    (∀ v : BitVec 64, v &&& 0x1FFF017FFFFF ≠ 0 →
      let p := bits (s.rg 0x00D00040) 16 4
      exec (.lntDataWrite v) s = .next ((s.mend (.node p (bits (s.rg 0x00D00040) 0 16))).setPart p { s.part p with
        lnt := tput (s.part p).lnt (bits (s.rg 0x00D00040) 0 16) (v &&& 0x1FFF017FFFFF) }))

/-! Management and the log (08 R316-R321, 12 R426-R431). -/

/-- R318-R321: the agent's answers: REGRD the registers read, REGWR after its writes, LNTWR after its entries, NOTICE at the fabric
manager's node after it is queued, an unassigned SUB with FAB_AGENT; a sender that is not the fabric manager is counted. -/
def Claims.ManagementRequests : Prop :=
  ∀ (s : State) (k : Packet), On s → s.reaches k [12] = true → s.unnumbered k = false →
    let t := s.take k
    let answer := fun (t : State) (status words data : Nat) => ({ t with
      mgmtOut := t.mgmtOut ++ [t.mgmtReply k status words data] } : State)
    let n := k.size / 8
    (s.fmSent k = true → s.scribeUp 2 = true → n ≤ 8 →
      (k.sub = 1 → ((List.range n).map (mgmtWord k)).all mgmtOff = true → exec (.regrd k) s =
        .next (answer t 0 n (packElems 64 ((List.range n).map (fun i => t.regRead (mgmtWord k i % 2 ^ 26)))))) ∧
      (k.sub = 2 → n = 2 → mgmtOff (mgmtWord k 0) = true →
        (t.regWrite (mgmtWord k 0 % 2 ^ 26) (mgmtWord k 1)).plat.power = .running →
        exec (.regwr k) s = .next (answer (t.regWrite (mgmtWord k 0 % 2 ^ 26) (mgmtWord k 1)) 0 0 0)) ∧
      (k.sub = 3 → n = 2 → mgmtWord k 0 < 2 ^ 20 → lnMask (w64 (mgmtWord k 1)) = w64 (mgmtWord k 1) →
        exec (.lntwr k) s = .next (answer (t.setLnt (bits (mgmtWord k 0) 16 8) (bits (mgmtWord k 0) 0 16) (w64 (mgmtWord k 1))) 0 0 0))) ∧
    (s.fmSent k = true → (k.sub = 0 ∨ 7 ≤ k.sub) → exec (.mgmtUnknownSub k) s = .next (answer (t.count 0x0405) 0x0405 0 0)) ∧
    (s.fmSent k = false → (k.sub = 1 → exec (.regrd k) s = .next (t.count 0x0418)) ∧
      (k.sub = 2 → exec (.regwr k) s = .next (t.count 0x0418)) ∧ (k.sub = 3 → exec (.lntwr k) s = .next (t.count 0x0418))) ∧
    (k.sub = 4 → s.isFm = true → k.size = 64 → (t.noticeWrite k.data k.snode).plat.power = .running →
      exec (.notice k) s = .next (answer (t.noticeWrite k.data k.snode) 0 0 0)) ∧
    (k.sub = 4 → s.isFm = false → exec (.notice k) s = .next (t.count 0x0418))

/-- R316, R355: TEARDOWN makes TORN each partition of the job whose epoch is not newer and answers; JOBSTART on a tree does the part of
this device and merges its status. -/
def Claims.TeardownAndJobStart : Prop :=
  ∀ (s : State) (k : Packet), k.ptype = 12 →
    (k.sub = 5 → k.onTree = false → s.reaches k [12] = true → s.unnumbered k = false → s.fmSent k = true →
      k.size = 8 → k.data < 2 ^ 32 →
      let t := s.take k
      let ps := (List.range 16).filter (fun p => (t.part p).st != .free && t.job p == k.data % 2 ^ 16
        && !epochNewer (t.jepoch p) (k.data / 2 ^ 16) && !t.torn p)
      exec (.teardown k) s = .next ((ps.foldl (fun t p => t.tearPart p) t).hwAnswer k 0)) ∧
    (k.sub = 6 → s.mayTake k = true → k.bad = false → s.unnumbered k = false →
      let e := s.treeOf k.epoch k.tree
      let ports := (List.range 16).filter (fun i => bit (trMASK e) i)
      let n := ports.length + b2n (trLOCAL e)
      (s.version k.epoch).st ≠ 0 → trVALID e = true →
      (k.snode = s.pnode → trROOT e = true ∧ (ports = [] ∨ s.nodeValid = true)) → k.hops + 1 < 64 → s.aggs.length < 4096 →
      n ≠ 0 → s.fmSent k = true →
      let t1 := ports.foldl (fun t i => t.enqueuePort i k.hop (s.inputOf k) none) (s.take k)
      let t : State := { t1 with aggs := t1.aggs ++ [{ ver := k.epoch, tree := k.tree, left := n, status := 0, pkt := k }] }
      exec (.jobstart k) s = .next (if trLOCAL e then (t.jobRequest k).1.aggMerge (fun a => a == k) (t.jobRequest k).2 else t)) ∧
    (∀ a b : Nat, a < 2 ^ 16 → b < 2 ^ 16 → (epochNewer a b = true ↔ 1 ≤ (a + 2 ^ 16 - b) % 2 ^ 16 ∧ (a + 2 ^ 16 - b) % 2 ^ 16 ≤ 32767))

/-- R427-R430: the event at the front of the log's queue becomes the next record, in its fields, at its place in the ring; or it is
counted in the record it folds into. -/
def Claims.LogRecords : Prop :=
  (∀ (s : State) (e : Event) (rest : List Event), s.plat.power ≠ .islandReset → s.bltq = e :: rest →
    (e.cls ≠ 0 → s.bltHead < 65536 →
      ∃ t : State, exec .logRecordWrite s = .next t ∧ t.bltq = rest ∧ t.bltHead = s.bltHead + 1 ∧
        tget t.blt s.bltHead = some (e.record s.bltHead) ∧ (∀ j, j ≠ s.bltHead → tget t.blt j = tget s.blt j)) ∧
    (∀ r, s.foldInto e = some r → exec .logRecordWrite s = .next (({ s with bltq := rest } : State).putRecord
      (setBits r 224 32 (min (bits r 224 32 + 1) (2 ^ 32 - 1)))))) ∧
  (∀ (e : Event) (n : Nat), n < 2 ^ 64 → e.time < 2 ^ 64 → e.code < 2 ^ 16 → e.cls < 8 → e.srck < 256 → e.srcid < 2 ^ 32 →
    let r := e.record n
    rcSeq r = n ∧ rcTime r = e.time ∧ rcCode r = e.code ∧ rcClass r = e.cls ∧ rcSource r = e.srck + e.srcid * 2 ^ 8 ∧ rcCount r = 1 ∧
    bits r 256 64 = e.d0.toNat ∧ bits r 320 64 = e.d1.toNat ∧ bits r 384 64 = e.d2.toNat ∧ bits r 448 64 = n)

/-- R320, R321, R431: a record that notices cover is sent once to the fabric manager; its good answer sets NOTIFIED and the next follows;
without one it is sent again, three times in all, and then counted as lost. -/
def Claims.NoticesSent : Prop :=
  ∀ s : State, s.maySendNotice = true →
    (∀ n r, s.bltNote.cur = none → s.noticeDue = some n → s.record n = some r →
      (s.isFm = true → exec .noticeSend s = .next (((s.noticeWrite r s.pnode).setNotified n).noticeNext n)) ∧
      (s.isFm = false → s.slotsFull = false → exec .noticeSend s = .next (s.noticeIssue n r 1))) ∧
    (∀ n r k (o : Op), s.bltNote.cur = some n → s.record n = some r → s.reaches k [13] = true → s.unnumbered k = false →
      s.answered k = some o → o.owner = .notice → k.rsub = 4 →
      let s1 : State := { s.take k with ops := tdel s.ops k.rslot }
      (k.status = 0 → exec (.noticeResponse k) s = .next ((s1.setNotified n).noticeNext n).sendWaiting) ∧
      (k.status ≠ 0 → s.bltNote.tries < 3 → exec (.noticeResponse k) s = .next (s1.noticeIssue n r (s.bltNote.tries + 1)).sendWaiting)) ∧
    (∀ n r, s.bltNote.cur = some n → s.record n = some r → s.slotsFull = false →
      let s1 := (s.reach (s.bltNote.sentAt + usTicks 1000)).dropOps (fun o => o.owner.isNotice)
      let s2 : State := { s1 with mgmtOut := s1.mgmtOut.filter (fun k => !(k.ptype == 12 && k.sub == 4)) }
      (s.bltNote.tries < 3 → s2.record n = some r → s2.bltNote = s.bltNote →
        exec .noticeResendTimeout s = .next (s2.noticeIssue n r (s.bltNote.tries + 1))) ∧
      (3 ≤ s.bltNote.tries → s2.record n = some r → s2.bltNote = s.bltNote →
        exec .noticeResendTimeout s = .next (((s2.count 0x0813).logEvent ((s2.count 0x0813).event 0x0813 5 6 2 n 0 0)).noticeNext n)))
/-! Ligature and job starts (09). -/

/-- A Ligature instruction of core l that passes the shared checks at issue, with n bytes of descriptor at the address in x[B]. -/
abbrev LigIssues (s : State) (c : CoreId) (l : Loc) (w : FormX) (rs : List Nat) (n : Nat) : Prop :=
  Issues s c l 16 ∧ s.ligHeld l < 8 ∧ s.slotsFull = false ∧
    Readable (s.core l) rs (if n = 0 then [] else [(((s.core l).getX w.r.b.toNat).toNat % 2 ^ 18 / 16 * 16, n)]) ∧
    s.hazard l (if n = 0 then [] else [.now (((s.core l).getX w.r.b.toNat).toNat % 2 ^ 18 / 16 * 16) n false]) = false

/-- R328-R337: LOPEN takes the lowest free entry of the group table and begins to open the group; LCOLL gives its contribution to the
contributor's next collective of the group, open or opening; LCLOSE of an open group without collectives releases its entry and memory and
completes, and one of an opening group waits. Each leaves its core at once; a descriptor or group that a check refuses raises its code at issue. -/
def Claims.LigatureIssue : Prop :=
  ∀ (s : State) (c : CoreId) (l : Loc) (w : FormX),
    let cs := s.core l
    let t := s.setCore l (cs.adv 16)
    let ad := (cs.getX w.r.b.toNat).toNat % 2 ^ 18 / 16 * 16
    (LigIssues s c l w [w.r.b.toNat] 96 → ligRsv w true false = false →
      let d := sread cs.spad ad 96
      let bad := groupBad (s.part l.p).ruled (s.part l.p).clus.length d
      (∀ e, bad = false → s.grpOf l.p l.s (gdGID d) = none → s.freeGrp = some e →
        exec (.lopen c w) s = .next ((t.ligOpen e l w.r.a.toNat d cs.pc).ligPump e)) ∧
      (bad = true → exec (.lopen c w) s = .next ((s.count 0x0510).syncExc l 0x0510 0 0 (w.r.w0 0xC0))) ∧
      (bad = false → (s.grpOf l.p l.s (gdGID d)).isSome = true →
        exec (.lopen c w) s = .next ((s.count 0x0511).syncExc l 0x0511 0 0 (w.r.w0 0xC0)))) ∧
    (∀ e, LigIssues s c l w [w.r.b.toNat] 64 → ligRsv w true false = false →
      let d := sread cs.spad ad 64
      let g := s.grp e
      s.grpOf l.p l.s (cdGID d) = some e → g.st = 2 ∧ collBad (some g.total) d = false ∨ g.st = 1 ∧ collBad none d = false →
      (gdOwn g.desc).contains (l.l, l.k) = true →
      exec (.lcoll c w) s = .next (t.ligJoin e l w.r.a.toNat d cs.pc)) ∧
    (∀ e, LigIssues s c l w [w.r.c.toNat] 0 → ligRsv w false true = false →
      let g := s.grp e
      s.grpOf l.p l.s (fld (cs.getX w.r.c.toNat) 0 6) = some e →
      (g.st = 1 → exec (.lclose c w) s = .next (t.setGrp e { g with closers := g.closers ++ [(l, w.r.a.toNat)] })) ∧
      (g.st = 2 → g.colls = [] → g.closers = [] → g.opener = none → ∃ u : State, exec (.lclose c w) s = .next u ∧ tget u.grps e = none ∧ u.lfree = s.lfree + g.slots ∧ u.lrfree = s.lrfree + g.rslots ∧
        (u.core l).getCnt w.r.a.toNat = (cs.getCnt w.r.a.toNat) + 1 ∧ (u.core l).x = cs.x))

/-- R331: a root without children is open at once: its contributors are the group's, and the status word goes to its context's node; a
member that is not the root reports to its parent and waits. -/
def Claims.LigatureOpens : Prop :=
  ∀ (s : State) (e : Nat) (l : Loc) (cnt d pc : Nat), gdNCHILD d = 0 → s.grps = [] → s.slotsFull = false →
    let g : Group := { st := 1, p := l.p, s := l.s, gid := gdGID d, desc := d, bypass := false, slots := 0, rslots := 0, status := 0
                       opener := some (l, cnt, pc), since := s.now }
    (gdROOT d = true → (s.ligOpen e l cnt d pc).grp e = { g with
      st := 2, opener := none, base := 0, total := (gdOwn d).length }) ∧
    (gdROOT d = false → lnLive (s.lnt l.p (gdPARENT d)) = true → (s.ligOpen e l cnt d pc).grp e = { g with told := true } ∧
      (s.ligOpen e l cnt d pc).mesh.length = s.mesh.length + 1)

/-- R331, R344, R347: an open report of a child is kept and moves the opening; a rank message of the parent ends it; a chunk from a
child enters its chunk at a vertex with a slot for it, or is passed on by a member in endpoint mode; a result chunk is delivered here and, where it travels the tree of members, sent
on; each message's stores are acknowledged; a message that names no group, or a wrong sender, is refused. -/
def Claims.LigatureMessages : Prop :=
  ∀ (s : State) (k : Packet) (ds : List Packet) (e : Nat) (g : Group), s.reaches k [2] = true → s.unnumbered k = false →
    let h := k.data
    (upOff k = true → lhKIND h = 1 → k.size = 64 → k.ext = false → s.blockGroup k = some (e, g) → g.st = 1 → s.portOk k true = true →
      s.isCopy k = false →
      (∀ i rest, s.childrenAt g k.snode = i :: rest → g.reports = [] → exec (.openReport k) s = .next (((((s.take k).setGrp e { g with
        reports := [(i, lhNIN h, lhSUBP h, lhSTATUS h)] }).performed k 0 false).ligReport e).ligPump e)) ∧
      (s.childrenAt g k.snode = [] → exec (.openReport k) s = .next ((s.take k).refuse k))) ∧
    (downOff k = true → lhKIND h = 2 → k.size = 64 → k.ext = false → s.blockGroup k = some (e, g) → g.st = 1 → g.told = true →
      s.nodeIs g.p (gdPARENT g.desc) k.snode = true → s.portOk k true = true →
      exec (.rankMessage k) s = .next ((((s.take k).performed k 0 false).ligOpened e (lhSUBP h) (lhPTOT h) (lhSTATUS h)).ligPump e)) ∧
    (upOff k = true → s.msgOk k ds = true → s.blockGroup k = some (e, g) → g.st = 2 → s.portOk k true = true → s.isCopy k = false →
      g.over_ (lhGSEQ h) = false → shOP (lhShape h) ≠ 2 → ∀ i rest, s.childrenAt g k.snode = i :: rest →
      (g.bypass = false → g.coll (lhGSEQ h) = { k := lhGSEQ h } → s.slotFor e (lhGSEQ h) (lhCHUNK h) = true → 0 < (g.report i).1 →
        exec (.chunkUp k ds) s = .next (((s.ackAll k ds).ligTakeIn e { k := lhGSEQ h } (lhCHUNK h)
          { inp := i + 1, hdr := h, data := dataOf ds, pz := ds.any s.carries }).ligPump e)) ∧
      (let inp := k.snode * 2 ^ 32 + lhWHO h + 1
       g.bypass = true → s.roomFor ds.length = true → s.windowOpen e inp = true →
        exec (.chunkUp k ds) s = .next (((s.ackAll k ds).putColl e (g.coll (lhGSEQ h))).ligSendUp e 3 (lhGSEQ h) (lhCHUNK h) inp h
          (dataOf ds) ds.length (ds.any s.carries)))) ∧
    (downOff k = true → s.msgOk k ds = true → s.blockGroup k = some (e, g) → g.st = 2 → s.portOk k true = true →
      g.over_ (lhGSEQ h) = false → shOP (lhShape h) ≠ 2 →
      let sh := lhShape h
      let y := (g.coll (lhGSEQ h)).meet sh
      let pz := ds.any s.carries
      let s1 := s.ackAll k ds
      s.downHeld e g y (lhCHUNK h) = [] → s.roomFor ((ds.length + 1) * max 1 (gdNCHILD g.desc)) = true →
      exec (.chunkDown k ds) s = .next (((if s.ligTreeDown g sh then s1
        else s1.ligDownChildren e y (lhCHUNK h) h (dataOf ds) (g.downRange sh (lhCHUNK h)).1 pz).ligDown e (lhGSEQ h) (lhCHUNK h) h
          (dataOf ds) pz).ligPump e)) ∧
    (s.blockGroup k = none → upOff k = true → s.msgOk k ds = true → exec (.chunkUp k ds) s = .next (s.refuseAll k ds))

/-- R341, R342, R346, R349, R351: inputs are combined one after another from the first, in an order that takes each once; a correct integer
addition meets the residue check; the latest issue time wins, the lowest contributor among equal
ones, and the lower non-zero status; a skew of t ticks falls into the bucket of its whole microseconds. -/
def Claims.LigatureArithmetic : Prop :=
  (∀ (x : Nat) (v : List Nat) (vs : List (List Nat)) (u : List Nat),
    ligFold x [v] = some v ∧ ligFold x (v :: (vs ++ [u])) = (ligFold x (v :: vs)).map (fun a => ligAdd x a u)) ∧
  (∀ (n v : Nat) (l : List (List Nat)), l.length ≤ n → (shuffle n v l).Perm l) ∧
  (∀ w a b : Nat, a < 2 ^ w → b < 2 ^ w → residueHolds w a b ((a + b) % 2 ^ w) ((a + b) / 2 ^ w) = true) ∧
  (∀ a b : Nat, lhTMAX (laterOf a b) = max (lhTMAX a) (lhTMAX b) ∧
    (lhTMAX a = lhTMAX b → lhWHO (laterOf a b) = min (lhWHO a) (lhWHO b))) ∧
  (∀ a b : Nat, mergeStatus a 0 = a ∧ mergeStatus 0 b = b ∧ (a ≠ 0 → b ≠ 0 → mergeStatus a b = min a b)) ∧
  (∀ t : Nat, (t < 1050 → skewBucket t = 0) ∧ (1050 * 16384 ≤ t → skewBucket t = 15) ∧
    ∀ b, 1 ≤ b → b ≤ 14 → 1050 * 2 ^ (b - 1) ≤ t → t < 1050 * 2 ^ b → skewBucket t = b)

/-- R352, R355-R357: an overdue input is counted once; GO sends the JOBSTART that the registers name and makes the engine BUSY, and a
JOBSTART without its MACK ends with LIG_JS_TIMEOUT; a held launch starts at its START.
The model's own readings, where the spec is open: log 8, 20, 85. -/
def Obligations.StallsAndJobStarts : Prop :=
  ∀ s : State, On s →
    (∀ (e input : BitVec 8), let g := s.grp e.toNat
      g.st = 1 → input.toNat = 0 → g.told = true → gdROOT g.desc = false → g.stalled = false →
      let s1 := s.reach (g.since + s.stallTicks g)
      exec (.ligStall e input) s = .next ((s1.setGrp e.toNat { g with stalled := true }).stallEvent g 0 (gdPARENT g.desc) (2 ^ 64 - 1))) ∧
    (s.jsBusy = false → s.isFm = true → s.slotsFull = false →
      ∃ t : State, exec .jobstartGo s = .next t ∧ t.jsBusy = true ∧ t.jsTick = s.now ∧
        t.mesh = s.mesh ++ [s.jobPacket s.freeSlot ((tgetD s.use s.freeSlot 0 + 1) % 1024)] ∧
        (tget t.ops s.freeSlot).map Op.owner = some .jobstart) ∧
    (s.jsBusy = true → ∃ t : State, exec .jobstartTimeout s = .next t ∧ t.jsBusy = false ∧ t.jsDone = true ∧ t.jsStatus = 0x0522 ∧
      ∀ x ∈ t.ops, x.2.owner ≠ .jobstart) ∧
    (∀ (p : BitVec 4) (n : BitVec 3) (c : Cmd), let x := s.ctx p.toNat n.toNat
      x.st = .held → x.startAt ≠ 0 → x.launchSeq = some c.seq → s.cmd c.seq = some c →
      let s1 := s.reach x.startAt
      exec (.heldLaunchRelease p n) s =
        .next (((s1.setCtx p.toNat n.toNat { x with st := .ready, holdJob := none }).startCmd c).decision p.toNat))
/-! Host commands (10, 11 R404-R413, 12 R437-R442). -/

/-- R412, R413: a command that ends has a final journal entry, DONE, or ABORTED or PARTIAL by its code, with its code, parts and detail;
it falls due for completion in the order in which commands end; a command that has ended does not end again. -/
def Claims.CommandsEnd : Prop :=
  ∀ (s : State) (seq code parts detail : Nat) (c : Cmd), s.cmd seq = some c →
    let t := s.finishCmd seq code parts detail
    (2 ≤ c.st → t = s) ∧
    (c.st < 2 → s.ringActive c.f c.r = true →
      let d : Cmd := { c with
        st := if code = 0x0601 then 3 else if code = 0x0602 then 4 else 2
        code, parts, detail, fin := s.now }
      t.cmd seq = some d ∧ t.order = s.order ++ [seq] ∧ (∀ n, n ≠ seq → t.cmd n = s.cmd n) ∧
      tget t.jrn (seq % 262144) = some (d.entry (bits (tgetD s.jrn (seq % 262144) 0) 64 64))) ∧
    (c.st < 2 → s.ringActive c.f c.r = false → t.cmd seq = none ∧ t.order = s.order)

/-- R404-R406: a command whose ring's earlier commands have not all started, or whose barrier is not met, does nothing yet; in a
partition that does not exist one other than PART_CREATE and QUERY ends with CMD_STATE. -/
def Claims.CommandsWait : Prop :=
  ∀ (s : State) (seq : BitVec 64) (c : Cmd), s.cmd seq.toNat = some c → c.st = 0 →
    (s.mayStart c = false →
      exec (.fence seq) s = .next s ∧ exec (.launch seq) s = .next s ∧ exec (.copy seq) s = .next s ∧ exec (.fill seq) s = .next s ∧ exec (.map seq) s = .next s ∧
      exec (.unmap seq) s = .next s ∧ exec (.ctxCreate seq) s = .next s ∧ exec (.query seq) s = .next s) ∧
    (s.mayStart c = true → s.heldLaunch c = false → (s.part c.f).st = .free →
      (c.op = 1 → exec (.launch seq) s = .next (s.doneCmd c.seq 0x0604 0)) ∧
      (c.op = 2 → exec (.copy seq) s = .next (s.doneCmd c.seq 0x0604 0)) ∧
      (c.op = 4 → exec (.map seq) s = .next (s.doneCmd c.seq 0x0604 0)) ∧
      (c.op = 0x18 → exec (.ctxCreate seq) s = .next (s.doneCmd c.seq 0x0604 0)))

/-- R372, R375, R407: LAUNCH makes an IDLE Freehand context READY at its start address, with the stream numbers 0, SW_ESTAT clear and the
selected cores to run, or HELD; a context in another state, or a schedule where none is due, refuses it. -/
def Claims.Launch : Prop :=
  ∀ (s : State) (seq : BitVec 64) (c : Cmd), Starts s seq.toNat 1 c →
    let p := c.f
    let n := bits c.body 64 3
    ((s.ctx p n).st ≠ .idle → exec (.launch seq) s = .next (s.doneCmd c.seq 0x0604 0)) ∧
    ((s.ctx p n).st = .idle → (s.part p).ruled = false → bits c.body 384 64 ≠ 0 →
      exec (.launch seq) s = .next (s.doneCmd c.seq 0x0605 1)) ∧
    ((s.ctx p n).st = .idle → (s.part p).ruled = false → bits c.body 384 64 = 0 →
      exec (.launch seq) s = .next (if bit c.body 67 then s.launchCtx c 0 else ((s.launchCtx c 0).startCmd c).decision p)) ∧
    (p < 16 → n < 8 → (s.part p).clus.length ≤ 64 → ∀ l k, l < (s.part p).clus.length → k < 64 →
      let d := (s.launchCtx c 0).core ⟨p, n, l, k⟩
      d.pc = bits c.body 320 18 ∧ d.inh = false ∧ d.asyncB = false ∧ d.more = 0 ∧ d.seq0 = 0 ∧ d.seq1 = 0 ∧ d.seq2 = 0 ∧
      d.run = (if bit c.body (192 + l) && bit c.body (256 + k) then .running else .ended) ∧
      d.x = (s.core ⟨p, n, l, k⟩).x ∧ d.spad = (s.core ⟨p, n, l, k⟩).spad) ∧
    ((s.launchCtx c 0).ctx p n).st = (if bit c.body 67 then .held else .ready)

/-- R373: the context chosen. A slot of a priority is chosen only where no slot of a higher one is READY or RUNNING; the resident one
stays while it may run and its quantum has not expired. -/
def Claims.SchedulingChoice : Prop :=
  ∀ (s : State) (p c pr : Nat), s.choose p = some (c, pr) → (∀ r, (s.part p).resident = some r → r < 8) →
    (pr ≤ 3 ∧ c < 8 ∧ (s.ctx p c).prio = pr ∧ ((s.ctx p c).st = .ready ∨ (s.ctx p c).st = .running) ∨ (s.part p).resident = some c) ∧
    (∀ q n, q < pr → n < 8 → (s.ctx p n).prio = q → (s.ctx p n).st ≠ .ready ∧ (s.ctx p n).st ≠ .running) ∧
    (∀ r, (s.part p).resident = some r → (s.ctx p r).st = .running → (s.ctx p r).prio = pr → (s.ctx p r).quantumOut = false → c = r)

/-- R375: the CTX commands on a context in a state that allows them, and CMD_STATE where it does not. -/
def Claims.ContextCommands : Prop :=
  ∀ (s : State) (seq : BitVec 64) (c : Cmd),
    let p := c.f
    let n := bits c.body 64 3
    let x := s.ctx p n
    let prio := bits c.body 72 2
    let no := s.doneCmd c.seq 0x0604 0
    (Starts s seq.toNat 0x18 c → (x.st ≠ .free → exec (.ctxCreate seq) s = .next no) ∧
      (x.st = .free → s.rsvRoom (bandUse (s.part p).clus (s.part p).quads 1 false) = true →
        exec (.ctxCreate seq) s = .next (((((s.setCtx p n { st := .idle, prio }).zeroImage p n).floorReset p n).setCnt
          (0x00920008 + 0x100 * p + 0x10 * n) 0).doneCmd c.seq 0 0))) ∧
    (Starts s seq.toNat 0x19 c → (x.st = .free → exec (.ctxPrio seq) s = .next no) ∧
      (x.st ≠ .free → exec (.ctxPrio seq) s = .next (((s.setCtx p n { x with prio }).doneCmd c.seq 0 0).settle p))) ∧
    (Starts s seq.toNat 0x1A c → (x.st = .idle → exec (.ctxPause seq) s = .next no) ∧
      (x.st = .ready → exec (.ctxPause seq) s = .next (((s.setCtx p n { x with st := .paused }).doneCmd c.seq 0 0).settle p)) ∧
      (x.st = .running ∨ x.st = .restoring →
        exec (.ctxPause seq) s = .next (((s.setCtx p n { x with pausing := true }).startCmd c).pauseSave p n)) ∧
      (x.st = .saving → x.pausing = false → exec (.ctxPause seq) s = .next ((s.setCtx p n { x with pausing := true }).startCmd c)) ∧
      (x.st = .saving → x.pausing = true → exec (.ctxPause seq) s = .next no)) ∧
    (Starts s seq.toNat 0x1B c → (x.st ≠ .paused → exec (.ctxResume seq) s = .next no) ∧
      (x.st = .paused → exec (.ctxResume seq) s = .next (((s.setCtx p n { x with st := .ready }).doneCmd c.seq 0 0).settle p))) ∧
    (Starts s seq.toNat 0x1C c → (x.st = .running → exec (.ctxReset seq) s = .next no) ∧
      (x.st = .idle → x.launchSeq = none →
        let s1 := s.zeroImage p n
        exec (.ctxReset seq) s = .next (((s1.setCtx p n { s1.ctx p n with st := .idle, stopcode := 0 }).doneCmd c.seq 0 0).settle p))) ∧
    (Starts s seq.toNat 0x1D c → (x.st = .running → exec (.ctxDestroy seq) s = .next no) ∧
      (x.st = .idle → x.launchSeq = none →
        exec (.ctxDestroy seq) s = .next ((((s.zeroImage p n).setCtx p n {}).doneCmd c.seq 0 0).settle p)))

/-- R375: an image of zeros: every core of the context reads as a core at reset, and no other context's core changes. -/
def Claims.ZeroImage : Prop :=
  ∀ (s : State) (p n : Nat), p < 16 → n < 8 →
    (∀ l k, l < 64 → k < 64 → (s.zeroImage p n).core ⟨p, n, l, k⟩ = {}) ∧
    (∀ q m l k, q < 16 → m < 8 → l < 64 → k < 64 → (q ≠ p ∨ m ≠ n) → (s.zeroImage p n).core ⟨q, m, l, k⟩ = s.core ⟨q, m, l, k⟩)

/-- R372, R381, R382, R392: a quantum's end is noted at its tick and decided on; a save that is complete makes its context READY, PAUSED
or STOPPED and leaves the cores free; a Freehand core starts with its image once every core of a lower number has; a Ruled context's cores start together at their tick. -/
def Claims.SavesAndRestores : Prop :=
  ∀ (s : State) (p : BitVec 4) (n : Nat), On s → (s.part p.toNat).resident = some n →
    let q := p.toNat
    let x := s.ctx q n
    (x.st = .running → x.quantumOut = false → let s1 := s.reach (x.runTick + s.quantum q)
      exec (.quantumExpiry p) s = .next ((s1.setCtx q n { x with quantumOut := true }).decision q)) ∧
    (x.st = .saving →
      let s1 := (s.countAt (0x00920008 + 0x100 * q + 0x10 * n) 0 1).unseat q
      (x.stopcode = 0 → exec (.saveComplete p) s = .next (((s1.setCtx q n { x with
        st := if x.pausing then .paused else .ready, started := [] }).endPauses q n 0).settle q)) ∧
      (x.stopcode ≠ 0 → exec (.saveComplete p) s = .next ((((s1.setCtx q n { x with st := .stopped, started := [] }).endLaunch q n
        x.stopcode).endPauses q n 0x0604).settle q))) ∧
    (∀ l k : BitVec 6, (s.part q).ruled = false → x.st = .restoring → x.startedAt l.toNat k.toNat = false →
      l.toNat < (s.part q).clus.length → (∀ m < (s.part q).clus.length, k ≠ 0 → x.startedAt m (k.toNat - 1) = true) →
      exec (.coreRestoreStart p l k) s = .next ((s.setCtx q n { x with
        st := .running, runTick := s.now, firstStart := false, started := (64 * l.toNat + k.toNat) :: x.started }).afterStart q n)) ∧
    ((s.part q).ruled = true → x.st = .restoring →
      let t := x.startTick s.now
      exec (.ruledStartTick p) s = .next (((s.reach t).setCtx q n { x with
        st := .running, runTick := t, firstStart := false, started := List.range (64 * (s.part q).clus.length) }).afterStart q n)) ∧
    (∀ now, x.rperiod ≠ 0 → x.saveTick ≤ now → let base := if x.firstStart then 0 else x.saveTick
      now + 1050 ≤ x.startTick now ∧ x.startTick now < now + 1050 + x.rperiod ∧ (x.startTick now - base) % x.rperiod = 0)

/-- R410: COPY and FILL start by starting every part; a part nothing of which is outside the device ends with success, or with its
failure's code; when all have, the command ends with success, the code of part 0, or CMD_PARTIAL. -/
def Claims.CopyAndFill : Prop :=
  (∀ (s : State) (seq : BitVec 64) (c : Cmd),
    let all_ := (List.range c.nparts).foldl (fun (t : State) i => t.partStart c i) (s.startCmd c)
    (Starts s seq.toNat 2 c → s.copyHeld c = [] → c.atomic = false → exec (.copy seq) s = .next all_) ∧
    (Starts s seq.toNat 3 c → s.copyHeld c = [] → c.atomic = false → exec (.fill seq) s = .next all_) ∧
    (Starts s seq.toNat 2 c → c.atomic = true → 1 < c.ranges → exec (.copy seq) s = .next (s.doneCmd c.seq 0x0606 0)) ∧
    (∀ part : BitVec 6, On s → s.cmd seq.toNat = some c → c.st = 1 → (c.op = 2 ∨ c.op = 3) → part.toNat < c.nparts →
      bit c.parts part.toNat = false → c.fails = [] → s.partFlying c.seq part.toNat = false →
      exec (.copyPartEnd seq part) s = .next (((s.setCmd { c with parts := c.parts + 2 ^ part.toNat }).copyEnd c.seq).settle c.f))) ∧
  (∀ c : Cmd, (c.op = 2 ∨ c.op = 3) → 0 < c.len → c.len ≤ 2 ^ 40 →
    (c.partBytes 0).1 = 0 ∧ (c.partBytes (c.nparts - 1)).2 = c.len ∧
    (∀ i, i + 1 < c.nparts → (c.partBytes i).2 = (c.partBytes (i + 1)).1) ∧ (∀ i, i < c.nparts → (c.partBytes i).1 < (c.partBytes i).2)) ∧
  (∀ pat off n i : Nat, i < n → bits (fillBytes pat off n) (8 * i) 8 = bits pat (8 * ((off + i) % 8)) 8)

/-- R253: MAP ends with the code of its check, or with the object in the map; UNMAP of a whole object removes it, its permissions and its
moves; a range that is not one whole object, or that a pool uses, is refused. -/
def Claims.MapAndUnmap : Prop :=
  ∀ (s : State) (seq : BitVec 64) (c : Cmd),
    let p := c.f
    (Starts s seq.toNat 4 c → let d := bits c.body 128 384
      s.rangeBusy p (dGran d) (dNgran d) = false →
      (mapBad d = true → exec (.map seq) s = .next (s.doneCmd c.seq 0x0710 0)) ∧
      (∀ t, mapBad d = false → dGran d + dNgran d ≤ 2 ^ 27 - 1 → (s.part p).objs = [] → s.mapNew p d = some t →
        exec (.map seq) s = .next (t.doneCmd c.seq 0 0)) ∧
      (∀ o, mapBad d = false → dGran d + dNgran d ≤ 2 ^ 27 - 1 → (s.part p).objs = [o] → o.same (dGran d) (dNgran d) = false →
        o.overlaps (dGran d) (dNgran d) = true → exec (.map seq) s = .next (s.doneCmd c.seq 0x0712 0))) ∧
    (Starts s seq.toNat 5 c → let g := bits c.body 128 64 / 2 ^ 21
      let n := bits c.body 192 32
      ((s.part p).objs = [] → exec (.unmap seq) s = .next (s.doneCmd c.seq 0x0712 0)) ∧
      (∀ o, (s.part p).objs = [o] → o.same g n = true → bits c.body 128 64 % 2 ^ 21 = 0 → s.poolMeets p g n = false → s.sf = [] →
        exec (.unmap seq) s = .next (((s.startCmd c).dropObj p o).unmapCheck p)) ∧
      (∀ o, (s.part p).objs = [o] → o.same g n = true → s.poolMeets p g n = true →
        exec (.unmap seq) s = .next (s.doneCmd c.seq 0x0712 0)))

/-- R405, R406, R227: FENCE ends when nothing earlier in its scope is unfinished; CANCEL_BATCH cancels on every engine of the partition;
QUERY puts the word it names into DETAIL. -/
def Claims.FenceCancelQuery : Prop :=
  ∀ (s : State) (seq : BitVec 64) (c : Cmd),
    let waits := ∃ d ∈ s.cmds, d.f = c.f ∧ (bit c.body 64 = true ∨ d.r = c.r) ∧ d.seq < c.seq ∧ d.st < 2
    (Starts s seq.toNat 6 c → (waits → exec (.fence seq) s = .next (s.startCmd c)) ∧
      (¬ waits → exec (.fence seq) s = .next (s.doneCmd c.seq 0 0))) ∧
    (On s → s.cmd seq.toNat = some c → c.op = 6 → c.st = 1 → (waits → exec (.fence seq) s = .next s) ∧
      (¬ waits → exec (.fence seq) s = .next ((s.doneCmd c.seq 0 0).settle c.f))) ∧
    (Starts s seq.toNat 7 c → exec (.cancelBatch seq) s =
      .next (((s.part c.f).clus.foldl (fun t n => t.cancelOn c.f (bits c.body 64 3) (bits c.body 96 16) (bits c.body 112 16) n)
        s).doneCmd c.seq 0 0)) ∧
    (Starts s seq.toNat 0x30 c →
      (bits c.body 64 2 = 0 → exec (.query seq) s = .next (s.doneCmd c.seq 0 (s.partStat c.f))) ∧
      (bits c.body 64 2 = 1 → exec (.query seq) s = .next (s.doneCmd c.seq 0 (s.ctxStat c.f (bits c.body 72 3)))) ∧
      (bits c.body 64 2 = 2 → exec (.query seq) s = .next (s.doneCmd c.seq 0 s.jrnHead)))

/-- R366-R369, R385, R467: PART_CREATE reserves what its descriptor asks for, or is refused with its reason; its set-up leaves the partition
ACTIVE with nothing mapped, once its clusters' domains are ON; PART_DISABLE drains, its limit aborts, and the clean-up leaves the
partition FREE, its domains OFF and its share to be cleared, which reads zero after. -/
def Claims.PartitionLifecycle : Prop :=
  (∀ (s : State) (seq : BitVec 64) (c : Cmd),
    let p := c.f
    let d := bits c.body 128 256
    let x := s.part p
    (Starts s seq.toNat 0x10 c →
      (∀ r, s.createReason p d = r → r ≠ 0 → exec (.partCreate seq) s =
        .next ((s.setPart p { x with reason := r, err := true }).doneCmd c.seq 0x0608 r)) ∧
      (s.createReason p d = 0 → exec (.partCreate seq) s = .next ((s.setPart p
        { reason := x.reason, err := x.err, st := .creating, ruled := bit d 4, clus := pdClus d, quads := pdQuads d
          share := sizeOf_ ((s.grantDpa d).getD []), dpa := (s.grantDpa d).getD [], cmdSeq := some c.seq
          clk := (pdClus d).map (fun n => (n, max (tgetD s.plat.capDiv n 6) (tgetD s.plat.thDiv n 6))), nclk := s.plat.ndiv }).startCmd c))) ∧
    (Starts s seq.toNat 0x11 c → exec (.partDisable seq) s = .next (((s.setPart p { x with
      st := .draining, cmdSeq := some c.seq, drainTick := c.accept + s.drainLimit p }).startCmd c).settle p))) ∧
  (∀ (s : State) (p : BitVec 4) (c : Cmd), On s →
    let n := p.toNat
    let x := s.part n
    (x.st = .creating → s.clearingMeets x.dpa = false → (∀ k ∈ x.clus, s.plat.domOn k = true) → x.cmdSeq = some c.seq → s.cmd c.seq = some c →
      exec (.partCreateDone p) s = .next ((s.setUp n (bits c.body 128 256)).doneCmd c.seq 0 0)) ∧
    (x.st = .draining → x.resident = none → exec (.drainLimitExpiry p) s = .next ((s.reach x.drainTick).abortPart n)) ∧
    (x.st = .aborting → s.sf = [] → x.cmdSeq = none →
      exec (.partAbortDone p) s =
        .next ((((List.range 16).foldl (fun (t : State) q => t.tmvClear q n) s).dropPools n).releasePart n)) ∧
    (let t := s.releasePart n
     t.part n = { reason := x.reason, err := x.err } ∧ t.clearing = s.clearing ++ x.dpa ∧
     (∀ k ∈ x.clus, t.plat.domOn k = false) ∧ (∀ e ∈ t.cores, e.1 / 32768 ≠ n) ∧ (∀ e ∈ t.mslot, e.2.toNat ≠ 16 + n)) ∧
    (s.upsets = [] → exec .dramClearDone s = .next { s with
      dram := s.clearing.foldl (fun m r => mclear m (r.1 * 2 ^ 21) (r.2 * 2 ^ 21)) s.dram
      dramPoison := s.dramPoison.filter (fun l => !s.clearing.any (fun r => decide (r.1 ≤ l / 8192) && decide (l / 8192 < r.1 + r.2)))
      clearing := [] }) ∧
    (let t := s.setUp n 0
     (t.part n).st = .active ∧ (t.part n).lnt = [] ∧ (t.part n).ctxs = [] ∧ t.quantum n = usTicks 2000 ∧ t.drainLimit n = usTicks 5000))

/-- R437-R442: a CHECKPOINT of an IDLE context without open operations, in an area that is there, starts by writing the header as
invalid; a RESTORE starts by reading it; while one runs another is refused with CKP_BUSY. -/
def Claims.CheckpointAndRestore : Prop :=
  ∀ (s : State) (seq : BitVec 64) (c : Cmd),
    let p := c.f
    let n := bits c.body 64 3
    let x := s.ctx p n
    (Starts s seq.toNat 0x20 c →
      (x.st = .running → exec (.checkpoint seq) s = .next (s.doneCmd c.seq 0x0604 0)) ∧
      (x.st = .idle → s.areaBad p c.area = false → (s.part p).ckpt.isSome = true →
        exec (.checkpoint seq) s = .next (s.doneCmd c.seq cCKPBUSY 0)) ∧
      (x.st = .idle → s.areaBad p c.area = false → (s.part p).ckpt = none → s.ctxOpen p n = false →
        let s1 := (s.startCmd c).ckRecall p
        let k : Ckpt := { seq := c.seq, s := n, restore := false, watched := objGrans (s1.manifest c), torn := false, out := 0
                          blocks := 0, phase := 0, code := 0, man := s1.manifest c
                          img := (s1.inkSection p).map (fun e => (imgInk + e.1, e.2)) }
        exec (.checkpoint seq) s = .next (((s1.setCkpt p k).setCkpPart p { s1.ckpPart p with op := 1, blocks := 0 }).ckSend p c 2 0 8 0 0))) ∧
    (Starts s seq.toNat 0x21 c →
      (x.st = .running → exec (.restore seq) s = .next (s.doneCmd c.seq 0x0604 0)) ∧
      (x.st = .idle → s.areaBad p c.area = false → (s.part p).ckpt = none →
        let k : Ckpt := { seq := c.seq, s := n, restore := true, watched := [], torn := false, out := 0, blocks := 0, phase := 10
                          code := 0, man := [], img := [] }
        exec (.restore seq) s = .next ((((s.startCmd c).setCkpt p k).setCkpPart p { s.ckpPart p with op := 2, blocks := 0 }).ckPump p)))

/-! DynerLink and the rings (11 R393-R403, R413-R417). -/

/-- R395-R397: where the device's memories are free of errors, a LoadPeek of a line of an ACTIVE partition returns its current bytes and
caches nothing; LoadShare and LoadClaim return the line and leave an entry that says which; poison, and what the table does not name, is
refused and changes nothing else; a request on a block being moved waits; a full set of the filter first gives up its oldest entry. -/
def Claims.HostReads : Prop :=
  ∀ (s : State) (a : BitVec 64), On s → s.link = .up → s.upsets = [] →
    let n := a.toNat
    (n < 0x04000000 → n % 8 = 0 → exec (.loadpeek .mgmt a 8) s = .next (s.tell (.reply .mgmt n 0 false 8 (s.regRead n)))) ∧
    (∀ sz : BitVec 9, 0x05080000 ≤ n → exec (.loadpeek .mgmt a sz) s =
      .next ((s.count 0x0609).tell (.reply .mgmt n 0x0609 false 0 0))) ∧
    (∀ (f : BitVec 4) (sz : BitVec 9) (h : Home), peekOk n sz.toNat = true → wlIndex n = none → s.hostHome f.toNat n = some h →
      s.migBusy f.toNat n = false →
      exec (.loadpeek (.func f) a sz) s = .next (if s.hpoison h sz.toNat
        then (s.count 0x0805).tell (.reply (.func f) n 0x0805 false 0 0)
        else s.tell (.reply (.func f) n 0 false sz.toNat (s.hread h sz.toNat)))) ∧
    (∀ (f : BitVec 4) (sz : BitVec 9) (h : Home), peekOk n sz.toNat = true → wlIndex n = none → s.hostHome f.toNat n = some h →
      s.migBusy f.toNat n = true →
      exec (.loadpeek (.func f) a sz) s = .next { s with blocked := s.blocked ++ [⟨f.toNat, n, .peek sz.toNat⟩] }) ∧
    (∀ (f : BitVec 4) (claim : Bool) (h : Home), n % 64 = 0 → wlIndex n = none → s.hostHome f.toNat n = some h →
      s.migBusy f.toNat n = false → (claim = true → s.hostRo f.toNat n = false) →
      let op := if claim then Instr.loadclaim (.func f) a else Instr.loadshare (.func f) a
      (s.hpoison h 64 = true → exec op s = .next ((s.count 0x0805).tell (.reply (.func f) n 0x0805 false 0 0))) ∧
      let ok := (s.sfInsert f.toNat (n / 64) claim).tell (.reply (.func f) n 0 true 64 (s.hread h 64))
      let wait : State := { s with blocked := s.blocked ++ [⟨f.toNat, n, .share claim⟩] }
      (s.hpoison h 64 = false → exec op s = .next (match s.sfSetOf f.toNat (n / 64) with
        | [] => ok
        | v :: vs => if s.sfEntry f.toNat (n / 64) = none ∧ 15 ≤ vs.length then
            (if (v.f, v.line) ∈ s.recalls then wait else (wait.count 0x0612).sendRecall v.f v.line) else ok))) ∧
    (∀ (f l : Nat) (c : Bool), let t := s.sfInsert f l c
      ∃ e, t.sfEntry f l = some e ∧ e.f = f ∧ e.line = l ∧ (c = true → e.claimed = true) ∧
        (∀ g k, (g ≠ f ∨ k ≠ l) → t.sfEntry g k = s.sfEntry g k)) ∧
    (∀ t : HostTarget, n % 64 ≠ 0 → exec (.loadshare t a) s = .next ((s.count 0x0609).tell (.reply t n 0x0609 false 0 0)) ∧
      exec (.loadclaim t a) s = .next ((s.count 0x0609).tell (.reply t n 0x0609 false 0 0)))

/-- R396, R400: where memory is free of errors, a StoreMask writes the masked bytes of a line at its home and no others; one to a watched
line is stored and wakes its rings; to an RO object it is refused; to a block being moved it waits; a host atomic leaves the result of R43
and returns the old value, on a watched line too. -/
def Claims.HostWrites : Prop :=
  (∀ (s : State) (f : BitVec 4) (a mask : BitVec 64) (data : BitVec 512), On s → s.link = .up → s.upsets = [] → a.toNat % 64 = 0 →
    let n := a.toNat
    (∀ h, wlIndex n = none → s.hostHome f.toNat n = some h → s.hostRo f.toNat n = false → s.migBusy f.toNat n = true →
      exec (.storemask (.func f) a mask data) s =
        .next { s with blocked := s.blocked ++ [⟨f.toNat, n, .mask mask.toNat data.toNat⟩] }) ∧
    (∀ h, wlIndex n = none → s.hostHome f.toNat n = some h → s.migBusy f.toNat n = false →
      exec (.storemask (.func f) a mask data) s = .next (if s.hostRo f.toNat n
        then s.tell (.reply (.func f) n 0x0403 false 0 0)
        else ((s.hwrite h 64 (maskBytes mask.toNat data.toNat (s.hread h 64) 64)).noteWrite f.toNat n).tell
          (.reply (.func f) n 0 false 0 0))) ∧
    (∀ i, wlIndex n = some i → exec (.storemask (.func f) a mask data) s = .next (if s.wlOf f.toNat i
        then (({ s with wl := mwrite s.wl (64 * i) 64 (maskBytes mask.toNat data.toNat (mread s.wl (64 * i) 64) 64) } : State).wakeLine
          i).tell (.reply (.func f) n 0 false 0 0)
        else (s.count 0x0609).tell (.reply (.func f) n 0x0609 false 0 0))) ∧
    (∀ i, i < 8 → mask.toNat = 0xFF * 2 ^ (8 * i) → n < 0x04000000 → exec (.storemask .mgmt a mask data) s =
      .next ((s.tell (.reply .mgmt n 0 false 0 0)).regWrite (n + 8 * i) (bits data.toNat (64 * i) 64)))) ∧
  (∀ (mask new old n i : Nat), i < n →
    bits (maskBytes mask new old n) (8 * i) 8 = if bit mask i then bits new (8 * i) 8 else bits old (8 * i) 8) ∧
  (∀ (s : State) (f : BitVec 4) (a : BitVec 64) (x y : BitVec 128) (h : Home), On s → s.link = .up → s.upsets = [] →
    let n := a.toNat
    wlIndex n = none → s.hostHome f.toNat n = some h → s.hostRo f.toNat n = false → s.migBusy f.toNat n = false →
    (∀ ty : BitVec 2, ty.toNat ≤ 1 → n % (4 + 4 * ty.toNat) = 0 → s.hpoison h (4 + 4 * ty.toNat) = false →
      let w := 4 + 4 * ty.toNat
      exec (.hostAtomic (.func f) a false false ty x y) s =
        .next (((s.hwrite h w ((s.hread h w + x.toNat) % 2 ^ (8 * w))).noteWrite f.toNat n).tell (.reply (.func f) n 0 false w (s.hread h w)))) ∧
    (∀ (wide : Bool) (ty : BitVec 2), let w := if wide then 16 else 8
      n % w = 0 → s.hpoison h w = false →
      let old := s.hread h w
      exec (.hostAtomic (.func f) a true wide ty x y) s =
        .next (((s.hwrite h w (if old = y.toNat % 2 ^ (8 * w) then x.toNat else old)).noteWrite f.toNat n).tell
          (.reply (.func f) n 0 false w old)))) ∧
  (∀ (s : State) (f : BitVec 4) (a : BitVec 64) (i : Nat) (x y : BitVec 128), On s → s.link = .up → wlIndex a.toNat = some i →
    s.wlOf f.toNat i = true → a.toNat % 8 = 0 →
    let at_ := a.toNat - 0xFFFFFFE40000
    let old := mread s.wl at_ 8
    exec (.hostAtomic (.func f) a false false 1 x y) s =
      .next ((({ s with wl := mwrite s.wl at_ 8 ((old + x.toNat) % 2 ^ 64) } : State).wakeLine i).tell
        (.reply (.func f) a.toNat 0 false 8 old)))

/-- R395-R399: copies given back, refused where the function reaches no such line; the answer to a device request takes the request out
and reaches what waits for it, and host requests that waited are tried again; a Recall
unanswered, or the loss of the link, poisons every claimed line, empties the filter and takes the link DOWN; it trains again.
The model's own readings, where the spec is open: log 46. -/
def Obligations.HostReturns : Prop :=
  ∀ (s : State), On s → 
    (s.link = .up →
      (∀ (f : BitVec 4) (a : BitVec 64) (d : BitVec 512) (e : SfEnt), a.toNat % 64 = 0 → (s.part f.toNat).st = .active →
        (s.sfEntry f.toNat (a.toNat / 64) = some e → e.claimed = true → exec (.returndirty (.func f) a d) s =
          .next (((s.lineWrite f.toNat (a.toNat / 64) d.toNat).tell (.reply (.func f) a.toNat 0 false 0 0)).lineBack f.toNat
            (a.toNat / 64))) ∧
        (s.sfEntry f.toNat (a.toNat / 64) = none → exec (.returndirty (.func f) a d) s =
          .next ((s.count 0x0609).tell (.reply (.func f) a.toNat 0x0609 false 0 0))) ∧
        exec (.returnclean (.func f) a) s = .next (if s.reachesLine f.toNat a.toNat
          then (s.tell (.reply (.func f) a.toNat 0 false 0 0)).lineBack f.toNat (a.toNat / 64)
          else (s.count 0x0609).tell (.reply (.func f) a.toNat 0x0609 false 0 0))) ∧
      (∀ (f : BitVec 4) (l : BitVec 48) (dirty : Bool) (d : BitVec 512), let k := (f.toNat, l.toNat)
        let s0 : State := { s with recalls := s.recalls.filter (fun r => r != k) }
        (k ∈ s.recalls → dirty = false → exec (.recallResponse f l dirty d) s = .next (s0.lineBack f.toNat l.toNat)) ∧
        (∀ e, k ∈ s.recalls → dirty = true → s.sfEntry f.toNat l.toNat = some e → e.claimed = true →
          exec (.recallResponse f l dirty d) s = .next ((s0.lineWrite f.toNat l.toNat d.toNat).lineBack f.toNat l.toNat)) ∧
        (k ∈ s.recalls → exec (.recallTimeout f l) s = .next (s.linkDown true))) ∧
      exec .dynerlinkDown s = .next (s.linkDown true) ∧
      (∀ (r : HostReq) (id : BitVec 32) (code : BitVec 16) (data : Nat), s.hreqs = [r] → r.id % 2 ^ 32 = id.toNat →
        (∀ p o b i, r.wait = .stage p o b i →
          let s0 : State := { s with hreqs := [] }
          exec (.hostResponse id code data) s = .next (if code = 0 then s0.stageArrive p o b i (data % 2 ^ (8 * r.size)) false
            else if code.toNat = 0x0805 then s0.stageArrive p o b i (data % 2 ^ (8 * r.size)) true else s0.stageLost p o b).retryBlocked) ∧
        (r.wait = .complete → s.blocked = [] → exec (.hostResponse id code data) s = .next { s with hreqs := [] })) ∧
      (∀ (r x : HostReq) (id : BitVec 32) (data : Nat), s.hreqs = [r, x] → r.id % 2 ^ 32 = id.toNat → r.kind = 1 → x.grp = r.grp →
        x.id ≠ r.id → r.wait = .complete → s.blocked = [] →
        exec (.hostResponse id 0 data) s = .next { s with hreqs := [x] })) ∧
    (s.hreqs = [] → s.cmds = [] → s.grps = [] → (∀ p, (s.part p).ckpt = none) → (s.sf.any SfEnt.claimed) = false → s.linkDown true =
      ({ s with sf := [], recalls := [], blocked := [], link := .down, linkWidth := 0, hostTx := [] } : State).count 0x0613) ∧
    (∀ w : LinkWidth, s.link ≠ .up → 5 ≤ s.plat.stage → s.plat.stage ≤ 6 → bits (s.rg 0x02100200) 0 3 = 0 →
      exec (.dynerlinkTraining w) s = .next { s with link := .up, linkWidth := widthCode w })

/-- R404, R413-R415: the record of the ring in turn is accepted: it takes the next sequence number, and a journal entry ACCEPTED with
that number at both ends and the record's digest; a record that the table refuses ends at once with CMD_BADREC, and one after a
PART_DISABLE of its function that has not finished, but for QUERY and PART_CREATE (R406), with CMD_STATE. -/
def Claims.RecordAccepted : Prop :=
  ∀ (s : State) (f r : Nat) (rec : Nat),
    let t := s.accept f r (some rec)
    let c : Cmd := { seq := s.jrnHead, f, r, ridx := (s.ring (ringKey f r)).head, body := rec, st := 0, parts := 0, fails := [], code := 0
                     detail := 0, accept := s.now, fin := 0 }
    (t.jrnHead = s.jrnHead + 1) ∧ (t.ring (ringKey f r)).head = ((s.ring (ringKey f r)).head + 1) % 2 ^ 32 ∧
    (c.badRec = false → s.afterDisable c = false → t.cmds = s.cmds ++ [c] ∧ ∃ e, tget t.jrn (s.jrnHead % 262144) = some e ∧
      e = c.entry (sha3x256 rec 64 % 2 ^ 64)) ∧
    (s.jrnHead < 2 ^ 64 → rec < 2 ^ 512 → f < 16 → r < 64 → let e := c.entry (sha3x256 rec 64 % 2 ^ 64)
      bits e 0 64 = s.jrnHead ∧ bits e 448 64 = s.jrnHead ∧ bits e 64 64 = sha3x256 rec 64 % 2 ^ 64 ∧ bits e 288 3 = 0 ∧
      bits e 272 4 = f ∧ bits e 280 6 = r ∧ bits e 296 8 = bits rec 0 8) ∧
    (c.badRec = true → s.cmd s.jrnHead = none → (s.ring (ringKey f r)).st = 1 →
      ∃ d, t.cmd s.jrnHead = some d ∧ d.st = 2 ∧ d.code = 0x0603 ∧ d.parts = 0 ∧ t.order = s.order ++ [s.jrnHead]) ∧
    (c.badRec = false → s.afterDisable c = true → s.cmd s.jrnHead = none → (s.ring (ringKey f r)).st = 1 →
      ∃ d, t.cmd s.jrnHead = some d ∧ d.st = 2 ∧ d.code = 0x0604 ∧ d.parts = 0 ∧ t.order = s.order ++ [s.jrnHead]) ∧
    (s.afterDisable c = true ↔ bits rec 0 8 ≠ 0x30 ∧ bits rec 0 8 ≠ 0x10 ∧
      ∃ d ∈ s.cmds, d.f = f ∧ d.st < 2 ∧ bits d.body 0 8 = 0x11 ∧ d.seq < s.jrnHead) ∧
    (recOperands (bits rec 0 8) = none → c.badRec = true) ∧ (bits rec 11 21 ≠ 0 → c.badRec = true)

/-- R398, R402, R415: what ring service does with the ring in turn: ERROR on indices out of range, sleep when it has no record, a wait when
the journal is full, and otherwise one record: from the Reservoir at once, from host memory by a LoadPeek, once, and accepted when the
answer comes; other rings, and a device before boot stage 5 (R480), are left alone. -/
def Claims.RingService : Prop :=
  ∀ (s : State) (f : BitVec 4) (r : BitVec 6) (rec : BitVec 512),
    let k := ringKey f.toNat r.toNat
    let g := s.ring k
    let bad := 2 ^ (min 10 (bits (s.ringCtl f.toNat r.toNat) 1 4) + 6) < (s.ringTail f.toNat r.toNat + 2 ^ 32 - g.head) % 2 ^ 32 ∨
      2 ^ (min 10 (bits (s.ringCtl f.toNat r.toNat) 5 4) + 6) < (g.cqt + 2 ^ 32 - s.ringCqh f.toNat r.toNat) % 2 ^ 32
    let base := s.rg (0x00610000 + 0x800 * f.toNat + 0x20 * r.toNat)
    let a := base / 64 % 2 ^ 46 * 64 + 64 * (g.head % 2 ^ (min 10 (bits (s.ringCtl f.toNat r.toNat) 1 4) + 6))
    let some_ := ¬ bad ∧ s.ringTail f.toNat r.toNat ≠ g.head
    (s.nextRing ≠ some k → exec (.ringService f r rec) s = .next s) ∧
    (s.plat.berr ≠ 0 ∨ s.plat.stage < 5 → exec (.ringService f r rec) s = .next s) ∧
    (On s → s.plat.berr = 0 → 5 ≤ s.plat.stage → s.nextRing = some k →
      (bad → exec (.ringService f r rec) s = .next (((s.setRing k { g with st := 2, woken := false }).count 0x0610).dropDue f.toNat
        r.toNat)) ∧
      (¬ bad → s.ringTail f.toNat r.toNat = g.head → exec (.ringService f r rec) s =
        .next { s.setRing k { g with woken := false } with turnTaken := if s.turnRing = k then 0 else s.turnTaken }) ∧
      (some_ → s.jrnFull = true → s.jrnWait = false → exec (.ringService f r rec) s = .next (({ s with jrnWait := true } : State).count 0x0611)) ∧
      (some_ → s.jrnFull = false → bit base 0 = true → exec (.ringService f r rec) s = .next (s.recordServe f.toNat r.toNat a)) ∧
      (some_ → s.jrnFull = false → bit base 0 = false → s.link = .up → (∀ x ∈ s.hreqs, x.wait ≠ .record k) →
        exec (.ringService f r rec) s = .next (s.hostAsk 0 a 64 0 (.record k)))) ∧
    (∀ d x, a < 2 ^ 48 → s.upsets = [] → s.far = [] → s.tblBad f.toNat a 0 64 false = none → s.tblHeld (.ring k) f.toNat a 0 64 false = [] →
      s.homeOf f.toNat a = some (.mem d x) → s.hpoison (.mem d x) 64 = false →
      s.recordServe f.toNat r.toNat a =
        ({ s with free := s.free + 2 ^ 48 } : State).accept f.toNat r.toNat (some (s.hread (.mem d x) 64))) ∧
    (∀ v, g.st = 1 → s.ringTail f.toNat r.toNat ≠ g.head → s.jrnFull = false →
      s.recordArrive k a v false = s.accept f.toNat r.toNat (some v) ∧ s.recordArrive k a v true = s.accept f.toNat r.toNat none) ∧
    (s.nextRing = some k → g.st = 1 ∧ g.woken = true ∧ (s.liveCmds (k / 64)).length < 256)

/-- R403, R408, R413: the completion of a ring that falls due first is written to the host at index CQT, with its PHASE, and CQT
advances; an event message follows where the ring sends them and the command is not QUIET; a full completion ring holds it. -/
def Claims.Completions : Prop :=
  (∀ (s : State) (f : BitVec 4) (r : BitVec 6) (c : Cmd), On s → s.dueOn f.toNat r.toNat = some c →
    let k := ringKey f.toNat r.toNat
    let g := s.ring k
    let n := 2 ^ (min 10 (bits (s.ringCtl f.toNat r.toNat) 5 4) + 6)
    let base := s.rg (0x00610000 + 0x800 * f.toNat + 0x20 * r.toNat + 8)
    (g.st ≠ 1 → exec (.completionWrite f r) s = .next s) ∧
    (g.st = 1 → s.ringOut f.toNat r.toNat = false →
      (n ≤ (g.cqt + 2 ^ 32 - s.ringCqh f.toNat r.toNat) % 2 ^ 32 → exec (.completionWrite f r) s = .next s) ∧
      ((g.cqt + 2 ^ 32 - s.ringCqh f.toNat r.toNat) % 2 ^ 32 < n → bit base 0 = false → s.link = .up →
        exec (.completionWrite f r) s = .next ((s.hostAsk 1 (base / 64 % 2 ^ 46 * 64 + 64 * (g.cqt % n)) 64
          (c.completion (g.cqt / n % 2 == 0)) .complete).completed c)) ∧
      ((g.cqt + 2 ^ 32 - s.ringCqh f.toNat r.toNat) % 2 ^ 32 < n → s.link ≠ .up →
        exec (.completionWrite f r) s = .next (s.forget c.seq)))) ∧
  (∀ (s : State) (c : Cmd), let t := s.completed c
    (t.ring (ringKey c.f c.r)).cqt = ((s.ring (ringKey c.f c.r)).cqt + 1) % 2 ^ 32 ∧ t.cmd c.seq = none ∧ c.seq ∉ t.order ∧ t.jrn = s.jrn ∧
    t.hostTx = s.hostTx ++ (if bit (s.ringCtl c.f c.r) 35 = true ∧ bit c.body 10 = false then
      [HostMsg.event (bits (s.ringCtl c.f c.r) 24 11)] else []))

/-- R400, R417: a ring is enabled only with a watched line of its function, and becomes ACTIVE; disabling makes it DISABLED; a store to a
watched line wakes the ACTIVE rings that name it. -/
def Claims.RingStates : Prop :=
  (∀ (s : State) (f : BitVec 4) (r : BitVec 6) (v : BitVec 64), On s →
    let k := ringKey f.toNat r.toNat
    let o := 0x00610010 + 0x800 * f.toNat + 0x20 * r.toNat
    let old := s.rg o
    let new := v.toNat % 2 ^ 36
    (bit v.toNat 0 = true → bit old 0 = false → s.wlOf f.toNat (bits new 9 12) = true →
      exec (.ringEnable f r v) s = .next ((s.setRg o new).setRing k { s.ring k with st := 1 })) ∧
    (bit v.toNat 0 = true → bit old 0 = false → s.wlOf f.toNat (bits new 9 12) = false →
      exec (.ringEnable f r v) s = .next (s.setRg o (new - 1))) ∧
    (bit v.toNat 0 = false → (bit old 0 = false ∨ old / 2 = new / 2) →
      exec (.ringDisable f r v) s = .next (((s.setRg o new).setRing k { s.ring k with st := 0, woken := false }).dropDue f.toNat r.toNat)) ∧
    (bit v.toNat 0 = false → bit old 0 = true → old / 2 ≠ new / 2 → exec (.ringDisable f r v) s = .next s)) ∧
  (∀ (s : State) (i k : Nat), ((s.wakeLine i).ring k).woken =
    ((s.ring k).woken || ((s.ring k).st == 1 && bits (s.ringCtl (k / 64) (k % 64)) 9 12 == i)))

/-! Control registers and counters (12 R423, 15 R500-R506). -/

/-- R423, R232: counters: an addition saturates at 2^48 - 1 with SAT, nothing is counted while SAT is 1, and only a write with bit 63
clears it; a counter that saturates is recorded and counted. -/
def Claims.Counters : Prop :=
  (∀ v n : Nat, v < 2 ^ 48 → (v + n < 2 ^ 48 → cntAdd v n = v + n) ∧ (2 ^ 48 ≤ v + n → cntAdd v n = 2 ^ 63 + (2 ^ 48 - 1)) ∧
    (∀ x : Nat, x < 2 ^ 64 → (2 ^ 63 ≤ x → cntWrite v x = x % 2 ^ 48) ∧ (x < 2 ^ 63 → cntWrite v x = x % 2 ^ 48))) ∧
  (∀ v n x : Nat, 2 ^ 63 ≤ v → cntAdd v n = v ∧ (2 ^ 63 ≤ x → cntWrite v x = x % 2 ^ 48) ∧ (x < 2 ^ 63 → cntWrite v x = v)) ∧
  (∀ (s : State) (o : BitVec 26) (v : BitVec 64), On s → exec (.counterWrite o v) s = .next (if isCounter o.toNat
    then s.setCnt o.toNat (cntWrite (s.cnt o.toNat) v.toNat) else s)) ∧
  (∀ (s : State) (o code n : Nat), s.cnt o < 2 ^ 48 → n ≤ 2 ^ 48 →
    (s.cnt o + n < 2 ^ 48 → s.countAt o code n = s.setCnt o (s.cnt o + n)) ∧
    (2 ^ 48 ≤ s.cnt o + n → o ≠ 0x00801080 → s.bltq.length < 64 →
      let t := s.countAt o code n
      t.cnt o = 2 ^ 63 + (2 ^ 48 - 1) ∧ t.cnt 0x00801080 = cntAdd (s.cnt 0x00801080) 1 ∧ ∃ e, t.bltq = s.bltq ++ [e] ∧ e.code = 0x0810) ∧
    (∀ x, x ≠ o → x ≠ 0x00801080 → s.bltq.length < 64 → (s.countAt o code n).cnt x = s.cnt x))

/-- R423, R501, R505: a register write through a path that reaches the register has its effect and no other does; an offset that no register
occupies reads zero and ignores writes; a stored register reads what was written in its fields. -/
def Claims.ControlWindow : Prop :=
  (∀ (s : State) (path : RegPath) (o : BitVec 26) (v : BitVec 64),
    exec (.registerWrite path o v) s = .next (if s.pathOpen path o.toNat then s.regWrite o.toNat v.toNat else s)) ∧
  (∀ (s : State) (o : BitVec 32) (v : BitVec 64), exec (.i3cPrivateWrite o v) s =
    .next (if s.pathOpen .i3c (o.toNat % 2 ^ 26) then s.regWrite (o.toNat % 2 ^ 26) v.toNat else s) ∧
    exec (.i3cPrivateRead o) s = .next (if s.pathOpen .i3c (o.toNat % 2 ^ 26)
      then { s with plat := { s.plat with i3cOut := w64 (s.regRead (o.toNat % 2 ^ 26)) } } else s)) ∧
  (∀ (s : State) (o v : Nat), occupied o = false → s.regRead o = 0 ∧ s.regWrite o v = s) ∧
  (∀ (s : State) (o v : Nat), isCounter o = true → s.regRead o = s.cnt o ∧ s.regWrite o v = s.setCnt o (cntWrite (s.cnt o) v)) ∧
  (∀ (s : State) (v p : Nat), v < 2 ^ 64 → p < 16 →
    (s.regWrite 0x00D00000 v).regRead 0x00D00000 = v % 2 ^ 17 ∧ (s.regWrite 0x00200008 v).regRead 0x00200008 = v % 2 ^ 11 ∧
    (s.regWrite 0x00800018 v).regRead 0x00800018 = v % 2 ^ 12 ∧
    (s.regWrite (0x00D00200 + 0x10 * p) v).regRead (0x00D00200 + 0x10 * p) = v % 2 ^ 36 ∧
    (s.regWrite (0x00900000 + 0x40 * p + 8) v) = s ∧ (s.regWrite 0x00700000 v) = s ∧ (s.regWrite 0 v) = s) ∧
  (∀ (s : State) (o : Nat), s.pathOpen .fabric o = true → o / 2 ^ 20 ≠ 5 ∧ occupied o = true ∧ s.plat.power = .running)

/-- R501: a 128-bit register takes its low word from the staging word that the low half filled; neither the register nor another's staging
changes until the high half is written. -/
def Claims.WideRegisters : Prop :=
  ∀ (s : State) (c lo hi : Nat), c < 4096 → lo < 2 ^ 64 → hi < 2 ^ 64 →
    let o := 0x00D70000 + 16 * c
    let s1 := s.regWrite o lo
    let s2 := s1.regWrite (o + 8) hi
    s1 = { s with stage128 := tput s.stage128 o (w64 lo) } ∧ s1.regRead o = s.regRead o ∧
    s2.circ = tput s.circ c (BitVec.ofNat 128 ((lo + hi * 2 ^ 64) &&& (2 ^ 8 - 1 + (2 ^ 12 - 1) * 2 ^ 16 + (2 ^ 10 - 1) * 2 ^ 32
      + (2 ^ 5 - 1) * 2 ^ 48 + (2 ^ 16 - 1) * 2 ^ 64))) ∧
    { s2 with circ := s.circ } = s1

/-! The Saturation Monitor, checkpoint intervals (12 R433-R447). -/

/-- R434-R436: a window's end keeps the measures, counts the level that is named, and records it in the history at its place; the level is
0 where none reaches the threshold, and otherwise the lowest of those with the largest stall. -/
def Claims.SaturationMonitor : Prop :=
  (∀ (s : State) (util stall : BitVec 64), On s → s.plat.tbRun = true →
    let w := s.now / 1050
    let lv := satLevel (min 1024 (bits s.satCfg 0 11)) util stall
    let cur := w64 (lv + w % 2 ^ 48 * 2 ^ 16)
    let s1 := s.reach (1050 * (w + 1))
    let s2 : State := { s1 with
      satCur := cur, satUtil := w64 (satPack util), satStall := w64 (satPack stall), satHist := tput s.satHist (w % 64) cur
      satCfg := s.rg 0x02010000 }
    exec (.satWindowEnd util stall) s = .next (if lv = 0 then s2 else s2.countAt (0x02010400 + 8 * lv) 0 1)) ∧
  (∀ (th : Nat) (util stall : BitVec 64), let lv := satLevel th util stall
    let u := fun l => min 1024 (fld util (12 * (l - 1)) 11)
    let st := fun l => min 1024 (fld stall (12 * (l - 1)) 11)
    (lv = 0 → ∀ l, 1 ≤ l → l ≤ 5 → u l < th) ∧
    (lv ≠ 0 → lv ≤ 5 ∧ th ≤ u lv ∧ ∀ l, 1 ≤ l → l ≤ 5 → th ≤ u l → st l ≤ st lv ∧ (st l = st lv → lv ≤ l)))

/-- R445-R447: a failure moves the mean time by the distance from the last one over 2^ALPHA, rounded, unless it falls within MERGE; while
Scribe-M restarts failures are kept and recorded when it runs again; a checkpoint falls due at its tick; the interval is the
square root of twice the cost times the mean time, within its limits. -/
def Claims.CheckpointIntervals : Prop :=
  (∀ (s : State) (p : BitVec 4), On s →
    (exec .ckpFail s = .next (if s.plat.scribeDown.contains 2
      then { s with plat := { s.plat with failLatch := s.plat.failLatch ++ [s.now] } } else s.ckFailAt s.now)) ∧
    ((s.ckpPart p.toNat).due = false → let k := s.ckpPart p.toNat
      exec (.ckpDue p) s = .next ((s.reach (k.last + 1050000 * k.interval)).setCkpPart p.toNat { k with due := true })) ∧
    (∀ t, (s.hasPrev = false → s.ckFailAt t = { s with hasPrev := true, lastFail := t }) ∧
      (s.hasPrev = true → t - s.lastFail < bits (s.rg 0x00B02008) 16 16 * 1050000000 → s.ckFailAt t = s) ∧
      (s.hasPrev = true → bits (s.rg 0x00B02008) 16 16 * 1050000000 ≤ t - s.lastFail →
        let u := s.ckFailAt t
        u.lastFail = t ∧ u.mtbf = mtbfNext s.mtbf (max 1 (bits (s.rg 0x00B02008) 0 3)) (t - s.lastFail) % 2 ^ 32)) ∧
    (∀ k : BitVec 2, k.toNat ∈ s.plat.scribeDown → k.toNat ≠ 2 → exec (.scribeRestartDone k) s = .next { s with plat := { s.plat with
      scribeDown := s.plat.scribeDown.filter (fun i => i != k.toNat), holdP := s.plat.holdP && k.toNat != 1 } }) ∧
    (2 ∈ s.plat.scribeDown → exec (.scribeRestartDone 2) s = .next (s.plat.failLatch.foldl (fun t d => t.ckFailAt d)
      { s with plat := { s.plat with scribeDown := s.plat.scribeDown.filter (fun i => i != 2), failLatch := [] } }))) ∧
  (∀ n v : Nat, v < 2 ^ (2 * n) → ckSqrt n v 0 * ckSqrt n v 0 ≤ v ∧ v < (ckSqrt n v 0 + 1) * (ckSqrt n v 0 + 1)) ∧
  (∀ m a d : Nat, let den := 2 ^ a * 1050000000
    let x := m * (2 ^ a - 1) * 1050000000 + d
    2 * (mtbfNext m a d * den) ≤ 2 * x + den ∧ 2 * x < 2 * (mtbfNext m a d * den) + den)

/-! Resets, power, clocks, temperature (13 R448-R476, 14 R477-R479, R491-R494). -/

/-- R477, R478: a power-on reset leaves every field at its reset value but for what no reset reaches: the TAP, the fuses, and the flash,
which keeps its image unless its programming was cut off; the device then waits for PWR_GOOD, whose rise begins a boot; a cold reset keeps
the timebase and the Blot Log; a low COLD_RESET_L holds the device; the loss of the auxiliary supplies loses the log. -/
def Claims.PowerOnAndColdReset : Prop :=
  ∀ (s : State),
    (∃ flash free, ((s.plat.updSt = 0 ∨ 3 < s.plat.updSt) → s.plat.recSt ≠ 3 → flash = s.plat.flash ∧ free = s.free) ∧
      exec .powerOnReset s = .next { State.reset with
        pending := s.pending, free, plat := { power := .waitGood, flash, fieldLife := s.plat.fieldLife, tapIr := s.plat.tapIr } } ∧
      exec .auxSupplyLoss s = .next { State.reset with
        pending := s.pending, free, plat := { power := .islandReset, flash, fieldLife := s.plat.fieldLife, tapIr := s.plat.tapIr } }) ∧
    (s.plat.power = .waitGood ∨ s.plat.power = .stopped →
      exec .pwrGoodAssert s = .next ({ s with plat := { s.plat with pwrGood := true } } : State).coldReset) ∧
    (s.plat.power = .inReset → exec .pwrGoodAssert s = .next { s with plat := { s.plat with pwrGood := true } } ∧
      exec .coldResetL s = .next (if s.plat.pwrGood then s.coldReset else { s with plat := { s.plat with power := .waitGood } }) ∧
      exec .warmResetL s = .next s) ∧
    (s.plat.power ≠ .islandReset → ∃ t : State, exec .coldResetAssert s = .next t ∧ t.plat.power = .inReset ∧ t.parts = [] ∧ t.jrn = [] ∧
      t.blt = s.blt ∧ t.plat.tb = s.plat.tb) ∧
    (let t := s.coldReset
     t.parts = [] ∧ t.cores = [] ∧ t.dram = [] ∧ t.jrn = [] ∧ t.cmds = [] ∧ t.ctr = [] ∧ t.plat.stage = 0 ∧ t.plat.tb = s.plat.tb ∧
     t.plat.tapIr = s.plat.tapIr ∧ ((s.plat.updSt = 0 ∨ 3 < s.plat.updSt) → s.plat.recSt ≠ 3 → t.plat.flash = s.plat.flash) ∧
     t.blt = s.blt ∧ t.bltHead = s.bltHead ∧ (∀ o, o ≠ 0x00800008 → t.rg o = regReset o) ∧ t.rg 0x00800008 = s.rg 0x00800008 ∧
     t.plat.power = (if s.plat.lock then .running else .waitGood))

/-- R414, R477, R479: a warm reset of a device that was ready keeps the journal, in which a command that had not ended is ABORTED, the
node numbers, the checkpoint registers and the log, and clears what the partitions held; before that it acts as a cold one. -/
def Claims.WarmReset : Prop :=
  (∀ (s : State), On s → ∃ t : State,
    exec .warmResetL s = .next t ∧ exec (.fwsReset 0x57525354) s = .next t ∧
    (s.plat.ready6 = false → s.plat.warmBoot = false → t = s.coldReset) ∧
    (s.plat.ready6 = true → t.plat.power = .running ∧ t.plat.warmBoot = true ∧ t.plat.stage = 0 ∧ t.parts = [] ∧ t.cmds = [] ∧ t.rings = [] ∧
      t.jrnHead = s.jrnHead ∧ t.jrn = s.jrn.map (fun e => (e.1, jrnAborted s.now e.2)) ∧
      t.rg 0x00D00000 = s.rg 0x00D00000 ∧ t.rg 0x00D00008 = s.rg 0x00D00008 ∧ t.mtbf = s.mtbf ∧ t.lastFail = s.lastFail ∧
      t.blt = s.blt ∧ t.bltHead = s.bltHead ∧ t.dram = s.dram ∧
      (∀ p r, p < 16 → (s.part p).st ≠ .free → r ∈ (s.part p).dpa → r ∈ t.clearing))) ∧
  (∀ (s : State) (v : BitVec 64), fld v 0 32 ≠ 0x57525354 → exec (.fwsReset v) s = .next s) ∧
  (∀ now e : Nat, (2 ≤ bits e 288 3 → jrnAborted now e = e) ∧ (bits e 288 3 < 2 →
    bits (jrnAborted now e) 288 3 = 3 ∧ bits (jrnAborted now e) 256 16 = 0x0601 ∧ bits (jrnAborted now e) 384 64 = now % 2 ^ 64 ∧
    bits (jrnAborted now e) 0 256 = bits e 0 256))

/-- R457, R465, R470, R496: what stops the device: the loss of PWR_GOOD, a rail in fault, the loss of the root PLL's lock, a second sample
at a trip limit, EXTEST; the clocks stop, links go DOWN, and the cause is recorded but for PWR_GOOD and EXTEST. -/
def Claims.DeviceStops : Prop :=
  (∀ (s : State), On s →
    exec .pwrGoodDeassert s = .next ({ s with plat := { s.plat with pwrGood := false } } : State).stopDevice ∧
    exec .extest s = .next ({ s with plat := { s.plat with tapIr := 0 } } : State).stopDevice ∧
    (∀ (r : BitVec 4) (mv : BitVec 12), r.toNat ≤ 6 → railBad s.plat r.toNat mv.toNat = true → s.bltq.length < 64 →
      s.newSat 0x00801188 1 = false →
      ∃ t e, exec (.railFault r mv) s = .next t ∧ t.plat.power = .stopped ∧ t.link = .down ∧ r.toNat ∈ t.plat.railFault ∧
        t.bltq = s.bltq ++ [e] ∧ e.code = 0x0831 ∧ e.srcid = r.toNat) ∧
    (∀ (r : BitVec 4) (mv : BitVec 12), r.toNat ≤ 6 → railBad s.plat r.toNat mv.toNat = false →
      exec (.railFault r mv) s = .next { s with plat := { s.plat with railMv := tput s.plat.railMv r.toNat mv.toNat } }) ∧
    (s.plat.lock = true → s.bltq.length < 64 → s.newSat 0x00801188 1 = false → ∃ t e, exec .pllLockLoss s = .next t ∧ t.plat.power = .stopped ∧ t.plat.tbRun = false ∧
      t.plat.tb = s.plat.tb ∧ t.plat.lock = false ∧ t.bltq = s.bltq ++ [e] ∧ e.code = 0x0831 ∧ e.srcid = 9) ∧
    (∀ (i : BitVec 8) (v : BitVec 12), tripLimit i.toNat ≤ signed12 v.toNat → s.bltq.length < 64 →
      (i.toNat ∈ s.plat.tripAt → s.newSat 0x00801180 1 = false → ∃ t e, exec (.sensorSample i v) s = .next t ∧ t.plat.power = .stopped ∧ t.plat.trip = true ∧
        t.bltq = s.bltq ++ [e] ∧ e.code = 0x0830 ∧ e.srcid = i.toNat) ∧
      (i.toNat ∉ s.plat.tripAt → 192 ≤ i.toNat → ∃ t, exec (.sensorSample i v) s = .next t ∧ t.plat.power = .running ∧
        i.toNat ∈ t.plat.tripAt ∧ t.plat.tmax = tput s.plat.tmax i.toNat (if signed12 (tgetD s.plat.tmax i.toNat 0) < signed12 v.toNat
          then v.toNat else tgetD s.plat.tmax i.toNat 0)))) ∧
  (∀ (s : State), let t := s.stopDevice
    t.plat.power = .stopped ∧ t.link = .down ∧ (∀ n, (t.port n).st = .down ∨ (t.port n).st = .disabled) ∧ t.cores = s.cores ∧
    t.dram = s.dram ∧ t.jrn = s.jrn ∧ t.blt = s.blt) ∧
  (∀ (x : Plat) (mv : Nat), (railBad x 0 mv = true ↔ mv + 20 < x.vset ∨ x.vset + 20 < mv ∨ 850 < mv) ∧
    (railBad x 1 mv = true ↔ 100 * mv < 75000 - 4500 ∨ 75000 + 4500 < 100 * mv))

/-- R465, R491: the root PLL's lock starts the timebase, at 0 the first time, and boots a device that waited for it; a step is refused with
its error while a Ruled partition exists; a tick advances the timebase by 1, or 0 or 2 once in 10^9 / TRIM cycles. -/
def Claims.Timebase : Prop :=
  (∀ (s : State), s.plat.power ≠ .islandReset → s.plat.lock = false →
    ∃ t, exec .rootPllLock s = .next t ∧ t.plat.lock = true ∧ t.plat.tbRun = true ∧
      t.plat.tb = (if s.plat.tbStarted then s.plat.tb else 0) ∧
      t.plat.power = (if s.plat.power = .waitGood ∧ s.plat.pwrGood = true then .running else s.plat.power)) ∧
  (∀ (s : State) (v : BitVec 64), On s →
    (s.ruledExists = true → ∃ t, exec (.clkTbStep v) s = .next t ∧ t.plat = s.plat ∧ bit (t.rg 0x00101010) 63 = true ∧
      bits (t.rg 0x00101010) 0 63 = bits (s.rg 0x00101010) 0 63) ∧
    (s.ruledExists = false → exec (.clkTbStep v) s = .next { s with plat := { s.plat with tb := (s.plat.tb + v.toNat) % 2 ^ 64 } })) ∧
  (∀ (s : State), s.pending = [] →
    (s.plat.tbRun = false → step s = .next s) ∧
    (s.plat.tbRun = true → s.trim = 0 → s.plat.trimAcc < 1000000000 →
      step s = .next { s with plat := { s.plat with tb := (s.plat.tb + 1) % 2 ^ 64 } }) ∧
    (s.plat.tbRun = true → s.plat.trimAcc < 1000000000 → ∃ t, step s = .next t ∧ t.plat.trimAcc < 1000000000 ∧
      (1000000000 * ((t.plat.tb : Int) - s.plat.tb) + t.plat.trimAcc * s.trim.sign =
        1000000000 + s.trim + s.plat.trimAcc * s.trim.sign ∨ 2 ^ 64 - 2 ≤ s.plat.tb)))

/-- R463: droop below 40 mV under the setpoint suppresses pulses until the release, once, with its record. -/
def Claims.Droop : Prop :=
  ∀ (s : State) (mv : BitVec 12), On s →
    exec .didtRelease s = .next { s with plat := { s.plat with swallow := false } } ∧
    (s.plat.vset ≤ mv.toNat + 40 → exec (.droopDetect mv) s = .next s) ∧
    (mv.toNat + 40 < s.plat.vset → s.plat.swallow = false →
      exec (.droopDetect mv) s = .next (({ s with plat := { s.plat with swallow := true } } : State).throttled 0 0 s.ruledParts))

/-- R458-R460: a confirmed setpoint becomes the one in force; two failures are tried again; the third sets AVSERR, returns to the last
confirmed voltage and lowers no divider under what it suits; a regulator's fault is recorded for rail 0. -/
def Claims.CoreVoltage : Prop :=
  ∀ (s : State) (v rb : BitVec 12) (ack : Bool), s.loopsRun = true →
    (let t : State := { s with plat := { s.plat with railMv := tput s.plat.railMv 0 v.toNat } }
     exec (.avsStatusRead false v) s = .next t ∧ exec (.avsStatusRead true v) s = .next (t.railRecord 0)) ∧
    (s.plat.avserr = false → s.ruledExists = false → v.toNat = s.plat.vAt s.plat.minDiv → 6 ≤ s.plat.minDiv → s.plat.minDiv ≤ 12 →
      let ok := ack = true ∧ rb.toNat ≤ v.toNat + 10 ∧ v.toNat ≤ rb.toNat + 10
      (ok → exec (.avsVoltageWrite v ack rb) s = .next { s with plat := { s.plat with
        vset := v.toNat, vconf := v.toNat, avsTry := 0, railMv := tput s.plat.railMv 0 rb.toNat } }) ∧
      (¬ ok → s.plat.avsTry < 2 → exec (.avsVoltageWrite v ack rb) s =
        .next { s with plat := { s.plat with avsTry := s.plat.avsTry + 1 } }) ∧
      (¬ ok → 2 ≤ s.plat.avsTry → ∃ t, exec (.avsVoltageWrite v ack rb) s = .next t ∧ t.plat.avserr = true ∧
        t.plat.vset = s.plat.vconf ∧ ∀ n, n < 64 → s.plat.floorDiv ≤ tgetD t.plat.capDiv n 6)) ∧
    (s.ruledExists = true → exec (.avsVoltageWrite v ack rb) s = .next s)

/-- R26, R387, R493: the cap loop: over the cap the Freehand clusters that are ON slow by one step; under it by a margin the last step is
undone, but never a Ruled partition's cluster below the divider it was created at; Ruled clusters are touched only after ten periods over
the cap. -/
def Claims.PowerCap : Prop :=
  ∀ (s : State) (w : BitVec 11), s.loopsRun = true →
    let cap := max 600 (min 1250 (bits (s.rg 0x00200008) 0 11))
    let x : Plat := { s.plat with watts := w.toNat, overCnt := if w.toNat > cap then s.plat.overCnt + 1 else 0 }
    let slow := (s.onOf false).filter (fun n => decide (tgetD s.plat.capDiv n 6 < 12))
    (cap < w.toNat → slow ≠ [] → exec (.capLoop w) s = .next { s with plat := x.raise slow 1 }) ∧
    (cap < w.toNat → slow = [] → s.ruledExists = false → s.plat.ndiv = 4 →
      exec (.capLoop w) s = .next { s with plat := { x with ndiv := 6, capSteps := 2 :: s.plat.capSteps } }) ∧
    (cap < w.toNat → slow = [] → s.ruledExists = true → s.plat.overCnt < 9 →
      exec (.capLoop w) s = .next { s with plat := { x with floor := true } }) ∧
    (w.toNat ≤ cap → cap - cap / 32 ≤ w.toNat → exec (.capLoop w) s = .next { s with plat := x }) ∧
    (∀ k rest, w.toNat < cap - cap / 32 → s.plat.capSteps = k :: rest → k % 8 = 1 →
      ∃ t, exec (.capLoop w) s = .next t ∧ t.plat.capSteps = rest ∧ t.plat.ndiv = s.plat.ndiv ∧ t.plat.floor = false ∧
        ∀ n p, s.holder n = some p → (s.part p).ruled = true → tgetD s.plat.capDiv n 6 ≤ tgetD (s.part p).clk n 6 →
          tgetD t.plat.capDiv n 6 = tgetD s.plat.capDiv n 6) ∧
    (∀ rest, w.toNat < cap - cap / 32 → s.plat.capSteps = 2 :: rest → (∃ p, p < 16 ∧ (s.part p).st ≠ .free ∧ (s.part p).ruled = true ∧
      (s.part p).nclk ≠ 4) → exec (.capLoop w) s = .next { s with plat := { x with capSteps := rest, floor := false } })

/-- R469, R494: samples hold a cluster at its throttle limit until 105 °C; the thermal loop slows a hot cluster by one step and speeds a
cool Freehand one; R466, R467: at most eight domains wake at once, a domain is ON when its wake is done, and one not wanted goes OFF. -/
def Claims.ThermalAndDomains : Prop :=
  (∀ (s : State) (c : BitVec 6), s.loopsRun = true → let n := c.toNat
    let th := max (s.plat.t (3 * n)) (max (s.plat.t (3 * n + 1)) (s.plat.t (3 * n + 2)))
    let cur := tgetD s.plat.thDiv n 6
    (s.isRuledClu n = false → 824 ≤ th → cur < 12 →
      exec (.thermalLoop c) s = .next { s with plat := { s.plat with thDiv := tput s.plat.thDiv n (cur + 1) } }) ∧
    (s.isRuledClu n = false → (∀ i, 192 ≤ i → i < 224 → s.plat.t i ≤ 704) → th ≤ 784 → max 6 s.plat.floorDiv < cur →
      exec (.thermalLoop c) s = .next { s with plat := { s.plat with thDiv := tput s.plat.thDiv n (cur - 1) } })) ∧
  (∀ (s : State) (i : BitVec 8) (v : BitVec 12), On s → i.toNat < 192 → signed12 v.toNat < 1000 →
    (signed12 v.toNat ≤ 840 → ∃ t, exec (.sensorSample i v) s = .next t ∧ t.plat.holdT = s.plat.holdT.filter (fun m => m != i.toNat) ∧
      t.plat.temp = tput s.plat.temp i.toNat v.toNat) ∧
    (840 < signed12 v.toNat → signed12 v.toNat < 880 → ∃ t, exec (.sensorSample i v) s = .next t ∧ t.plat.holdT = s.plat.holdT ∧
      t.plat.temp = tput s.plat.temp i.toNat v.toNat) ∧
    (880 ≤ signed12 v.toNat → s.bltq.length < 64 → ∃ t, exec (.sensorSample i v) s = .next t ∧ i.toNat ∈ t.plat.holdT)) ∧
  (∀ (s : State) (d : BitVec 7), On s → 1 ∉ s.plat.scribeDown → d.toNat < 92 →
    let n := d.toNat
    let cur := tgetD s.plat.dom n 0
    (s.domWanted n = false → cur ≠ 0 → exec (.domainWake d) s = .next { s with plat := { s.plat with dom := tdel s.plat.dom n } }) ∧
    (s.domWanted n = true → cur = 0 → (s.plat.dom.filter (fun e => e.2 == 1)).length < 8 →
      exec (.domainWake d) s = .next { s with plat := { s.plat with dom := tput s.plat.dom n 1 } }) ∧
    (s.domWanted n = true → 8 ≤ (s.plat.dom.filter (fun e => e.2 == 1)).length → exec (.domainWake d) s = .next s) ∧
    (cur = 1 → exec (.domainWakeDone d) s = .next { s with plat := { s.plat with dom := tput s.plat.dom n 2 } }))

/-! Boot, firmware, scribes (14 R480-R490). -/

/-- R480, R481: boot goes through its stages in order; a check that fails enters recovery; the last stage makes the device ready; on
a cold boot all of DRAM is to be cleared from stage 4 on, and is cleared by the end of the last stage. -/
def Claims.BootStages : Prop :=
  ∀ (s : State) (f : BitVec 4), On s → s.plat.ready6 = false →
    let x := s.plat
    (x.stage = 0 → exec (.bootStageComplete f) s = .next { s with plat := { x with stage := 1, vnom := 660 + min 100 Config.vnomStep.toNat } }) ∧
    (x.stage = 1 → exec (.bootStageComplete f) s = .next (if f = 1 then s.enterRecovery 1
      else { s with plat := { x with stage := 2, image := x.flash } })) ∧
    (x.stage = 2 → exec (.bootStageComplete f) s = .next (if imCheck x.image flashBytes = 0
      then { s with plat := { x with stage := 3, berr := 0, digest := imDigest x.image, recBoot := false } }
      else s.enterRecovery (imCheck x.image flashBytes))) ∧
    (x.stage = 3 → exec (.bootStageComplete f) s = .next { s with plat := { x with stage := 4, margin := min 40 Config.agingMargin.toNat } }) ∧
    (x.stage = 4 → ∃ t, exec (.bootStageComplete f) s = .next t ∧ t.plat.stage = 5 ∧ t.link = .training ∧
      t.plat.berr = (if f = 6 ∨ f = 7 then f.toNat else 0) ∧ t.rg 0x00C00008 = Config.rsvUnits.toNat * 2 ^ 25 % 2 ^ 64 ∧
      (∀ d, 80 ≤ d → d < 92 → tgetD t.plat.dom d 0 = 2) ∧ (f ≠ 7 → ∀ c, c < 192 → t.rg (0x02102000 + 8 * c) = 1) ∧
      t.clearing = (if x.warmBoot then s.clearing else [(0, 98304)])) ∧
    (x.stage = 5 → x.berr = 0 → s.link = .up → exec (.bootStageComplete f) s = .next { s with plat := { x with stage := 6, ready5 := true } }) ∧
    (x.stage = 5 → s.link ≠ .up → exec (.bootStageComplete f) s = .next s) ∧
    (x.stage = 6 → x.recBoot = false → s.upsets = [] → exec (.bootStageComplete f) s = .next (if x.warmBoot then { s with plat := { x with ready6 := true } }
      else { s with
        dram := s.clearing.foldl (fun m r => mclear m (r.1 * 2 ^ 21) (r.2 * 2 ^ 21)) s.dram
        dramPoison := s.dramPoison.filter (fun l => !s.clearing.any (fun r => decide (r.1 ≤ l / 8192) && decide (l / 8192 < r.1 + r.2)))
        clearing := [], plat := { x with ready6 := true } })) ∧
    (x.stage = 6 → x.recBoot = true → 0 ∉ x.scribeDown → f = 0 → x.warmBoot = true → exec (.bootStageComplete f) s = .next { s with
      plat := { x with ready6 := true, flash := x.image, recSt := 4 } })

/-- R485, R487, R488: recovery and update: an image is received 8 B at a time, checked whole, and runs or is refused with its cause; an
update programs flash only after its image passed. -/
def Claims.RecoveryAndUpdate : Prop :=
  (∀ (s : State), On s → s.plat.stage = 7 →
    (0 ∉ s.plat.scribeDown → exec .recoveryBegin s = .next { s with plat := { s.plat with recSt := 1, recBytes := 0, recErr := 0, image := 0 } }) ∧
    exec .recoveryAbort s = .next { s with plat := { s.plat with recSt := 0, recBytes := 0, recErr := 0, image := 0 } } ∧
    (s.plat.recSt = 1 →
      (∀ v : BitVec 64, s.plat.recBytes + 8 < 2 ^ 23 → exec (.recoveryData v) s = .next { s with plat := { s.plat with
        image := s.plat.image + v.toNat * 2 ^ (8 * s.plat.recBytes), recBytes := s.plat.recBytes + 8 } }) ∧
      exec .recoveryGo s = .next { s with plat := if imCheck s.plat.image s.plat.recBytes = 0
        then { s.plat with stage := 3, berr := 0, digest := imDigest s.plat.image, recBoot := true, recSt := 3 }
        else { s.plat with recSt := 5, recErr := imCheck s.plat.image s.plat.recBytes } })) ∧
  (∀ (s : State), On s → s.plat.stage < 3 → 0 ∉ s.plat.scribeDown → ∃ t, exec .recoveryBegin s = .next t ∧ t.plat.stage = 7 ∧
    t.plat.recSt = 1 ∧ t.plat.berr = 0) ∧
  (∀ (s : State), On s → 3 ≤ s.plat.stage → s.plat.stage ≠ 7 →
    (s.plat.updSt = 0 ∨ 4 ≤ s.plat.updSt → exec .updateGo s = .next { s with plat := { s.plat with updSt := 1, updErr := 0, updBytes := 0 } }) ∧
    (1 ≤ s.plat.updSt → s.plat.updSt ≤ 3 → exec .updateGo s = .next s)) ∧
  (∀ (s : State) (image : Nat), On s → 1 ≤ s.plat.updSt → s.plat.updSt ≤ 3 → 0 ∉ s.plat.scribeDown → s.link = .up →
    let n := bits (s.rg 0x00400408) 0 23
    let m := image % 2 ^ (8 * n)
    ∀ ok, ∃ t, exec (.updateDone ok image) s = .next t ∧ t.plat.updBytes = n ∧
      (imCheck m n ≠ 0 → t.plat.flash = s.plat.flash ∧ t.plat.updSt = 5 ∧ t.plat.updErr = imCheck m n) ∧
      (imCheck m n = 0 → ok = true → t.plat.flash = m ∧ t.plat.updSt = 4 ∧ t.plat.updErr = 0) ∧
      (imCheck m n = 0 → ok = false → t.plat.updSt = 5 ∧ t.plat.updErr = 1)) ∧
  (∀ m n : Nat, (imMAGIC m ≠ 0x474D4957464B524D ∨ n < 8192 + imBODYLEN m ∨ imBODYLEN m % 4096 ≠ 0) → imCheck m n = 2)

/-- R419, R489, R490: a scribe whose watchdog expires, or whose memory fails, is down until its restart is done; the restart is counted and
recorded with its program counter, whose value the model leaves free, and without Scribe-P the clusters run at divider 12. -/
def Claims.ScribeRestarts : Prop :=
  ∀ (s : State) (k : BitVec 2), k.toNat ≤ 2 →
    (s.scribeUp k.toNat = false → exec (.watchdogExpiry k) s = .next s ∧ exec (.scribeMemoryUe k) s = .next s) ∧
    (s.scribeUp k.toNat = true → s.bltq.length < 62 → s.cnt 0x00801100 < 2 ^ 48 - 1 → s.cnt (0x00400108 + 0x10 * k.toNat) < 2 ^ 48 - 1 → ∃ t : State,
      exec (.watchdogExpiry k) s = .next t ∧ exec (.scribeMemoryUe k) s = .next t ∧ k.toNat ∈ t.plat.scribeDown ∧
      t.scribeUp k.toNat = false ∧ (k.toNat = 1 → ∀ n, n < 64 → t.plat.adiv n = 12) ∧
      t.cnt (0x00400108 + 0x10 * k.toNat) = s.cnt (0x00400108 + 0x10 * k.toNat) + 1 ∧
      ∃ e, e ∈ t.bltq ∧ e.code = 0x0820 ∧ e.srcid = k.toNat ∧ e.d0 = s.freeVal)

/-! Test access (14 R482, R495-R498). -/

/-- R482, R495: the TAP's instructions, of which codes that no instruction has select BYPASS; a reset of the TAP selects IDCODE; a dynamic
address is taken. -/
def Claims.TapAndI3c : Prop :=
  ∀ (s : State) (code : BitVec 8) (a : BitVec 7),
    exec .idcode s = .next { s with plat := { s.plat with tapIr := 1 } } ∧
    exec .trstL s = .next { s with plat := { s.plat with tapIr := 1 } } ∧
    exec .samplePreload s = .next { s with plat := { s.plat with tapIr := 2 } } ∧
    exec .ijtag s = .next { s with plat := { s.plat with tapIr := 0x10 } } ∧
    (code ∉ [0, 1, 2, 0x10] → exec (.bypass code) s = .next { s with plat := { s.plat with tapIr := code.toNat } }) ∧
    (s.plat.power ≠ .islandReset → exec (.i3cDynamicAddress a) s = .next { s with plat := { s.plat with i3cDyn := some a.toNat } }) ∧
    idcodeValue = 0x14B197EB

/-- R497, R498: a loopback depth is set where its requirement holds; a run clears the counters, then counts bits and errors; bond BIST leaves
every channel outside Ruled quads with its first failure or a pass. -/
def Claims.LoopbackAndBist : Prop :=
  (∀ (s : State) (i : BitVec 5) (d : BitVec 3), On s → i.toNat < 16 → let o := 0x02100000 + 0x20 * i.toNat
    (bit (s.rg (0x00D00100 + 8 * i.toNat)) 0 = false → d.toNat ≠ 5 → d.toNat ≠ 7 → ∃ t, exec (.loopbackDepth i d) s = .next t ∧
      bits (t.rg o) 0 3 = d.toNat ∧ bits (t.rg o) 3 61 = bits (s.rg o) 3 61) ∧
    (bit (s.rg (0x00D00100 + 8 * i.toNat)) 0 = true → d ∈ [1, 2, 3, 4, 6] → exec (.loopbackDepth i d) s = .next s)) ∧
  (∀ (s : State) (i : BitVec 5) (n e : BitVec 48), On s → i.toNat < 17 → bits (s.rg (0x02100000 + 0x20 * i.toNat)) 0 3 = 1 →
    ∃ t, exec (.loopbackRun i n e) s = .next t ∧ t.cnt (0x02100008 + 0x20 * i.toNat) = n.toNat ∧
      t.cnt (0x02100010 + 0x20 * i.toNat) = min n.toNat e.toNat ∧ bit (t.rg (0x02100000 + 0x20 * i.toNat)) 3 = true) ∧
  (∀ (s : State) (fails : List (BitVec 8 × BitVec 3 × BitVec 9)), On s →
    (s.plat.dbistBusy = false → exec .dbistGo s = .next { s with plat := { s.plat with dbistBusy := true, dbistFail := false } }) ∧
    (s.plat.dbistBusy = true → ∃ t, exec (.dbistDone fails) s = .next t ∧ t.plat.dbistBusy = false ∧
      t.plat.dbistFail = fails.any (fun e => !s.ruledChannel e.1.toNat) ∧
      (∀ c, c < 192 → s.ruledChannel c = false → t.rg (0x02102000 + 8 * c) =
        match fails.find? (fun e => e.1.toNat == c) with
        | some e => 2 + 4 * e.2.1.toNat + 32 * e.2.2.toNat
        | none => 1)))

/-- R419, R480, R482, R485, R487-R490, R495, R497, R498: commands of the platform run on conditions of the state alone: each scribe restart, each boot
stage, each step of recovery and update, each TAP instruction, the dynamic address, each loopback depth and run, and bond BIST. -/
def Obligations.PlatformCommandsComplete : Prop :=
  ∀ (s : State), On s →
    let x := s.plat
    (∀ k : BitVec 2, k.toNat ≤ 2 → 3 ≤ x.stage → x.stage ≤ 6 → k.toNat ∉ x.scribeDown → ∃ t u,
      exec (.watchdogExpiry k) s = .next t ∧ exec (.scribeMemoryUe k) s = .next u ∧
      t.plat.scribeDown = x.scribeDown ++ [k.toNat] ∧ u.plat.scribeDown = x.scribeDown ++ [k.toNat]) ∧
    (∀ f : BitVec 4, x.ready6 = false →
      (x.stage < 4 → (x.stage = 1 → f ≠ 1) → x.stage ≠ 2 →
        ∃ t, exec (.bootStageComplete f) s = .next t ∧ t.plat.stage = x.stage + 1) ∧
      (x.stage = 2 → ∃ t, exec (.bootStageComplete f) s = .next t ∧ t.plat.stage = if imCheck x.image flashBytes = 0 then 3 else 7) ∧
      (x.stage = 4 → ∃ t, exec (.bootStageComplete f) s = .next t ∧ t.plat.stage = 5) ∧
      (x.stage = 5 → x.berr = 0 → s.link = .up → ∃ t, exec (.bootStageComplete f) s = .next t ∧ t.plat.stage = 6 ∧ t.plat.ready5 = true) ∧
      (x.stage = 6 → (x.recBoot = true → 0 ∉ x.scribeDown) → ∃ t, exec (.bootStageComplete f) s = .next t ∧ t.plat.ready6 = true)) ∧
    (0 ∉ x.scribeDown → x.stage < 3 ∨ x.stage = 7 → ∃ t, exec .recoveryBegin s = .next t ∧ t.plat.stage = 7 ∧ t.plat.recSt = 1 ∧
      t.plat.recBytes = 0 ∧ t.plat.image = 0) ∧
    (x.stage = 7 → x.recSt = 1 →
      (∀ v : BitVec 64, x.recBytes + 8 < 2 ^ 23 → x.image < 2 ^ (8 * x.recBytes) → ∃ t, exec (.recoveryData v) s = .next t ∧
        t.plat.recBytes = x.recBytes + 8 ∧ bits t.plat.image (8 * x.recBytes) 64 = v.toNat ∧ bits t.plat.image 0 (8 * x.recBytes) = x.image) ∧
      (∃ t, exec .recoveryGo s = .next t ∧ (imCheck x.image x.recBytes = 0 → t.plat.stage = 3 ∧ t.plat.recSt = 3 ∧ t.plat.recBoot = true) ∧
        (imCheck x.image x.recBytes ≠ 0 → t.plat.recSt = 5 ∧ t.plat.recErr = imCheck x.image x.recBytes))) ∧
    (x.stage = 7 → ∃ t, exec .recoveryAbort s = .next t ∧ t.plat.recSt = 0 ∧ t.plat.recBytes = 0 ∧ t.plat.image = 0) ∧
    (3 ≤ x.stage → x.stage ≠ 7 → x.updSt = 0 ∨ 4 ≤ x.updSt → ∃ t, exec .updateGo s = .next t ∧ t.plat.updSt = 1 ∧ t.plat.updBytes = 0) ∧
    (∀ image : Nat, 1 ≤ x.updSt → x.updSt ≤ 3 → 0 ∉ x.scribeDown → s.link = .up →
      let n := bits (s.rg 0x00400408) 0 23
      let m := image % 2 ^ (8 * n)
      ∃ t, exec (.updateDone true image) s = .next t ∧ t.plat.updBytes = n ∧
        (imCheck m n = 0 → t.plat.flash = m ∧ t.plat.updSt = 4) ∧ (imCheck m n ≠ 0 → t.plat.flash = s.plat.flash ∧ t.plat.updSt = 5)) ∧
    (x.dbistBusy = false → ∃ t, exec .dbistGo s = .next t ∧ t.plat.dbistBusy = true ∧ t.plat.dbistFail = false) ∧
    (∀ fails : List (BitVec 8 × BitVec 3 × BitVec 9), x.dbistBusy = true → ∃ t, exec (.dbistDone fails) s = .next t ∧ t.plat.dbistBusy = false ∧
      ∀ c, c < 192 → s.ruledChannel c = true → t.rg (0x02102000 + 8 * c) = 0) ∧
    (∀ (i : BitVec 5) (d : BitVec 3), i.toNat ≤ 16 → s.depthOk i.toNat d.toNat = true → ∃ t, exec (.loopbackDepth i d) s = .next t ∧
      (i.toNat < 16 → bits (t.rg (0x02100000 + 0x20 * i.toNat)) 0 3 = d.toNat)) ∧
    (∀ (i : BitVec 5) (n e : BitVec 48), i.toNat ≤ 16 → ∃ t, exec (.loopbackRun i n e) s = .next t ∧
      bit (t.rg (0x02100000 + 0x20 * i.toNat)) 3 = true) ∧
    (∃ t, exec .extest s = .next t ∧ t.plat.tapIr = 0 ∧ t.plat.power = .stopped) ∧
    (∃ t, exec .idcode s = .next t ∧ t.plat.tapIr = 1) ∧ (∃ t, exec .trstL s = .next t ∧ t.plat.tapIr = 1) ∧
    (∃ t, exec .samplePreload s = .next t ∧ t.plat.tapIr = 2) ∧ (∃ t, exec .ijtag s = .next t ∧ t.plat.tapIr = 0x10) ∧
    (∀ code : BitVec 8, code ∉ [0, 1, 2, 0x10] → ∃ t, exec (.bypass code) s = .next t ∧ t.plat.tapIr = code.toNat) ∧
    (∀ a : BitVec 7, ∃ t, exec (.i3cDynamicAddress a) s = .next t ∧ t.plat.i3cDyn = some a.toNat)

/-! The block as a whole. -/

/-- The command at the front of the queue runs with the queue's rest; with none waiting only the timebase's tap moves (the model's own
choice: log 1). -/
def Claims.StepRunsTheFrontCommand : Prop :=
  (∀ (s : State) (c : Instr), step { s with pending := c :: s.pending } = exec c s) ∧
  (∀ s : State, s.pending = [] → step s = .next s.tick ∧ { s.tick with plat := s.plat } = s)

/-- R502, R505: every register that R505 gives a reset value reads it after a power-on reset; DRAM reads 0 (the model's choice:
log 17), every partition is FREE and every port DISABLED, and the next journal and log records have number 1. -/
def Claims.ResetValues : Prop :=
  (∀ e ∈ resetTable, occupied e.1 = true ∧ State.reset.regRead e.1 = e.2) ∧
  (∀ a, mget State.reset.dram a = 0) ∧ (∀ p, (State.reset.part p).st = .free) ∧ (∀ n, (State.reset.port n).st = .disabled) ∧
  State.reset.jrnHead = 1 ∧ State.reset.bltHead = 1 ∧ State.reset.pending = []

/-- R32: x0 reads zero and a write to it is discarded. R76-R82: an instruction that writes one register leaves every other register and counter,
the scratchpad, the vector registers, the other cores and the rest of the device as they were. -/
def Obligations.RegisterFrames : Prop :=
  (∀ (cs : CoreSt) (r : Nat) (v : W64), (cs.setX r v).getX 0 = 0 ∧ cs.getX 0 = 0 ∧
    (r ≠ 0 → (cs.setX r v).getX r = v) ∧ (∀ q, q ≠ r → (cs.setX r v).getX q = cs.getX q)) ∧
  (∀ (s : State) (c : CoreId) (l : Loc), Issues s c l 8 →
    let cs := s.core l
    let only := fun (i : Instr) (rd : Nat) => ∃ t : State, exec i s = .next t ∧ { t with cores := s.cores } = s ∧
      (∀ m : Loc, m.key ≠ l.key → t.core m = s.core m) ∧ (∀ r, r ≠ rd → (t.core l).getX r = cs.getX r) ∧
      { t.core l with pc := cs.pc, x := cs.x, xPoison := cs.xPoison } = cs
    (∀ w : FormR, aluCode w.fn8.toNat = true → w.d = 0 → w.fmt = 0 → w.rsv = 0 → Readable cs [w.b.toNat, w.c.toNat] →
      Writable cs w.a.toNat → only (.alu c w) w.a.toNat) ∧
    (∀ w : FormI, aluCode w.fn12.toNat = true → Readable cs [w.b.toNat] → Writable cs w.a.toNat → only (.alui c w) w.a.toNat) ∧
    (∀ w : FormI, w.fn12 = 0 → w.b = 0 → Readable cs [w.a.toNat] → only (.lih c w) w.a.toNat) ∧
    (∀ w : FormI, w.fn12 = 0 → w.b = 0 → Writable cs w.a.toNat → only (.jal c w) w.a.toNat) ∧
    (∀ w : FormI, w.fn12 = 0 → w.b = 0 → w.imm = 0x005 → Writable cs w.a.toNat → only (.srd c w) w.a.toNat))

/-- Every command has its effect in every state: none stops the model. -/
def Claims.EveryCommandCompletes : Prop := ∀ (c : Instr) (s : State), ∃ t, exec c s = .next t

/-- R295, R324: each routing version is INVALID, ACTIVE or DRAINING, the source version is 0 or 1 and never DRAINING; a step from such a state
leads to one, and takes no command off the queue but the front one. -/
def Obligations.StepKeepsVersionsAndQueue : Prop :=
  ∀ (s t : State), EpochsLegal s → step s = .next t → EpochsLegal t ∧ t.pending = s.pending.tail

/-- R295: the versions are legal after a power-on reset. -/
def Claims.ResetVersionsLegal : Prop := EpochsLegal State.reset

/-! The merged statements. -/

/-- R76, R73, R77, R80: ALU, ALUI, LIH, NOP and IFENCE: results by the spec's table, and CORE_ILLEGAL for an unassigned code. -/
def Obligations.ScalarArithmetic : Prop := Claims.ScalarArithmeticFollowsTable ∧ Claims.LihNopIfence

/-- R75: SRD and SWR on every listed state word, and CORE_ILLEGAL on any other. -/
def Obligations.StateWordAccess : Prop := Claims.StateWords ∧ Claims.UnlistedStateWordIsIllegal

/-- R97, R99, R101, R81, R374, R98, R96, R100, R74, R79: Exception entry, ERET, and the end of a run by TRAP 0. -/
def Obligations.ExceptionsAndReturn : Prop := Claims.SynchronousExceptionEntry ∧ Claims.ReturnAndEnd ∧ Claims.AsynchronousExceptionEntry ∧ Claims.ReservedCondition

/-- R82, R88, R96, R101, R53, R83, R98: CSET, CADD, CRD and CWAIT on the arrival counters, and RFENCE. -/
def Obligations.CounterInstructions : Prop := Claims.CountersAndFence ∧ Claims.WaitForCounter

/-- R282, R317: A request's header fields, and the slot an operation takes. The model's own readings, where the spec is open: log 20. -/
def Obligations.RequestHeaders : Prop := Claims.RequestHeaderFields ∧ Claims.SlotTakenIsFree

/-- R89-R91, R91: TDMA: the descriptor, its checks, and pieces that cover the rows. The model's own readings, where the spec is open: log 7, 20. -/
def Obligations.TileDmaTransfers : Prop := Claims.TileDma ∧ Claims.DmaPiecesCoverRows

/-- R110-R112, R110, R123, R127, R144, R145: Matrix instructions enter an array's queue, stream, and leave their rows. The model's own readings, where the spec is open: log 90, 97. -/
def Obligations.MatrixArrays : Prop := Claims.MatrixIssue ∧ Claims.MatrixStreamAndComplete

/-- R155, R156, R161, R185: Vector loads, stores, moves, index generation, and the engine's queue. -/
def Obligations.VectorMemoryAndQueue : Prop := Claims.VectorMemoryAndMoves ∧ Claims.VectorQueue

/-- R188, R192, R194: Ductus instructions join their unit's queue and start in order. The model's own readings, where the spec is open: log 71, 73, 104, 105, 107. -/
def Obligations.DuctusIssue : Prop := Claims.DuctusQueues ∧ Claims.DuctusQueueStarts

/-- R203, R217, R218, R216-R219: DHIST's ranks and counts, and DSPLIT's items and their balance. The model's own readings, where the spec is open: log 13, 14. -/
def Obligations.DuctusHistAndSplit : Prop := Claims.HistRanksAndCounts ∧ Claims.SplitCoversAndBalances ∧ Claims.DuctusSplits

/-- R207, R213, R220: DALLOC, DSEND and the returns send their operations. The model's own readings, where the spec is open: log 13, 71, 104. -/
def Obligations.DuctusExchange : Prop := Claims.DuctusExchangeStarts ∧ Claims.DuctusReturns

/-- R207, R208: The ladder of DALLOC and the replies that move it. The model's own readings, where the spec is open: log 71, 106. -/
def Obligations.DuctusAllocation : Prop := Claims.AllocationLadder ∧ Claims.DuctusReplies

/-- R234, R236, R235, R237, R238, R266: Pool classes, stacks and commands. The model's own readings, where the spec is open: log 68, 111. -/
def Obligations.InkwellPools : Prop := Claims.ClassesAndStacks ∧ Claims.PoolLifecycle

/-- R242-R245, R251, R220, R224, R249: The central Inkwell allocates and frees. The model's own readings, where the spec is open: log 67. -/
def Obligations.InkwellService : Prop := Claims.InkwellAllocates ∧ Claims.InkwellFrees

/-- R259, R36, R254-R256, R267: Rows of a move, migrations, staging, promotion and refresh. The model's own readings, where the spec is open: log 13, 74. -/
def Obligations.MovesAndPlaces : Prop := Claims.MoveRow ∧ Claims.PlacesAndRefresh

/-- R43, R44, R52, R285, R312, R398: Loads, stores and atomics performed in memory on the device. -/
def Obligations.RequestsInMemory : Prop := Claims.RequestsInMemory ∧ Claims.AtomicResults

/-- R37, R43, R51, R56, R57, R309, R323: Stores to scratchpads, adds to counters, and refused requests. -/
def Obligations.RequestsOnChipOrRefused : Prop := Claims.RequestsOnChip ∧ Claims.RequestsRefused

/-- R222, R241, R258, R311, R272, R273, R467, R497: The device's request ports and the states of its fabric ports. -/
def Obligations.PortsOfTheDevice : Prop := Claims.Ports ∧ Claims.PortStates

/-- R57, R87, R317, R297-R299: Responses complete operations; multicast and its acknowledgements. The model's own readings, where the spec is open: log 66, 78, 114. -/
def Obligations.ResponsesAndMulticast : Prop := Claims.Responses ∧ Claims.Multicast

/-- R293-R296, R300, R305, R312, R294: Packets leave by their routing or circuit entry. The model's own readings, where the spec is open: log 66, 112, 113. -/
def Obligations.Routing : Prop := Claims.Routing ∧ Claims.OutPortIsValid

/-- R273, R275-R280, R393, R409, R276-R278, R287, R302, R303: Flits received and sent on a link. The model's own readings, where the spec is open: log 80, 115, 116, 117, 118. -/
def Obligations.LinkFlits : Prop := Claims.FlitsReceived ∧ Claims.FlitsSent

/-- R295, R324, R290, R314, R317, R320: Routing version commands and the fabric's timers. The model's own readings, where the spec is open: log 8, 49, 113. -/
def Obligations.VersionsAndTimers : Prop := Claims.VersionCommands ∧ Claims.FabricTimers

/-- R318-R321, R316, R355: Management requests, TEARDOWN and JOBSTART. The model's own readings, where the spec is open: log 56, 64. -/
def Obligations.Management : Prop := Claims.ManagementRequests ∧ Claims.TeardownAndJobStart

/-- R427-R430, R320, R321, R431: Blot Log records and notices. The model's own readings, where the spec is open: log 8, 86, 87. -/
def Obligations.LogAndNotices : Prop := Claims.LogRecords ∧ Claims.NoticesSent

/-- R328-R337, R331: LOPEN, LCOLL, LCLOSE and the opening of a group. The model's own readings, where the spec is open: log 84, 119. -/
def Obligations.LigatureGroups : Prop := Claims.LigatureIssue ∧ Claims.LigatureOpens

/-- R331, R344, R347, R341, R342, R346, R349, R351: Ligature messages and how inputs are combined. The model's own readings, where the spec is open: log 13, 81, 82. -/
def Obligations.LigatureCombining : Prop := Claims.LigatureMessages ∧ Claims.LigatureArithmetic

/-- R412, R413, R404-R406, R405, R406, R227: How host commands wait and end; FENCE, CANCEL_BATCH and QUERY. The model's own readings, where the spec is open: log 31, 48. -/
def Obligations.CommandEnds : Prop := Claims.CommandsEnd ∧ Claims.CommandsWait ∧ Claims.FenceCancelQuery

/-- R372, R375, R407, R373: LAUNCH and the choice of the resident context. The model's own readings, where the spec is open: log 25. -/
def Obligations.LaunchAndScheduling : Prop := Claims.Launch ∧ Claims.SchedulingChoice

/-- R375, R372, R381, R382, R392: CTX commands, images, saves and restores. The model's own readings, where the spec is open: log 8, 33, 89. -/
def Obligations.ContextLifecycle : Prop := Claims.ContextCommands ∧ Claims.ZeroImage ∧ Claims.SavesAndRestores

/-- R410, R253: COPY and FILL in parts; MAP and UNMAP. The model's own readings, where the spec is open: log 35, 36. -/
def Obligations.CopiesAndMaps : Prop := Claims.CopyAndFill ∧ Claims.MapAndUnmap

/-- R366-R369, R385, R467, R437-R442: Partition commands, CHECKPOINT and RESTORE. The model's own readings, where the spec is open: log 8, 32, 38, 39, 58, 124. -/
def Obligations.PartitionsAndCheckpoints : Prop := Claims.PartitionLifecycle ∧ Claims.CheckpointAndRestore

/-- R395-R397, R396, R400, R43: Host reads, writes and atomics over DynerLink. The model's own readings, where the spec is open: log 45, 46, 57, 121. -/
def Obligations.HostAccess : Prop := Claims.HostReads ∧ Claims.HostWrites

/-- R404, R413-R415, R406, R398, R402, R415, R480, R403, R408, R413, R400, R417: Rings: intake, journal entries, completions, states. The model's own readings, where the spec is open: log 47, 50, 58. -/
def Obligations.RingsAndCompletions : Prop := Claims.RecordAccepted ∧ Claims.RingService ∧ Claims.Completions ∧ Claims.RingStates

/-- R423, R232, R501, R505: Event counters, the control window, 128-bit registers. The model's own readings, where the spec is open: log 86. -/
def Obligations.RegistersAndCounters : Prop := Claims.Counters ∧ Claims.ControlWindow ∧ Claims.WideRegisters

/-- R434-R436, R445-R447: The Saturation Monitor and checkpoint intervals. The model's own readings, where the spec is open: log 8, 42. -/
def Obligations.MonitorAndIntervals : Prop := Claims.SaturationMonitor ∧ Claims.CheckpointIntervals

/-- R477, R478, R414, R479: Power-on, cold and warm resets: what each keeps. The model's own readings, where the spec is open: log 18, 40, 63, 122. -/
def Obligations.Resets : Prop := Claims.PowerOnAndColdReset ∧ Claims.WarmReset

/-- R457, R465, R470, R496, R491: What stops the device, and the timebase. The model's own readings, where the spec is open: log 1. -/
def Obligations.StopsAndTimebase : Prop := Claims.DeviceStops ∧ Claims.Timebase

/-- R463, R458-R460, R26, R387, R493, R469, R494, R466, R467: Droop, core voltage, power cap, temperature, domains. The model's own readings, where the spec is open: log 60, 61, 123. -/
def Obligations.PowerAndThermalLoops : Prop := Claims.Droop ∧ Claims.CoreVoltage ∧ Claims.PowerCap ∧ Claims.ThermalAndDomains

/-- R480, R481, R485, R487, R488, R419, R489, R490: Boot stages, recovery, update and scribe restarts. The model's own readings, where the spec is open: log 19, 41, 62, 122. -/
def Obligations.BootAndFirmware : Prop := Claims.BootStages ∧ Claims.RecoveryAndUpdate ∧ Claims.ScribeRestarts

/-- R482, R495, R497, R498: TAP, I3C, loopback and bond BIST. -/
def Obligations.TestAccess : Prop := Claims.TapAndI3c ∧ Claims.LoopbackAndBist

/-- A step runs the command at the front of the queue; every command has an effect. -/
def Obligations.StepRunsTheFrontCommand : Prop := Claims.StepRunsTheFrontCommand ∧ Claims.EveryCommandCompletes

/-- R502, R505, R295: Registers, memory and queue after a power-on reset. -/
def Obligations.ResetValues : Prop := Claims.ResetValues ∧ Claims.ResetVersionsLegal
end

