-- ==== Sys2Proof/Laws/Tables.lean ====
section
/-! SUPPORT. Laws of sparse tables and byte stores: a read after a write, reads elsewhere, and the canonical form that every
memory operation keeps. -/

namespace Sys2Proof.Machine

variable {V : Type}

@[simp] theorem tget_nil (k : Nat) : tget ([] : Tbl V) k = none := rfl

@[simp] theorem tget_tput_self (t : Tbl V) (k : Nat) (v : V) : tget (tput t k v) k = some v := by
  induction t with
  | nil => simp [tput, tget]
  | cons e t ih =>
    obtain ⟨j, w⟩ := e
    unfold tput
    split
    · simp [tget]
    · split
      · simp [tget]
      · rename_i h2
        simp only [tget, ih]
        rw [if_neg (fun h => h2 h.symm)]

theorem tget_tput_ne (t : Tbl V) {k j : Nat} (v : V) (h : j ≠ k) : tget (tput t k v) j = tget t j := by
  induction t with
  | nil => simp [tput, tget, h.symm]
  | cons e t ih =>
    obtain ⟨i, w⟩ := e
    unfold tput
    split
    · simp [tget, h.symm]
    · split
      · rename_i h2; subst h2; simp [tget, h.symm]
      · simp [tget, ih]

@[simp] theorem tgetD_tput_self (t : Tbl V) (k : Nat) (v d : V) : tgetD (tput t k v) k d = v := by simp [tgetD]

theorem tgetD_tput_ne (t : Tbl V) {k j : Nat} (v d : V) (h : j ≠ k) : tgetD (tput t k v) j d = tgetD t j d := by
  simp [tgetD, tget_tput_ne t v h]

@[simp] theorem tget_tdel_self (t : Tbl V) (k : Nat) : tget (tdel t k) k = none := by
  induction t with
  | nil => rfl
  | cons e t ih =>
    obtain ⟨j, w⟩ := e
    by_cases h : j = k <;> simp_all [tdel, tget]

theorem tget_tdel_ne (t : Tbl V) {k j : Nat} (h : j ≠ k) : tget (tdel t k) j = tget t j := by
  induction t with
  | nil => rfl
  | cons e t ih =>
    obtain ⟨i, w⟩ := e
    by_cases hi : i = k
    · subst hi
      have : tdel ((i, w) :: t) i = tdel t i := by simp [tdel]
      rw [this, ih]
      simp [tget, h.symm]
    · have : tdel ((i, w) :: t) k = (i, w) :: tdel t k := by simp [tdel, hi]
      rw [this]
      simp [tget, ih]

theorem tget_tdelRange (t : Tbl V) (lo n j : Nat) :
    tget (tdelRange t lo n) j = if lo ≤ j ∧ j < lo + n then none else tget t j := by
  induction t with
  | nil => simp [tdelRange]
  | cons e t ih =>
    obtain ⟨i, w⟩ := e
    by_cases hi : lo ≤ i ∧ i < lo + n
    · have : tdelRange ((i, w) :: t) lo n = tdelRange t lo n := by simp [tdelRange, hi]
      rw [this, ih]
      by_cases hj : i = j
      · subst hj; simp [hi]
      · simp [tget, hj]
    · have : tdelRange ((i, w) :: t) lo n = (i, w) :: tdelRange t lo n := by
        simp only [tdelRange, List.filter_cons]
        rw [if_pos (by simp only [not_and, not_lt] at hi; simpa [Decidable.imp_iff_not_or] using hi)]
      rw [this]
      by_cases hj : i = j
      · subst hj; simp [tget, hi]
      · simp [tget, hj, ih]

/-! Keys. -/

/-- The keys of a table rise strictly. -/
def Rising (t : Tbl V) : Prop := (t.map Prod.fst).Pairwise (· < ·)

theorem tput_keys (t : Tbl V) (k : Nat) (v : V) : ∀ x ∈ (tput t k v).map Prod.fst, x = k ∨ x ∈ t.map Prod.fst := by
  induction t with
  | nil => intro x hx; simpa [tput] using hx
  | cons e t ih =>
    obtain ⟨j, w⟩ := e
    unfold tput
    split
    · intro x hx; simpa using hx
    · split
      · rename_i h; subst h; intro x hx; right; simpa using hx
      · intro x hx
        simp only [List.map_cons, List.mem_cons] at hx ⊢
        rcases hx with hx | hx
        · exact .inr (.inl hx)
        · rcases ih x hx with h | h
          · exact .inl h
          · exact .inr (.inr h)

theorem tput_rising {t : Tbl V} (h : Rising t) (k : Nat) (v : V) : Rising (tput t k v) := by
  induction t with
  | nil => simp [Rising, tput]
  | cons e t ih =>
    obtain ⟨j, w⟩ := e
    have hp : (∀ x ∈ t.map Prod.fst, j < x) ∧ Rising t := by simpa [Rising] using h
    unfold tput
    split
    · rename_i hk
      simp only [Rising, List.map_cons, List.pairwise_cons, List.mem_cons]
      refine ⟨?_, hp.1, hp.2⟩
      rintro x (rfl | hx)
      · exact hk
      · exact Nat.lt_trans hk (hp.1 x hx)
    · split
      · rename_i hk; subst hk; simpa [Rising] using h
      · rename_i h1 h2
        simp only [Rising, List.map_cons, List.pairwise_cons]
        refine ⟨?_, ih hp.2⟩
        intro x hx
        rcases tput_keys t k v x hx with h | h
        · omega
        · exact hp.1 x h

theorem filter_rising {t : Tbl V} (h : Rising t) (p : Nat × V → Bool) : Rising (t.filter p) :=
  List.Pairwise.sublist (List.Sublist.map _ List.filter_sublist) h

/-! Byte stores. -/

theorem wf_iff (m : Mem) : Memory.wf m = true ↔ Rising m ∧ ∀ e ∈ m, e.2 ≠ 0 := by
  simp [Memory.wf, Rising]

@[simp] theorem wf_nil : Memory.wf [] = true := by decide

theorem tput_mem {t : Tbl V} {k : Nat} {v : V} : ∀ e ∈ tput t k v, e = (k, v) ∨ e ∈ t := by
  induction t with
  | nil => intro e he; simpa [tput] using he
  | cons a t ih =>
    obtain ⟨j, w⟩ := a
    unfold tput
    split
    · intro e he; simpa using he
    · split
      · intro e he
        rcases List.mem_cons.mp he with h | h
        · exact .inl h
        · exact .inr (List.mem_cons_of_mem _ h)
      · intro e he
        rcases List.mem_cons.mp he with h | h
        · exact .inr (h ▸ List.mem_cons_self)
        · rcases ih e h with h | h
          · exact .inl h
          · exact .inr (List.mem_cons_of_mem _ h)

theorem filter_wf {m : Mem} (h : Memory.wf m = true) (p : Nat × Byte → Bool) : Memory.wf (m.filter p) = true := by
  rw [wf_iff] at *
  exact ⟨filter_rising h.1 p, fun e he => h.2 e (List.mem_filter.mp he).1⟩

/-- A byte written keeps the canonical form. -/
theorem mput_wf {m : Mem} (h : Memory.wf m = true) (a : Nat) (b : Byte) : Memory.wf (mput m a b) = true := by
  unfold mput
  split
  · exact filter_wf h _
  · rename_i hb
    rw [wf_iff] at *
    refine ⟨tput_rising h.1 a b, fun e he => ?_⟩
    rcases tput_mem e he with h1 | h1
    · subst h1; exact hb
    · exact h.2 e h1

theorem mwrite_wf {m : Mem} (h : Memory.wf m = true) (a n v : Nat) : Memory.wf (mwrite m a n v) = true := by
  induction n generalizing m a v with
  | zero => exact h
  | succ n ih => exact ih (mput_wf h a _) _ _

theorem swrite_wf {m : Mem} (h : Memory.wf m = true) (a n v : Nat) : Memory.wf (swrite m a n v) = true := by
  induction n generalizing m a v with
  | zero => exact h
  | succ n ih => exact ih (mput_wf h _ _) _ _

theorem mclear_wf {m : Mem} (h : Memory.wf m = true) (a n : Nat) : Memory.wf (mclear m a n) = true := filter_wf h _

/-- A byte reads as it was written. -/
@[simp] theorem mget_mput_self (m : Mem) (a : Nat) (b : Byte) : mget (mput m a b) a = b := by
  unfold mget mput
  split
  · rename_i h; subst h; simp [tgetD]
  · simp

theorem mget_mput_ne (m : Mem) {a j : Nat} (b : Byte) (h : j ≠ a) : mget (mput m a b) j = mget m j := by
  unfold mget mput
  split
  · simp [tgetD, tget_tdel_ne m h]
  · exact tgetD_tput_ne m b 0 h

/-- A write leaves every byte outside it as it was. -/
theorem mget_mwrite_out (m : Mem) (a n v j : Nat) (h : j < a ∨ a + n ≤ j) : mget (mwrite m a n v) j = mget m j := by
  induction n generalizing m a v with
  | zero => rfl
  | succ n ih => rw [mwrite, ih _ _ _ (by omega), mget_mput_ne _ _ (by omega)]

theorem mget_mclear (m : Mem) (a n j : Nat) : mget (mclear m a n) j = if a ≤ j ∧ j < a + n then 0 else mget m j := by
  unfold mget mclear tgetD
  rw [tget_tdelRange]
  split <;> rfl

end Sys2Proof.Machine
end

