-- ==== Sys2Proof/Laws/State.lean ====
section
/-! SUPPORT. What each named update of State leaves in each field: one lemma for each field and update. -/

namespace Sys2Proof.Machine

variable (s : State)

/-! setPart -/

@[simp] theorem State.setPart_pending (p : Nat) (v : Part) : (s.setPart p v).pending = s.pending := rfl
@[simp] theorem State.setPart_free (p : Nat) (v : Part) : (s.setPart p v).free = s.free := rfl
@[simp] theorem State.setPart_plat (p : Nat) (v : Part) : (s.setPart p v).plat = s.plat := rfl
@[simp] theorem State.setPart_reg (p : Nat) (v : Part) : (s.setPart p v).reg = s.reg := rfl
@[simp] theorem State.setPart_stage128 (p : Nat) (v : Part) : (s.setPart p v).stage128 = s.stage128 := rfl
@[simp] theorem State.setPart_ctr (p : Nat) (v : Part) : (s.setPart p v).ctr = s.ctr := rfl
@[simp] theorem State.setPart_parts (p : Nat) (v : Part) : (s.setPart p v).parts = tput s.parts p v := rfl
@[simp] theorem State.setPart_cores (p : Nat) (v : Part) : (s.setPart p v).cores = s.cores := rfl
@[simp] theorem State.setPart_duc (p : Nat) (v : Part) : (s.setPart p v).duc = s.duc := rfl
@[simp] theorem State.setPart_fe (p : Nat) (v : Part) : (s.setPart p v).fe = s.fe := rfl
@[simp] theorem State.setPart_pools (p : Nat) (v : Part) : (s.setPart p v).pools = s.pools := rfl
@[simp] theorem State.setPart_reqs (p : Nat) (v : Part) : (s.setPart p v).reqs = s.reqs := rfl
@[simp] theorem State.setPart_inkq (p : Nat) (v : Part) : (s.setPart p v).inkq = s.inkq := rfl
@[simp] theorem State.setPart_inkWait (p : Nat) (v : Part) : (s.setPart p v).inkWait = s.inkWait := rfl
@[simp] theorem State.setPart_freeWait (p : Nat) (v : Part) : (s.setPart p v).freeWait = s.freeWait := rfl
@[simp] theorem State.setPart_metaUsed (p : Nat) (v : Part) : (s.setPart p v).metaUsed = s.metaUsed := rfl
@[simp] theorem State.setPart_tm (p : Nat) (v : Part) : (s.setPart p v).tm = s.tm := rfl
@[simp] theorem State.setPart_dram (p : Nat) (v : Part) : (s.setPart p v).dram = s.dram := rfl
@[simp] theorem State.setPart_dramPoison (p : Nat) (v : Part) : (s.setPart p v).dramPoison = s.dramPoison := rfl
@[simp] theorem State.setPart_cstore (p : Nat) (v : Part) : (s.setPart p v).cstore = s.cstore := rfl
@[simp] theorem State.setPart_cstorePoison (p : Nat) (v : Part) : (s.setPart p v).cstorePoison = s.cstorePoison := rfl
@[simp] theorem State.setPart_clearing (p : Nat) (v : Part) : (s.setPart p v).clearing = s.clearing := rfl
@[simp] theorem State.setPart_mesh (p : Nat) (v : Part) : (s.setPart p v).mesh = s.mesh := rfl
@[simp] theorem State.setPart_meshPoison (p : Nat) (v : Part) : (s.setPart p v).meshPoison = s.meshPoison := rfl
@[simp] theorem State.setPart_ops (p : Nat) (v : Part) : (s.setPart p v).ops = s.ops := rfl
@[simp] theorem State.setPart_use (p : Nat) (v : Part) : (s.setPart p v).use = s.use := rfl
@[simp] theorem State.setPart_quar (p : Nat) (v : Part) : (s.setPart p v).quar = s.quar := rfl
@[simp] theorem State.setPart_ports (p : Nat) (v : Part) : (s.setPart p v).ports = s.ports := rfl
@[simp] theorem State.setPart_srcEpoch (p : Nat) (v : Part) : (s.setPart p v).srcEpoch = s.srcEpoch := rfl
@[simp] theorem State.setPart_verA (p : Nat) (v : Part) : (s.setPart p v).verA = s.verA := rfl
@[simp] theorem State.setPart_verB (p : Nat) (v : Part) : (s.setPart p v).verB = s.verB := rfl
@[simp] theorem State.setPart_epochErr (p : Nat) (v : Part) : (s.setPart p v).epochErr = s.epochErr := rfl
@[simp] theorem State.setPart_route (p : Nat) (v : Part) : (s.setPart p v).route = s.route := rfl
@[simp] theorem State.setPart_tree (p : Nat) (v : Part) : (s.setPart p v).tree = s.tree := rfl
@[simp] theorem State.setPart_circ (p : Nat) (v : Part) : (s.setPart p v).circ = s.circ := rfl
@[simp] theorem State.setPart_tdm (p : Nat) (v : Part) : (s.setPart p v).tdm = s.tdm := rfl
@[simp] theorem State.setPart_mslot (p : Nat) (v : Part) : (s.setPart p v).mslot = s.mslot := rfl
@[simp] theorem State.setPart_mframe (p : Nat) (v : Part) : (s.setPart p v).mframe = s.mframe := rfl
@[simp] theorem State.setPart_aggs (p : Nat) (v : Part) : (s.setPart p v).aggs = s.aggs := rfl
@[simp] theorem State.setPart_nqHead (p : Nat) (v : Part) : (s.setPart p v).nqHead = s.nqHead := rfl
@[simp] theorem State.setPart_nqEnt (p : Nat) (v : Part) : (s.setPart p v).nqEnt = s.nqEnt := rfl
@[simp] theorem State.setPart_mgmtOut (p : Nat) (v : Part) : (s.setPart p v).mgmtOut = s.mgmtOut := rfl
@[simp] theorem State.setPart_grps (p : Nat) (v : Part) : (s.setPart p v).grps = s.grps := rfl
@[simp] theorem State.setPart_lfree (p : Nat) (v : Part) : (s.setPart p v).lfree = s.lfree := rfl
@[simp] theorem State.setPart_lrfree (p : Nat) (v : Part) : (s.setPart p v).lrfree = s.lrfree := rfl
@[simp] theorem State.setPart_ligLast (p : Nat) (v : Part) : (s.setPart p v).ligLast = s.ligLast := rfl
@[simp] theorem State.setPart_ligSkew (p : Nat) (v : Part) : (s.setPart p v).ligSkew = s.ligSkew := rfl
@[simp] theorem State.setPart_jsBusy (p : Nat) (v : Part) : (s.setPart p v).jsBusy = s.jsBusy := rfl
@[simp] theorem State.setPart_jsDone (p : Nat) (v : Part) : (s.setPart p v).jsDone = s.jsDone := rfl
@[simp] theorem State.setPart_jsStatus (p : Nat) (v : Part) : (s.setPart p v).jsStatus = s.jsStatus := rfl
@[simp] theorem State.setPart_jsTick (p : Nat) (v : Part) : (s.setPart p v).jsTick = s.jsTick := rfl
@[simp] theorem State.setPart_jsRec (p : Nat) (v : Part) : (s.setPart p v).jsRec = s.jsRec := rfl
@[simp] theorem State.setPart_link (p : Nat) (v : Part) : (s.setPart p v).link = s.link := rfl
@[simp] theorem State.setPart_linkWidth (p : Nat) (v : Part) : (s.setPart p v).linkWidth = s.linkWidth := rfl
@[simp] theorem State.setPart_sf (p : Nat) (v : Part) : (s.setPart p v).sf = s.sf := rfl
@[simp] theorem State.setPart_recalls (p : Nat) (v : Part) : (s.setPart p v).recalls = s.recalls := rfl
@[simp] theorem State.setPart_blocked (p : Nat) (v : Part) : (s.setPart p v).blocked = s.blocked := rfl
@[simp] theorem State.setPart_hreqs (p : Nat) (v : Part) : (s.setPart p v).hreqs = s.hreqs := rfl
@[simp] theorem State.setPart_hostId (p : Nat) (v : Part) : (s.setPart p v).hostId = s.hostId := rfl
@[simp] theorem State.setPart_hostTx (p : Nat) (v : Part) : (s.setPart p v).hostTx = s.hostTx := rfl
@[simp] theorem State.setPart_far (p : Nat) (v : Part) : (s.setPart p v).far = s.far := rfl
@[simp] theorem State.setPart_farNext (p : Nat) (v : Part) : (s.setPart p v).farNext = s.farNext := rfl
@[simp] theorem State.setPart_wl (p : Nat) (v : Part) : (s.setPart p v).wl = s.wl := rfl
@[simp] theorem State.setPart_rings (p : Nat) (v : Part) : (s.setPart p v).rings = s.rings := rfl
@[simp] theorem State.setPart_turnRing (p : Nat) (v : Part) : (s.setPart p v).turnRing = s.turnRing := rfl
@[simp] theorem State.setPart_turnTaken (p : Nat) (v : Part) : (s.setPart p v).turnTaken = s.turnTaken := rfl
@[simp] theorem State.setPart_cmds (p : Nat) (v : Part) : (s.setPart p v).cmds = s.cmds := rfl
@[simp] theorem State.setPart_order (p : Nat) (v : Part) : (s.setPart p v).order = s.order := rfl
@[simp] theorem State.setPart_jrn (p : Nat) (v : Part) : (s.setPart p v).jrn = s.jrn := rfl
@[simp] theorem State.setPart_jrnHead (p : Nat) (v : Part) : (s.setPart p v).jrnHead = s.jrnHead := rfl
@[simp] theorem State.setPart_jrnWait (p : Nat) (v : Part) : (s.setPart p v).jrnWait = s.jrnWait := rfl
@[simp] theorem State.setPart_jrnWseq (p : Nat) (v : Part) : (s.setPart p v).jrnWseq = s.jrnWseq := rfl
@[simp] theorem State.setPart_blt (p : Nat) (v : Part) : (s.setPart p v).blt = s.blt := rfl
@[simp] theorem State.setPart_bltHead (p : Nat) (v : Part) : (s.setPart p v).bltHead = s.bltHead := rfl
@[simp] theorem State.setPart_bltq (p : Nat) (v : Part) : (s.setPart p v).bltq = s.bltq := rfl
@[simp] theorem State.setPart_bltNote (p : Nat) (v : Part) : (s.setPart p v).bltNote = s.bltNote := rfl
@[simp] theorem State.setPart_satCur (p : Nat) (v : Part) : (s.setPart p v).satCur = s.satCur := rfl
@[simp] theorem State.setPart_satUtil (p : Nat) (v : Part) : (s.setPart p v).satUtil = s.satUtil := rfl
@[simp] theorem State.setPart_satStall (p : Nat) (v : Part) : (s.setPart p v).satStall = s.satStall := rfl
@[simp] theorem State.setPart_satHist (p : Nat) (v : Part) : (s.setPart p v).satHist = s.satHist := rfl
@[simp] theorem State.setPart_satCfg (p : Nat) (v : Part) : (s.setPart p v).satCfg = s.satCfg := rfl
@[simp] theorem State.setPart_ckp (p : Nat) (v : Part) : (s.setPart p v).ckp = s.ckp := rfl
@[simp] theorem State.setPart_mtbf (p : Nat) (v : Part) : (s.setPart p v).mtbf = s.mtbf := rfl
@[simp] theorem State.setPart_lastFail (p : Nat) (v : Part) : (s.setPart p v).lastFail = s.lastFail := rfl
@[simp] theorem State.setPart_hasPrev (p : Nat) (v : Part) : (s.setPart p v).hasPrev = s.hasPrev := rfl
@[simp] theorem State.setPart_saved (p : Nat) (v : Part) : (s.setPart p v).saved = s.saved := rfl
@[simp] theorem State.setPart_upsets (p : Nat) (v : Part) : (s.setPart p v).upsets = s.upsets := rfl
@[simp] theorem State.setPart_mq (p : Nat) (v : Part) : (s.setPart p v).mq = s.mq := rfl
@[simp] theorem State.setPart_marb (p : Nat) (v : Part) : (s.setPart p v).marb = s.marb := rfl
@[simp] theorem State.setPart_owes (p : Nat) (v : Part) : (s.setPart p v).owes = s.owes := rfl
@[simp] theorem State.setPart_passed (p : Nat) (v : Part) : (s.setPart p v).passed = s.passed := rfl
@[simp] theorem State.setPart_waitq (p : Nat) (v : Part) : (s.setPart p v).waitq = s.waitq := rfl

/-! setCore -/

@[simp] theorem State.setCore_pending (l : Loc) (v : CoreSt) : (s.setCore l v).pending = s.pending := rfl
@[simp] theorem State.setCore_free (l : Loc) (v : CoreSt) : (s.setCore l v).free = s.free := rfl
@[simp] theorem State.setCore_plat (l : Loc) (v : CoreSt) : (s.setCore l v).plat = s.plat := rfl
@[simp] theorem State.setCore_reg (l : Loc) (v : CoreSt) : (s.setCore l v).reg = s.reg := rfl
@[simp] theorem State.setCore_stage128 (l : Loc) (v : CoreSt) : (s.setCore l v).stage128 = s.stage128 := rfl
@[simp] theorem State.setCore_ctr (l : Loc) (v : CoreSt) : (s.setCore l v).ctr = s.ctr := rfl
@[simp] theorem State.setCore_parts (l : Loc) (v : CoreSt) : (s.setCore l v).parts = s.parts := rfl
@[simp] theorem State.setCore_cores (l : Loc) (v : CoreSt) : (s.setCore l v).cores = tput s.cores l.key v := rfl
@[simp] theorem State.setCore_duc (l : Loc) (v : CoreSt) : (s.setCore l v).duc = s.duc := rfl
@[simp] theorem State.setCore_fe (l : Loc) (v : CoreSt) : (s.setCore l v).fe = s.fe := rfl
@[simp] theorem State.setCore_pools (l : Loc) (v : CoreSt) : (s.setCore l v).pools = s.pools := rfl
@[simp] theorem State.setCore_reqs (l : Loc) (v : CoreSt) : (s.setCore l v).reqs = s.reqs := rfl
@[simp] theorem State.setCore_inkq (l : Loc) (v : CoreSt) : (s.setCore l v).inkq = s.inkq := rfl
@[simp] theorem State.setCore_inkWait (l : Loc) (v : CoreSt) : (s.setCore l v).inkWait = s.inkWait := rfl
@[simp] theorem State.setCore_freeWait (l : Loc) (v : CoreSt) : (s.setCore l v).freeWait = s.freeWait := rfl
@[simp] theorem State.setCore_metaUsed (l : Loc) (v : CoreSt) : (s.setCore l v).metaUsed = s.metaUsed := rfl
@[simp] theorem State.setCore_tm (l : Loc) (v : CoreSt) : (s.setCore l v).tm = s.tm := rfl
@[simp] theorem State.setCore_dram (l : Loc) (v : CoreSt) : (s.setCore l v).dram = s.dram := rfl
@[simp] theorem State.setCore_dramPoison (l : Loc) (v : CoreSt) : (s.setCore l v).dramPoison = s.dramPoison := rfl
@[simp] theorem State.setCore_cstore (l : Loc) (v : CoreSt) : (s.setCore l v).cstore = s.cstore := rfl
@[simp] theorem State.setCore_cstorePoison (l : Loc) (v : CoreSt) : (s.setCore l v).cstorePoison = s.cstorePoison := rfl
@[simp] theorem State.setCore_clearing (l : Loc) (v : CoreSt) : (s.setCore l v).clearing = s.clearing := rfl
@[simp] theorem State.setCore_mesh (l : Loc) (v : CoreSt) : (s.setCore l v).mesh = s.mesh := rfl
@[simp] theorem State.setCore_meshPoison (l : Loc) (v : CoreSt) : (s.setCore l v).meshPoison = s.meshPoison := rfl
@[simp] theorem State.setCore_ops (l : Loc) (v : CoreSt) : (s.setCore l v).ops = s.ops := rfl
@[simp] theorem State.setCore_use (l : Loc) (v : CoreSt) : (s.setCore l v).use = s.use := rfl
@[simp] theorem State.setCore_quar (l : Loc) (v : CoreSt) : (s.setCore l v).quar = s.quar := rfl
@[simp] theorem State.setCore_ports (l : Loc) (v : CoreSt) : (s.setCore l v).ports = s.ports := rfl
@[simp] theorem State.setCore_srcEpoch (l : Loc) (v : CoreSt) : (s.setCore l v).srcEpoch = s.srcEpoch := rfl
@[simp] theorem State.setCore_verA (l : Loc) (v : CoreSt) : (s.setCore l v).verA = s.verA := rfl
@[simp] theorem State.setCore_verB (l : Loc) (v : CoreSt) : (s.setCore l v).verB = s.verB := rfl
@[simp] theorem State.setCore_epochErr (l : Loc) (v : CoreSt) : (s.setCore l v).epochErr = s.epochErr := rfl
@[simp] theorem State.setCore_route (l : Loc) (v : CoreSt) : (s.setCore l v).route = s.route := rfl
@[simp] theorem State.setCore_tree (l : Loc) (v : CoreSt) : (s.setCore l v).tree = s.tree := rfl
@[simp] theorem State.setCore_circ (l : Loc) (v : CoreSt) : (s.setCore l v).circ = s.circ := rfl
@[simp] theorem State.setCore_tdm (l : Loc) (v : CoreSt) : (s.setCore l v).tdm = s.tdm := rfl
@[simp] theorem State.setCore_mslot (l : Loc) (v : CoreSt) : (s.setCore l v).mslot = s.mslot := rfl
@[simp] theorem State.setCore_mframe (l : Loc) (v : CoreSt) : (s.setCore l v).mframe = s.mframe := rfl
@[simp] theorem State.setCore_aggs (l : Loc) (v : CoreSt) : (s.setCore l v).aggs = s.aggs := rfl
@[simp] theorem State.setCore_nqHead (l : Loc) (v : CoreSt) : (s.setCore l v).nqHead = s.nqHead := rfl
@[simp] theorem State.setCore_nqEnt (l : Loc) (v : CoreSt) : (s.setCore l v).nqEnt = s.nqEnt := rfl
@[simp] theorem State.setCore_mgmtOut (l : Loc) (v : CoreSt) : (s.setCore l v).mgmtOut = s.mgmtOut := rfl
@[simp] theorem State.setCore_grps (l : Loc) (v : CoreSt) : (s.setCore l v).grps = s.grps := rfl
@[simp] theorem State.setCore_lfree (l : Loc) (v : CoreSt) : (s.setCore l v).lfree = s.lfree := rfl
@[simp] theorem State.setCore_lrfree (l : Loc) (v : CoreSt) : (s.setCore l v).lrfree = s.lrfree := rfl
@[simp] theorem State.setCore_ligLast (l : Loc) (v : CoreSt) : (s.setCore l v).ligLast = s.ligLast := rfl
@[simp] theorem State.setCore_ligSkew (l : Loc) (v : CoreSt) : (s.setCore l v).ligSkew = s.ligSkew := rfl
@[simp] theorem State.setCore_jsBusy (l : Loc) (v : CoreSt) : (s.setCore l v).jsBusy = s.jsBusy := rfl
@[simp] theorem State.setCore_jsDone (l : Loc) (v : CoreSt) : (s.setCore l v).jsDone = s.jsDone := rfl
@[simp] theorem State.setCore_jsStatus (l : Loc) (v : CoreSt) : (s.setCore l v).jsStatus = s.jsStatus := rfl
@[simp] theorem State.setCore_jsTick (l : Loc) (v : CoreSt) : (s.setCore l v).jsTick = s.jsTick := rfl
@[simp] theorem State.setCore_jsRec (l : Loc) (v : CoreSt) : (s.setCore l v).jsRec = s.jsRec := rfl
@[simp] theorem State.setCore_link (l : Loc) (v : CoreSt) : (s.setCore l v).link = s.link := rfl
@[simp] theorem State.setCore_linkWidth (l : Loc) (v : CoreSt) : (s.setCore l v).linkWidth = s.linkWidth := rfl
@[simp] theorem State.setCore_sf (l : Loc) (v : CoreSt) : (s.setCore l v).sf = s.sf := rfl
@[simp] theorem State.setCore_recalls (l : Loc) (v : CoreSt) : (s.setCore l v).recalls = s.recalls := rfl
@[simp] theorem State.setCore_blocked (l : Loc) (v : CoreSt) : (s.setCore l v).blocked = s.blocked := rfl
@[simp] theorem State.setCore_hreqs (l : Loc) (v : CoreSt) : (s.setCore l v).hreqs = s.hreqs := rfl
@[simp] theorem State.setCore_hostId (l : Loc) (v : CoreSt) : (s.setCore l v).hostId = s.hostId := rfl
@[simp] theorem State.setCore_hostTx (l : Loc) (v : CoreSt) : (s.setCore l v).hostTx = s.hostTx := rfl
@[simp] theorem State.setCore_far (l : Loc) (v : CoreSt) : (s.setCore l v).far = s.far := rfl
@[simp] theorem State.setCore_farNext (l : Loc) (v : CoreSt) : (s.setCore l v).farNext = s.farNext := rfl
@[simp] theorem State.setCore_wl (l : Loc) (v : CoreSt) : (s.setCore l v).wl = s.wl := rfl
@[simp] theorem State.setCore_rings (l : Loc) (v : CoreSt) : (s.setCore l v).rings = s.rings := rfl
@[simp] theorem State.setCore_turnRing (l : Loc) (v : CoreSt) : (s.setCore l v).turnRing = s.turnRing := rfl
@[simp] theorem State.setCore_turnTaken (l : Loc) (v : CoreSt) : (s.setCore l v).turnTaken = s.turnTaken := rfl
@[simp] theorem State.setCore_cmds (l : Loc) (v : CoreSt) : (s.setCore l v).cmds = s.cmds := rfl
@[simp] theorem State.setCore_order (l : Loc) (v : CoreSt) : (s.setCore l v).order = s.order := rfl
@[simp] theorem State.setCore_jrn (l : Loc) (v : CoreSt) : (s.setCore l v).jrn = s.jrn := rfl
@[simp] theorem State.setCore_jrnHead (l : Loc) (v : CoreSt) : (s.setCore l v).jrnHead = s.jrnHead := rfl
@[simp] theorem State.setCore_jrnWait (l : Loc) (v : CoreSt) : (s.setCore l v).jrnWait = s.jrnWait := rfl
@[simp] theorem State.setCore_jrnWseq (l : Loc) (v : CoreSt) : (s.setCore l v).jrnWseq = s.jrnWseq := rfl
@[simp] theorem State.setCore_blt (l : Loc) (v : CoreSt) : (s.setCore l v).blt = s.blt := rfl
@[simp] theorem State.setCore_bltHead (l : Loc) (v : CoreSt) : (s.setCore l v).bltHead = s.bltHead := rfl
@[simp] theorem State.setCore_bltq (l : Loc) (v : CoreSt) : (s.setCore l v).bltq = s.bltq := rfl
@[simp] theorem State.setCore_bltNote (l : Loc) (v : CoreSt) : (s.setCore l v).bltNote = s.bltNote := rfl
@[simp] theorem State.setCore_satCur (l : Loc) (v : CoreSt) : (s.setCore l v).satCur = s.satCur := rfl
@[simp] theorem State.setCore_satUtil (l : Loc) (v : CoreSt) : (s.setCore l v).satUtil = s.satUtil := rfl
@[simp] theorem State.setCore_satStall (l : Loc) (v : CoreSt) : (s.setCore l v).satStall = s.satStall := rfl
@[simp] theorem State.setCore_satHist (l : Loc) (v : CoreSt) : (s.setCore l v).satHist = s.satHist := rfl
@[simp] theorem State.setCore_satCfg (l : Loc) (v : CoreSt) : (s.setCore l v).satCfg = s.satCfg := rfl
@[simp] theorem State.setCore_ckp (l : Loc) (v : CoreSt) : (s.setCore l v).ckp = s.ckp := rfl
@[simp] theorem State.setCore_mtbf (l : Loc) (v : CoreSt) : (s.setCore l v).mtbf = s.mtbf := rfl
@[simp] theorem State.setCore_lastFail (l : Loc) (v : CoreSt) : (s.setCore l v).lastFail = s.lastFail := rfl
@[simp] theorem State.setCore_hasPrev (l : Loc) (v : CoreSt) : (s.setCore l v).hasPrev = s.hasPrev := rfl
@[simp] theorem State.setCore_saved (l : Loc) (v : CoreSt) : (s.setCore l v).saved = s.saved := rfl
@[simp] theorem State.setCore_upsets (l : Loc) (v : CoreSt) : (s.setCore l v).upsets = s.upsets := rfl
@[simp] theorem State.setCore_mq (l : Loc) (v : CoreSt) : (s.setCore l v).mq = s.mq := rfl
@[simp] theorem State.setCore_marb (l : Loc) (v : CoreSt) : (s.setCore l v).marb = s.marb := rfl
@[simp] theorem State.setCore_owes (l : Loc) (v : CoreSt) : (s.setCore l v).owes = s.owes := rfl
@[simp] theorem State.setCore_passed (l : Loc) (v : CoreSt) : (s.setCore l v).passed = s.passed := rfl
@[simp] theorem State.setCore_waitq (l : Loc) (v : CoreSt) : (s.setCore l v).waitq = s.waitq := rfl

/-! setDuctus -/

@[simp] theorem State.setDuctus_pending (n : Nat) (v : Ductus) : (s.setDuctus n v).pending = s.pending := rfl
@[simp] theorem State.setDuctus_free (n : Nat) (v : Ductus) : (s.setDuctus n v).free = s.free := rfl
@[simp] theorem State.setDuctus_plat (n : Nat) (v : Ductus) : (s.setDuctus n v).plat = s.plat := rfl
@[simp] theorem State.setDuctus_reg (n : Nat) (v : Ductus) : (s.setDuctus n v).reg = s.reg := rfl
@[simp] theorem State.setDuctus_stage128 (n : Nat) (v : Ductus) : (s.setDuctus n v).stage128 = s.stage128 := rfl
@[simp] theorem State.setDuctus_ctr (n : Nat) (v : Ductus) : (s.setDuctus n v).ctr = s.ctr := rfl
@[simp] theorem State.setDuctus_parts (n : Nat) (v : Ductus) : (s.setDuctus n v).parts = s.parts := rfl
@[simp] theorem State.setDuctus_cores (n : Nat) (v : Ductus) : (s.setDuctus n v).cores = s.cores := rfl
@[simp] theorem State.setDuctus_duc (n : Nat) (v : Ductus) : (s.setDuctus n v).duc = tput s.duc n v := rfl
@[simp] theorem State.setDuctus_fe (n : Nat) (v : Ductus) : (s.setDuctus n v).fe = s.fe := rfl
@[simp] theorem State.setDuctus_pools (n : Nat) (v : Ductus) : (s.setDuctus n v).pools = s.pools := rfl
@[simp] theorem State.setDuctus_reqs (n : Nat) (v : Ductus) : (s.setDuctus n v).reqs = s.reqs := rfl
@[simp] theorem State.setDuctus_inkq (n : Nat) (v : Ductus) : (s.setDuctus n v).inkq = s.inkq := rfl
@[simp] theorem State.setDuctus_inkWait (n : Nat) (v : Ductus) : (s.setDuctus n v).inkWait = s.inkWait := rfl
@[simp] theorem State.setDuctus_freeWait (n : Nat) (v : Ductus) : (s.setDuctus n v).freeWait = s.freeWait := rfl
@[simp] theorem State.setDuctus_metaUsed (n : Nat) (v : Ductus) : (s.setDuctus n v).metaUsed = s.metaUsed := rfl
@[simp] theorem State.setDuctus_tm (n : Nat) (v : Ductus) : (s.setDuctus n v).tm = s.tm := rfl
@[simp] theorem State.setDuctus_dram (n : Nat) (v : Ductus) : (s.setDuctus n v).dram = s.dram := rfl
@[simp] theorem State.setDuctus_dramPoison (n : Nat) (v : Ductus) : (s.setDuctus n v).dramPoison = s.dramPoison := rfl
@[simp] theorem State.setDuctus_cstore (n : Nat) (v : Ductus) : (s.setDuctus n v).cstore = s.cstore := rfl
@[simp] theorem State.setDuctus_cstorePoison (n : Nat) (v : Ductus) : (s.setDuctus n v).cstorePoison = s.cstorePoison := rfl
@[simp] theorem State.setDuctus_clearing (n : Nat) (v : Ductus) : (s.setDuctus n v).clearing = s.clearing := rfl
@[simp] theorem State.setDuctus_mesh (n : Nat) (v : Ductus) : (s.setDuctus n v).mesh = s.mesh := rfl
@[simp] theorem State.setDuctus_meshPoison (n : Nat) (v : Ductus) : (s.setDuctus n v).meshPoison = s.meshPoison := rfl
@[simp] theorem State.setDuctus_ops (n : Nat) (v : Ductus) : (s.setDuctus n v).ops = s.ops := rfl
@[simp] theorem State.setDuctus_use (n : Nat) (v : Ductus) : (s.setDuctus n v).use = s.use := rfl
@[simp] theorem State.setDuctus_quar (n : Nat) (v : Ductus) : (s.setDuctus n v).quar = s.quar := rfl
@[simp] theorem State.setDuctus_ports (n : Nat) (v : Ductus) : (s.setDuctus n v).ports = s.ports := rfl
@[simp] theorem State.setDuctus_srcEpoch (n : Nat) (v : Ductus) : (s.setDuctus n v).srcEpoch = s.srcEpoch := rfl
@[simp] theorem State.setDuctus_verA (n : Nat) (v : Ductus) : (s.setDuctus n v).verA = s.verA := rfl
@[simp] theorem State.setDuctus_verB (n : Nat) (v : Ductus) : (s.setDuctus n v).verB = s.verB := rfl
@[simp] theorem State.setDuctus_epochErr (n : Nat) (v : Ductus) : (s.setDuctus n v).epochErr = s.epochErr := rfl
@[simp] theorem State.setDuctus_route (n : Nat) (v : Ductus) : (s.setDuctus n v).route = s.route := rfl
@[simp] theorem State.setDuctus_tree (n : Nat) (v : Ductus) : (s.setDuctus n v).tree = s.tree := rfl
@[simp] theorem State.setDuctus_circ (n : Nat) (v : Ductus) : (s.setDuctus n v).circ = s.circ := rfl
@[simp] theorem State.setDuctus_tdm (n : Nat) (v : Ductus) : (s.setDuctus n v).tdm = s.tdm := rfl
@[simp] theorem State.setDuctus_mslot (n : Nat) (v : Ductus) : (s.setDuctus n v).mslot = s.mslot := rfl
@[simp] theorem State.setDuctus_mframe (n : Nat) (v : Ductus) : (s.setDuctus n v).mframe = s.mframe := rfl
@[simp] theorem State.setDuctus_aggs (n : Nat) (v : Ductus) : (s.setDuctus n v).aggs = s.aggs := rfl
@[simp] theorem State.setDuctus_nqHead (n : Nat) (v : Ductus) : (s.setDuctus n v).nqHead = s.nqHead := rfl
@[simp] theorem State.setDuctus_nqEnt (n : Nat) (v : Ductus) : (s.setDuctus n v).nqEnt = s.nqEnt := rfl
@[simp] theorem State.setDuctus_mgmtOut (n : Nat) (v : Ductus) : (s.setDuctus n v).mgmtOut = s.mgmtOut := rfl
@[simp] theorem State.setDuctus_grps (n : Nat) (v : Ductus) : (s.setDuctus n v).grps = s.grps := rfl
@[simp] theorem State.setDuctus_lfree (n : Nat) (v : Ductus) : (s.setDuctus n v).lfree = s.lfree := rfl
@[simp] theorem State.setDuctus_lrfree (n : Nat) (v : Ductus) : (s.setDuctus n v).lrfree = s.lrfree := rfl
@[simp] theorem State.setDuctus_ligLast (n : Nat) (v : Ductus) : (s.setDuctus n v).ligLast = s.ligLast := rfl
@[simp] theorem State.setDuctus_ligSkew (n : Nat) (v : Ductus) : (s.setDuctus n v).ligSkew = s.ligSkew := rfl
@[simp] theorem State.setDuctus_jsBusy (n : Nat) (v : Ductus) : (s.setDuctus n v).jsBusy = s.jsBusy := rfl
@[simp] theorem State.setDuctus_jsDone (n : Nat) (v : Ductus) : (s.setDuctus n v).jsDone = s.jsDone := rfl
@[simp] theorem State.setDuctus_jsStatus (n : Nat) (v : Ductus) : (s.setDuctus n v).jsStatus = s.jsStatus := rfl
@[simp] theorem State.setDuctus_jsTick (n : Nat) (v : Ductus) : (s.setDuctus n v).jsTick = s.jsTick := rfl
@[simp] theorem State.setDuctus_jsRec (n : Nat) (v : Ductus) : (s.setDuctus n v).jsRec = s.jsRec := rfl
@[simp] theorem State.setDuctus_link (n : Nat) (v : Ductus) : (s.setDuctus n v).link = s.link := rfl
@[simp] theorem State.setDuctus_linkWidth (n : Nat) (v : Ductus) : (s.setDuctus n v).linkWidth = s.linkWidth := rfl
@[simp] theorem State.setDuctus_sf (n : Nat) (v : Ductus) : (s.setDuctus n v).sf = s.sf := rfl
@[simp] theorem State.setDuctus_recalls (n : Nat) (v : Ductus) : (s.setDuctus n v).recalls = s.recalls := rfl
@[simp] theorem State.setDuctus_blocked (n : Nat) (v : Ductus) : (s.setDuctus n v).blocked = s.blocked := rfl
@[simp] theorem State.setDuctus_hreqs (n : Nat) (v : Ductus) : (s.setDuctus n v).hreqs = s.hreqs := rfl
@[simp] theorem State.setDuctus_hostId (n : Nat) (v : Ductus) : (s.setDuctus n v).hostId = s.hostId := rfl
@[simp] theorem State.setDuctus_hostTx (n : Nat) (v : Ductus) : (s.setDuctus n v).hostTx = s.hostTx := rfl
@[simp] theorem State.setDuctus_far (n : Nat) (v : Ductus) : (s.setDuctus n v).far = s.far := rfl
@[simp] theorem State.setDuctus_farNext (n : Nat) (v : Ductus) : (s.setDuctus n v).farNext = s.farNext := rfl
@[simp] theorem State.setDuctus_wl (n : Nat) (v : Ductus) : (s.setDuctus n v).wl = s.wl := rfl
@[simp] theorem State.setDuctus_rings (n : Nat) (v : Ductus) : (s.setDuctus n v).rings = s.rings := rfl
@[simp] theorem State.setDuctus_turnRing (n : Nat) (v : Ductus) : (s.setDuctus n v).turnRing = s.turnRing := rfl
@[simp] theorem State.setDuctus_turnTaken (n : Nat) (v : Ductus) : (s.setDuctus n v).turnTaken = s.turnTaken := rfl
@[simp] theorem State.setDuctus_cmds (n : Nat) (v : Ductus) : (s.setDuctus n v).cmds = s.cmds := rfl
@[simp] theorem State.setDuctus_order (n : Nat) (v : Ductus) : (s.setDuctus n v).order = s.order := rfl
@[simp] theorem State.setDuctus_jrn (n : Nat) (v : Ductus) : (s.setDuctus n v).jrn = s.jrn := rfl
@[simp] theorem State.setDuctus_jrnHead (n : Nat) (v : Ductus) : (s.setDuctus n v).jrnHead = s.jrnHead := rfl
@[simp] theorem State.setDuctus_jrnWait (n : Nat) (v : Ductus) : (s.setDuctus n v).jrnWait = s.jrnWait := rfl
@[simp] theorem State.setDuctus_jrnWseq (n : Nat) (v : Ductus) : (s.setDuctus n v).jrnWseq = s.jrnWseq := rfl
@[simp] theorem State.setDuctus_blt (n : Nat) (v : Ductus) : (s.setDuctus n v).blt = s.blt := rfl
@[simp] theorem State.setDuctus_bltHead (n : Nat) (v : Ductus) : (s.setDuctus n v).bltHead = s.bltHead := rfl
@[simp] theorem State.setDuctus_bltq (n : Nat) (v : Ductus) : (s.setDuctus n v).bltq = s.bltq := rfl
@[simp] theorem State.setDuctus_bltNote (n : Nat) (v : Ductus) : (s.setDuctus n v).bltNote = s.bltNote := rfl
@[simp] theorem State.setDuctus_satCur (n : Nat) (v : Ductus) : (s.setDuctus n v).satCur = s.satCur := rfl
@[simp] theorem State.setDuctus_satUtil (n : Nat) (v : Ductus) : (s.setDuctus n v).satUtil = s.satUtil := rfl
@[simp] theorem State.setDuctus_satStall (n : Nat) (v : Ductus) : (s.setDuctus n v).satStall = s.satStall := rfl
@[simp] theorem State.setDuctus_satHist (n : Nat) (v : Ductus) : (s.setDuctus n v).satHist = s.satHist := rfl
@[simp] theorem State.setDuctus_satCfg (n : Nat) (v : Ductus) : (s.setDuctus n v).satCfg = s.satCfg := rfl
@[simp] theorem State.setDuctus_ckp (n : Nat) (v : Ductus) : (s.setDuctus n v).ckp = s.ckp := rfl
@[simp] theorem State.setDuctus_mtbf (n : Nat) (v : Ductus) : (s.setDuctus n v).mtbf = s.mtbf := rfl
@[simp] theorem State.setDuctus_lastFail (n : Nat) (v : Ductus) : (s.setDuctus n v).lastFail = s.lastFail := rfl
@[simp] theorem State.setDuctus_hasPrev (n : Nat) (v : Ductus) : (s.setDuctus n v).hasPrev = s.hasPrev := rfl
@[simp] theorem State.setDuctus_saved (n : Nat) (v : Ductus) : (s.setDuctus n v).saved = s.saved := rfl
@[simp] theorem State.setDuctus_upsets (n : Nat) (v : Ductus) : (s.setDuctus n v).upsets = s.upsets := rfl
@[simp] theorem State.setDuctus_mq (n : Nat) (v : Ductus) : (s.setDuctus n v).mq = s.mq := rfl
@[simp] theorem State.setDuctus_marb (n : Nat) (v : Ductus) : (s.setDuctus n v).marb = s.marb := rfl
@[simp] theorem State.setDuctus_owes (n : Nat) (v : Ductus) : (s.setDuctus n v).owes = s.owes := rfl
@[simp] theorem State.setDuctus_passed (n : Nat) (v : Ductus) : (s.setDuctus n v).passed = s.passed := rfl
@[simp] theorem State.setDuctus_waitq (n : Nat) (v : Ductus) : (s.setDuctus n v).waitq = s.waitq := rfl

/-! setPort -/

@[simp] theorem State.setPort_pending (n : Nat) (v : Port) : (s.setPort n v).pending = s.pending := rfl
@[simp] theorem State.setPort_free (n : Nat) (v : Port) : (s.setPort n v).free = s.free := rfl
@[simp] theorem State.setPort_plat (n : Nat) (v : Port) : (s.setPort n v).plat = s.plat := rfl
@[simp] theorem State.setPort_reg (n : Nat) (v : Port) : (s.setPort n v).reg = s.reg := rfl
@[simp] theorem State.setPort_stage128 (n : Nat) (v : Port) : (s.setPort n v).stage128 = s.stage128 := rfl
@[simp] theorem State.setPort_ctr (n : Nat) (v : Port) : (s.setPort n v).ctr = s.ctr := rfl
@[simp] theorem State.setPort_parts (n : Nat) (v : Port) : (s.setPort n v).parts = s.parts := rfl
@[simp] theorem State.setPort_cores (n : Nat) (v : Port) : (s.setPort n v).cores = s.cores := rfl
@[simp] theorem State.setPort_duc (n : Nat) (v : Port) : (s.setPort n v).duc = s.duc := rfl
@[simp] theorem State.setPort_fe (n : Nat) (v : Port) : (s.setPort n v).fe = s.fe := rfl
@[simp] theorem State.setPort_pools (n : Nat) (v : Port) : (s.setPort n v).pools = s.pools := rfl
@[simp] theorem State.setPort_reqs (n : Nat) (v : Port) : (s.setPort n v).reqs = s.reqs := rfl
@[simp] theorem State.setPort_inkq (n : Nat) (v : Port) : (s.setPort n v).inkq = s.inkq := rfl
@[simp] theorem State.setPort_inkWait (n : Nat) (v : Port) : (s.setPort n v).inkWait = s.inkWait := rfl
@[simp] theorem State.setPort_freeWait (n : Nat) (v : Port) : (s.setPort n v).freeWait = s.freeWait := rfl
@[simp] theorem State.setPort_metaUsed (n : Nat) (v : Port) : (s.setPort n v).metaUsed = s.metaUsed := rfl
@[simp] theorem State.setPort_tm (n : Nat) (v : Port) : (s.setPort n v).tm = s.tm := rfl
@[simp] theorem State.setPort_dram (n : Nat) (v : Port) : (s.setPort n v).dram = s.dram := rfl
@[simp] theorem State.setPort_dramPoison (n : Nat) (v : Port) : (s.setPort n v).dramPoison = s.dramPoison := rfl
@[simp] theorem State.setPort_cstore (n : Nat) (v : Port) : (s.setPort n v).cstore = s.cstore := rfl
@[simp] theorem State.setPort_cstorePoison (n : Nat) (v : Port) : (s.setPort n v).cstorePoison = s.cstorePoison := rfl
@[simp] theorem State.setPort_clearing (n : Nat) (v : Port) : (s.setPort n v).clearing = s.clearing := rfl
@[simp] theorem State.setPort_mesh (n : Nat) (v : Port) : (s.setPort n v).mesh = s.mesh := rfl
@[simp] theorem State.setPort_meshPoison (n : Nat) (v : Port) : (s.setPort n v).meshPoison = s.meshPoison := rfl
@[simp] theorem State.setPort_ops (n : Nat) (v : Port) : (s.setPort n v).ops = s.ops := rfl
@[simp] theorem State.setPort_use (n : Nat) (v : Port) : (s.setPort n v).use = s.use := rfl
@[simp] theorem State.setPort_quar (n : Nat) (v : Port) : (s.setPort n v).quar = s.quar := rfl
@[simp] theorem State.setPort_ports (n : Nat) (v : Port) : (s.setPort n v).ports = tput s.ports n v := rfl
@[simp] theorem State.setPort_srcEpoch (n : Nat) (v : Port) : (s.setPort n v).srcEpoch = s.srcEpoch := rfl
@[simp] theorem State.setPort_verA (n : Nat) (v : Port) : (s.setPort n v).verA = s.verA := rfl
@[simp] theorem State.setPort_verB (n : Nat) (v : Port) : (s.setPort n v).verB = s.verB := rfl
@[simp] theorem State.setPort_epochErr (n : Nat) (v : Port) : (s.setPort n v).epochErr = s.epochErr := rfl
@[simp] theorem State.setPort_route (n : Nat) (v : Port) : (s.setPort n v).route = s.route := rfl
@[simp] theorem State.setPort_tree (n : Nat) (v : Port) : (s.setPort n v).tree = s.tree := rfl
@[simp] theorem State.setPort_circ (n : Nat) (v : Port) : (s.setPort n v).circ = s.circ := rfl
@[simp] theorem State.setPort_tdm (n : Nat) (v : Port) : (s.setPort n v).tdm = s.tdm := rfl
@[simp] theorem State.setPort_mslot (n : Nat) (v : Port) : (s.setPort n v).mslot = s.mslot := rfl
@[simp] theorem State.setPort_mframe (n : Nat) (v : Port) : (s.setPort n v).mframe = s.mframe := rfl
@[simp] theorem State.setPort_aggs (n : Nat) (v : Port) : (s.setPort n v).aggs = s.aggs := rfl
@[simp] theorem State.setPort_nqHead (n : Nat) (v : Port) : (s.setPort n v).nqHead = s.nqHead := rfl
@[simp] theorem State.setPort_nqEnt (n : Nat) (v : Port) : (s.setPort n v).nqEnt = s.nqEnt := rfl
@[simp] theorem State.setPort_mgmtOut (n : Nat) (v : Port) : (s.setPort n v).mgmtOut = s.mgmtOut := rfl
@[simp] theorem State.setPort_grps (n : Nat) (v : Port) : (s.setPort n v).grps = s.grps := rfl
@[simp] theorem State.setPort_lfree (n : Nat) (v : Port) : (s.setPort n v).lfree = s.lfree := rfl
@[simp] theorem State.setPort_lrfree (n : Nat) (v : Port) : (s.setPort n v).lrfree = s.lrfree := rfl
@[simp] theorem State.setPort_ligLast (n : Nat) (v : Port) : (s.setPort n v).ligLast = s.ligLast := rfl
@[simp] theorem State.setPort_ligSkew (n : Nat) (v : Port) : (s.setPort n v).ligSkew = s.ligSkew := rfl
@[simp] theorem State.setPort_jsBusy (n : Nat) (v : Port) : (s.setPort n v).jsBusy = s.jsBusy := rfl
@[simp] theorem State.setPort_jsDone (n : Nat) (v : Port) : (s.setPort n v).jsDone = s.jsDone := rfl
@[simp] theorem State.setPort_jsStatus (n : Nat) (v : Port) : (s.setPort n v).jsStatus = s.jsStatus := rfl
@[simp] theorem State.setPort_jsTick (n : Nat) (v : Port) : (s.setPort n v).jsTick = s.jsTick := rfl
@[simp] theorem State.setPort_jsRec (n : Nat) (v : Port) : (s.setPort n v).jsRec = s.jsRec := rfl
@[simp] theorem State.setPort_link (n : Nat) (v : Port) : (s.setPort n v).link = s.link := rfl
@[simp] theorem State.setPort_linkWidth (n : Nat) (v : Port) : (s.setPort n v).linkWidth = s.linkWidth := rfl
@[simp] theorem State.setPort_sf (n : Nat) (v : Port) : (s.setPort n v).sf = s.sf := rfl
@[simp] theorem State.setPort_recalls (n : Nat) (v : Port) : (s.setPort n v).recalls = s.recalls := rfl
@[simp] theorem State.setPort_blocked (n : Nat) (v : Port) : (s.setPort n v).blocked = s.blocked := rfl
@[simp] theorem State.setPort_hreqs (n : Nat) (v : Port) : (s.setPort n v).hreqs = s.hreqs := rfl
@[simp] theorem State.setPort_hostId (n : Nat) (v : Port) : (s.setPort n v).hostId = s.hostId := rfl
@[simp] theorem State.setPort_hostTx (n : Nat) (v : Port) : (s.setPort n v).hostTx = s.hostTx := rfl
@[simp] theorem State.setPort_far (n : Nat) (v : Port) : (s.setPort n v).far = s.far := rfl
@[simp] theorem State.setPort_farNext (n : Nat) (v : Port) : (s.setPort n v).farNext = s.farNext := rfl
@[simp] theorem State.setPort_wl (n : Nat) (v : Port) : (s.setPort n v).wl = s.wl := rfl
@[simp] theorem State.setPort_rings (n : Nat) (v : Port) : (s.setPort n v).rings = s.rings := rfl
@[simp] theorem State.setPort_turnRing (n : Nat) (v : Port) : (s.setPort n v).turnRing = s.turnRing := rfl
@[simp] theorem State.setPort_turnTaken (n : Nat) (v : Port) : (s.setPort n v).turnTaken = s.turnTaken := rfl
@[simp] theorem State.setPort_cmds (n : Nat) (v : Port) : (s.setPort n v).cmds = s.cmds := rfl
@[simp] theorem State.setPort_order (n : Nat) (v : Port) : (s.setPort n v).order = s.order := rfl
@[simp] theorem State.setPort_jrn (n : Nat) (v : Port) : (s.setPort n v).jrn = s.jrn := rfl
@[simp] theorem State.setPort_jrnHead (n : Nat) (v : Port) : (s.setPort n v).jrnHead = s.jrnHead := rfl
@[simp] theorem State.setPort_jrnWait (n : Nat) (v : Port) : (s.setPort n v).jrnWait = s.jrnWait := rfl
@[simp] theorem State.setPort_jrnWseq (n : Nat) (v : Port) : (s.setPort n v).jrnWseq = s.jrnWseq := rfl
@[simp] theorem State.setPort_blt (n : Nat) (v : Port) : (s.setPort n v).blt = s.blt := rfl
@[simp] theorem State.setPort_bltHead (n : Nat) (v : Port) : (s.setPort n v).bltHead = s.bltHead := rfl
@[simp] theorem State.setPort_bltq (n : Nat) (v : Port) : (s.setPort n v).bltq = s.bltq := rfl
@[simp] theorem State.setPort_bltNote (n : Nat) (v : Port) : (s.setPort n v).bltNote = s.bltNote := rfl
@[simp] theorem State.setPort_satCur (n : Nat) (v : Port) : (s.setPort n v).satCur = s.satCur := rfl
@[simp] theorem State.setPort_satUtil (n : Nat) (v : Port) : (s.setPort n v).satUtil = s.satUtil := rfl
@[simp] theorem State.setPort_satStall (n : Nat) (v : Port) : (s.setPort n v).satStall = s.satStall := rfl
@[simp] theorem State.setPort_satHist (n : Nat) (v : Port) : (s.setPort n v).satHist = s.satHist := rfl
@[simp] theorem State.setPort_satCfg (n : Nat) (v : Port) : (s.setPort n v).satCfg = s.satCfg := rfl
@[simp] theorem State.setPort_ckp (n : Nat) (v : Port) : (s.setPort n v).ckp = s.ckp := rfl
@[simp] theorem State.setPort_mtbf (n : Nat) (v : Port) : (s.setPort n v).mtbf = s.mtbf := rfl
@[simp] theorem State.setPort_lastFail (n : Nat) (v : Port) : (s.setPort n v).lastFail = s.lastFail := rfl
@[simp] theorem State.setPort_hasPrev (n : Nat) (v : Port) : (s.setPort n v).hasPrev = s.hasPrev := rfl
@[simp] theorem State.setPort_saved (n : Nat) (v : Port) : (s.setPort n v).saved = s.saved := rfl
@[simp] theorem State.setPort_upsets (n : Nat) (v : Port) : (s.setPort n v).upsets = s.upsets := rfl
@[simp] theorem State.setPort_mq (n : Nat) (v : Port) : (s.setPort n v).mq = s.mq := rfl
@[simp] theorem State.setPort_marb (n : Nat) (v : Port) : (s.setPort n v).marb = s.marb := rfl
@[simp] theorem State.setPort_owes (n : Nat) (v : Port) : (s.setPort n v).owes = s.owes := rfl
@[simp] theorem State.setPort_passed (n : Nat) (v : Port) : (s.setPort n v).passed = s.passed := rfl
@[simp] theorem State.setPort_waitq (n : Nat) (v : Port) : (s.setPort n v).waitq = s.waitq := rfl

/-! setPool -/

@[simp] theorem State.setPool_pending (n : Nat) (v : Pool) : (s.setPool n v).pending = s.pending := rfl
@[simp] theorem State.setPool_free (n : Nat) (v : Pool) : (s.setPool n v).free = s.free := rfl
@[simp] theorem State.setPool_plat (n : Nat) (v : Pool) : (s.setPool n v).plat = s.plat := rfl
@[simp] theorem State.setPool_reg (n : Nat) (v : Pool) : (s.setPool n v).reg = s.reg := rfl
@[simp] theorem State.setPool_stage128 (n : Nat) (v : Pool) : (s.setPool n v).stage128 = s.stage128 := rfl
@[simp] theorem State.setPool_ctr (n : Nat) (v : Pool) : (s.setPool n v).ctr = s.ctr := rfl
@[simp] theorem State.setPool_parts (n : Nat) (v : Pool) : (s.setPool n v).parts = s.parts := rfl
@[simp] theorem State.setPool_cores (n : Nat) (v : Pool) : (s.setPool n v).cores = s.cores := rfl
@[simp] theorem State.setPool_duc (n : Nat) (v : Pool) : (s.setPool n v).duc = s.duc := rfl
@[simp] theorem State.setPool_fe (n : Nat) (v : Pool) : (s.setPool n v).fe = s.fe := rfl
@[simp] theorem State.setPool_pools (n : Nat) (v : Pool) : (s.setPool n v).pools = tput s.pools n v := rfl
@[simp] theorem State.setPool_reqs (n : Nat) (v : Pool) : (s.setPool n v).reqs = s.reqs := rfl
@[simp] theorem State.setPool_inkq (n : Nat) (v : Pool) : (s.setPool n v).inkq = s.inkq := rfl
@[simp] theorem State.setPool_inkWait (n : Nat) (v : Pool) : (s.setPool n v).inkWait = s.inkWait := rfl
@[simp] theorem State.setPool_freeWait (n : Nat) (v : Pool) : (s.setPool n v).freeWait = s.freeWait := rfl
@[simp] theorem State.setPool_metaUsed (n : Nat) (v : Pool) : (s.setPool n v).metaUsed = s.metaUsed := rfl
@[simp] theorem State.setPool_tm (n : Nat) (v : Pool) : (s.setPool n v).tm = s.tm := rfl
@[simp] theorem State.setPool_dram (n : Nat) (v : Pool) : (s.setPool n v).dram = s.dram := rfl
@[simp] theorem State.setPool_dramPoison (n : Nat) (v : Pool) : (s.setPool n v).dramPoison = s.dramPoison := rfl
@[simp] theorem State.setPool_cstore (n : Nat) (v : Pool) : (s.setPool n v).cstore = s.cstore := rfl
@[simp] theorem State.setPool_cstorePoison (n : Nat) (v : Pool) : (s.setPool n v).cstorePoison = s.cstorePoison := rfl
@[simp] theorem State.setPool_clearing (n : Nat) (v : Pool) : (s.setPool n v).clearing = s.clearing := rfl
@[simp] theorem State.setPool_mesh (n : Nat) (v : Pool) : (s.setPool n v).mesh = s.mesh := rfl
@[simp] theorem State.setPool_meshPoison (n : Nat) (v : Pool) : (s.setPool n v).meshPoison = s.meshPoison := rfl
@[simp] theorem State.setPool_ops (n : Nat) (v : Pool) : (s.setPool n v).ops = s.ops := rfl
@[simp] theorem State.setPool_use (n : Nat) (v : Pool) : (s.setPool n v).use = s.use := rfl
@[simp] theorem State.setPool_quar (n : Nat) (v : Pool) : (s.setPool n v).quar = s.quar := rfl
@[simp] theorem State.setPool_ports (n : Nat) (v : Pool) : (s.setPool n v).ports = s.ports := rfl
@[simp] theorem State.setPool_srcEpoch (n : Nat) (v : Pool) : (s.setPool n v).srcEpoch = s.srcEpoch := rfl
@[simp] theorem State.setPool_verA (n : Nat) (v : Pool) : (s.setPool n v).verA = s.verA := rfl
@[simp] theorem State.setPool_verB (n : Nat) (v : Pool) : (s.setPool n v).verB = s.verB := rfl
@[simp] theorem State.setPool_epochErr (n : Nat) (v : Pool) : (s.setPool n v).epochErr = s.epochErr := rfl
@[simp] theorem State.setPool_route (n : Nat) (v : Pool) : (s.setPool n v).route = s.route := rfl
@[simp] theorem State.setPool_tree (n : Nat) (v : Pool) : (s.setPool n v).tree = s.tree := rfl
@[simp] theorem State.setPool_circ (n : Nat) (v : Pool) : (s.setPool n v).circ = s.circ := rfl
@[simp] theorem State.setPool_tdm (n : Nat) (v : Pool) : (s.setPool n v).tdm = s.tdm := rfl
@[simp] theorem State.setPool_mslot (n : Nat) (v : Pool) : (s.setPool n v).mslot = s.mslot := rfl
@[simp] theorem State.setPool_mframe (n : Nat) (v : Pool) : (s.setPool n v).mframe = s.mframe := rfl
@[simp] theorem State.setPool_aggs (n : Nat) (v : Pool) : (s.setPool n v).aggs = s.aggs := rfl
@[simp] theorem State.setPool_nqHead (n : Nat) (v : Pool) : (s.setPool n v).nqHead = s.nqHead := rfl
@[simp] theorem State.setPool_nqEnt (n : Nat) (v : Pool) : (s.setPool n v).nqEnt = s.nqEnt := rfl
@[simp] theorem State.setPool_mgmtOut (n : Nat) (v : Pool) : (s.setPool n v).mgmtOut = s.mgmtOut := rfl
@[simp] theorem State.setPool_grps (n : Nat) (v : Pool) : (s.setPool n v).grps = s.grps := rfl
@[simp] theorem State.setPool_lfree (n : Nat) (v : Pool) : (s.setPool n v).lfree = s.lfree := rfl
@[simp] theorem State.setPool_lrfree (n : Nat) (v : Pool) : (s.setPool n v).lrfree = s.lrfree := rfl
@[simp] theorem State.setPool_ligLast (n : Nat) (v : Pool) : (s.setPool n v).ligLast = s.ligLast := rfl
@[simp] theorem State.setPool_ligSkew (n : Nat) (v : Pool) : (s.setPool n v).ligSkew = s.ligSkew := rfl
@[simp] theorem State.setPool_jsBusy (n : Nat) (v : Pool) : (s.setPool n v).jsBusy = s.jsBusy := rfl
@[simp] theorem State.setPool_jsDone (n : Nat) (v : Pool) : (s.setPool n v).jsDone = s.jsDone := rfl
@[simp] theorem State.setPool_jsStatus (n : Nat) (v : Pool) : (s.setPool n v).jsStatus = s.jsStatus := rfl
@[simp] theorem State.setPool_jsTick (n : Nat) (v : Pool) : (s.setPool n v).jsTick = s.jsTick := rfl
@[simp] theorem State.setPool_jsRec (n : Nat) (v : Pool) : (s.setPool n v).jsRec = s.jsRec := rfl
@[simp] theorem State.setPool_link (n : Nat) (v : Pool) : (s.setPool n v).link = s.link := rfl
@[simp] theorem State.setPool_linkWidth (n : Nat) (v : Pool) : (s.setPool n v).linkWidth = s.linkWidth := rfl
@[simp] theorem State.setPool_sf (n : Nat) (v : Pool) : (s.setPool n v).sf = s.sf := rfl
@[simp] theorem State.setPool_recalls (n : Nat) (v : Pool) : (s.setPool n v).recalls = s.recalls := rfl
@[simp] theorem State.setPool_blocked (n : Nat) (v : Pool) : (s.setPool n v).blocked = s.blocked := rfl
@[simp] theorem State.setPool_hreqs (n : Nat) (v : Pool) : (s.setPool n v).hreqs = s.hreqs := rfl
@[simp] theorem State.setPool_hostId (n : Nat) (v : Pool) : (s.setPool n v).hostId = s.hostId := rfl
@[simp] theorem State.setPool_hostTx (n : Nat) (v : Pool) : (s.setPool n v).hostTx = s.hostTx := rfl
@[simp] theorem State.setPool_far (n : Nat) (v : Pool) : (s.setPool n v).far = s.far := rfl
@[simp] theorem State.setPool_farNext (n : Nat) (v : Pool) : (s.setPool n v).farNext = s.farNext := rfl
@[simp] theorem State.setPool_wl (n : Nat) (v : Pool) : (s.setPool n v).wl = s.wl := rfl
@[simp] theorem State.setPool_rings (n : Nat) (v : Pool) : (s.setPool n v).rings = s.rings := rfl
@[simp] theorem State.setPool_turnRing (n : Nat) (v : Pool) : (s.setPool n v).turnRing = s.turnRing := rfl
@[simp] theorem State.setPool_turnTaken (n : Nat) (v : Pool) : (s.setPool n v).turnTaken = s.turnTaken := rfl
@[simp] theorem State.setPool_cmds (n : Nat) (v : Pool) : (s.setPool n v).cmds = s.cmds := rfl
@[simp] theorem State.setPool_order (n : Nat) (v : Pool) : (s.setPool n v).order = s.order := rfl
@[simp] theorem State.setPool_jrn (n : Nat) (v : Pool) : (s.setPool n v).jrn = s.jrn := rfl
@[simp] theorem State.setPool_jrnHead (n : Nat) (v : Pool) : (s.setPool n v).jrnHead = s.jrnHead := rfl
@[simp] theorem State.setPool_jrnWait (n : Nat) (v : Pool) : (s.setPool n v).jrnWait = s.jrnWait := rfl
@[simp] theorem State.setPool_jrnWseq (n : Nat) (v : Pool) : (s.setPool n v).jrnWseq = s.jrnWseq := rfl
@[simp] theorem State.setPool_blt (n : Nat) (v : Pool) : (s.setPool n v).blt = s.blt := rfl
@[simp] theorem State.setPool_bltHead (n : Nat) (v : Pool) : (s.setPool n v).bltHead = s.bltHead := rfl
@[simp] theorem State.setPool_bltq (n : Nat) (v : Pool) : (s.setPool n v).bltq = s.bltq := rfl
@[simp] theorem State.setPool_bltNote (n : Nat) (v : Pool) : (s.setPool n v).bltNote = s.bltNote := rfl
@[simp] theorem State.setPool_satCur (n : Nat) (v : Pool) : (s.setPool n v).satCur = s.satCur := rfl
@[simp] theorem State.setPool_satUtil (n : Nat) (v : Pool) : (s.setPool n v).satUtil = s.satUtil := rfl
@[simp] theorem State.setPool_satStall (n : Nat) (v : Pool) : (s.setPool n v).satStall = s.satStall := rfl
@[simp] theorem State.setPool_satHist (n : Nat) (v : Pool) : (s.setPool n v).satHist = s.satHist := rfl
@[simp] theorem State.setPool_satCfg (n : Nat) (v : Pool) : (s.setPool n v).satCfg = s.satCfg := rfl
@[simp] theorem State.setPool_ckp (n : Nat) (v : Pool) : (s.setPool n v).ckp = s.ckp := rfl
@[simp] theorem State.setPool_mtbf (n : Nat) (v : Pool) : (s.setPool n v).mtbf = s.mtbf := rfl
@[simp] theorem State.setPool_lastFail (n : Nat) (v : Pool) : (s.setPool n v).lastFail = s.lastFail := rfl
@[simp] theorem State.setPool_hasPrev (n : Nat) (v : Pool) : (s.setPool n v).hasPrev = s.hasPrev := rfl
@[simp] theorem State.setPool_saved (n : Nat) (v : Pool) : (s.setPool n v).saved = s.saved := rfl
@[simp] theorem State.setPool_upsets (n : Nat) (v : Pool) : (s.setPool n v).upsets = s.upsets := rfl
@[simp] theorem State.setPool_mq (n : Nat) (v : Pool) : (s.setPool n v).mq = s.mq := rfl
@[simp] theorem State.setPool_marb (n : Nat) (v : Pool) : (s.setPool n v).marb = s.marb := rfl
@[simp] theorem State.setPool_owes (n : Nat) (v : Pool) : (s.setPool n v).owes = s.owes := rfl
@[simp] theorem State.setPool_passed (n : Nat) (v : Pool) : (s.setPool n v).passed = s.passed := rfl
@[simp] theorem State.setPool_waitq (n : Nat) (v : Pool) : (s.setPool n v).waitq = s.waitq := rfl

/-! setReqr -/

@[simp] theorem State.setReqr_pending (n : Nat) (v : Requester) : (s.setReqr n v).pending = s.pending := rfl
@[simp] theorem State.setReqr_free (n : Nat) (v : Requester) : (s.setReqr n v).free = s.free := rfl
@[simp] theorem State.setReqr_plat (n : Nat) (v : Requester) : (s.setReqr n v).plat = s.plat := rfl
@[simp] theorem State.setReqr_reg (n : Nat) (v : Requester) : (s.setReqr n v).reg = s.reg := rfl
@[simp] theorem State.setReqr_stage128 (n : Nat) (v : Requester) : (s.setReqr n v).stage128 = s.stage128 := rfl
@[simp] theorem State.setReqr_ctr (n : Nat) (v : Requester) : (s.setReqr n v).ctr = s.ctr := rfl
@[simp] theorem State.setReqr_parts (n : Nat) (v : Requester) : (s.setReqr n v).parts = s.parts := rfl
@[simp] theorem State.setReqr_cores (n : Nat) (v : Requester) : (s.setReqr n v).cores = s.cores := rfl
@[simp] theorem State.setReqr_duc (n : Nat) (v : Requester) : (s.setReqr n v).duc = s.duc := rfl
@[simp] theorem State.setReqr_fe (n : Nat) (v : Requester) : (s.setReqr n v).fe = s.fe := rfl
@[simp] theorem State.setReqr_pools (n : Nat) (v : Requester) : (s.setReqr n v).pools = s.pools := rfl
@[simp] theorem State.setReqr_reqs (n : Nat) (v : Requester) : (s.setReqr n v).reqs = tput s.reqs n v := rfl
@[simp] theorem State.setReqr_inkq (n : Nat) (v : Requester) : (s.setReqr n v).inkq = s.inkq := rfl
@[simp] theorem State.setReqr_inkWait (n : Nat) (v : Requester) : (s.setReqr n v).inkWait = s.inkWait := rfl
@[simp] theorem State.setReqr_freeWait (n : Nat) (v : Requester) : (s.setReqr n v).freeWait = s.freeWait := rfl
@[simp] theorem State.setReqr_metaUsed (n : Nat) (v : Requester) : (s.setReqr n v).metaUsed = s.metaUsed := rfl
@[simp] theorem State.setReqr_tm (n : Nat) (v : Requester) : (s.setReqr n v).tm = s.tm := rfl
@[simp] theorem State.setReqr_dram (n : Nat) (v : Requester) : (s.setReqr n v).dram = s.dram := rfl
@[simp] theorem State.setReqr_dramPoison (n : Nat) (v : Requester) : (s.setReqr n v).dramPoison = s.dramPoison := rfl
@[simp] theorem State.setReqr_cstore (n : Nat) (v : Requester) : (s.setReqr n v).cstore = s.cstore := rfl
@[simp] theorem State.setReqr_cstorePoison (n : Nat) (v : Requester) : (s.setReqr n v).cstorePoison = s.cstorePoison := rfl
@[simp] theorem State.setReqr_clearing (n : Nat) (v : Requester) : (s.setReqr n v).clearing = s.clearing := rfl
@[simp] theorem State.setReqr_mesh (n : Nat) (v : Requester) : (s.setReqr n v).mesh = s.mesh := rfl
@[simp] theorem State.setReqr_meshPoison (n : Nat) (v : Requester) : (s.setReqr n v).meshPoison = s.meshPoison := rfl
@[simp] theorem State.setReqr_ops (n : Nat) (v : Requester) : (s.setReqr n v).ops = s.ops := rfl
@[simp] theorem State.setReqr_use (n : Nat) (v : Requester) : (s.setReqr n v).use = s.use := rfl
@[simp] theorem State.setReqr_quar (n : Nat) (v : Requester) : (s.setReqr n v).quar = s.quar := rfl
@[simp] theorem State.setReqr_ports (n : Nat) (v : Requester) : (s.setReqr n v).ports = s.ports := rfl
@[simp] theorem State.setReqr_srcEpoch (n : Nat) (v : Requester) : (s.setReqr n v).srcEpoch = s.srcEpoch := rfl
@[simp] theorem State.setReqr_verA (n : Nat) (v : Requester) : (s.setReqr n v).verA = s.verA := rfl
@[simp] theorem State.setReqr_verB (n : Nat) (v : Requester) : (s.setReqr n v).verB = s.verB := rfl
@[simp] theorem State.setReqr_epochErr (n : Nat) (v : Requester) : (s.setReqr n v).epochErr = s.epochErr := rfl
@[simp] theorem State.setReqr_route (n : Nat) (v : Requester) : (s.setReqr n v).route = s.route := rfl
@[simp] theorem State.setReqr_tree (n : Nat) (v : Requester) : (s.setReqr n v).tree = s.tree := rfl
@[simp] theorem State.setReqr_circ (n : Nat) (v : Requester) : (s.setReqr n v).circ = s.circ := rfl
@[simp] theorem State.setReqr_tdm (n : Nat) (v : Requester) : (s.setReqr n v).tdm = s.tdm := rfl
@[simp] theorem State.setReqr_mslot (n : Nat) (v : Requester) : (s.setReqr n v).mslot = s.mslot := rfl
@[simp] theorem State.setReqr_mframe (n : Nat) (v : Requester) : (s.setReqr n v).mframe = s.mframe := rfl
@[simp] theorem State.setReqr_aggs (n : Nat) (v : Requester) : (s.setReqr n v).aggs = s.aggs := rfl
@[simp] theorem State.setReqr_nqHead (n : Nat) (v : Requester) : (s.setReqr n v).nqHead = s.nqHead := rfl
@[simp] theorem State.setReqr_nqEnt (n : Nat) (v : Requester) : (s.setReqr n v).nqEnt = s.nqEnt := rfl
@[simp] theorem State.setReqr_mgmtOut (n : Nat) (v : Requester) : (s.setReqr n v).mgmtOut = s.mgmtOut := rfl
@[simp] theorem State.setReqr_grps (n : Nat) (v : Requester) : (s.setReqr n v).grps = s.grps := rfl
@[simp] theorem State.setReqr_lfree (n : Nat) (v : Requester) : (s.setReqr n v).lfree = s.lfree := rfl
@[simp] theorem State.setReqr_lrfree (n : Nat) (v : Requester) : (s.setReqr n v).lrfree = s.lrfree := rfl
@[simp] theorem State.setReqr_ligLast (n : Nat) (v : Requester) : (s.setReqr n v).ligLast = s.ligLast := rfl
@[simp] theorem State.setReqr_ligSkew (n : Nat) (v : Requester) : (s.setReqr n v).ligSkew = s.ligSkew := rfl
@[simp] theorem State.setReqr_jsBusy (n : Nat) (v : Requester) : (s.setReqr n v).jsBusy = s.jsBusy := rfl
@[simp] theorem State.setReqr_jsDone (n : Nat) (v : Requester) : (s.setReqr n v).jsDone = s.jsDone := rfl
@[simp] theorem State.setReqr_jsStatus (n : Nat) (v : Requester) : (s.setReqr n v).jsStatus = s.jsStatus := rfl
@[simp] theorem State.setReqr_jsTick (n : Nat) (v : Requester) : (s.setReqr n v).jsTick = s.jsTick := rfl
@[simp] theorem State.setReqr_jsRec (n : Nat) (v : Requester) : (s.setReqr n v).jsRec = s.jsRec := rfl
@[simp] theorem State.setReqr_link (n : Nat) (v : Requester) : (s.setReqr n v).link = s.link := rfl
@[simp] theorem State.setReqr_linkWidth (n : Nat) (v : Requester) : (s.setReqr n v).linkWidth = s.linkWidth := rfl
@[simp] theorem State.setReqr_sf (n : Nat) (v : Requester) : (s.setReqr n v).sf = s.sf := rfl
@[simp] theorem State.setReqr_recalls (n : Nat) (v : Requester) : (s.setReqr n v).recalls = s.recalls := rfl
@[simp] theorem State.setReqr_blocked (n : Nat) (v : Requester) : (s.setReqr n v).blocked = s.blocked := rfl
@[simp] theorem State.setReqr_hreqs (n : Nat) (v : Requester) : (s.setReqr n v).hreqs = s.hreqs := rfl
@[simp] theorem State.setReqr_hostId (n : Nat) (v : Requester) : (s.setReqr n v).hostId = s.hostId := rfl
@[simp] theorem State.setReqr_hostTx (n : Nat) (v : Requester) : (s.setReqr n v).hostTx = s.hostTx := rfl
@[simp] theorem State.setReqr_far (n : Nat) (v : Requester) : (s.setReqr n v).far = s.far := rfl
@[simp] theorem State.setReqr_farNext (n : Nat) (v : Requester) : (s.setReqr n v).farNext = s.farNext := rfl
@[simp] theorem State.setReqr_wl (n : Nat) (v : Requester) : (s.setReqr n v).wl = s.wl := rfl
@[simp] theorem State.setReqr_rings (n : Nat) (v : Requester) : (s.setReqr n v).rings = s.rings := rfl
@[simp] theorem State.setReqr_turnRing (n : Nat) (v : Requester) : (s.setReqr n v).turnRing = s.turnRing := rfl
@[simp] theorem State.setReqr_turnTaken (n : Nat) (v : Requester) : (s.setReqr n v).turnTaken = s.turnTaken := rfl
@[simp] theorem State.setReqr_cmds (n : Nat) (v : Requester) : (s.setReqr n v).cmds = s.cmds := rfl
@[simp] theorem State.setReqr_order (n : Nat) (v : Requester) : (s.setReqr n v).order = s.order := rfl
@[simp] theorem State.setReqr_jrn (n : Nat) (v : Requester) : (s.setReqr n v).jrn = s.jrn := rfl
@[simp] theorem State.setReqr_jrnHead (n : Nat) (v : Requester) : (s.setReqr n v).jrnHead = s.jrnHead := rfl
@[simp] theorem State.setReqr_jrnWait (n : Nat) (v : Requester) : (s.setReqr n v).jrnWait = s.jrnWait := rfl
@[simp] theorem State.setReqr_jrnWseq (n : Nat) (v : Requester) : (s.setReqr n v).jrnWseq = s.jrnWseq := rfl
@[simp] theorem State.setReqr_blt (n : Nat) (v : Requester) : (s.setReqr n v).blt = s.blt := rfl
@[simp] theorem State.setReqr_bltHead (n : Nat) (v : Requester) : (s.setReqr n v).bltHead = s.bltHead := rfl
@[simp] theorem State.setReqr_bltq (n : Nat) (v : Requester) : (s.setReqr n v).bltq = s.bltq := rfl
@[simp] theorem State.setReqr_bltNote (n : Nat) (v : Requester) : (s.setReqr n v).bltNote = s.bltNote := rfl
@[simp] theorem State.setReqr_satCur (n : Nat) (v : Requester) : (s.setReqr n v).satCur = s.satCur := rfl
@[simp] theorem State.setReqr_satUtil (n : Nat) (v : Requester) : (s.setReqr n v).satUtil = s.satUtil := rfl
@[simp] theorem State.setReqr_satStall (n : Nat) (v : Requester) : (s.setReqr n v).satStall = s.satStall := rfl
@[simp] theorem State.setReqr_satHist (n : Nat) (v : Requester) : (s.setReqr n v).satHist = s.satHist := rfl
@[simp] theorem State.setReqr_satCfg (n : Nat) (v : Requester) : (s.setReqr n v).satCfg = s.satCfg := rfl
@[simp] theorem State.setReqr_ckp (n : Nat) (v : Requester) : (s.setReqr n v).ckp = s.ckp := rfl
@[simp] theorem State.setReqr_mtbf (n : Nat) (v : Requester) : (s.setReqr n v).mtbf = s.mtbf := rfl
@[simp] theorem State.setReqr_lastFail (n : Nat) (v : Requester) : (s.setReqr n v).lastFail = s.lastFail := rfl
@[simp] theorem State.setReqr_hasPrev (n : Nat) (v : Requester) : (s.setReqr n v).hasPrev = s.hasPrev := rfl
@[simp] theorem State.setReqr_saved (n : Nat) (v : Requester) : (s.setReqr n v).saved = s.saved := rfl
@[simp] theorem State.setReqr_upsets (n : Nat) (v : Requester) : (s.setReqr n v).upsets = s.upsets := rfl
@[simp] theorem State.setReqr_mq (n : Nat) (v : Requester) : (s.setReqr n v).mq = s.mq := rfl
@[simp] theorem State.setReqr_marb (n : Nat) (v : Requester) : (s.setReqr n v).marb = s.marb := rfl
@[simp] theorem State.setReqr_owes (n : Nat) (v : Requester) : (s.setReqr n v).owes = s.owes := rfl
@[simp] theorem State.setReqr_passed (n : Nat) (v : Requester) : (s.setReqr n v).passed = s.passed := rfl
@[simp] theorem State.setReqr_waitq (n : Nat) (v : Requester) : (s.setReqr n v).waitq = s.waitq := rfl

/-! setFront -/

@[simp] theorem State.setFront_pending (n : Nat) (v : FrontEnd) : (s.setFront n v).pending = s.pending := rfl
@[simp] theorem State.setFront_free (n : Nat) (v : FrontEnd) : (s.setFront n v).free = s.free := rfl
@[simp] theorem State.setFront_plat (n : Nat) (v : FrontEnd) : (s.setFront n v).plat = s.plat := rfl
@[simp] theorem State.setFront_reg (n : Nat) (v : FrontEnd) : (s.setFront n v).reg = s.reg := rfl
@[simp] theorem State.setFront_stage128 (n : Nat) (v : FrontEnd) : (s.setFront n v).stage128 = s.stage128 := rfl
@[simp] theorem State.setFront_ctr (n : Nat) (v : FrontEnd) : (s.setFront n v).ctr = s.ctr := rfl
@[simp] theorem State.setFront_parts (n : Nat) (v : FrontEnd) : (s.setFront n v).parts = s.parts := rfl
@[simp] theorem State.setFront_cores (n : Nat) (v : FrontEnd) : (s.setFront n v).cores = s.cores := rfl
@[simp] theorem State.setFront_duc (n : Nat) (v : FrontEnd) : (s.setFront n v).duc = s.duc := rfl
@[simp] theorem State.setFront_fe (n : Nat) (v : FrontEnd) : (s.setFront n v).fe = tput s.fe n v := rfl
@[simp] theorem State.setFront_pools (n : Nat) (v : FrontEnd) : (s.setFront n v).pools = s.pools := rfl
@[simp] theorem State.setFront_reqs (n : Nat) (v : FrontEnd) : (s.setFront n v).reqs = s.reqs := rfl
@[simp] theorem State.setFront_inkq (n : Nat) (v : FrontEnd) : (s.setFront n v).inkq = s.inkq := rfl
@[simp] theorem State.setFront_inkWait (n : Nat) (v : FrontEnd) : (s.setFront n v).inkWait = s.inkWait := rfl
@[simp] theorem State.setFront_freeWait (n : Nat) (v : FrontEnd) : (s.setFront n v).freeWait = s.freeWait := rfl
@[simp] theorem State.setFront_metaUsed (n : Nat) (v : FrontEnd) : (s.setFront n v).metaUsed = s.metaUsed := rfl
@[simp] theorem State.setFront_tm (n : Nat) (v : FrontEnd) : (s.setFront n v).tm = s.tm := rfl
@[simp] theorem State.setFront_dram (n : Nat) (v : FrontEnd) : (s.setFront n v).dram = s.dram := rfl
@[simp] theorem State.setFront_dramPoison (n : Nat) (v : FrontEnd) : (s.setFront n v).dramPoison = s.dramPoison := rfl
@[simp] theorem State.setFront_cstore (n : Nat) (v : FrontEnd) : (s.setFront n v).cstore = s.cstore := rfl
@[simp] theorem State.setFront_cstorePoison (n : Nat) (v : FrontEnd) : (s.setFront n v).cstorePoison = s.cstorePoison := rfl
@[simp] theorem State.setFront_clearing (n : Nat) (v : FrontEnd) : (s.setFront n v).clearing = s.clearing := rfl
@[simp] theorem State.setFront_mesh (n : Nat) (v : FrontEnd) : (s.setFront n v).mesh = s.mesh := rfl
@[simp] theorem State.setFront_meshPoison (n : Nat) (v : FrontEnd) : (s.setFront n v).meshPoison = s.meshPoison := rfl
@[simp] theorem State.setFront_ops (n : Nat) (v : FrontEnd) : (s.setFront n v).ops = s.ops := rfl
@[simp] theorem State.setFront_use (n : Nat) (v : FrontEnd) : (s.setFront n v).use = s.use := rfl
@[simp] theorem State.setFront_quar (n : Nat) (v : FrontEnd) : (s.setFront n v).quar = s.quar := rfl
@[simp] theorem State.setFront_ports (n : Nat) (v : FrontEnd) : (s.setFront n v).ports = s.ports := rfl
@[simp] theorem State.setFront_srcEpoch (n : Nat) (v : FrontEnd) : (s.setFront n v).srcEpoch = s.srcEpoch := rfl
@[simp] theorem State.setFront_verA (n : Nat) (v : FrontEnd) : (s.setFront n v).verA = s.verA := rfl
@[simp] theorem State.setFront_verB (n : Nat) (v : FrontEnd) : (s.setFront n v).verB = s.verB := rfl
@[simp] theorem State.setFront_epochErr (n : Nat) (v : FrontEnd) : (s.setFront n v).epochErr = s.epochErr := rfl
@[simp] theorem State.setFront_route (n : Nat) (v : FrontEnd) : (s.setFront n v).route = s.route := rfl
@[simp] theorem State.setFront_tree (n : Nat) (v : FrontEnd) : (s.setFront n v).tree = s.tree := rfl
@[simp] theorem State.setFront_circ (n : Nat) (v : FrontEnd) : (s.setFront n v).circ = s.circ := rfl
@[simp] theorem State.setFront_tdm (n : Nat) (v : FrontEnd) : (s.setFront n v).tdm = s.tdm := rfl
@[simp] theorem State.setFront_mslot (n : Nat) (v : FrontEnd) : (s.setFront n v).mslot = s.mslot := rfl
@[simp] theorem State.setFront_mframe (n : Nat) (v : FrontEnd) : (s.setFront n v).mframe = s.mframe := rfl
@[simp] theorem State.setFront_aggs (n : Nat) (v : FrontEnd) : (s.setFront n v).aggs = s.aggs := rfl
@[simp] theorem State.setFront_nqHead (n : Nat) (v : FrontEnd) : (s.setFront n v).nqHead = s.nqHead := rfl
@[simp] theorem State.setFront_nqEnt (n : Nat) (v : FrontEnd) : (s.setFront n v).nqEnt = s.nqEnt := rfl
@[simp] theorem State.setFront_mgmtOut (n : Nat) (v : FrontEnd) : (s.setFront n v).mgmtOut = s.mgmtOut := rfl
@[simp] theorem State.setFront_grps (n : Nat) (v : FrontEnd) : (s.setFront n v).grps = s.grps := rfl
@[simp] theorem State.setFront_lfree (n : Nat) (v : FrontEnd) : (s.setFront n v).lfree = s.lfree := rfl
@[simp] theorem State.setFront_lrfree (n : Nat) (v : FrontEnd) : (s.setFront n v).lrfree = s.lrfree := rfl
@[simp] theorem State.setFront_ligLast (n : Nat) (v : FrontEnd) : (s.setFront n v).ligLast = s.ligLast := rfl
@[simp] theorem State.setFront_ligSkew (n : Nat) (v : FrontEnd) : (s.setFront n v).ligSkew = s.ligSkew := rfl
@[simp] theorem State.setFront_jsBusy (n : Nat) (v : FrontEnd) : (s.setFront n v).jsBusy = s.jsBusy := rfl
@[simp] theorem State.setFront_jsDone (n : Nat) (v : FrontEnd) : (s.setFront n v).jsDone = s.jsDone := rfl
@[simp] theorem State.setFront_jsStatus (n : Nat) (v : FrontEnd) : (s.setFront n v).jsStatus = s.jsStatus := rfl
@[simp] theorem State.setFront_jsTick (n : Nat) (v : FrontEnd) : (s.setFront n v).jsTick = s.jsTick := rfl
@[simp] theorem State.setFront_jsRec (n : Nat) (v : FrontEnd) : (s.setFront n v).jsRec = s.jsRec := rfl
@[simp] theorem State.setFront_link (n : Nat) (v : FrontEnd) : (s.setFront n v).link = s.link := rfl
@[simp] theorem State.setFront_linkWidth (n : Nat) (v : FrontEnd) : (s.setFront n v).linkWidth = s.linkWidth := rfl
@[simp] theorem State.setFront_sf (n : Nat) (v : FrontEnd) : (s.setFront n v).sf = s.sf := rfl
@[simp] theorem State.setFront_recalls (n : Nat) (v : FrontEnd) : (s.setFront n v).recalls = s.recalls := rfl
@[simp] theorem State.setFront_blocked (n : Nat) (v : FrontEnd) : (s.setFront n v).blocked = s.blocked := rfl
@[simp] theorem State.setFront_hreqs (n : Nat) (v : FrontEnd) : (s.setFront n v).hreqs = s.hreqs := rfl
@[simp] theorem State.setFront_hostId (n : Nat) (v : FrontEnd) : (s.setFront n v).hostId = s.hostId := rfl
@[simp] theorem State.setFront_hostTx (n : Nat) (v : FrontEnd) : (s.setFront n v).hostTx = s.hostTx := rfl
@[simp] theorem State.setFront_far (n : Nat) (v : FrontEnd) : (s.setFront n v).far = s.far := rfl
@[simp] theorem State.setFront_farNext (n : Nat) (v : FrontEnd) : (s.setFront n v).farNext = s.farNext := rfl
@[simp] theorem State.setFront_wl (n : Nat) (v : FrontEnd) : (s.setFront n v).wl = s.wl := rfl
@[simp] theorem State.setFront_rings (n : Nat) (v : FrontEnd) : (s.setFront n v).rings = s.rings := rfl
@[simp] theorem State.setFront_turnRing (n : Nat) (v : FrontEnd) : (s.setFront n v).turnRing = s.turnRing := rfl
@[simp] theorem State.setFront_turnTaken (n : Nat) (v : FrontEnd) : (s.setFront n v).turnTaken = s.turnTaken := rfl
@[simp] theorem State.setFront_cmds (n : Nat) (v : FrontEnd) : (s.setFront n v).cmds = s.cmds := rfl
@[simp] theorem State.setFront_order (n : Nat) (v : FrontEnd) : (s.setFront n v).order = s.order := rfl
@[simp] theorem State.setFront_jrn (n : Nat) (v : FrontEnd) : (s.setFront n v).jrn = s.jrn := rfl
@[simp] theorem State.setFront_jrnHead (n : Nat) (v : FrontEnd) : (s.setFront n v).jrnHead = s.jrnHead := rfl
@[simp] theorem State.setFront_jrnWait (n : Nat) (v : FrontEnd) : (s.setFront n v).jrnWait = s.jrnWait := rfl
@[simp] theorem State.setFront_jrnWseq (n : Nat) (v : FrontEnd) : (s.setFront n v).jrnWseq = s.jrnWseq := rfl
@[simp] theorem State.setFront_blt (n : Nat) (v : FrontEnd) : (s.setFront n v).blt = s.blt := rfl
@[simp] theorem State.setFront_bltHead (n : Nat) (v : FrontEnd) : (s.setFront n v).bltHead = s.bltHead := rfl
@[simp] theorem State.setFront_bltq (n : Nat) (v : FrontEnd) : (s.setFront n v).bltq = s.bltq := rfl
@[simp] theorem State.setFront_bltNote (n : Nat) (v : FrontEnd) : (s.setFront n v).bltNote = s.bltNote := rfl
@[simp] theorem State.setFront_satCur (n : Nat) (v : FrontEnd) : (s.setFront n v).satCur = s.satCur := rfl
@[simp] theorem State.setFront_satUtil (n : Nat) (v : FrontEnd) : (s.setFront n v).satUtil = s.satUtil := rfl
@[simp] theorem State.setFront_satStall (n : Nat) (v : FrontEnd) : (s.setFront n v).satStall = s.satStall := rfl
@[simp] theorem State.setFront_satHist (n : Nat) (v : FrontEnd) : (s.setFront n v).satHist = s.satHist := rfl
@[simp] theorem State.setFront_satCfg (n : Nat) (v : FrontEnd) : (s.setFront n v).satCfg = s.satCfg := rfl
@[simp] theorem State.setFront_ckp (n : Nat) (v : FrontEnd) : (s.setFront n v).ckp = s.ckp := rfl
@[simp] theorem State.setFront_mtbf (n : Nat) (v : FrontEnd) : (s.setFront n v).mtbf = s.mtbf := rfl
@[simp] theorem State.setFront_lastFail (n : Nat) (v : FrontEnd) : (s.setFront n v).lastFail = s.lastFail := rfl
@[simp] theorem State.setFront_hasPrev (n : Nat) (v : FrontEnd) : (s.setFront n v).hasPrev = s.hasPrev := rfl
@[simp] theorem State.setFront_saved (n : Nat) (v : FrontEnd) : (s.setFront n v).saved = s.saved := rfl
@[simp] theorem State.setFront_upsets (n : Nat) (v : FrontEnd) : (s.setFront n v).upsets = s.upsets := rfl
@[simp] theorem State.setFront_mq (n : Nat) (v : FrontEnd) : (s.setFront n v).mq = s.mq := rfl
@[simp] theorem State.setFront_marb (n : Nat) (v : FrontEnd) : (s.setFront n v).marb = s.marb := rfl
@[simp] theorem State.setFront_owes (n : Nat) (v : FrontEnd) : (s.setFront n v).owes = s.owes := rfl
@[simp] theorem State.setFront_passed (n : Nat) (v : FrontEnd) : (s.setFront n v).passed = s.passed := rfl
@[simp] theorem State.setFront_waitq (n : Nat) (v : FrontEnd) : (s.setFront n v).waitq = s.waitq := rfl

/-! setMover -/

@[simp] theorem State.setMover_pending (n : Nat) (v : TierMover) : (s.setMover n v).pending = s.pending := rfl
@[simp] theorem State.setMover_free (n : Nat) (v : TierMover) : (s.setMover n v).free = s.free := rfl
@[simp] theorem State.setMover_plat (n : Nat) (v : TierMover) : (s.setMover n v).plat = s.plat := rfl
@[simp] theorem State.setMover_reg (n : Nat) (v : TierMover) : (s.setMover n v).reg = s.reg := rfl
@[simp] theorem State.setMover_stage128 (n : Nat) (v : TierMover) : (s.setMover n v).stage128 = s.stage128 := rfl
@[simp] theorem State.setMover_ctr (n : Nat) (v : TierMover) : (s.setMover n v).ctr = s.ctr := rfl
@[simp] theorem State.setMover_parts (n : Nat) (v : TierMover) : (s.setMover n v).parts = s.parts := rfl
@[simp] theorem State.setMover_cores (n : Nat) (v : TierMover) : (s.setMover n v).cores = s.cores := rfl
@[simp] theorem State.setMover_duc (n : Nat) (v : TierMover) : (s.setMover n v).duc = s.duc := rfl
@[simp] theorem State.setMover_fe (n : Nat) (v : TierMover) : (s.setMover n v).fe = s.fe := rfl
@[simp] theorem State.setMover_pools (n : Nat) (v : TierMover) : (s.setMover n v).pools = s.pools := rfl
@[simp] theorem State.setMover_reqs (n : Nat) (v : TierMover) : (s.setMover n v).reqs = s.reqs := rfl
@[simp] theorem State.setMover_inkq (n : Nat) (v : TierMover) : (s.setMover n v).inkq = s.inkq := rfl
@[simp] theorem State.setMover_inkWait (n : Nat) (v : TierMover) : (s.setMover n v).inkWait = s.inkWait := rfl
@[simp] theorem State.setMover_freeWait (n : Nat) (v : TierMover) : (s.setMover n v).freeWait = s.freeWait := rfl
@[simp] theorem State.setMover_metaUsed (n : Nat) (v : TierMover) : (s.setMover n v).metaUsed = s.metaUsed := rfl
@[simp] theorem State.setMover_tm (n : Nat) (v : TierMover) : (s.setMover n v).tm = tput s.tm n v := rfl
@[simp] theorem State.setMover_dram (n : Nat) (v : TierMover) : (s.setMover n v).dram = s.dram := rfl
@[simp] theorem State.setMover_dramPoison (n : Nat) (v : TierMover) : (s.setMover n v).dramPoison = s.dramPoison := rfl
@[simp] theorem State.setMover_cstore (n : Nat) (v : TierMover) : (s.setMover n v).cstore = s.cstore := rfl
@[simp] theorem State.setMover_cstorePoison (n : Nat) (v : TierMover) : (s.setMover n v).cstorePoison = s.cstorePoison := rfl
@[simp] theorem State.setMover_clearing (n : Nat) (v : TierMover) : (s.setMover n v).clearing = s.clearing := rfl
@[simp] theorem State.setMover_mesh (n : Nat) (v : TierMover) : (s.setMover n v).mesh = s.mesh := rfl
@[simp] theorem State.setMover_meshPoison (n : Nat) (v : TierMover) : (s.setMover n v).meshPoison = s.meshPoison := rfl
@[simp] theorem State.setMover_ops (n : Nat) (v : TierMover) : (s.setMover n v).ops = s.ops := rfl
@[simp] theorem State.setMover_use (n : Nat) (v : TierMover) : (s.setMover n v).use = s.use := rfl
@[simp] theorem State.setMover_quar (n : Nat) (v : TierMover) : (s.setMover n v).quar = s.quar := rfl
@[simp] theorem State.setMover_ports (n : Nat) (v : TierMover) : (s.setMover n v).ports = s.ports := rfl
@[simp] theorem State.setMover_srcEpoch (n : Nat) (v : TierMover) : (s.setMover n v).srcEpoch = s.srcEpoch := rfl
@[simp] theorem State.setMover_verA (n : Nat) (v : TierMover) : (s.setMover n v).verA = s.verA := rfl
@[simp] theorem State.setMover_verB (n : Nat) (v : TierMover) : (s.setMover n v).verB = s.verB := rfl
@[simp] theorem State.setMover_epochErr (n : Nat) (v : TierMover) : (s.setMover n v).epochErr = s.epochErr := rfl
@[simp] theorem State.setMover_route (n : Nat) (v : TierMover) : (s.setMover n v).route = s.route := rfl
@[simp] theorem State.setMover_tree (n : Nat) (v : TierMover) : (s.setMover n v).tree = s.tree := rfl
@[simp] theorem State.setMover_circ (n : Nat) (v : TierMover) : (s.setMover n v).circ = s.circ := rfl
@[simp] theorem State.setMover_tdm (n : Nat) (v : TierMover) : (s.setMover n v).tdm = s.tdm := rfl
@[simp] theorem State.setMover_mslot (n : Nat) (v : TierMover) : (s.setMover n v).mslot = s.mslot := rfl
@[simp] theorem State.setMover_mframe (n : Nat) (v : TierMover) : (s.setMover n v).mframe = s.mframe := rfl
@[simp] theorem State.setMover_aggs (n : Nat) (v : TierMover) : (s.setMover n v).aggs = s.aggs := rfl
@[simp] theorem State.setMover_nqHead (n : Nat) (v : TierMover) : (s.setMover n v).nqHead = s.nqHead := rfl
@[simp] theorem State.setMover_nqEnt (n : Nat) (v : TierMover) : (s.setMover n v).nqEnt = s.nqEnt := rfl
@[simp] theorem State.setMover_mgmtOut (n : Nat) (v : TierMover) : (s.setMover n v).mgmtOut = s.mgmtOut := rfl
@[simp] theorem State.setMover_grps (n : Nat) (v : TierMover) : (s.setMover n v).grps = s.grps := rfl
@[simp] theorem State.setMover_lfree (n : Nat) (v : TierMover) : (s.setMover n v).lfree = s.lfree := rfl
@[simp] theorem State.setMover_lrfree (n : Nat) (v : TierMover) : (s.setMover n v).lrfree = s.lrfree := rfl
@[simp] theorem State.setMover_ligLast (n : Nat) (v : TierMover) : (s.setMover n v).ligLast = s.ligLast := rfl
@[simp] theorem State.setMover_ligSkew (n : Nat) (v : TierMover) : (s.setMover n v).ligSkew = s.ligSkew := rfl
@[simp] theorem State.setMover_jsBusy (n : Nat) (v : TierMover) : (s.setMover n v).jsBusy = s.jsBusy := rfl
@[simp] theorem State.setMover_jsDone (n : Nat) (v : TierMover) : (s.setMover n v).jsDone = s.jsDone := rfl
@[simp] theorem State.setMover_jsStatus (n : Nat) (v : TierMover) : (s.setMover n v).jsStatus = s.jsStatus := rfl
@[simp] theorem State.setMover_jsTick (n : Nat) (v : TierMover) : (s.setMover n v).jsTick = s.jsTick := rfl
@[simp] theorem State.setMover_jsRec (n : Nat) (v : TierMover) : (s.setMover n v).jsRec = s.jsRec := rfl
@[simp] theorem State.setMover_link (n : Nat) (v : TierMover) : (s.setMover n v).link = s.link := rfl
@[simp] theorem State.setMover_linkWidth (n : Nat) (v : TierMover) : (s.setMover n v).linkWidth = s.linkWidth := rfl
@[simp] theorem State.setMover_sf (n : Nat) (v : TierMover) : (s.setMover n v).sf = s.sf := rfl
@[simp] theorem State.setMover_recalls (n : Nat) (v : TierMover) : (s.setMover n v).recalls = s.recalls := rfl
@[simp] theorem State.setMover_blocked (n : Nat) (v : TierMover) : (s.setMover n v).blocked = s.blocked := rfl
@[simp] theorem State.setMover_hreqs (n : Nat) (v : TierMover) : (s.setMover n v).hreqs = s.hreqs := rfl
@[simp] theorem State.setMover_hostId (n : Nat) (v : TierMover) : (s.setMover n v).hostId = s.hostId := rfl
@[simp] theorem State.setMover_hostTx (n : Nat) (v : TierMover) : (s.setMover n v).hostTx = s.hostTx := rfl
@[simp] theorem State.setMover_far (n : Nat) (v : TierMover) : (s.setMover n v).far = s.far := rfl
@[simp] theorem State.setMover_farNext (n : Nat) (v : TierMover) : (s.setMover n v).farNext = s.farNext := rfl
@[simp] theorem State.setMover_wl (n : Nat) (v : TierMover) : (s.setMover n v).wl = s.wl := rfl
@[simp] theorem State.setMover_rings (n : Nat) (v : TierMover) : (s.setMover n v).rings = s.rings := rfl
@[simp] theorem State.setMover_turnRing (n : Nat) (v : TierMover) : (s.setMover n v).turnRing = s.turnRing := rfl
@[simp] theorem State.setMover_turnTaken (n : Nat) (v : TierMover) : (s.setMover n v).turnTaken = s.turnTaken := rfl
@[simp] theorem State.setMover_cmds (n : Nat) (v : TierMover) : (s.setMover n v).cmds = s.cmds := rfl
@[simp] theorem State.setMover_order (n : Nat) (v : TierMover) : (s.setMover n v).order = s.order := rfl
@[simp] theorem State.setMover_jrn (n : Nat) (v : TierMover) : (s.setMover n v).jrn = s.jrn := rfl
@[simp] theorem State.setMover_jrnHead (n : Nat) (v : TierMover) : (s.setMover n v).jrnHead = s.jrnHead := rfl
@[simp] theorem State.setMover_jrnWait (n : Nat) (v : TierMover) : (s.setMover n v).jrnWait = s.jrnWait := rfl
@[simp] theorem State.setMover_jrnWseq (n : Nat) (v : TierMover) : (s.setMover n v).jrnWseq = s.jrnWseq := rfl
@[simp] theorem State.setMover_blt (n : Nat) (v : TierMover) : (s.setMover n v).blt = s.blt := rfl
@[simp] theorem State.setMover_bltHead (n : Nat) (v : TierMover) : (s.setMover n v).bltHead = s.bltHead := rfl
@[simp] theorem State.setMover_bltq (n : Nat) (v : TierMover) : (s.setMover n v).bltq = s.bltq := rfl
@[simp] theorem State.setMover_bltNote (n : Nat) (v : TierMover) : (s.setMover n v).bltNote = s.bltNote := rfl
@[simp] theorem State.setMover_satCur (n : Nat) (v : TierMover) : (s.setMover n v).satCur = s.satCur := rfl
@[simp] theorem State.setMover_satUtil (n : Nat) (v : TierMover) : (s.setMover n v).satUtil = s.satUtil := rfl
@[simp] theorem State.setMover_satStall (n : Nat) (v : TierMover) : (s.setMover n v).satStall = s.satStall := rfl
@[simp] theorem State.setMover_satHist (n : Nat) (v : TierMover) : (s.setMover n v).satHist = s.satHist := rfl
@[simp] theorem State.setMover_satCfg (n : Nat) (v : TierMover) : (s.setMover n v).satCfg = s.satCfg := rfl
@[simp] theorem State.setMover_ckp (n : Nat) (v : TierMover) : (s.setMover n v).ckp = s.ckp := rfl
@[simp] theorem State.setMover_mtbf (n : Nat) (v : TierMover) : (s.setMover n v).mtbf = s.mtbf := rfl
@[simp] theorem State.setMover_lastFail (n : Nat) (v : TierMover) : (s.setMover n v).lastFail = s.lastFail := rfl
@[simp] theorem State.setMover_hasPrev (n : Nat) (v : TierMover) : (s.setMover n v).hasPrev = s.hasPrev := rfl
@[simp] theorem State.setMover_saved (n : Nat) (v : TierMover) : (s.setMover n v).saved = s.saved := rfl
@[simp] theorem State.setMover_upsets (n : Nat) (v : TierMover) : (s.setMover n v).upsets = s.upsets := rfl
@[simp] theorem State.setMover_mq (n : Nat) (v : TierMover) : (s.setMover n v).mq = s.mq := rfl
@[simp] theorem State.setMover_marb (n : Nat) (v : TierMover) : (s.setMover n v).marb = s.marb := rfl
@[simp] theorem State.setMover_owes (n : Nat) (v : TierMover) : (s.setMover n v).owes = s.owes := rfl
@[simp] theorem State.setMover_passed (n : Nat) (v : TierMover) : (s.setMover n v).passed = s.passed := rfl
@[simp] theorem State.setMover_waitq (n : Nat) (v : TierMover) : (s.setMover n v).waitq = s.waitq := rfl

/-! setGrp -/

@[simp] theorem State.setGrp_pending (n : Nat) (v : Group) : (s.setGrp n v).pending = s.pending := rfl
@[simp] theorem State.setGrp_free (n : Nat) (v : Group) : (s.setGrp n v).free = s.free := rfl
@[simp] theorem State.setGrp_plat (n : Nat) (v : Group) : (s.setGrp n v).plat = s.plat := rfl
@[simp] theorem State.setGrp_reg (n : Nat) (v : Group) : (s.setGrp n v).reg = s.reg := rfl
@[simp] theorem State.setGrp_stage128 (n : Nat) (v : Group) : (s.setGrp n v).stage128 = s.stage128 := rfl
@[simp] theorem State.setGrp_ctr (n : Nat) (v : Group) : (s.setGrp n v).ctr = s.ctr := rfl
@[simp] theorem State.setGrp_parts (n : Nat) (v : Group) : (s.setGrp n v).parts = s.parts := rfl
@[simp] theorem State.setGrp_cores (n : Nat) (v : Group) : (s.setGrp n v).cores = s.cores := rfl
@[simp] theorem State.setGrp_duc (n : Nat) (v : Group) : (s.setGrp n v).duc = s.duc := rfl
@[simp] theorem State.setGrp_fe (n : Nat) (v : Group) : (s.setGrp n v).fe = s.fe := rfl
@[simp] theorem State.setGrp_pools (n : Nat) (v : Group) : (s.setGrp n v).pools = s.pools := rfl
@[simp] theorem State.setGrp_reqs (n : Nat) (v : Group) : (s.setGrp n v).reqs = s.reqs := rfl
@[simp] theorem State.setGrp_inkq (n : Nat) (v : Group) : (s.setGrp n v).inkq = s.inkq := rfl
@[simp] theorem State.setGrp_inkWait (n : Nat) (v : Group) : (s.setGrp n v).inkWait = s.inkWait := rfl
@[simp] theorem State.setGrp_freeWait (n : Nat) (v : Group) : (s.setGrp n v).freeWait = s.freeWait := rfl
@[simp] theorem State.setGrp_metaUsed (n : Nat) (v : Group) : (s.setGrp n v).metaUsed = s.metaUsed := rfl
@[simp] theorem State.setGrp_tm (n : Nat) (v : Group) : (s.setGrp n v).tm = s.tm := rfl
@[simp] theorem State.setGrp_dram (n : Nat) (v : Group) : (s.setGrp n v).dram = s.dram := rfl
@[simp] theorem State.setGrp_dramPoison (n : Nat) (v : Group) : (s.setGrp n v).dramPoison = s.dramPoison := rfl
@[simp] theorem State.setGrp_cstore (n : Nat) (v : Group) : (s.setGrp n v).cstore = s.cstore := rfl
@[simp] theorem State.setGrp_cstorePoison (n : Nat) (v : Group) : (s.setGrp n v).cstorePoison = s.cstorePoison := rfl
@[simp] theorem State.setGrp_clearing (n : Nat) (v : Group) : (s.setGrp n v).clearing = s.clearing := rfl
@[simp] theorem State.setGrp_mesh (n : Nat) (v : Group) : (s.setGrp n v).mesh = s.mesh := rfl
@[simp] theorem State.setGrp_meshPoison (n : Nat) (v : Group) : (s.setGrp n v).meshPoison = s.meshPoison := rfl
@[simp] theorem State.setGrp_ops (n : Nat) (v : Group) : (s.setGrp n v).ops = s.ops := rfl
@[simp] theorem State.setGrp_use (n : Nat) (v : Group) : (s.setGrp n v).use = s.use := rfl
@[simp] theorem State.setGrp_quar (n : Nat) (v : Group) : (s.setGrp n v).quar = s.quar := rfl
@[simp] theorem State.setGrp_ports (n : Nat) (v : Group) : (s.setGrp n v).ports = s.ports := rfl
@[simp] theorem State.setGrp_srcEpoch (n : Nat) (v : Group) : (s.setGrp n v).srcEpoch = s.srcEpoch := rfl
@[simp] theorem State.setGrp_verA (n : Nat) (v : Group) : (s.setGrp n v).verA = s.verA := rfl
@[simp] theorem State.setGrp_verB (n : Nat) (v : Group) : (s.setGrp n v).verB = s.verB := rfl
@[simp] theorem State.setGrp_epochErr (n : Nat) (v : Group) : (s.setGrp n v).epochErr = s.epochErr := rfl
@[simp] theorem State.setGrp_route (n : Nat) (v : Group) : (s.setGrp n v).route = s.route := rfl
@[simp] theorem State.setGrp_tree (n : Nat) (v : Group) : (s.setGrp n v).tree = s.tree := rfl
@[simp] theorem State.setGrp_circ (n : Nat) (v : Group) : (s.setGrp n v).circ = s.circ := rfl
@[simp] theorem State.setGrp_tdm (n : Nat) (v : Group) : (s.setGrp n v).tdm = s.tdm := rfl
@[simp] theorem State.setGrp_mslot (n : Nat) (v : Group) : (s.setGrp n v).mslot = s.mslot := rfl
@[simp] theorem State.setGrp_mframe (n : Nat) (v : Group) : (s.setGrp n v).mframe = s.mframe := rfl
@[simp] theorem State.setGrp_aggs (n : Nat) (v : Group) : (s.setGrp n v).aggs = s.aggs := rfl
@[simp] theorem State.setGrp_nqHead (n : Nat) (v : Group) : (s.setGrp n v).nqHead = s.nqHead := rfl
@[simp] theorem State.setGrp_nqEnt (n : Nat) (v : Group) : (s.setGrp n v).nqEnt = s.nqEnt := rfl
@[simp] theorem State.setGrp_mgmtOut (n : Nat) (v : Group) : (s.setGrp n v).mgmtOut = s.mgmtOut := rfl
@[simp] theorem State.setGrp_grps (n : Nat) (v : Group) : (s.setGrp n v).grps = tput s.grps n v := rfl
@[simp] theorem State.setGrp_lfree (n : Nat) (v : Group) : (s.setGrp n v).lfree = s.lfree := rfl
@[simp] theorem State.setGrp_lrfree (n : Nat) (v : Group) : (s.setGrp n v).lrfree = s.lrfree := rfl
@[simp] theorem State.setGrp_ligLast (n : Nat) (v : Group) : (s.setGrp n v).ligLast = s.ligLast := rfl
@[simp] theorem State.setGrp_ligSkew (n : Nat) (v : Group) : (s.setGrp n v).ligSkew = s.ligSkew := rfl
@[simp] theorem State.setGrp_jsBusy (n : Nat) (v : Group) : (s.setGrp n v).jsBusy = s.jsBusy := rfl
@[simp] theorem State.setGrp_jsDone (n : Nat) (v : Group) : (s.setGrp n v).jsDone = s.jsDone := rfl
@[simp] theorem State.setGrp_jsStatus (n : Nat) (v : Group) : (s.setGrp n v).jsStatus = s.jsStatus := rfl
@[simp] theorem State.setGrp_jsTick (n : Nat) (v : Group) : (s.setGrp n v).jsTick = s.jsTick := rfl
@[simp] theorem State.setGrp_jsRec (n : Nat) (v : Group) : (s.setGrp n v).jsRec = s.jsRec := rfl
@[simp] theorem State.setGrp_link (n : Nat) (v : Group) : (s.setGrp n v).link = s.link := rfl
@[simp] theorem State.setGrp_linkWidth (n : Nat) (v : Group) : (s.setGrp n v).linkWidth = s.linkWidth := rfl
@[simp] theorem State.setGrp_sf (n : Nat) (v : Group) : (s.setGrp n v).sf = s.sf := rfl
@[simp] theorem State.setGrp_recalls (n : Nat) (v : Group) : (s.setGrp n v).recalls = s.recalls := rfl
@[simp] theorem State.setGrp_blocked (n : Nat) (v : Group) : (s.setGrp n v).blocked = s.blocked := rfl
@[simp] theorem State.setGrp_hreqs (n : Nat) (v : Group) : (s.setGrp n v).hreqs = s.hreqs := rfl
@[simp] theorem State.setGrp_hostId (n : Nat) (v : Group) : (s.setGrp n v).hostId = s.hostId := rfl
@[simp] theorem State.setGrp_hostTx (n : Nat) (v : Group) : (s.setGrp n v).hostTx = s.hostTx := rfl
@[simp] theorem State.setGrp_far (n : Nat) (v : Group) : (s.setGrp n v).far = s.far := rfl
@[simp] theorem State.setGrp_farNext (n : Nat) (v : Group) : (s.setGrp n v).farNext = s.farNext := rfl
@[simp] theorem State.setGrp_wl (n : Nat) (v : Group) : (s.setGrp n v).wl = s.wl := rfl
@[simp] theorem State.setGrp_rings (n : Nat) (v : Group) : (s.setGrp n v).rings = s.rings := rfl
@[simp] theorem State.setGrp_turnRing (n : Nat) (v : Group) : (s.setGrp n v).turnRing = s.turnRing := rfl
@[simp] theorem State.setGrp_turnTaken (n : Nat) (v : Group) : (s.setGrp n v).turnTaken = s.turnTaken := rfl
@[simp] theorem State.setGrp_cmds (n : Nat) (v : Group) : (s.setGrp n v).cmds = s.cmds := rfl
@[simp] theorem State.setGrp_order (n : Nat) (v : Group) : (s.setGrp n v).order = s.order := rfl
@[simp] theorem State.setGrp_jrn (n : Nat) (v : Group) : (s.setGrp n v).jrn = s.jrn := rfl
@[simp] theorem State.setGrp_jrnHead (n : Nat) (v : Group) : (s.setGrp n v).jrnHead = s.jrnHead := rfl
@[simp] theorem State.setGrp_jrnWait (n : Nat) (v : Group) : (s.setGrp n v).jrnWait = s.jrnWait := rfl
@[simp] theorem State.setGrp_jrnWseq (n : Nat) (v : Group) : (s.setGrp n v).jrnWseq = s.jrnWseq := rfl
@[simp] theorem State.setGrp_blt (n : Nat) (v : Group) : (s.setGrp n v).blt = s.blt := rfl
@[simp] theorem State.setGrp_bltHead (n : Nat) (v : Group) : (s.setGrp n v).bltHead = s.bltHead := rfl
@[simp] theorem State.setGrp_bltq (n : Nat) (v : Group) : (s.setGrp n v).bltq = s.bltq := rfl
@[simp] theorem State.setGrp_bltNote (n : Nat) (v : Group) : (s.setGrp n v).bltNote = s.bltNote := rfl
@[simp] theorem State.setGrp_satCur (n : Nat) (v : Group) : (s.setGrp n v).satCur = s.satCur := rfl
@[simp] theorem State.setGrp_satUtil (n : Nat) (v : Group) : (s.setGrp n v).satUtil = s.satUtil := rfl
@[simp] theorem State.setGrp_satStall (n : Nat) (v : Group) : (s.setGrp n v).satStall = s.satStall := rfl
@[simp] theorem State.setGrp_satHist (n : Nat) (v : Group) : (s.setGrp n v).satHist = s.satHist := rfl
@[simp] theorem State.setGrp_satCfg (n : Nat) (v : Group) : (s.setGrp n v).satCfg = s.satCfg := rfl
@[simp] theorem State.setGrp_ckp (n : Nat) (v : Group) : (s.setGrp n v).ckp = s.ckp := rfl
@[simp] theorem State.setGrp_mtbf (n : Nat) (v : Group) : (s.setGrp n v).mtbf = s.mtbf := rfl
@[simp] theorem State.setGrp_lastFail (n : Nat) (v : Group) : (s.setGrp n v).lastFail = s.lastFail := rfl
@[simp] theorem State.setGrp_hasPrev (n : Nat) (v : Group) : (s.setGrp n v).hasPrev = s.hasPrev := rfl
@[simp] theorem State.setGrp_saved (n : Nat) (v : Group) : (s.setGrp n v).saved = s.saved := rfl
@[simp] theorem State.setGrp_upsets (n : Nat) (v : Group) : (s.setGrp n v).upsets = s.upsets := rfl
@[simp] theorem State.setGrp_mq (n : Nat) (v : Group) : (s.setGrp n v).mq = s.mq := rfl
@[simp] theorem State.setGrp_marb (n : Nat) (v : Group) : (s.setGrp n v).marb = s.marb := rfl
@[simp] theorem State.setGrp_owes (n : Nat) (v : Group) : (s.setGrp n v).owes = s.owes := rfl
@[simp] theorem State.setGrp_passed (n : Nat) (v : Group) : (s.setGrp n v).passed = s.passed := rfl
@[simp] theorem State.setGrp_waitq (n : Nat) (v : Group) : (s.setGrp n v).waitq = s.waitq := rfl

/-! setRing -/

@[simp] theorem State.setRing_pending (n : Nat) (v : Ring) : (s.setRing n v).pending = s.pending := rfl
@[simp] theorem State.setRing_free (n : Nat) (v : Ring) : (s.setRing n v).free = s.free := rfl
@[simp] theorem State.setRing_plat (n : Nat) (v : Ring) : (s.setRing n v).plat = s.plat := rfl
@[simp] theorem State.setRing_reg (n : Nat) (v : Ring) : (s.setRing n v).reg = s.reg := rfl
@[simp] theorem State.setRing_stage128 (n : Nat) (v : Ring) : (s.setRing n v).stage128 = s.stage128 := rfl
@[simp] theorem State.setRing_ctr (n : Nat) (v : Ring) : (s.setRing n v).ctr = s.ctr := rfl
@[simp] theorem State.setRing_parts (n : Nat) (v : Ring) : (s.setRing n v).parts = s.parts := rfl
@[simp] theorem State.setRing_cores (n : Nat) (v : Ring) : (s.setRing n v).cores = s.cores := rfl
@[simp] theorem State.setRing_duc (n : Nat) (v : Ring) : (s.setRing n v).duc = s.duc := rfl
@[simp] theorem State.setRing_fe (n : Nat) (v : Ring) : (s.setRing n v).fe = s.fe := rfl
@[simp] theorem State.setRing_pools (n : Nat) (v : Ring) : (s.setRing n v).pools = s.pools := rfl
@[simp] theorem State.setRing_reqs (n : Nat) (v : Ring) : (s.setRing n v).reqs = s.reqs := rfl
@[simp] theorem State.setRing_inkq (n : Nat) (v : Ring) : (s.setRing n v).inkq = s.inkq := rfl
@[simp] theorem State.setRing_inkWait (n : Nat) (v : Ring) : (s.setRing n v).inkWait = s.inkWait := rfl
@[simp] theorem State.setRing_freeWait (n : Nat) (v : Ring) : (s.setRing n v).freeWait = s.freeWait := rfl
@[simp] theorem State.setRing_metaUsed (n : Nat) (v : Ring) : (s.setRing n v).metaUsed = s.metaUsed := rfl
@[simp] theorem State.setRing_tm (n : Nat) (v : Ring) : (s.setRing n v).tm = s.tm := rfl
@[simp] theorem State.setRing_dram (n : Nat) (v : Ring) : (s.setRing n v).dram = s.dram := rfl
@[simp] theorem State.setRing_dramPoison (n : Nat) (v : Ring) : (s.setRing n v).dramPoison = s.dramPoison := rfl
@[simp] theorem State.setRing_cstore (n : Nat) (v : Ring) : (s.setRing n v).cstore = s.cstore := rfl
@[simp] theorem State.setRing_cstorePoison (n : Nat) (v : Ring) : (s.setRing n v).cstorePoison = s.cstorePoison := rfl
@[simp] theorem State.setRing_clearing (n : Nat) (v : Ring) : (s.setRing n v).clearing = s.clearing := rfl
@[simp] theorem State.setRing_mesh (n : Nat) (v : Ring) : (s.setRing n v).mesh = s.mesh := rfl
@[simp] theorem State.setRing_meshPoison (n : Nat) (v : Ring) : (s.setRing n v).meshPoison = s.meshPoison := rfl
@[simp] theorem State.setRing_ops (n : Nat) (v : Ring) : (s.setRing n v).ops = s.ops := rfl
@[simp] theorem State.setRing_use (n : Nat) (v : Ring) : (s.setRing n v).use = s.use := rfl
@[simp] theorem State.setRing_quar (n : Nat) (v : Ring) : (s.setRing n v).quar = s.quar := rfl
@[simp] theorem State.setRing_ports (n : Nat) (v : Ring) : (s.setRing n v).ports = s.ports := rfl
@[simp] theorem State.setRing_srcEpoch (n : Nat) (v : Ring) : (s.setRing n v).srcEpoch = s.srcEpoch := rfl
@[simp] theorem State.setRing_verA (n : Nat) (v : Ring) : (s.setRing n v).verA = s.verA := rfl
@[simp] theorem State.setRing_verB (n : Nat) (v : Ring) : (s.setRing n v).verB = s.verB := rfl
@[simp] theorem State.setRing_epochErr (n : Nat) (v : Ring) : (s.setRing n v).epochErr = s.epochErr := rfl
@[simp] theorem State.setRing_route (n : Nat) (v : Ring) : (s.setRing n v).route = s.route := rfl
@[simp] theorem State.setRing_tree (n : Nat) (v : Ring) : (s.setRing n v).tree = s.tree := rfl
@[simp] theorem State.setRing_circ (n : Nat) (v : Ring) : (s.setRing n v).circ = s.circ := rfl
@[simp] theorem State.setRing_tdm (n : Nat) (v : Ring) : (s.setRing n v).tdm = s.tdm := rfl
@[simp] theorem State.setRing_mslot (n : Nat) (v : Ring) : (s.setRing n v).mslot = s.mslot := rfl
@[simp] theorem State.setRing_mframe (n : Nat) (v : Ring) : (s.setRing n v).mframe = s.mframe := rfl
@[simp] theorem State.setRing_aggs (n : Nat) (v : Ring) : (s.setRing n v).aggs = s.aggs := rfl
@[simp] theorem State.setRing_nqHead (n : Nat) (v : Ring) : (s.setRing n v).nqHead = s.nqHead := rfl
@[simp] theorem State.setRing_nqEnt (n : Nat) (v : Ring) : (s.setRing n v).nqEnt = s.nqEnt := rfl
@[simp] theorem State.setRing_mgmtOut (n : Nat) (v : Ring) : (s.setRing n v).mgmtOut = s.mgmtOut := rfl
@[simp] theorem State.setRing_grps (n : Nat) (v : Ring) : (s.setRing n v).grps = s.grps := rfl
@[simp] theorem State.setRing_lfree (n : Nat) (v : Ring) : (s.setRing n v).lfree = s.lfree := rfl
@[simp] theorem State.setRing_lrfree (n : Nat) (v : Ring) : (s.setRing n v).lrfree = s.lrfree := rfl
@[simp] theorem State.setRing_ligLast (n : Nat) (v : Ring) : (s.setRing n v).ligLast = s.ligLast := rfl
@[simp] theorem State.setRing_ligSkew (n : Nat) (v : Ring) : (s.setRing n v).ligSkew = s.ligSkew := rfl
@[simp] theorem State.setRing_jsBusy (n : Nat) (v : Ring) : (s.setRing n v).jsBusy = s.jsBusy := rfl
@[simp] theorem State.setRing_jsDone (n : Nat) (v : Ring) : (s.setRing n v).jsDone = s.jsDone := rfl
@[simp] theorem State.setRing_jsStatus (n : Nat) (v : Ring) : (s.setRing n v).jsStatus = s.jsStatus := rfl
@[simp] theorem State.setRing_jsTick (n : Nat) (v : Ring) : (s.setRing n v).jsTick = s.jsTick := rfl
@[simp] theorem State.setRing_jsRec (n : Nat) (v : Ring) : (s.setRing n v).jsRec = s.jsRec := rfl
@[simp] theorem State.setRing_link (n : Nat) (v : Ring) : (s.setRing n v).link = s.link := rfl
@[simp] theorem State.setRing_linkWidth (n : Nat) (v : Ring) : (s.setRing n v).linkWidth = s.linkWidth := rfl
@[simp] theorem State.setRing_sf (n : Nat) (v : Ring) : (s.setRing n v).sf = s.sf := rfl
@[simp] theorem State.setRing_recalls (n : Nat) (v : Ring) : (s.setRing n v).recalls = s.recalls := rfl
@[simp] theorem State.setRing_blocked (n : Nat) (v : Ring) : (s.setRing n v).blocked = s.blocked := rfl
@[simp] theorem State.setRing_hreqs (n : Nat) (v : Ring) : (s.setRing n v).hreqs = s.hreqs := rfl
@[simp] theorem State.setRing_hostId (n : Nat) (v : Ring) : (s.setRing n v).hostId = s.hostId := rfl
@[simp] theorem State.setRing_hostTx (n : Nat) (v : Ring) : (s.setRing n v).hostTx = s.hostTx := rfl
@[simp] theorem State.setRing_far (n : Nat) (v : Ring) : (s.setRing n v).far = s.far := rfl
@[simp] theorem State.setRing_farNext (n : Nat) (v : Ring) : (s.setRing n v).farNext = s.farNext := rfl
@[simp] theorem State.setRing_wl (n : Nat) (v : Ring) : (s.setRing n v).wl = s.wl := rfl
@[simp] theorem State.setRing_rings (n : Nat) (v : Ring) : (s.setRing n v).rings = tput s.rings n v := rfl
@[simp] theorem State.setRing_turnRing (n : Nat) (v : Ring) : (s.setRing n v).turnRing = s.turnRing := rfl
@[simp] theorem State.setRing_turnTaken (n : Nat) (v : Ring) : (s.setRing n v).turnTaken = s.turnTaken := rfl
@[simp] theorem State.setRing_cmds (n : Nat) (v : Ring) : (s.setRing n v).cmds = s.cmds := rfl
@[simp] theorem State.setRing_order (n : Nat) (v : Ring) : (s.setRing n v).order = s.order := rfl
@[simp] theorem State.setRing_jrn (n : Nat) (v : Ring) : (s.setRing n v).jrn = s.jrn := rfl
@[simp] theorem State.setRing_jrnHead (n : Nat) (v : Ring) : (s.setRing n v).jrnHead = s.jrnHead := rfl
@[simp] theorem State.setRing_jrnWait (n : Nat) (v : Ring) : (s.setRing n v).jrnWait = s.jrnWait := rfl
@[simp] theorem State.setRing_jrnWseq (n : Nat) (v : Ring) : (s.setRing n v).jrnWseq = s.jrnWseq := rfl
@[simp] theorem State.setRing_blt (n : Nat) (v : Ring) : (s.setRing n v).blt = s.blt := rfl
@[simp] theorem State.setRing_bltHead (n : Nat) (v : Ring) : (s.setRing n v).bltHead = s.bltHead := rfl
@[simp] theorem State.setRing_bltq (n : Nat) (v : Ring) : (s.setRing n v).bltq = s.bltq := rfl
@[simp] theorem State.setRing_bltNote (n : Nat) (v : Ring) : (s.setRing n v).bltNote = s.bltNote := rfl
@[simp] theorem State.setRing_satCur (n : Nat) (v : Ring) : (s.setRing n v).satCur = s.satCur := rfl
@[simp] theorem State.setRing_satUtil (n : Nat) (v : Ring) : (s.setRing n v).satUtil = s.satUtil := rfl
@[simp] theorem State.setRing_satStall (n : Nat) (v : Ring) : (s.setRing n v).satStall = s.satStall := rfl
@[simp] theorem State.setRing_satHist (n : Nat) (v : Ring) : (s.setRing n v).satHist = s.satHist := rfl
@[simp] theorem State.setRing_satCfg (n : Nat) (v : Ring) : (s.setRing n v).satCfg = s.satCfg := rfl
@[simp] theorem State.setRing_ckp (n : Nat) (v : Ring) : (s.setRing n v).ckp = s.ckp := rfl
@[simp] theorem State.setRing_mtbf (n : Nat) (v : Ring) : (s.setRing n v).mtbf = s.mtbf := rfl
@[simp] theorem State.setRing_lastFail (n : Nat) (v : Ring) : (s.setRing n v).lastFail = s.lastFail := rfl
@[simp] theorem State.setRing_hasPrev (n : Nat) (v : Ring) : (s.setRing n v).hasPrev = s.hasPrev := rfl
@[simp] theorem State.setRing_saved (n : Nat) (v : Ring) : (s.setRing n v).saved = s.saved := rfl
@[simp] theorem State.setRing_upsets (n : Nat) (v : Ring) : (s.setRing n v).upsets = s.upsets := rfl
@[simp] theorem State.setRing_mq (n : Nat) (v : Ring) : (s.setRing n v).mq = s.mq := rfl
@[simp] theorem State.setRing_marb (n : Nat) (v : Ring) : (s.setRing n v).marb = s.marb := rfl
@[simp] theorem State.setRing_owes (n : Nat) (v : Ring) : (s.setRing n v).owes = s.owes := rfl
@[simp] theorem State.setRing_passed (n : Nat) (v : Ring) : (s.setRing n v).passed = s.passed := rfl
@[simp] theorem State.setRing_waitq (n : Nat) (v : Ring) : (s.setRing n v).waitq = s.waitq := rfl

/-! setCnt -/

@[simp] theorem State.setCnt_pending (n v : Nat) : (s.setCnt n v).pending = s.pending := rfl
@[simp] theorem State.setCnt_free (n v : Nat) : (s.setCnt n v).free = s.free := rfl
@[simp] theorem State.setCnt_plat (n v : Nat) : (s.setCnt n v).plat = s.plat := rfl
@[simp] theorem State.setCnt_reg (n v : Nat) : (s.setCnt n v).reg = s.reg := rfl
@[simp] theorem State.setCnt_stage128 (n v : Nat) : (s.setCnt n v).stage128 = s.stage128 := rfl
@[simp] theorem State.setCnt_ctr (n v : Nat) : (s.setCnt n v).ctr = tput s.ctr n (w64 v) := rfl
@[simp] theorem State.setCnt_parts (n v : Nat) : (s.setCnt n v).parts = s.parts := rfl
@[simp] theorem State.setCnt_cores (n v : Nat) : (s.setCnt n v).cores = s.cores := rfl
@[simp] theorem State.setCnt_duc (n v : Nat) : (s.setCnt n v).duc = s.duc := rfl
@[simp] theorem State.setCnt_fe (n v : Nat) : (s.setCnt n v).fe = s.fe := rfl
@[simp] theorem State.setCnt_pools (n v : Nat) : (s.setCnt n v).pools = s.pools := rfl
@[simp] theorem State.setCnt_reqs (n v : Nat) : (s.setCnt n v).reqs = s.reqs := rfl
@[simp] theorem State.setCnt_inkq (n v : Nat) : (s.setCnt n v).inkq = s.inkq := rfl
@[simp] theorem State.setCnt_inkWait (n v : Nat) : (s.setCnt n v).inkWait = s.inkWait := rfl
@[simp] theorem State.setCnt_freeWait (n v : Nat) : (s.setCnt n v).freeWait = s.freeWait := rfl
@[simp] theorem State.setCnt_metaUsed (n v : Nat) : (s.setCnt n v).metaUsed = s.metaUsed := rfl
@[simp] theorem State.setCnt_tm (n v : Nat) : (s.setCnt n v).tm = s.tm := rfl
@[simp] theorem State.setCnt_dram (n v : Nat) : (s.setCnt n v).dram = s.dram := rfl
@[simp] theorem State.setCnt_dramPoison (n v : Nat) : (s.setCnt n v).dramPoison = s.dramPoison := rfl
@[simp] theorem State.setCnt_cstore (n v : Nat) : (s.setCnt n v).cstore = s.cstore := rfl
@[simp] theorem State.setCnt_cstorePoison (n v : Nat) : (s.setCnt n v).cstorePoison = s.cstorePoison := rfl
@[simp] theorem State.setCnt_clearing (n v : Nat) : (s.setCnt n v).clearing = s.clearing := rfl
@[simp] theorem State.setCnt_mesh (n v : Nat) : (s.setCnt n v).mesh = s.mesh := rfl
@[simp] theorem State.setCnt_meshPoison (n v : Nat) : (s.setCnt n v).meshPoison = s.meshPoison := rfl
@[simp] theorem State.setCnt_ops (n v : Nat) : (s.setCnt n v).ops = s.ops := rfl
@[simp] theorem State.setCnt_use (n v : Nat) : (s.setCnt n v).use = s.use := rfl
@[simp] theorem State.setCnt_quar (n v : Nat) : (s.setCnt n v).quar = s.quar := rfl
@[simp] theorem State.setCnt_ports (n v : Nat) : (s.setCnt n v).ports = s.ports := rfl
@[simp] theorem State.setCnt_srcEpoch (n v : Nat) : (s.setCnt n v).srcEpoch = s.srcEpoch := rfl
@[simp] theorem State.setCnt_verA (n v : Nat) : (s.setCnt n v).verA = s.verA := rfl
@[simp] theorem State.setCnt_verB (n v : Nat) : (s.setCnt n v).verB = s.verB := rfl
@[simp] theorem State.setCnt_epochErr (n v : Nat) : (s.setCnt n v).epochErr = s.epochErr := rfl
@[simp] theorem State.setCnt_route (n v : Nat) : (s.setCnt n v).route = s.route := rfl
@[simp] theorem State.setCnt_tree (n v : Nat) : (s.setCnt n v).tree = s.tree := rfl
@[simp] theorem State.setCnt_circ (n v : Nat) : (s.setCnt n v).circ = s.circ := rfl
@[simp] theorem State.setCnt_tdm (n v : Nat) : (s.setCnt n v).tdm = s.tdm := rfl
@[simp] theorem State.setCnt_mslot (n v : Nat) : (s.setCnt n v).mslot = s.mslot := rfl
@[simp] theorem State.setCnt_mframe (n v : Nat) : (s.setCnt n v).mframe = s.mframe := rfl
@[simp] theorem State.setCnt_aggs (n v : Nat) : (s.setCnt n v).aggs = s.aggs := rfl
@[simp] theorem State.setCnt_nqHead (n v : Nat) : (s.setCnt n v).nqHead = s.nqHead := rfl
@[simp] theorem State.setCnt_nqEnt (n v : Nat) : (s.setCnt n v).nqEnt = s.nqEnt := rfl
@[simp] theorem State.setCnt_mgmtOut (n v : Nat) : (s.setCnt n v).mgmtOut = s.mgmtOut := rfl
@[simp] theorem State.setCnt_grps (n v : Nat) : (s.setCnt n v).grps = s.grps := rfl
@[simp] theorem State.setCnt_lfree (n v : Nat) : (s.setCnt n v).lfree = s.lfree := rfl
@[simp] theorem State.setCnt_lrfree (n v : Nat) : (s.setCnt n v).lrfree = s.lrfree := rfl
@[simp] theorem State.setCnt_ligLast (n v : Nat) : (s.setCnt n v).ligLast = s.ligLast := rfl
@[simp] theorem State.setCnt_ligSkew (n v : Nat) : (s.setCnt n v).ligSkew = s.ligSkew := rfl
@[simp] theorem State.setCnt_jsBusy (n v : Nat) : (s.setCnt n v).jsBusy = s.jsBusy := rfl
@[simp] theorem State.setCnt_jsDone (n v : Nat) : (s.setCnt n v).jsDone = s.jsDone := rfl
@[simp] theorem State.setCnt_jsStatus (n v : Nat) : (s.setCnt n v).jsStatus = s.jsStatus := rfl
@[simp] theorem State.setCnt_jsTick (n v : Nat) : (s.setCnt n v).jsTick = s.jsTick := rfl
@[simp] theorem State.setCnt_jsRec (n v : Nat) : (s.setCnt n v).jsRec = s.jsRec := rfl
@[simp] theorem State.setCnt_link (n v : Nat) : (s.setCnt n v).link = s.link := rfl
@[simp] theorem State.setCnt_linkWidth (n v : Nat) : (s.setCnt n v).linkWidth = s.linkWidth := rfl
@[simp] theorem State.setCnt_sf (n v : Nat) : (s.setCnt n v).sf = s.sf := rfl
@[simp] theorem State.setCnt_recalls (n v : Nat) : (s.setCnt n v).recalls = s.recalls := rfl
@[simp] theorem State.setCnt_blocked (n v : Nat) : (s.setCnt n v).blocked = s.blocked := rfl
@[simp] theorem State.setCnt_hreqs (n v : Nat) : (s.setCnt n v).hreqs = s.hreqs := rfl
@[simp] theorem State.setCnt_hostId (n v : Nat) : (s.setCnt n v).hostId = s.hostId := rfl
@[simp] theorem State.setCnt_hostTx (n v : Nat) : (s.setCnt n v).hostTx = s.hostTx := rfl
@[simp] theorem State.setCnt_far (n v : Nat) : (s.setCnt n v).far = s.far := rfl
@[simp] theorem State.setCnt_farNext (n v : Nat) : (s.setCnt n v).farNext = s.farNext := rfl
@[simp] theorem State.setCnt_wl (n v : Nat) : (s.setCnt n v).wl = s.wl := rfl
@[simp] theorem State.setCnt_rings (n v : Nat) : (s.setCnt n v).rings = s.rings := rfl
@[simp] theorem State.setCnt_turnRing (n v : Nat) : (s.setCnt n v).turnRing = s.turnRing := rfl
@[simp] theorem State.setCnt_turnTaken (n v : Nat) : (s.setCnt n v).turnTaken = s.turnTaken := rfl
@[simp] theorem State.setCnt_cmds (n v : Nat) : (s.setCnt n v).cmds = s.cmds := rfl
@[simp] theorem State.setCnt_order (n v : Nat) : (s.setCnt n v).order = s.order := rfl
@[simp] theorem State.setCnt_jrn (n v : Nat) : (s.setCnt n v).jrn = s.jrn := rfl
@[simp] theorem State.setCnt_jrnHead (n v : Nat) : (s.setCnt n v).jrnHead = s.jrnHead := rfl
@[simp] theorem State.setCnt_jrnWait (n v : Nat) : (s.setCnt n v).jrnWait = s.jrnWait := rfl
@[simp] theorem State.setCnt_jrnWseq (n v : Nat) : (s.setCnt n v).jrnWseq = s.jrnWseq := rfl
@[simp] theorem State.setCnt_blt (n v : Nat) : (s.setCnt n v).blt = s.blt := rfl
@[simp] theorem State.setCnt_bltHead (n v : Nat) : (s.setCnt n v).bltHead = s.bltHead := rfl
@[simp] theorem State.setCnt_bltq (n v : Nat) : (s.setCnt n v).bltq = s.bltq := rfl
@[simp] theorem State.setCnt_bltNote (n v : Nat) : (s.setCnt n v).bltNote = s.bltNote := rfl
@[simp] theorem State.setCnt_satCur (n v : Nat) : (s.setCnt n v).satCur = s.satCur := rfl
@[simp] theorem State.setCnt_satUtil (n v : Nat) : (s.setCnt n v).satUtil = s.satUtil := rfl
@[simp] theorem State.setCnt_satStall (n v : Nat) : (s.setCnt n v).satStall = s.satStall := rfl
@[simp] theorem State.setCnt_satHist (n v : Nat) : (s.setCnt n v).satHist = s.satHist := rfl
@[simp] theorem State.setCnt_satCfg (n v : Nat) : (s.setCnt n v).satCfg = s.satCfg := rfl
@[simp] theorem State.setCnt_ckp (n v : Nat) : (s.setCnt n v).ckp = s.ckp := rfl
@[simp] theorem State.setCnt_mtbf (n v : Nat) : (s.setCnt n v).mtbf = s.mtbf := rfl
@[simp] theorem State.setCnt_lastFail (n v : Nat) : (s.setCnt n v).lastFail = s.lastFail := rfl
@[simp] theorem State.setCnt_hasPrev (n v : Nat) : (s.setCnt n v).hasPrev = s.hasPrev := rfl
@[simp] theorem State.setCnt_saved (n v : Nat) : (s.setCnt n v).saved = s.saved := rfl
@[simp] theorem State.setCnt_upsets (n v : Nat) : (s.setCnt n v).upsets = s.upsets := rfl
@[simp] theorem State.setCnt_mq (n v : Nat) : (s.setCnt n v).mq = s.mq := rfl
@[simp] theorem State.setCnt_marb (n v : Nat) : (s.setCnt n v).marb = s.marb := rfl
@[simp] theorem State.setCnt_owes (n v : Nat) : (s.setCnt n v).owes = s.owes := rfl
@[simp] theorem State.setCnt_passed (n v : Nat) : (s.setCnt n v).passed = s.passed := rfl
@[simp] theorem State.setCnt_waitq (n v : Nat) : (s.setCnt n v).waitq = s.waitq := rfl

/-! setRg -/

@[simp] theorem State.setRg_pending (n v : Nat) : (s.setRg n v).pending = s.pending := rfl
@[simp] theorem State.setRg_free (n v : Nat) : (s.setRg n v).free = s.free := rfl
@[simp] theorem State.setRg_plat (n v : Nat) : (s.setRg n v).plat = s.plat := rfl
@[simp] theorem State.setRg_reg (n v : Nat) : (s.setRg n v).reg = tput s.reg n (w64 v) := rfl
@[simp] theorem State.setRg_stage128 (n v : Nat) : (s.setRg n v).stage128 = s.stage128 := rfl
@[simp] theorem State.setRg_ctr (n v : Nat) : (s.setRg n v).ctr = s.ctr := rfl
@[simp] theorem State.setRg_parts (n v : Nat) : (s.setRg n v).parts = s.parts := rfl
@[simp] theorem State.setRg_cores (n v : Nat) : (s.setRg n v).cores = s.cores := rfl
@[simp] theorem State.setRg_duc (n v : Nat) : (s.setRg n v).duc = s.duc := rfl
@[simp] theorem State.setRg_fe (n v : Nat) : (s.setRg n v).fe = s.fe := rfl
@[simp] theorem State.setRg_pools (n v : Nat) : (s.setRg n v).pools = s.pools := rfl
@[simp] theorem State.setRg_reqs (n v : Nat) : (s.setRg n v).reqs = s.reqs := rfl
@[simp] theorem State.setRg_inkq (n v : Nat) : (s.setRg n v).inkq = s.inkq := rfl
@[simp] theorem State.setRg_inkWait (n v : Nat) : (s.setRg n v).inkWait = s.inkWait := rfl
@[simp] theorem State.setRg_freeWait (n v : Nat) : (s.setRg n v).freeWait = s.freeWait := rfl
@[simp] theorem State.setRg_metaUsed (n v : Nat) : (s.setRg n v).metaUsed = s.metaUsed := rfl
@[simp] theorem State.setRg_tm (n v : Nat) : (s.setRg n v).tm = s.tm := rfl
@[simp] theorem State.setRg_dram (n v : Nat) : (s.setRg n v).dram = s.dram := rfl
@[simp] theorem State.setRg_dramPoison (n v : Nat) : (s.setRg n v).dramPoison = s.dramPoison := rfl
@[simp] theorem State.setRg_cstore (n v : Nat) : (s.setRg n v).cstore = s.cstore := rfl
@[simp] theorem State.setRg_cstorePoison (n v : Nat) : (s.setRg n v).cstorePoison = s.cstorePoison := rfl
@[simp] theorem State.setRg_clearing (n v : Nat) : (s.setRg n v).clearing = s.clearing := rfl
@[simp] theorem State.setRg_mesh (n v : Nat) : (s.setRg n v).mesh = s.mesh := rfl
@[simp] theorem State.setRg_meshPoison (n v : Nat) : (s.setRg n v).meshPoison = s.meshPoison := rfl
@[simp] theorem State.setRg_ops (n v : Nat) : (s.setRg n v).ops = s.ops := rfl
@[simp] theorem State.setRg_use (n v : Nat) : (s.setRg n v).use = s.use := rfl
@[simp] theorem State.setRg_quar (n v : Nat) : (s.setRg n v).quar = s.quar := rfl
@[simp] theorem State.setRg_ports (n v : Nat) : (s.setRg n v).ports = s.ports := rfl
@[simp] theorem State.setRg_srcEpoch (n v : Nat) : (s.setRg n v).srcEpoch = s.srcEpoch := rfl
@[simp] theorem State.setRg_verA (n v : Nat) : (s.setRg n v).verA = s.verA := rfl
@[simp] theorem State.setRg_verB (n v : Nat) : (s.setRg n v).verB = s.verB := rfl
@[simp] theorem State.setRg_epochErr (n v : Nat) : (s.setRg n v).epochErr = s.epochErr := rfl
@[simp] theorem State.setRg_route (n v : Nat) : (s.setRg n v).route = s.route := rfl
@[simp] theorem State.setRg_tree (n v : Nat) : (s.setRg n v).tree = s.tree := rfl
@[simp] theorem State.setRg_circ (n v : Nat) : (s.setRg n v).circ = s.circ := rfl
@[simp] theorem State.setRg_tdm (n v : Nat) : (s.setRg n v).tdm = s.tdm := rfl
@[simp] theorem State.setRg_mslot (n v : Nat) : (s.setRg n v).mslot = s.mslot := rfl
@[simp] theorem State.setRg_mframe (n v : Nat) : (s.setRg n v).mframe = s.mframe := rfl
@[simp] theorem State.setRg_aggs (n v : Nat) : (s.setRg n v).aggs = s.aggs := rfl
@[simp] theorem State.setRg_nqHead (n v : Nat) : (s.setRg n v).nqHead = s.nqHead := rfl
@[simp] theorem State.setRg_nqEnt (n v : Nat) : (s.setRg n v).nqEnt = s.nqEnt := rfl
@[simp] theorem State.setRg_mgmtOut (n v : Nat) : (s.setRg n v).mgmtOut = s.mgmtOut := rfl
@[simp] theorem State.setRg_grps (n v : Nat) : (s.setRg n v).grps = s.grps := rfl
@[simp] theorem State.setRg_lfree (n v : Nat) : (s.setRg n v).lfree = s.lfree := rfl
@[simp] theorem State.setRg_lrfree (n v : Nat) : (s.setRg n v).lrfree = s.lrfree := rfl
@[simp] theorem State.setRg_ligLast (n v : Nat) : (s.setRg n v).ligLast = s.ligLast := rfl
@[simp] theorem State.setRg_ligSkew (n v : Nat) : (s.setRg n v).ligSkew = s.ligSkew := rfl
@[simp] theorem State.setRg_jsBusy (n v : Nat) : (s.setRg n v).jsBusy = s.jsBusy := rfl
@[simp] theorem State.setRg_jsDone (n v : Nat) : (s.setRg n v).jsDone = s.jsDone := rfl
@[simp] theorem State.setRg_jsStatus (n v : Nat) : (s.setRg n v).jsStatus = s.jsStatus := rfl
@[simp] theorem State.setRg_jsTick (n v : Nat) : (s.setRg n v).jsTick = s.jsTick := rfl
@[simp] theorem State.setRg_jsRec (n v : Nat) : (s.setRg n v).jsRec = s.jsRec := rfl
@[simp] theorem State.setRg_link (n v : Nat) : (s.setRg n v).link = s.link := rfl
@[simp] theorem State.setRg_linkWidth (n v : Nat) : (s.setRg n v).linkWidth = s.linkWidth := rfl
@[simp] theorem State.setRg_sf (n v : Nat) : (s.setRg n v).sf = s.sf := rfl
@[simp] theorem State.setRg_recalls (n v : Nat) : (s.setRg n v).recalls = s.recalls := rfl
@[simp] theorem State.setRg_blocked (n v : Nat) : (s.setRg n v).blocked = s.blocked := rfl
@[simp] theorem State.setRg_hreqs (n v : Nat) : (s.setRg n v).hreqs = s.hreqs := rfl
@[simp] theorem State.setRg_hostId (n v : Nat) : (s.setRg n v).hostId = s.hostId := rfl
@[simp] theorem State.setRg_hostTx (n v : Nat) : (s.setRg n v).hostTx = s.hostTx := rfl
@[simp] theorem State.setRg_far (n v : Nat) : (s.setRg n v).far = s.far := rfl
@[simp] theorem State.setRg_farNext (n v : Nat) : (s.setRg n v).farNext = s.farNext := rfl
@[simp] theorem State.setRg_wl (n v : Nat) : (s.setRg n v).wl = s.wl := rfl
@[simp] theorem State.setRg_rings (n v : Nat) : (s.setRg n v).rings = s.rings := rfl
@[simp] theorem State.setRg_turnRing (n v : Nat) : (s.setRg n v).turnRing = s.turnRing := rfl
@[simp] theorem State.setRg_turnTaken (n v : Nat) : (s.setRg n v).turnTaken = s.turnTaken := rfl
@[simp] theorem State.setRg_cmds (n v : Nat) : (s.setRg n v).cmds = s.cmds := rfl
@[simp] theorem State.setRg_order (n v : Nat) : (s.setRg n v).order = s.order := rfl
@[simp] theorem State.setRg_jrn (n v : Nat) : (s.setRg n v).jrn = s.jrn := rfl
@[simp] theorem State.setRg_jrnHead (n v : Nat) : (s.setRg n v).jrnHead = s.jrnHead := rfl
@[simp] theorem State.setRg_jrnWait (n v : Nat) : (s.setRg n v).jrnWait = s.jrnWait := rfl
@[simp] theorem State.setRg_jrnWseq (n v : Nat) : (s.setRg n v).jrnWseq = s.jrnWseq := rfl
@[simp] theorem State.setRg_blt (n v : Nat) : (s.setRg n v).blt = s.blt := rfl
@[simp] theorem State.setRg_bltHead (n v : Nat) : (s.setRg n v).bltHead = s.bltHead := rfl
@[simp] theorem State.setRg_bltq (n v : Nat) : (s.setRg n v).bltq = s.bltq := rfl
@[simp] theorem State.setRg_bltNote (n v : Nat) : (s.setRg n v).bltNote = s.bltNote := rfl
@[simp] theorem State.setRg_satCur (n v : Nat) : (s.setRg n v).satCur = s.satCur := rfl
@[simp] theorem State.setRg_satUtil (n v : Nat) : (s.setRg n v).satUtil = s.satUtil := rfl
@[simp] theorem State.setRg_satStall (n v : Nat) : (s.setRg n v).satStall = s.satStall := rfl
@[simp] theorem State.setRg_satHist (n v : Nat) : (s.setRg n v).satHist = s.satHist := rfl
@[simp] theorem State.setRg_satCfg (n v : Nat) : (s.setRg n v).satCfg = s.satCfg := rfl
@[simp] theorem State.setRg_ckp (n v : Nat) : (s.setRg n v).ckp = s.ckp := rfl
@[simp] theorem State.setRg_mtbf (n v : Nat) : (s.setRg n v).mtbf = s.mtbf := rfl
@[simp] theorem State.setRg_lastFail (n v : Nat) : (s.setRg n v).lastFail = s.lastFail := rfl
@[simp] theorem State.setRg_hasPrev (n v : Nat) : (s.setRg n v).hasPrev = s.hasPrev := rfl
@[simp] theorem State.setRg_saved (n v : Nat) : (s.setRg n v).saved = s.saved := rfl
@[simp] theorem State.setRg_upsets (n v : Nat) : (s.setRg n v).upsets = s.upsets := rfl
@[simp] theorem State.setRg_mq (n v : Nat) : (s.setRg n v).mq = s.mq := rfl
@[simp] theorem State.setRg_marb (n v : Nat) : (s.setRg n v).marb = s.marb := rfl
@[simp] theorem State.setRg_owes (n v : Nat) : (s.setRg n v).owes = s.owes := rfl
@[simp] theorem State.setRg_passed (n v : Nat) : (s.setRg n v).passed = s.passed := rfl
@[simp] theorem State.setRg_waitq (n v : Nat) : (s.setRg n v).waitq = s.waitq := rfl

/-! useFree -/

@[simp] theorem State.useFree_pending : (s.useFree).pending = s.pending := rfl
@[simp] theorem State.useFree_free : (s.useFree).free = s.free + 1 := rfl
@[simp] theorem State.useFree_plat : (s.useFree).plat = s.plat := rfl
@[simp] theorem State.useFree_reg : (s.useFree).reg = s.reg := rfl
@[simp] theorem State.useFree_stage128 : (s.useFree).stage128 = s.stage128 := rfl
@[simp] theorem State.useFree_ctr : (s.useFree).ctr = s.ctr := rfl
@[simp] theorem State.useFree_parts : (s.useFree).parts = s.parts := rfl
@[simp] theorem State.useFree_cores : (s.useFree).cores = s.cores := rfl
@[simp] theorem State.useFree_duc : (s.useFree).duc = s.duc := rfl
@[simp] theorem State.useFree_fe : (s.useFree).fe = s.fe := rfl
@[simp] theorem State.useFree_pools : (s.useFree).pools = s.pools := rfl
@[simp] theorem State.useFree_reqs : (s.useFree).reqs = s.reqs := rfl
@[simp] theorem State.useFree_inkq : (s.useFree).inkq = s.inkq := rfl
@[simp] theorem State.useFree_inkWait : (s.useFree).inkWait = s.inkWait := rfl
@[simp] theorem State.useFree_freeWait : (s.useFree).freeWait = s.freeWait := rfl
@[simp] theorem State.useFree_metaUsed : (s.useFree).metaUsed = s.metaUsed := rfl
@[simp] theorem State.useFree_tm : (s.useFree).tm = s.tm := rfl
@[simp] theorem State.useFree_dram : (s.useFree).dram = s.dram := rfl
@[simp] theorem State.useFree_dramPoison : (s.useFree).dramPoison = s.dramPoison := rfl
@[simp] theorem State.useFree_cstore : (s.useFree).cstore = s.cstore := rfl
@[simp] theorem State.useFree_cstorePoison : (s.useFree).cstorePoison = s.cstorePoison := rfl
@[simp] theorem State.useFree_clearing : (s.useFree).clearing = s.clearing := rfl
@[simp] theorem State.useFree_mesh : (s.useFree).mesh = s.mesh := rfl
@[simp] theorem State.useFree_meshPoison : (s.useFree).meshPoison = s.meshPoison := rfl
@[simp] theorem State.useFree_ops : (s.useFree).ops = s.ops := rfl
@[simp] theorem State.useFree_use : (s.useFree).use = s.use := rfl
@[simp] theorem State.useFree_quar : (s.useFree).quar = s.quar := rfl
@[simp] theorem State.useFree_ports : (s.useFree).ports = s.ports := rfl
@[simp] theorem State.useFree_srcEpoch : (s.useFree).srcEpoch = s.srcEpoch := rfl
@[simp] theorem State.useFree_verA : (s.useFree).verA = s.verA := rfl
@[simp] theorem State.useFree_verB : (s.useFree).verB = s.verB := rfl
@[simp] theorem State.useFree_epochErr : (s.useFree).epochErr = s.epochErr := rfl
@[simp] theorem State.useFree_route : (s.useFree).route = s.route := rfl
@[simp] theorem State.useFree_tree : (s.useFree).tree = s.tree := rfl
@[simp] theorem State.useFree_circ : (s.useFree).circ = s.circ := rfl
@[simp] theorem State.useFree_tdm : (s.useFree).tdm = s.tdm := rfl
@[simp] theorem State.useFree_mslot : (s.useFree).mslot = s.mslot := rfl
@[simp] theorem State.useFree_mframe : (s.useFree).mframe = s.mframe := rfl
@[simp] theorem State.useFree_aggs : (s.useFree).aggs = s.aggs := rfl
@[simp] theorem State.useFree_nqHead : (s.useFree).nqHead = s.nqHead := rfl
@[simp] theorem State.useFree_nqEnt : (s.useFree).nqEnt = s.nqEnt := rfl
@[simp] theorem State.useFree_mgmtOut : (s.useFree).mgmtOut = s.mgmtOut := rfl
@[simp] theorem State.useFree_grps : (s.useFree).grps = s.grps := rfl
@[simp] theorem State.useFree_lfree : (s.useFree).lfree = s.lfree := rfl
@[simp] theorem State.useFree_lrfree : (s.useFree).lrfree = s.lrfree := rfl
@[simp] theorem State.useFree_ligLast : (s.useFree).ligLast = s.ligLast := rfl
@[simp] theorem State.useFree_ligSkew : (s.useFree).ligSkew = s.ligSkew := rfl
@[simp] theorem State.useFree_jsBusy : (s.useFree).jsBusy = s.jsBusy := rfl
@[simp] theorem State.useFree_jsDone : (s.useFree).jsDone = s.jsDone := rfl
@[simp] theorem State.useFree_jsStatus : (s.useFree).jsStatus = s.jsStatus := rfl
@[simp] theorem State.useFree_jsTick : (s.useFree).jsTick = s.jsTick := rfl
@[simp] theorem State.useFree_jsRec : (s.useFree).jsRec = s.jsRec := rfl
@[simp] theorem State.useFree_link : (s.useFree).link = s.link := rfl
@[simp] theorem State.useFree_linkWidth : (s.useFree).linkWidth = s.linkWidth := rfl
@[simp] theorem State.useFree_sf : (s.useFree).sf = s.sf := rfl
@[simp] theorem State.useFree_recalls : (s.useFree).recalls = s.recalls := rfl
@[simp] theorem State.useFree_blocked : (s.useFree).blocked = s.blocked := rfl
@[simp] theorem State.useFree_hreqs : (s.useFree).hreqs = s.hreqs := rfl
@[simp] theorem State.useFree_hostId : (s.useFree).hostId = s.hostId := rfl
@[simp] theorem State.useFree_hostTx : (s.useFree).hostTx = s.hostTx := rfl
@[simp] theorem State.useFree_far : (s.useFree).far = s.far := rfl
@[simp] theorem State.useFree_farNext : (s.useFree).farNext = s.farNext := rfl
@[simp] theorem State.useFree_wl : (s.useFree).wl = s.wl := rfl
@[simp] theorem State.useFree_rings : (s.useFree).rings = s.rings := rfl
@[simp] theorem State.useFree_turnRing : (s.useFree).turnRing = s.turnRing := rfl
@[simp] theorem State.useFree_turnTaken : (s.useFree).turnTaken = s.turnTaken := rfl
@[simp] theorem State.useFree_cmds : (s.useFree).cmds = s.cmds := rfl
@[simp] theorem State.useFree_order : (s.useFree).order = s.order := rfl
@[simp] theorem State.useFree_jrn : (s.useFree).jrn = s.jrn := rfl
@[simp] theorem State.useFree_jrnHead : (s.useFree).jrnHead = s.jrnHead := rfl
@[simp] theorem State.useFree_jrnWait : (s.useFree).jrnWait = s.jrnWait := rfl
@[simp] theorem State.useFree_jrnWseq : (s.useFree).jrnWseq = s.jrnWseq := rfl
@[simp] theorem State.useFree_blt : (s.useFree).blt = s.blt := rfl
@[simp] theorem State.useFree_bltHead : (s.useFree).bltHead = s.bltHead := rfl
@[simp] theorem State.useFree_bltq : (s.useFree).bltq = s.bltq := rfl
@[simp] theorem State.useFree_bltNote : (s.useFree).bltNote = s.bltNote := rfl
@[simp] theorem State.useFree_satCur : (s.useFree).satCur = s.satCur := rfl
@[simp] theorem State.useFree_satUtil : (s.useFree).satUtil = s.satUtil := rfl
@[simp] theorem State.useFree_satStall : (s.useFree).satStall = s.satStall := rfl
@[simp] theorem State.useFree_satHist : (s.useFree).satHist = s.satHist := rfl
@[simp] theorem State.useFree_satCfg : (s.useFree).satCfg = s.satCfg := rfl
@[simp] theorem State.useFree_ckp : (s.useFree).ckp = s.ckp := rfl
@[simp] theorem State.useFree_mtbf : (s.useFree).mtbf = s.mtbf := rfl
@[simp] theorem State.useFree_lastFail : (s.useFree).lastFail = s.lastFail := rfl
@[simp] theorem State.useFree_hasPrev : (s.useFree).hasPrev = s.hasPrev := rfl

/-! Reads of what was written. -/

@[simp] theorem State.part_setPart (p : Nat) (v : Part) : (s.setPart p v).part p = v := tgetD_tput_self _ _ _ _
theorem State.part_setPart_ne {p q : Nat} (v : Part) (h : q ≠ p) : (s.setPart p v).part q = s.part q := tgetD_tput_ne _ _ _ h
@[simp] theorem State.core_setCore (l : Loc) (v : CoreSt) : (s.setCore l v).core l = v := tgetD_tput_self _ _ _ _
@[simp] theorem State.ductus_setDuctus (n : Nat) (v : Ductus) : (s.setDuctus n v).ductus n = v := tgetD_tput_self _ _ _ _
@[simp] theorem State.port_setPort (n : Nat) (v : Port) : (s.setPort n v).port n = v := tgetD_tput_self _ _ _ _
@[simp] theorem State.pool_setPool (n : Nat) (v : Pool) : (s.setPool n v).pool n = v := tgetD_tput_self _ _ _ _
@[simp] theorem State.reqr_setReqr (n : Nat) (v : Requester) : (s.setReqr n v).reqr n = v := tgetD_tput_self _ _ _ _
@[simp] theorem State.front_setFront (n : Nat) (v : FrontEnd) : (s.setFront n v).front n = v := tgetD_tput_self _ _ _ _
@[simp] theorem State.mover_setMover (n : Nat) (v : TierMover) : (s.setMover n v).mover n = v := tgetD_tput_self _ _ _ _
@[simp] theorem State.grp_setGrp (n : Nat) (v : Group) : (s.setGrp n v).grp n = v := tgetD_tput_self _ _ _ _
@[simp] theorem State.ring_setRing (n : Nat) (v : Ring) : (s.setRing n v).ring n = v := tgetD_tput_self _ _ _ _
@[simp] theorem State.ctx_setCtx (p c : Nat) (v : Ctx) : (s.setCtx p c v).ctx p c = v := by simp [State.ctx, State.setCtx]
@[simp] theorem State.cnt_setCnt (o v : Nat) : (s.setCnt o v).cnt o = v % 2 ^ 64 := by simp [State.cnt, w64]
@[simp] theorem State.rg_setRg (o v : Nat) : (s.setRg o v).rg o = v % 2 ^ 64 := by simp [State.rg, w64]
theorem State.rg_setRg_ne {o q : Nat} (v : Nat) (h : q ≠ o) : (s.setRg o v).rg q = s.rg q := by
  simp [State.rg, tget_tput_ne _ _ h]
theorem State.cnt_setCnt_ne {o q : Nat} (v : Nat) (h : q ≠ o) : (s.setCnt o v).cnt q = s.cnt q := by
  simp [State.cnt, tgetD_tput_ne _ _ _ h]

theorem Loc.key_inj {a b : Loc} (ha : a.s < 8 ∧ a.l < 64 ∧ a.k < 64) (hb : b.s < 8 ∧ b.l < 64 ∧ b.k < 64)
    (h : a.key = b.key) : a = b := by
  obtain ⟨p, s, l, k⟩ := a
  obtain ⟨q, t, m, n⟩ := b
  simp only [Loc.key, Loc.mk.injEq] at *
  omega

/-- Another core is as it was. -/
theorem State.core_setCore_ne {l m : Loc} (v : CoreSt) (h : m.key ≠ l.key) : (s.setCore l v).core m = s.core m :=
  tgetD_tput_ne _ _ _ h

end Sys2Proof.Machine
end

