-- ==== Sys2Proof/Laws/Issue.lean ====
section
/-! SUPPORT. The issue of an instruction said once: what `issue` answers where the instruction may issue, what a checked body answers
where its checks pass, and what it answers where one fails. -/

namespace Sys2Proof.Machine

theorem issue_eq {s : State} {c : CoreId} {l : Loc} {n : Nat} {ext : Bool} (h : Issues s c l n)
    (hn : n = if ext then 16 else 8) (w0 : Nat) (body : Loc → CoreSt → Iss) :
    s.issue c w0 ext body = match body l (s.core l) with
      | .stall => s
      | .exc code e0 e1 => s.syncExc l code e0 e1 w0
      | .dead n sp off => (s.deadNode l.p n).syncExc l cFABDEAD (n + sp * 2 ^ 16) off (s.core l).pc
      | .eff t => t := by
  obtain ⟨hp, hl, hr, hs, hm, ha, hq⟩ := h
  subst hn
  have h8 : (s.core l).pc % 8 = 0 := by
    cases ext <;> simp at ha
    · exact ha
    · omega
  cases ext <;> simp_all [State.issue] <;> rfl

theorem issue_none {s : State} {c : CoreId} {w0 : Nat} {ext : Bool} {body : Loc → CoreSt → Iss}
    (h : s.plat.power ≠ .running ∨ s.locate c = none) : s.issue c w0 ext body = s := by
  rcases h with h | h
  · simp [State.issue, h]
  · simp [State.issue, h]

theorem issue_eff8 {s : State} {c : CoreId} {l : Loc} (h : Issues s c l 8) {w0 : Nat} {body : Loc → CoreSt → Iss} {t : State}
    (hb : body l (s.core l) = .eff t) : s.issue c w0 false body = t := by
  rw [issue_eq h (by simp), hb]

theorem issue_eff16 {s : State} {c : CoreId} {l : Loc} (h : Issues s c l 16) {w0 : Nat} {body : Loc → CoreSt → Iss} {t : State}
    (hb : body l (s.core l) = .eff t) : s.issue c w0 true body = t := by
  rw [issue_eq h (by simp), hb]

theorem checkedDead_act {s : State} {l : Loc} {cs : CoreSt} {errs : List (Bool × Nat)} {rs : List Nat}
    {ranges : List (Nat × Nat)} {track : List Rng} {act : Unit → Iss} (hp : cs.pendingAny rs = false)
    (hh : s.hazard l track = false) (he : firstErr errs = none) (hd : cs.dataUe rs ranges = none) :
    s.checkedDead l cs errs none rs ranges track act = act () := by
  simp [State.checkedDead, hp, hh, he, hd]

theorem checked_act {s : State} {l : Loc} {cs : CoreSt} {errs : List (Bool × Nat)} {rs : List Nat}
    {ranges : List (Nat × Nat)} {track : List Rng} {act : Unit → Iss} (hp : cs.pendingAny rs = false)
    (hh : s.hazard l track = false) (he : firstErr errs = none) (hd : cs.dataUe rs ranges = none) :
    s.checked l cs errs rs ranges track act = act () :=
  checkedDead_act hp hh he hd

theorem checked_exc {s : State} {l : Loc} {cs : CoreSt} {errs : List (Bool × Nat)} {rs : List Nat}
    {ranges : List (Nat × Nat)} {track : List Rng} {act : Unit → Iss} {code : Nat} (hp : cs.pendingAny rs = false)
    (hh : s.hazard l track = false) (he : firstErr errs = some code) :
    s.checked l cs errs rs ranges track act = .exc code 0 0 := by
  simp [State.checked, State.checkedDead, hp, hh, he]

@[simp] theorem hazard_nil (s : State) (l : Loc) : s.hazard l [] = false := by simp [State.hazard]
@[simp] theorem pendingAny_nil (c : CoreSt) : c.pendingAny [] = false := rfl
@[simp] theorem dataUe_nil (c : CoreSt) : c.dataUe [] [] = none := rfl

end Sys2Proof.Machine
end

