-- ==== Sys2Proof/Laws/Kept.lean ====
section
/-! SUPPORT. What the shared operations of the cores, counters, logs, memory and requests leave of the queue and the routing versions
(08 R295): one lemma per operation, for the statement that every step keeps them. -/

namespace Sys2Proof.Machine

set_option linter.unusedTactic false
set_option linter.unreachableTactic false

/-- The queue, the routing versions and the source version. -/
def State.kept (s : State) : List Instr × Version × Version × Nat := (s.pending, s.verA, s.verB, s.srcEpoch)

@[simp] theorem kept_mk a0 a1 a2 a3 a4 a5 a6 a7 a8 a9 a10 a11 a12 a13 a14 a15 a16 a17 a18 a19 a20 a21 a22 a23 a24 a25 a26 a27 a28 a29 a30 a31 a32 a33 a34 a35 a36 a37 a38 a39 a40 a41 a42 a43 a44 a45 a46 a47 a48 a49 a50 a51 a52 a53 a54 a55 a56 a57 a58 a59 a60 a61 a62 a63 a64 a65 a66 a67 a68 a69 a70 a71 a72 a73 a74 a75 a76 a77 a78 a79 a80 a81 a82 a83 a84 a85 a86 a87 a88 a89 a90 a91 :
    State.kept (State.mk a0 a1 a2 a3 a4 a5 a6 a7 a8 a9 a10 a11 a12 a13 a14 a15 a16 a17 a18 a19 a20 a21 a22 a23 a24 a25 a26 a27 a28 a29 a30 a31 a32 a33 a34 a35 a36 a37 a38 a39 a40 a41 a42 a43 a44 a45 a46 a47 a48 a49 a50 a51 a52 a53 a54 a55 a56 a57 a58 a59 a60 a61 a62 a63 a64 a65 a66 a67 a68 a69 a70 a71 a72 a73 a74 a75 a76 a77 a78 a79 a80 a81 a82 a83 a84 a85 a86 a87 a88 a89 a90 a91) =
      (a0, a30, a31, a29) := rfl

@[simp] theorem kept_ite {c : Prop} [Decidable c] (a b : State) : (if c then a else b).kept = if c then a.kept else b.kept :=
  apply_ite _ _ _ _

@[simp] theorem foldl_kept {α : Type} {f : State → α → State} (h : ∀ s x, (f s x).kept = s.kept) :
    ∀ (l : List α) (s : State), (l.foldl f s).kept = s.kept
  | [], _ => rfl
  | x :: l, s => (foldl_kept h l (f s x)).trans (h s x)

@[simp] theorem kept_eta (s : State) : (s.pending, s.verA, s.verB, s.srcEpoch) = s.kept := rfl

@[simp] theorem State.setPart_kept (s : State) (p : Nat) (v : Part) : (State.setPart s p v).kept = s.kept := by
  unfold State.setPart
  repeat' (first | simp | split)

@[simp] theorem State.setCtx_kept (s : State) (p c : Nat) (v : Ctx) : (State.setCtx s p c v).kept = s.kept := by
  unfold State.setCtx
  repeat' (first | simp | split)

@[simp] theorem State.setCore_kept (s : State) (l : Loc) (v : CoreSt) : (State.setCore s l v).kept = s.kept := by
  unfold State.setCore
  repeat' (first | simp | split)

@[simp] theorem State.setDuctus_kept (s : State) (n : Nat) (v : Ductus) : (State.setDuctus s n v).kept = s.kept := by
  unfold State.setDuctus
  repeat' (first | simp | split)

@[simp] theorem State.setPort_kept (s : State) (n : Nat) (v : Port) : (State.setPort s n v).kept = s.kept := by
  unfold State.setPort
  repeat' (first | simp | split)

@[simp] theorem State.setPool_kept (s : State) (k : Nat) (v : Pool) : (State.setPool s k v).kept = s.kept := by
  unfold State.setPool
  repeat' (first | simp | split)

@[simp] theorem State.setReqr_kept (s : State) (k : Nat) (v : Requester) : (State.setReqr s k v).kept = s.kept := by
  unfold State.setReqr
  repeat' (first | simp | split)

@[simp] theorem State.setFront_kept (s : State) (n : Nat) (v : FrontEnd) : (State.setFront s n v).kept = s.kept := by
  unfold State.setFront
  repeat' (first | simp | split)

@[simp] theorem State.setMover_kept (s : State) (q : Nat) (v : TierMover) : (State.setMover s q v).kept = s.kept := by
  unfold State.setMover
  repeat' (first | simp | split)

@[simp] theorem State.setGrp_kept (s : State) (e : Nat) (v : Group) : (State.setGrp s e v).kept = s.kept := by
  unfold State.setGrp
  repeat' (first | simp | split)

@[simp] theorem State.setRing_kept (s : State) (k : Nat) (v : Ring) : (State.setRing s k v).kept = s.kept := by
  unfold State.setRing
  repeat' (first | simp | split)

@[simp] theorem State.useFree_kept (s : State) : (State.useFree s).kept = s.kept := by
  unfold State.useFree
  repeat' (first | simp | split)

@[simp] theorem State.setCnt_kept (s : State) (off v : Nat) : (State.setCnt s off v).kept = s.kept := by
  unfold State.setCnt
  repeat' (first | simp | split)

@[simp] theorem State.rawCount_kept (s : State) (off n : Nat) : (State.rawCount s off n).kept = s.kept := by
  unfold State.rawCount
  repeat' (first | simp | split)

@[simp] theorem State.logEvent_kept (s : State) (e : Event) : (State.logEvent s e).kept = s.kept := by
  unfold State.logEvent
  repeat' (first | simp | split)

@[simp] theorem State.countAt_kept (s : State) (off code n : Nat) : (State.countAt s off code n).kept = s.kept := by
  unfold State.countAt
  repeat' (first | simp | split)

@[simp] theorem State.count_kept (s : State) (code : Nat) : (State.count s code).kept = s.kept := by
  unfold State.count
  repeat' (first | simp | split)

@[simp] theorem State.countN_kept (s : State) (code n : Nat) : (State.countN s code n).kept = s.kept := by
  unfold State.countN
  repeat' (first | simp | split)

@[simp] theorem State.setRg_kept (s : State) (o v : Nat) : (State.setRg s o v).kept = s.kept := by
  unfold State.setRg
  repeat' (first | simp | split)

@[simp] theorem State.setTorn_kept (s : State) (p : Nat) : (State.setTorn s p).kept = s.kept := by
  unfold State.setTorn
  repeat' (first | simp | split)

@[simp] theorem State.mend_kept (s : State) (x : ErrAt) : (State.mend s x).kept = s.kept := by
  unfold State.mend
  repeat' (first | simp | split | intro _)

@[simp] theorem State.jrnUpdate_kept (s : State) (c : Cmd) : (State.jrnUpdate s c).kept = s.kept := by
  unfold State.jrnUpdate
  repeat' (first | simp | split)

@[simp] theorem State.setCmd_kept (s : State) (c : Cmd) : (State.setCmd s c).kept = s.kept := by
  unfold State.setCmd
  repeat' (first | simp | split)

@[simp] theorem State.startCmd_kept (s : State) (c : Cmd) : (State.startCmd s c).kept = s.kept := by
  unfold State.startCmd
  repeat' (first | simp | split)

@[simp] theorem State.finishCmd_kept (s : State) (seq code parts detail : Nat) : (State.finishCmd s seq code parts detail).kept = s.kept := by
  unfold State.finishCmd
  repeat' (first | simp | split)

@[simp] theorem State.doneCmd_kept (s : State) (seq code detail : Nat) : (State.doneCmd s seq code detail).kept = s.kept := by
  unfold State.doneCmd
  repeat' (first | simp | split)

@[simp] theorem State.stateCmd_kept (s : State) (seq : Nat) : (State.stateCmd s seq).kept = s.kept := by
  unfold State.stateCmd
  repeat' (first | simp | split)

@[simp] theorem State.mapCtxCores_kept (s : State) (p c : Nat) (f : CoreSt → CoreSt) : (State.mapCtxCores s p c f).kept = s.kept := by
  unfold State.mapCtxCores
  repeat' (first | simp | split)

@[simp] theorem State.holdDuctus_kept (s : State) (p c : Nat) : (State.holdDuctus s p c).kept = s.kept := by
  unfold State.holdDuctus
  repeat' (first | simp | split | intro _)

@[simp] theorem State.reissueDuctus_kept (s : State) (p c : Nat) : (State.reissueDuctus s p c).kept = s.kept := by
  unfold State.reissueDuctus
  repeat' (first | simp | split | intro _)

@[simp] theorem State.quiesce_kept (s : State) (p c : Nat) : (State.quiesce s p c).kept = s.kept := by
  unfold State.quiesce
  repeat' (first | simp | split | intro _)

@[simp] theorem State.freshImages_kept (s : State) (p c : Nat) : (State.freshImages s p c).kept = s.kept := by
  unfold State.freshImages
  repeat' (first | simp | split | intro _)

@[simp] theorem State.found_kept (s : State) (u : Upset) (ce ue srck srcid addr : Nat) : (State.found s u ce ue srck srcid addr).kept = s.kept := by
  unfold State.found
  repeat' (first | simp | split | intro _)

@[simp] theorem State.eccEntry_kept (s : State) (x : ErrAt) (unit : Nat) : (State.eccEntry s x unit).1.kept = s.kept := by
  unfold State.eccEntry
  repeat' (first | simp | split | intro _)

@[simp] theorem State.eccAt_kept (s : State) (x : ErrAt) : (State.eccAt s x).kept = s.kept := by
  unfold State.eccAt
  repeat' (first | simp | split | intro _)

@[simp] theorem State.deadNode_kept (s : State) (p n : Nat) : (State.deadNode s p n).kept = s.kept := by
  unfold State.deadNode
  repeat' (first | simp | split | intro _)

@[simp] theorem State.eccDram_kept (s : State) (a n : Nat) : (State.eccDram s a n).kept = s.kept := by
  unfold State.eccDram
  refine foldl_kept (fun s x => ?_) _ _
  split <;> (repeat' (first | simp | split))

@[simp] theorem State.eccStore_kept (s : State) (a n : Nat) : (State.eccStore s a n).kept = s.kept := by
  unfold State.eccStore
  refine foldl_kept (fun s x => ?_) _ _
  split <;> (repeat' (first | simp | split))

@[simp] theorem State.carryImages_kept (s : State) (p c : Nat) : (State.carryImages s p c).kept = s.kept := by
  unfold State.carryImages
  refine foldl_kept (fun s x => ?_) _ _
  split <;> (repeat' (first | simp | split))

@[simp] theorem State.startSave_kept (s : State) (p c : Nat) : (State.startSave s p c).kept = s.kept := by
  unfold State.startSave
  repeat' (first | simp | split)

@[simp] theorem State.startRestore_kept (s : State) (p c pr : Nat) : (State.startRestore s p c pr).kept = s.kept := by
  unfold State.startRestore
  repeat' (first | simp | split)

@[simp] theorem State.decision_kept (s : State) (p : Nat) : (State.decision s p).kept = s.kept := by
  unfold State.decision
  repeat' (first | simp | split)

@[simp] theorem State.unseat_kept (s : State) (p : Nat) : (State.unseat s p).kept = s.kept := by
  unfold State.unseat
  repeat' (first | simp | split)

@[simp] theorem State.endLaunch_kept (s : State) (p c code : Nat) : (State.endLaunch s p c code).kept = s.kept := by
  unfold State.endLaunch
  repeat' (first | simp | split)

@[simp] theorem State.endPauses_kept (s : State) (p c code : Nat) : (State.endPauses s p c code).kept = s.kept := by
  unfold State.endPauses
  repeat' (first | simp | split)

@[simp] theorem Group.free_kept (g : Group) (s : State) : (Group.free g s).kept = s.kept := by
  unfold Group.free
  repeat' (first | simp | split)

@[simp] theorem State.closeGroups_kept (s : State) (pr : Group → Bool) : (State.closeGroups s pr).kept = s.kept := by
  unfold State.closeGroups
  repeat' (first | simp | split)

@[simp] theorem State.dropOps_kept (s : State) (pr : Op → Bool) : (State.dropOps s pr).kept = s.kept := by
  unfold State.dropOps
  repeat' (first | simp | split)

@[simp] theorem State.closeCollects_kept (s : State) (p : Nat) : (State.closeCollects s p).kept = s.kept := by
  unfold State.closeCollects
  repeat' (first | simp | split)

@[simp] theorem State.abortCmd_kept (s : State) (c : Cmd) : (State.abortCmd s c).kept = s.kept := by
  unfold State.abortCmd
  repeat' (first | simp | split | intro _)

@[simp] theorem State.setCkpPart_kept (s : State) (p : Nat) (v : CkpPart) : (State.setCkpPart s p v).kept = s.kept := by
  unfold State.setCkpPart
  repeat' (first | simp | split | intro _)

@[simp] theorem State.abortCkpt_kept (s : State) (p : Nat) : (State.abortCkpt s p).kept = s.kept := by
  unfold State.abortCkpt
  repeat' (first | simp | split | intro _)

@[simp] theorem State.abortPart_kept (s : State) (p : Nat) : (State.abortPart s p).kept = s.kept := by
  unfold State.abortPart
  repeat' (first | simp | split)

@[simp] theorem State.settle_kept (s : State) (p : Nat) : (State.settle s p).kept = s.kept := by
  unfold State.settle
  repeat' (first | simp | split)

@[simp] theorem State.contextEnd_kept (s : State) (p c : Nat) : (State.contextEnd s p c).kept = s.kept := by
  unfold State.contextEnd
  repeat' (first | simp | split)

@[simp] theorem State.contextStop_kept (s : State) (p c code : Nat) : (State.contextStop s p c code).kept = s.kept := by
  unfold State.contextStop
  repeat' (first | simp | split)

@[simp] theorem State.throttleCtx_kept (s : State) (p : Nat) : (State.throttleCtx s p).kept = s.kept := by
  unfold State.throttleCtx
  repeat' (first | simp | split)

@[simp] theorem State.throttled_kept (s : State) (srck srcid : Nat) (ps : List Nat) : (State.throttled s srck srcid ps).kept = s.kept := by
  unfold State.throttled
  repeat' (first | simp | split)

@[simp] theorem State.addCounter_kept (s : State) (l : Loc) (n : Nat) (v : W32) : (State.addCounter s l n v).kept = s.kept := by
  unfold State.addCounter
  repeat' (first | simp | split | intro _)

@[simp] theorem State.coreStop_kept (s : State) (l : Loc) (f : Fail) : (State.coreStop s l f).kept = s.kept := by
  unfold State.coreStop
  repeat' (first | simp | split | intro _)

@[simp] theorem State.coreEnd_kept (s : State) (l : Loc) : (State.coreEnd s l).kept = s.kept := by
  unfold State.coreEnd
  repeat' (first | simp | split | intro _)

@[simp] theorem State.engOut_kept (s : State) (l : Loc) (o : EngOut) : (State.engOut s l o).kept = s.kept := by
  unfold State.engOut
  repeat' (first | simp | split | intro _)

@[simp] theorem State.takeFail_kept (s : State) (l : Loc) (f : Fail) (async : Bool) : (State.takeFail s l f async).kept = s.kept := by
  unfold State.takeFail
  repeat' (first | simp | split | intro _)

@[simp] theorem State.syncExc_kept (s : State) (l : Loc) (code e0 e1 e2 : Nat) : (State.syncExc s l code e0 e1 e2).kept = s.kept := by
  unfold State.syncExc
  repeat' (first | simp | split | intro _)

@[simp] theorem State.asyncFail_kept (s : State) (l : Loc) (code e0 e1 e2 : Nat) : (State.asyncFail s l code e0 e1 e2).kept = s.kept := by
  unfold State.asyncFail
  repeat' (first | simp | split | intro _)

theorem State.issue_kept {s : State} {c : CoreId} {w0 : Nat} {ext : Bool} {body : Loc → CoreSt → Iss}
    (h : ∀ l cs t, body l cs = .eff t → t.kept = s.kept) : (State.issue s c w0 ext body).kept = s.kept := by
  unfold State.issue
  repeat' (first | simp | split)
  all_goals (intros; exact h _ _ _ ‹_›)

@[simp] theorem State.send_kept (s : State) (p : Nat) (owner : Owner) (dest : Dest) (lnode : Nat) (e : W64) (r : RReq) : (State.send s p owner dest lnode e r).kept = s.kept := by
  unfold State.send
  repeat' (first | simp | split | intro _)

@[simp] theorem State.markSent_kept (s : State) (sl : Nat) : (State.markSent s sl).kept = s.kept := by
  unfold State.markSent
  repeat' (first | simp | split | intro _)

@[simp] theorem State.fenceCheck_kept (s : State) (l : Loc) : (State.fenceCheck s l).kept = s.kept := by
  unfold State.fenceCheck
  repeat' (first | simp | split | intro _)

theorem State.checkedDead_eff {s : State} {l : Loc} {cs : CoreSt} {errs : List (Bool × Nat)} {dead : Option Iss} {rs : List Nat}
    {ranges : List (Nat × Nat)} {track : List Rng} {act : Unit → Iss} {t : State}
    (h : s.checkedDead l cs errs dead rs ranges track act = .eff t) : dead = some (.eff t) ∨ act () = .eff t := by
  unfold State.checkedDead at h
  repeat' (first | (cases h; done) | split at h)
  · exact .inl (by simp_all)
  · exact .inr h

theorem State.checked_eff {s : State} {l : Loc} {cs : CoreSt} {errs : List (Bool × Nat)} {rs : List Nat}
    {ranges : List (Nat × Nat)} {track : List Rng} {act : Unit → Iss} {t : State}
    (h : s.checked l cs errs rs ranges track act = .eff t) : act () = .eff t := by
  rcases State.checkedDead_eff h with h | h
  · cases h
  · exact h

theorem execNop_kept (c : CoreId) (w : FormR) (s : State) (t_ : State) (h_ : execNop c w s = .next t_) : t_.kept = s.kept := by
  dsimp only [execNop] at h_
  injection h_ with h_
  subst h_
  refine State.issue_kept ?_
  intro l_ cs_ t_ h_
  repeat' (first | (cases h_; done) | (injection h_ with h_; subst h_; repeat' (first | simp | split | intro _); done) | replace h_ := State.checked_eff h_ | split at h_)

theorem execAlu_kept (c : CoreId) (w : FormR) (s : State) (t_ : State) (h_ : execAlu c w s = .next t_) : t_.kept = s.kept := by
  dsimp only [execAlu] at h_
  injection h_ with h_
  subst h_
  refine State.issue_kept ?_
  intro l_ cs_ t_ h_
  repeat' (first | (cases h_; done) | (injection h_ with h_; subst h_; repeat' (first | simp | split | intro _); done) | replace h_ := State.checked_eff h_ | split at h_)

theorem execAlui_kept (c : CoreId) (w : FormI) (s : State) (t_ : State) (h_ : execAlui c w s = .next t_) : t_.kept = s.kept := by
  dsimp only [execAlui] at h_
  injection h_ with h_
  subst h_
  refine State.issue_kept ?_
  intro l_ cs_ t_ h_
  repeat' (first | (cases h_; done) | (injection h_ with h_; subst h_; repeat' (first | simp | split | intro _); done) | replace h_ := State.checked_eff h_ | split at h_)

theorem execLih_kept (c : CoreId) (w : FormI) (s : State) (t_ : State) (h_ : execLih c w s = .next t_) : t_.kept = s.kept := by
  dsimp only [execLih] at h_
  injection h_ with h_
  subst h_
  refine State.issue_kept ?_
  intro l_ cs_ t_ h_
  repeat' (first | (cases h_; done) | (injection h_ with h_; subst h_; repeat' (first | simp | split | intro _); done) | replace h_ := State.checked_eff h_ | split at h_)

theorem execLd_kept (c : CoreId) (w : FormI) (s : State) (t_ : State) (h_ : execLd c w s = .next t_) : t_.kept = s.kept := by
  dsimp only [execLd] at h_
  injection h_ with h_
  subst h_
  refine State.issue_kept ?_
  intro l_ cs_ t_ h_
  repeat' (first | (cases h_; done) | (injection h_ with h_; subst h_; repeat' (first | simp | split | intro _); done) | replace h_ := State.checked_eff h_ | split at h_)

theorem execSt_kept (c : CoreId) (w : FormI) (s : State) (t_ : State) (h_ : execSt c w s = .next t_) : t_.kept = s.kept := by
  dsimp only [execSt] at h_
  injection h_ with h_
  subst h_
  refine State.issue_kept ?_
  intro l_ cs_ t_ h_
  repeat' (first | (cases h_; done) | (injection h_ with h_; subst h_; repeat' (first | simp | split | intro _); done) | replace h_ := State.checked_eff h_ | split at h_)

theorem execBr_kept (c : CoreId) (w : FormB) (s : State) (t_ : State) (h_ : execBr c w s = .next t_) : t_.kept = s.kept := by
  dsimp only [execBr] at h_
  injection h_ with h_
  subst h_
  refine State.issue_kept ?_
  intro l_ cs_ t_ h_
  repeat' (first | (cases h_; done) | (injection h_ with h_; subst h_; repeat' (first | simp | split | intro _); done) | replace h_ := State.checked_eff h_ | split at h_)

theorem execJal_kept (c : CoreId) (w : FormI) (s : State) (t_ : State) (h_ : execJal c w s = .next t_) : t_.kept = s.kept := by
  dsimp only [execJal] at h_
  injection h_ with h_
  subst h_
  refine State.issue_kept ?_
  intro l_ cs_ t_ h_
  repeat' (first | (cases h_; done) | (injection h_ with h_; subst h_; repeat' (first | simp | split | intro _); done) | replace h_ := State.checked_eff h_ | split at h_)

theorem execJalr_kept (c : CoreId) (w : FormI) (s : State) (t_ : State) (h_ : execJalr c w s = .next t_) : t_.kept = s.kept := by
  dsimp only [execJalr] at h_
  injection h_ with h_
  subst h_
  refine State.issue_kept ?_
  intro l_ cs_ t_ h_
  repeat' (first | (cases h_; done) | (injection h_ with h_; subst h_; repeat' (first | simp | split | intro _); done) | replace h_ := State.checked_eff h_ | split at h_)

theorem execSrd_kept (c : CoreId) (w : FormI) (s : State) (t_ : State) (h_ : execSrd c w s = .next t_) : t_.kept = s.kept := by
  dsimp only [execSrd] at h_
  injection h_ with h_
  subst h_
  refine State.issue_kept ?_
  intro l_ cs_ t_ h_
  repeat' (first | (cases h_; done) | (injection h_ with h_; subst h_; repeat' (first | simp | split | intro _); done) | replace h_ := State.checked_eff h_ | split at h_)

theorem execSwr_kept (c : CoreId) (w : FormI) (s : State) (t_ : State) (h_ : execSwr c w s = .next t_) : t_.kept = s.kept := by
  dsimp only [execSwr] at h_
  injection h_ with h_
  subst h_
  refine State.issue_kept ?_
  intro l_ cs_ t_ h_
  repeat' (first | (cases h_; done) | (injection h_ with h_; subst h_; repeat' (first | simp | split | intro _); done) | replace h_ := State.checked_eff h_ | split at h_)

theorem execEret_kept (c : CoreId) (w : FormR) (s : State) (t_ : State) (h_ : execEret c w s = .next t_) : t_.kept = s.kept := by
  dsimp only [execEret] at h_
  injection h_ with h_
  subst h_
  refine State.issue_kept ?_
  intro l_ cs_ t_ h_
  repeat' (first | (cases h_; done) | (injection h_ with h_; subst h_; repeat' (first | simp | split | intro _); done) | replace h_ := State.checked_eff h_ | split at h_)

theorem execBrk_kept (c : CoreId) (w : FormR) (s : State) (t_ : State) (h_ : execBrk c w s = .next t_) : t_.kept = s.kept := by
  dsimp only [execBrk] at h_
  injection h_ with h_
  subst h_
  refine State.issue_kept ?_
  intro l_ cs_ t_ h_
  repeat' (first | (cases h_; done) | (injection h_ with h_; subst h_; repeat' (first | simp | split | intro _); done) | replace h_ := State.checked_eff h_ | split at h_)

theorem execTrap_kept (c : CoreId) (w : FormI) (s : State) (t_ : State) (h_ : execTrap c w s = .next t_) : t_.kept = s.kept := by
  dsimp only [execTrap] at h_
  injection h_ with h_
  subst h_
  refine State.issue_kept ?_
  intro l_ cs_ t_ h_
  repeat' (first | (cases h_; done) | (injection h_ with h_; subst h_; repeat' (first | simp | split | intro _); done) | replace h_ := State.checked_eff h_ | split at h_)

theorem execIfence_kept (c : CoreId) (w : FormR) (s : State) (t_ : State) (h_ : execIfence c w s = .next t_) : t_.kept = s.kept := by
  dsimp only [execIfence] at h_
  injection h_ with h_
  subst h_
  refine State.issue_kept ?_
  intro l_ cs_ t_ h_
  repeat' (first | (cases h_; done) | (injection h_ with h_; subst h_; repeat' (first | simp | split | intro _); done) | replace h_ := State.checked_eff h_ | split at h_)

theorem execIllegalInstruction_kept (c : CoreId) (w0 _w1 : BitVec 64) (s : State) (t_ : State) (h_ : execIllegalInstruction c w0 _w1 s = .next t_) : t_.kept = s.kept := by
  dsimp only [execIllegalInstruction] at h_
  injection h_ with h_
  subst h_
  refine State.issue_kept ?_
  intro l_ cs_ t_ h_
  repeat' (first | (cases h_; done) | (injection h_ with h_; subst h_; repeat' (first | simp | split | intro _); done) | replace h_ := State.checked_eff h_ | split at h_)

theorem execCset_kept (c : CoreId) (w : FormI) (s : State) (t_ : State) (h_ : execCset c w s = .next t_) : t_.kept = s.kept := by
  dsimp only [execCset] at h_
  injection h_ with h_
  subst h_
  refine State.issue_kept ?_
  intro l_ cs_ t_ h_
  repeat' (first | (cases h_; done) | (injection h_ with h_; subst h_; repeat' (first | simp | split | intro _); done) | replace h_ := State.checked_eff h_ | split at h_)

theorem CoreSt.readsCnt_eff {c : CoreSt} {i : Nat} {act : Iss} {t : State} (h : c.readsCnt i act = .eff t) : act = .eff t := by
  unfold CoreSt.readsCnt at h
  split at h
  · cases h
  · exact h

theorem execCadd_kept (c : CoreId) (w : FormI) (s : State) (t_ : State) (h_ : execCadd c w s = .next t_) : t_.kept = s.kept := by
  dsimp only [execCadd] at h_
  injection h_ with h_
  subst h_
  refine State.issue_kept ?_
  intro l_ cs_ t_ h_
  repeat' (first | (cases h_; done) | (injection h_ with h_; subst h_; repeat' (first | simp | split | intro _); done) | replace h_ := State.checked_eff h_ | replace h_ := CoreSt.readsCnt_eff h_ | split at h_)

theorem execCrd_kept (c : CoreId) (w : FormI) (s : State) (t_ : State) (h_ : execCrd c w s = .next t_) : t_.kept = s.kept := by
  dsimp only [execCrd] at h_
  injection h_ with h_
  subst h_
  refine State.issue_kept ?_
  intro l_ cs_ t_ h_
  repeat' (first | (cases h_; done) | (injection h_ with h_; subst h_; repeat' (first | simp | split | intro _); done) | replace h_ := State.checked_eff h_ | replace h_ := CoreSt.readsCnt_eff h_ | split at h_)

theorem execCwait_kept (c : CoreId) (w : FormI) (s : State) (t_ : State) (h_ : execCwait c w s = .next t_) : t_.kept = s.kept := by
  dsimp only [execCwait] at h_
  injection h_ with h_
  subst h_
  refine State.issue_kept ?_
  intro l_ cs_ t_ h_
  repeat' (first | (cases h_; done) | (injection h_ with h_; subst h_; repeat' (first | simp | split | intro _); done) | replace h_ := State.checked_eff h_ | replace h_ := CoreSt.readsCnt_eff h_ | split at h_)

@[simp] theorem State.reach_kept (s : State) (t : Nat) : (State.reach s t).kept = s.kept := by
  unfold State.reach
  repeat' (first | simp | split | intro _)

theorem execCoreWaitTimeout_kept (c : CoreId) (s : State) (t_ : State) (h_ : execCoreWaitTimeout c s = .next t_) : t_.kept = s.kept := by
  dsimp only [execCoreWaitTimeout] at h_
  injection h_ with h_
  subst h_
  repeat' (first | simp | split | intro _)

theorem execRfence_kept (c : CoreId) (w : FormR) (s : State) (t_ : State) (h_ : execRfence c w s = .next t_) : t_.kept = s.kept := by
  dsimp only [execRfence] at h_
  injection h_ with h_
  subst h_
  refine State.issue_kept ?_
  intro l_ cs_ t_ h_
  repeat' (first | (cases h_; done) | (injection h_ with h_; subst h_; repeat' (first | simp | split | intro _); done) | replace h_ := State.checked_eff h_ | split at h_)

theorem execAsyncExceptionTake_kept (c : CoreId) (s : State) (t_ : State) (h_ : execAsyncExceptionTake c s = .next t_) : t_.kept = s.kept := by
  dsimp only [execAsyncExceptionTake] at h_
  injection h_ with h_
  subst h_
  repeat' (first | simp | split | intro _)

@[simp] theorem State.sendOn_kept (s : State) (p : Nat) (o : Owner) (d : Dest) (lnode : Nat) (r : RReq) : (State.sendOn s p o d lnode r).kept = s.kept := by
  unfold State.sendOn
  repeat' (first | simp | split | intro _ | refine State.onEngine_kept fun _ => ?_)

@[simp] theorem State.remote_kept (s : State) (c : CoreId) (op : Nat) (w : FormX) (rsv : Bool) (alignBad : Nat → Bool) (srcs : List Nat) (ranges : CoreSt → List (Nat × Nat)) (track : CoreSt → List Rng) (dst : Option Nat) (mk : Loc → CoreSt → Nat → RReq) (dest : Loc → CoreSt → Dest) : (State.remote s c op w rsv alignBad srcs ranges track dst mk dest).kept = s.kept := by
  unfold State.remote
  dsimp only
  repeat' (first | (refine State.issue_kept ?_; intro l_ cs_ t_ h_) | split)
  all_goals repeat' (first | (cases h_; done) | exact State.enqueue_kept h_ | (injection h_ with h_; subst h_; repeat' (first | simp | split | intro _ | refine State.onEngine_kept fun _ => ?_); done) | replace h_ := State.checked_eff h_ | (have h2_ := State.checkedDead_eff h_; clear h_; rcases h2_ with h_ | h_) | (simp at h_; done) | split at h_)

theorem execRld_kept (c : CoreId) (w : FormX) (s : State) (t_ : State) (h_ : execRld c w s = .next t_) : t_.kept = s.kept := by
  dsimp only [execRld] at h_
  injection h_ with h_
  subst h_
  repeat' (first | simp | split | intro _ | refine State.onEngine_kept fun _ => ?_)

theorem execRst_kept (c : CoreId) (w : FormX) (s : State) (t_ : State) (h_ : execRst c w s = .next t_) : t_.kept = s.kept := by
  dsimp only [execRst] at h_
  injection h_ with h_
  subst h_
  repeat' (first | simp | split | intro _ | refine State.onEngine_kept fun _ => ?_)

theorem execRatom_kept (c : CoreId) (w : FormX) (s : State) (t_ : State) (h_ : execRatom c w s = .next t_) : t_.kept = s.kept := by
  dsimp only [execRatom] at h_
  injection h_ with h_
  subst h_
  repeat' (first | simp | split | intro _ | refine State.onEngine_kept fun _ => ?_)

theorem execRatomF_kept (c : CoreId) (w : FormX) (s : State) (t_ : State) (h_ : execRatomF c w s = .next t_) : t_.kept = s.kept := by
  dsimp only [execRatomF] at h_
  injection h_ with h_
  subst h_
  repeat' (first | simp | split | intro _ | refine State.onEngine_kept fun _ => ?_)

theorem execRcas_kept (c : CoreId) (w : FormX) (s : State) (t_ : State) (h_ : execRcas c w s = .next t_) : t_.kept = s.kept := by
  dsimp only [execRcas] at h_
  injection h_ with h_
  subst h_
  repeat' (first | simp | split | intro _ | refine State.onEngine_kept fun _ => ?_)

theorem execRmcst_kept (c : CoreId) (w : FormX) (s : State) (t_ : State) (h_ : execRmcst c w s = .next t_) : t_.kept = s.kept := by
  dsimp only [execRmcst] at h_
  injection h_ with h_
  subst h_
  repeat' (first | simp | split | intro _ | refine State.onEngine_kept fun _ => ?_)

theorem execTdma_kept (c : CoreId) (w : FormX) (s : State) (t_ : State) (h_ : execTdma c w s = .next t_) : t_.kept = s.kept := by
  dsimp only [execTdma] at h_
  injection h_ with h_
  subst h_
  refine State.issue_kept ?_
  intro l_ cs_ t_ h_
  repeat' (first | (cases h_; done) | exact State.enqueue_kept h_ | (injection h_ with h_; subst h_; repeat' (first | simp | split | intro _ | refine State.onEngine_kept fun _ => ?_); done) | replace h_ := State.checked_eff h_ | (have h2_ := State.checkedDead_eff h_; clear h_; rcases h2_ with h_ | h_) | (simp at h_; done) | split at h_)

@[simp] theorem State.dmaDone_kept (s : State) (l : Loc) (x : Dma) : (State.dmaDone s l x).kept = s.kept := by
  unfold State.dmaDone
  repeat' (first | simp | split | intro _ | refine State.onEngine_kept fun _ => ?_)

@[simp] theorem State.dmaFail_kept (s : State) (l : Loc) (x : Dma) (code off : Nat) : (State.dmaFail s l x code off).kept = s.kept := by
  unfold State.dmaFail
  repeat' (first | simp | split | intro _ | refine State.onEngine_kept fun _ => ?_)

theorem execTdmaPieceIssue_kept (c : CoreId) (s : State) (t_ : State) (h_ : execTdmaPieceIssue c s = .next t_) : t_.kept = s.kept := by
  dsimp only [execTdmaPieceIssue] at h_
  injection h_ with h_
  subst h_
  repeat' (first | simp | split | intro _ | refine State.onEngine_kept fun _ => ?_)

theorem execBput_kept (c : CoreId) (w : FormX) (s : State) (t_ : State) (h_ : execBput c w s = .next t_) : t_.kept = s.kept := by
  dsimp only [execBput] at h_
  injection h_ with h_
  subst h_
  refine State.issue_kept ?_
  intro l_ cs_ t_ h_
  repeat' (first | (cases h_; done) | exact State.enqueue_kept h_ | (injection h_ with h_; subst h_; repeat' (first | simp | split | intro _ | refine State.onEngine_kept fun _ => ?_); done) | replace h_ := State.checked_eff h_ | (have h2_ := State.checkedDead_eff h_; clear h_; rcases h2_ with h_ | h_) | (simp at h_; done) | split at h_)

theorem execBflush_kept (c : CoreId) (w : FormR) (s : State) (t_ : State) (h_ : execBflush c w s = .next t_) : t_.kept = s.kept := by
  dsimp only [execBflush] at h_
  injection h_ with h_
  subst h_
  refine State.issue_kept ?_
  intro l_ cs_ t_ h_
  repeat' (first | (cases h_; done) | exact State.enqueue_kept h_ | (injection h_ with h_; subst h_; repeat' (first | simp | split | intro _ | refine State.onEngine_kept fun _ => ?_); done) | replace h_ := State.checked_eff h_ | (have h2_ := State.checkedDead_eff h_; clear h_; rcases h2_ with h_ | h_) | (simp at h_; done) | split at h_)

theorem execBatchWaitExpiry_kept (c : CoreId) (s : State) (t_ : State) (h_ : execBatchWaitExpiry c s = .next t_) : t_.kept = s.kept := by
  dsimp only [execBatchWaitExpiry] at h_
  injection h_ with h_
  subst h_
  repeat' (first | simp | split | intro _ | refine State.onEngine_kept fun _ => ?_)

theorem State.enqueue_kept {s : State} {l : Loc} {cs : CoreSt} {i : Nat} {o : MOp} {t : State} (h : s.enqueue l cs i o = .eff t) :
    t.kept = s.kept := by
  unfold State.enqueue at h
  split at h
  · injection h with h
    subst h
    simp
  · cases h

@[simp] theorem State.mma_kept (s : State) (c : CoreId) (op : Nat) (kind : MKind) (w : FormX) : (State.mma s c op kind w).kept = s.kept := by
  refine State.issue_kept ?_
  intro l cs t h
  exact State.enqueue_kept (State.checked_eff h)

theorem execMmaF_kept (c : CoreId) (w : FormX) (s : State) (t_ : State) (h_ : execMmaF c w s = .next t_) : t_.kept = s.kept := by
  dsimp only [execMmaF] at h_
  injection h_ with h_
  subst h_
  repeat' (first | simp | split | intro _ | refine State.onEngine_kept fun _ => ?_)

theorem execMmaS_kept (c : CoreId) (w : FormX) (s : State) (t_ : State) (h_ : execMmaS c w s = .next t_) : t_.kept = s.kept := by
  dsimp only [execMmaS] at h_
  injection h_ with h_
  subst h_
  repeat' (first | simp | split | intro _ | refine State.onEngine_kept fun _ => ?_)

@[simp] theorem State.sparsifyIssue_kept (s : State) (c : CoreId) (op : Nat) (kind : MKind) (w : FormX) : (State.sparsifyIssue s c op kind w).kept = s.kept := by
  unfold State.sparsifyIssue
  dsimp only
  repeat' (first | (refine State.issue_kept ?_; intro l_ cs_ t_ h_) | split)
  all_goals repeat' (first | (cases h_; done) | exact State.enqueue_kept h_ | (injection h_ with h_; subst h_; repeat' (first | simp | split | intro _ | refine State.onEngine_kept fun _ => ?_); done) | replace h_ := State.checked_eff h_ | (have h2_ := State.checkedDead_eff h_; clear h_; rcases h2_ with h_ | h_) | (simp at h_; done) | split at h_)

theorem execSparsify_kept (c : CoreId) (w : FormX) (s : State) (t_ : State) (h_ : execSparsify c w s = .next t_) : t_.kept = s.kept := by
  dsimp only [execSparsify] at h_
  injection h_ with h_
  subst h_
  repeat' (first | simp | split | intro _ | refine State.onEngine_kept fun _ => ?_)

theorem execSparsifyT_kept (c : CoreId) (w : FormX) (s : State) (t_ : State) (h_ : execSparsifyT c w s = .next t_) : t_.kept = s.kept := by
  dsimp only [execSparsifyT] at h_
  injection h_ with h_
  subst h_
  repeat' (first | simp | split | intro _ | refine State.onEngine_kept fun _ => ?_)

theorem State.onEngine_kept {s : State} {c : CoreId} {f : Loc → State} (h : ∀ l, (f l).kept = s.kept) :
    (State.onEngine s c f).kept = s.kept := by
  unfold State.onEngine
  repeat' (first | simp | split | intro _ | exact h _)

theorem execMatrixStreamStart_kept (c : CoreId) (arr : BitVec 2) (s : State) (t_ : State) (h_ : execMatrixStreamStart c arr s = .next t_) : t_.kept = s.kept := by
  dsimp only [execMatrixStreamStart] at h_
  injection h_ with h_
  subst h_
  repeat' (first | simp | split | intro _ | refine State.onEngine_kept fun _ => ?_)

@[simp] theorem State.wake_kept (s : State) (l : Loc) : (State.wake s l).kept = s.kept := by
  unfold State.wake
  repeat' (first | simp | split | intro _ | refine State.onEngine_kept fun _ => ?_)

theorem execMatrixComplete_kept (c : CoreId) (arr : BitVec 2) (s : State) (t_ : State) (h_ : execMatrixComplete c arr s = .next t_) : t_.kept = s.kept := by
  dsimp only [execMatrixComplete] at h_
  injection h_ with h_
  subst h_
  repeat' (first | simp | split | intro _ | refine State.onEngine_kept fun _ => ?_)

theorem execSparsifyComplete_kept (c : CoreId) (arr : BitVec 2) (s : State) (t_ : State) (h_ : execSparsifyComplete c arr s = .next t_) : t_.kept = s.kept := by
  dsimp only [execSparsifyComplete] at h_
  injection h_ with h_
  subst h_
  repeat' (first | simp | split | intro _ | refine State.onEngine_kept fun _ => ?_)

@[simp] theorem State.vissue_kept (s : State) (c : CoreId) (op : Nat) (w : FormV) : (State.vissue s c op w).kept = s.kept := by
  unfold State.vissue
  dsimp only
  repeat' (first | (refine State.issue_kept ?_; intro l_ cs_ t_ h_) | split)
  all_goals repeat' (first | (cases h_; done) | exact State.enqueue_kept h_ | (injection h_ with h_; subst h_; repeat' (first | simp | split | intro _ | refine State.onEngine_kept fun _ => ?_); done) | replace h_ := State.checked_eff h_ | (have h2_ := State.checkedDead_eff h_; clear h_; rcases h2_ with h_ | h_) | (simp at h_; done) | split at h_)

theorem execVld_kept (c : CoreId) (w : FormV) (s : State) (t_ : State) (h_ : execVld c w s = .next t_) : t_.kept = s.kept := by
  dsimp only [execVld] at h_
  injection h_ with h_
  subst h_
  repeat' (first | simp | split | intro _ | refine State.onEngine_kept fun _ => ?_)

theorem execVst_kept (c : CoreId) (w : FormV) (s : State) (t_ : State) (h_ : execVst c w s = .next t_) : t_.kept = s.kept := by
  dsimp only [execVst] at h_
  injection h_ with h_
  subst h_
  repeat' (first | simp | split | intro _ | refine State.onEngine_kept fun _ => ?_)

theorem execVldx_kept (c : CoreId) (w : FormV) (s : State) (t_ : State) (h_ : execVldx c w s = .next t_) : t_.kept = s.kept := by
  dsimp only [execVldx] at h_
  injection h_ with h_
  subst h_
  repeat' (first | simp | split | intro _ | refine State.onEngine_kept fun _ => ?_)

theorem execVstx_kept (c : CoreId) (w : FormV) (s : State) (t_ : State) (h_ : execVstx c w s = .next t_) : t_.kept = s.kept := by
  dsimp only [execVstx] at h_
  injection h_ with h_
  subst h_
  repeat' (first | simp | split | intro _ | refine State.onEngine_kept fun _ => ?_)

theorem execVmovx_kept (c : CoreId) (w : FormV) (s : State) (t_ : State) (h_ : execVmovx c w s = .next t_) : t_.kept = s.kept := by
  dsimp only [execVmovx] at h_
  injection h_ with h_
  subst h_
  repeat' (first | simp | split | intro _ | refine State.onEngine_kept fun _ => ?_)

theorem execViota_kept (c : CoreId) (w : FormV) (s : State) (t_ : State) (h_ : execViota c w s = .next t_) : t_.kept = s.kept := by
  dsimp only [execViota] at h_
  injection h_ with h_
  subst h_
  repeat' (first | simp | split | intro _ | refine State.onEngine_kept fun _ => ?_)

theorem execVfp_kept (c : CoreId) (w : FormV) (s : State) (t_ : State) (h_ : execVfp c w s = .next t_) : t_.kept = s.kept := by
  dsimp only [execVfp] at h_
  injection h_ with h_
  subst h_
  repeat' (first | simp | split | intro _ | refine State.onEngine_kept fun _ => ?_)

theorem execVfma_kept (c : CoreId) (w : FormV) (s : State) (t_ : State) (h_ : execVfma c w s = .next t_) : t_.kept = s.kept := by
  dsimp only [execVfma] at h_
  injection h_ with h_
  subst h_
  repeat' (first | simp | split | intro _ | refine State.onEngine_kept fun _ => ?_)

theorem execVun_kept (c : CoreId) (w : FormV) (s : State) (t_ : State) (h_ : execVun c w s = .next t_) : t_.kept = s.kept := by
  dsimp only [execVun] at h_
  injection h_ with h_
  subst h_
  repeat' (first | simp | split | intro _ | refine State.onEngine_kept fun _ => ?_)

theorem execVint_kept (c : CoreId) (w : FormV) (s : State) (t_ : State) (h_ : execVint c w s = .next t_) : t_.kept = s.kept := by
  dsimp only [execVint] at h_
  injection h_ with h_
  subst h_
  repeat' (first | simp | split | intro _ | refine State.onEngine_kept fun _ => ?_)

theorem execVcmp_kept (c : CoreId) (w : FormV) (s : State) (t_ : State) (h_ : execVcmp c w s = .next t_) : t_.kept = s.kept := by
  dsimp only [execVcmp] at h_
  injection h_ with h_
  subst h_
  repeat' (first | simp | split | intro _ | refine State.onEngine_kept fun _ => ?_)

theorem execVsel_kept (c : CoreId) (w : FormV) (s : State) (t_ : State) (h_ : execVsel c w s = .next t_) : t_.kept = s.kept := by
  dsimp only [execVsel] at h_
  injection h_ with h_
  subst h_
  repeat' (first | simp | split | intro _ | refine State.onEngine_kept fun _ => ?_)

theorem execVcvt_kept (c : CoreId) (w : FormV) (s : State) (t_ : State) (h_ : execVcvt c w s = .next t_) : t_.kept = s.kept := by
  dsimp only [execVcvt] at h_
  injection h_ with h_
  subst h_
  repeat' (first | simp | split | intro _ | refine State.onEngine_kept fun _ => ?_)

theorem execVcvtm_kept (c : CoreId) (w : FormV) (s : State) (t_ : State) (h_ : execVcvtm c w s = .next t_) : t_.kept = s.kept := by
  dsimp only [execVcvtm] at h_
  injection h_ with h_
  subst h_
  repeat' (first | simp | split | intro _ | refine State.onEngine_kept fun _ => ?_)

theorem execVred_kept (c : CoreId) (w : FormV) (s : State) (t_ : State) (h_ : execVred c w s = .next t_) : t_.kept = s.kept := by
  dsimp only [execVred] at h_
  injection h_ with h_
  subst h_
  repeat' (first | simp | split | intro _ | refine State.onEngine_kept fun _ => ?_)

theorem execScan_kept (c : CoreId) (w : FormV) (s : State) (t_ : State) (h_ : execScan c w s = .next t_) : t_.kept = s.kept := by
  dsimp only [execScan] at h_
  injection h_ with h_
  subst h_
  repeat' (first | simp | split | intro _ | refine State.onEngine_kept fun _ => ?_)

theorem execSmax_kept (c : CoreId) (w : FormV) (s : State) (t_ : State) (h_ : execSmax c w s = .next t_) : t_.kept = s.kept := by
  dsimp only [execSmax] at h_
  injection h_ with h_
  subst h_
  repeat' (first | simp | split | intro _ | refine State.onEngine_kept fun _ => ?_)

theorem execTopk_kept (c : CoreId) (w : FormV) (s : State) (t_ : State) (h_ : execTopk c w s = .next t_) : t_.kept = s.kept := by
  dsimp only [execTopk] at h_
  injection h_ with h_
  subst h_
  repeat' (first | simp | split | intro _ | refine State.onEngine_kept fun _ => ?_)

theorem execSortk_kept (c : CoreId) (w : FormV) (s : State) (t_ : State) (h_ : execSortk c w s = .next t_) : t_.kept = s.kept := by
  dsimp only [execSortk] at h_
  injection h_ with h_
  subst h_
  repeat' (first | simp | split | intro _ | refine State.onEngine_kept fun _ => ?_)

theorem execHist_kept (c : CoreId) (w : FormV) (s : State) (t_ : State) (h_ : execHist c w s = .next t_) : t_.kept = s.kept := by
  dsimp only [execHist] at h_
  injection h_ with h_
  subst h_
  repeat' (first | simp | split | intro _ | refine State.onEngine_kept fun _ => ?_)

theorem execVrand_kept (c : CoreId) (w : FormV) (s : State) (t_ : State) (h_ : execVrand c w s = .next t_) : t_.kept = s.kept := by
  dsimp only [execVrand] at h_
  injection h_ with h_
  subst h_
  repeat' (first | simp | split | intro _ | refine State.onEngine_kept fun _ => ?_)

theorem execVectorQueueStart_kept (c : CoreId) (s : State) (t_ : State) (h_ : execVectorQueueStart c s = .next t_) : t_.kept = s.kept := by
  dsimp only [execVectorQueueStart] at h_
  injection h_ with h_
  subst h_
  repeat' (first | simp | split | intro _ | refine State.onEngine_kept fun _ => ?_)

theorem execGload_kept (c : CoreId) (w : FormX) (s : State) (t_ : State) (h_ : execGload c w s = .next t_) : t_.kept = s.kept := by
  dsimp only [execGload] at h_
  injection h_ with h_
  subst h_
  refine State.issue_kept ?_
  intro l_ cs_ t_ h_
  repeat' (first | (cases h_; done) | exact State.enqueue_kept h_ | (injection h_ with h_; subst h_; repeat' (first | simp | split | intro _ | refine State.onEngine_kept fun _ => ?_); done) | replace h_ := State.checked_eff h_ | (have h2_ := State.checkedDead_eff h_; clear h_; rcases h2_ with h_ | h_) | (simp at h_; done) | split at h_)

theorem execGatingGlyphLoad_kept (clu : BitVec 6) (s : State) (t_ : State) (h_ : execGatingGlyphLoad clu s = .next t_) : t_.kept = s.kept := by
  dsimp only [execGatingGlyphLoad] at h_
  injection h_ with h_
  subst h_
  repeat' (first | simp | split | intro _ | refine State.onEngine_kept fun _ => ?_)

theorem execGatt_kept (c : CoreId) (w : FormX) (s : State) (t_ : State) (h_ : execGatt c w s = .next t_) : t_.kept = s.kept := by
  dsimp only [execGatt] at h_
  injection h_ with h_
  subst h_
  refine State.issue_kept ?_
  intro l_ cs_ t_ h_
  repeat' (first | (cases h_; done) | exact State.enqueue_kept h_ | (injection h_ with h_; subst h_; repeat' (first | simp | split | intro _ | refine State.onEngine_kept fun _ => ?_); done) | replace h_ := State.checked_eff h_ | (have h2_ := State.checkedDead_eff h_; clear h_; rcases h2_ with h_ | h_) | (simp at h_; done) | split at h_)

theorem execGdrain_kept (c : CoreId) (w : FormX) (s : State) (t_ : State) (h_ : execGdrain c w s = .next t_) : t_.kept = s.kept := by
  dsimp only [execGdrain] at h_
  injection h_ with h_
  subst h_
  refine State.issue_kept ?_
  intro l_ cs_ t_ h_
  repeat' (first | (cases h_; done) | exact State.enqueue_kept h_ | (injection h_ with h_; subst h_; repeat' (first | simp | split | intro _ | refine State.onEngine_kept fun _ => ?_); done) | replace h_ := State.checked_eff h_ | (have h2_ := State.checkedDead_eff h_; clear h_; rcases h2_ with h_ | h_) | (simp at h_; done) | split at h_)

theorem execDrainGlyphTile_kept (c : CoreId) (arr : BitVec 2) (s : State) (t_ : State) (h_ : execDrainGlyphTile c arr s = .next t_) : t_.kept = s.kept := by
  dsimp only [execDrainGlyphTile] at h_
  injection h_ with h_
  subst h_
  repeat' (first | simp | split | intro _ | refine State.onEngine_kept fun _ => ?_)

@[simp] theorem State.hwrite_kept (s : State) (h : Home) (n v : Nat) : (State.hwrite s h n v).kept = s.kept := by
  unfold State.hwrite
  repeat' (first | simp | split | intro _ | refine State.onEngine_kept fun _ => ?_)

@[simp] theorem State.hmark_kept (s : State) (h : Home) (n : Nat) : (State.hmark s h n).kept = s.kept := by
  unfold State.hmark
  repeat' (first | simp | split | intro _ | refine State.onEngine_kept fun _ => ?_)

@[simp] theorem State.noteWrite_kept (s : State) (p off : Nat) : (State.noteWrite s p off).kept = s.kept := by
  unfold State.noteWrite
  repeat' (first | simp | split | intro _ | refine State.onEngine_kept fun _ => ?_)

@[simp] theorem State.spadWrite_kept (s : State) (l : Loc) (a n v : Nat) : (State.spadWrite s l a n v).kept = s.kept := by
  unfold State.spadWrite
  repeat' (first | simp | split | intro _ | refine State.onEngine_kept fun _ => ?_)

@[simp] theorem State.spadMark_kept (s : State) (l : Loc) (a n : Nat) : (State.spadMark s l a n).kept = s.kept := by
  unfold State.spadMark
  repeat' (first | simp | split | intro _ | refine State.onEngine_kept fun _ => ?_)

@[simp] theorem State.sendRecall_kept (s : State) (f line : Nat) : (State.sendRecall s f line).kept = s.kept := by
  unfold State.sendRecall
  repeat' (first | simp | split | intro _ | refine State.onEngine_kept fun _ => ?_)

@[simp] theorem State.recallAll_kept (s : State) (p : Nat) (ls : List Nat) : (State.recallAll s p ls).kept = s.kept := by
  unfold State.recallAll
  repeat' (first | simp | split | intro _ | refine State.onEngine_kept fun _ => ?_)

@[simp] theorem State.hostSend_kept (s : State) (r : HostReq) : (State.hostSend s r).kept = s.kept := by
  unfold State.hostSend
  repeat' (first | simp | split | intro _)

@[simp] theorem State.hostAsk_kept (s : State) (kind addr size data : Nat) (w : HostWait) : (State.hostAsk s kind addr size data w).kept = s.kept := by
  unfold State.hostAsk
  repeat' (first | simp | split | intro _ | refine State.onEngine_kept fun _ => ?_)

@[simp] theorem State.farAsk_kept (s : State) (w : Who) (p off n : Nat) : (State.farAsk s w p off n).kept = s.kept := by
  unfold State.farAsk
  repeat' (first | simp | split | intro _ | refine State.onEngine_kept fun _ => ?_)

@[simp] theorem State.ask_kept (s : State) (w : Who) (p : Nat) (x : Need) : (State.ask s w p x).kept = s.kept := by
  unfold State.ask
  repeat' (first | simp | split | intro _ | refine State.onEngine_kept fun _ => ?_)

@[simp] theorem State.gather_kept (s : State) (w : Who) (p : Nat) (xs : List Need) : (State.gather s w p xs).kept = s.kept := by
  unfold State.gather
  repeat' (first | simp | split | intro _ | refine State.onEngine_kept fun _ => ?_)

@[simp] theorem State.tblEnd_kept (s : State) (w : Who) : (State.tblEnd s w).kept = s.kept := by
  unfold State.tblEnd
  repeat' (first | simp | split | intro _ | refine State.onEngine_kept fun _ => ?_)

@[simp] theorem State.farQueue_kept (s : State) (w : Who) (p off n v : Nat) : (State.farQueue s w p off n v).kept = s.kept := by
  unfold State.farQueue
  repeat' (first | simp | split | intro _)

@[simp] theorem State.tblPut_kept (s : State) (w : Option Who) (p c a off n v : Nat) (pz : Bool) :
    (State.tblPut s w p c a off n v pz).kept = s.kept := by
  unfold State.tblPut
  repeat' (first | simp | split | intro _ | refine State.onEngine_kept fun _ => ?_)

@[simp] theorem State.farSend_kept (s : State) (e : FarBlk) : (State.farSend s e).kept = s.kept := by
  unfold State.farSend
  repeat' (first | simp | split | intro _)

@[simp] theorem State.farPump_kept (s : State) : (State.farPump s).kept = s.kept := by
  unfold State.farPump
  repeat' (first | simp | split | intro _)

@[simp] theorem State.tblWrite_kept (s : State) (w : Option Who) (p c a i n v : Nat) (pz : Bool) :
    (State.tblWrite s w p c a i n v pz).kept = s.kept := by
  unfold State.tblWrite
  repeat' (first | simp | split | intro _ | refine State.onEngine_kept fun _ => ?_)

end Sys2Proof.Machine
end

