-- ==== Sys2Proof/Laws/Words.lean ====
section
/-! SUPPORT. The fields of an instruction's first word, read back from the word its operands spell (03 R70, R71). -/

namespace Sys2Proof.Machine

theorem FormR.op_w0 {op : Nat} (h : op < 256) (w : FormR) : bits (w.w0 op) 0 8 = op := by
  have := w.a.isLt; have := w.b.isLt; have := w.c.isLt; have := w.d.isLt; have := w.fn8.isLt; have := w.fmt.isLt
  have := w.rsv.isLt
  simp only [bits, FormR.w0, Nat.shiftRight_eq_div_pow]; omega

theorem FormR.fn8_w0 {op : Nat} (h : op < 256) (w : FormR) : bits (w.w0 op) 32 8 = w.fn8.toNat := by
  have := w.a.isLt; have := w.b.isLt; have := w.c.isLt; have := w.d.isLt; have := w.fn8.isLt; have := w.fmt.isLt
  have := w.rsv.isLt
  simp only [bits, FormR.w0, Nat.shiftRight_eq_div_pow]; omega

theorem FormI.op_w0 {op : Nat} (h : op < 256) (w : FormI) : bits (w.w0 op) 0 8 = op := by
  have := w.a.isLt; have := w.b.isLt; have := w.fn12.isLt; have := w.imm.isLt
  simp only [bits, FormI.w0, Nat.shiftRight_eq_div_pow]; omega

theorem FormI.fn12_w0 {op : Nat} (h : op < 256) (w : FormI) : bits (w.w0 op) 20 12 = w.fn12.toNat := by
  have := w.a.isLt; have := w.b.isLt; have := w.fn12.isLt; have := w.imm.isLt
  simp only [bits, FormI.w0, Nat.shiftRight_eq_div_pow]; omega

theorem FormV.op_w0 {op : Nat} (h : op < 256) (w : FormV) : bits (w.w0 op) 0 8 = op := by
  have := w.a.isLt; have := w.b.isLt; have := w.c.isLt; have := w.d.isLt; have := w.fn8.isLt; have := w.fmt.isLt
  simp only [bits, FormV.w0, Nat.shiftRight_eq_div_pow]; omega

theorem FormV.fn8_w0 {op : Nat} (h : op < 256) (w : FormV) : bits (w.w0 op) 32 8 = w.fn8.toNat := by
  have := w.a.isLt; have := w.b.isLt; have := w.c.isLt; have := w.d.isLt; have := w.fn8.isLt; have := w.fmt.isLt
  simp only [bits, FormV.w0, Nat.shiftRight_eq_div_pow]; omega

end Sys2Proof.Machine
end

