-- ==== Sys2Proof/Tests/Slice0.lean ====
section
/-! SUPPORT. The model's own tests: the bounds of well-formedness, the spec's worked examples, and for every statement with hypotheses
concrete states and operands that meet them, clause by clause. -/

open Sys2Proof Sys2Proof.Machine

namespace Sys2Proof.Tests

def wPlat : Plat := { power := .running, pwrGood := true, tb := 1000, tbRun := true, tbStarted := true, lock := true, stage := 6
                      ready5 := true, ready6 := true }

def wCtx : Ctx := { st := .running, prio := 3, lnode := 1, firstStart := false, started := List.range 128 }

/-- Partition 15: clusters 63 and 62, context 7 on them, logical nodes 1 (its own) and 65535 (another device's). -/
def wPart : Part := { st := .active, clus := [63, 62], quads := [11], resident := some 7, ctxs := [(7, wCtx)]
                      lnt := [(1, 0x17F0009), (65535, 0x100000A)] }

def wOn : State := { State.reset with plat := wPlat, link := .up, reg := [(0x00D00000, 0x10009)] }

def c0 : CoreId := ⟨63, 63⟩
def l0 : Loc := ⟨15, 7, 0, 63⟩

/-- Core 63 of cluster 63 with this state. -/
def wRun (c : CoreSt) : State := State.setCore { wOn with parts := [(15, wPart)] } l0 c

def k0 : CoreSt := { x := [(1, 5), (2, 0xFFFFFFFFFFFFFFFF), (63, 0x8000000000000000)], pc := 0x3FFF0, run := .running, evec := 0x3FFF8 }

def z0 : State := wRun k0

def kSpad (c : CoreSt) : CoreSt := { c with spad := swrite c.spad 0x3FFF8 8 0x8877665544332211 }
/-- A core in its handler. -/
def k1 : CoreSt := { k0 with inh := true, epc := 0x3FFF8, evec := 0 }

/-- A form X instruction. -/
def rW (a b c d : BitVec 6) (fn : BitVec 8) (w1 : W64) : FormX := ⟨⟨a, b, c, d, fn, 0, 0⟩, w1⟩
/-- A form V instruction of count cnt + 1. -/
def vW (a b c d : BitVec 6) (fn : BitVec 8) (fmt : BitVec 4) (cnt : BitVec 12) : FormV := ⟨a, b, c, d, fn, fmt, 0, cnt, 0, 0⟩

/-- Granule 0 in DRAM, which writer group 0 owns. -/
def wObj : Obj := ⟨2 ^ 64, [(0, .t2 0)], 1, [], [], []⟩
def wPartM : Part := { wPart with objs := [wObj], perm := [(0, 2)] }
def wRunM (c : CoreSt) (m : Mem) : State := State.setCore { wOn with parts := [(15, wPartM)], dram := m } l0 c

/-- Two tokens, two experts, one each; tables at 0x1000 to 0xD000; batch 3, generation 0; rows of 128 FP32, answers of 16 B. -/
def wLayer : Nat := 0x1000 + 0x2000 * 2 ^ 64 + 0x3000 * 2 ^ 128 + 0x4000 * 2 ^ 192 + 0x5000 * 2 ^ 256 + 0x6000 * 2 ^ 320 + 0x8000 * 2 ^ 384
  + 0xA000 * 2 ^ 448 + 0xC000 * 2 ^ 512 + 1 * 2 ^ 576 + 1 * 2 ^ 640 + 128 * 2 ^ 672 + 16 * 2 ^ 704 + 3 * 2 ^ 752 + 0xD000 * 2 ^ 784

/-- A request of node 10 to context 7 of partition 15 of node 9, of n 8 B units. -/
def wReq (ptype space off n data : Nat) (atype aop : Nat := 0) : Packet :=
  ({ ptype, cls := 2, size := n - 1, off, space, atype, aop, data, words := if ptype = 1 then 0 else n } : RReq).packet 0 10 9 15 7 0 5 1 0 0

/-- An answer of node 10 to the operation in slot 5 of use 1. -/
def wAns (ptype status data : Nat) : Packet :=
  { w0 := w64 (ptype + 2 * 2 ^ 4 + 9 * 2 ^ 16 + 10 * 2 ^ 32), w1 := w64 (5 + 2 ^ 22 + status * 2 ^ 32), w2 := 0, w3 := 0, x0 := 0, x1 := 0, data }

/-- An outstanding operation in slot 5. -/
def wOp (o : Owner) (d : Dest := .none) : Op := ⟨1, o, d, 15, 65535, 0, 0x1000, 10, 0, 100, none, none, false⟩
def wSent (s : State) (o : Owner) (d : Dest := .none) : State := { s with ops := [(5, wOp o d)] }

namespace Wa

/-! Witnesses: scalar instructions. -/

def zS := wRun (kSpad k0)
def s1 : State := wRun k1
def s2 : State := wRun { k0 with cntPoison := [63] }
def kC : CoreSt := { k0 with cnt := [(63, 4)] }
def kW : CoreSt := { kC with stall := some ⟨63, 5, 900, 50, 0x23⟩ }
def s3 : State := wRun { kC with x := [(1, 5)] }
def s4 : State := wRun { kC with x := [(1, 4)] }
def s5 : State := wRun kW
def f0 : Fail := ⟨0x0403, 1, 2, 3, false⟩
def s6 : State := wRun { k0 with pend := [f0, f0], stall := some ⟨63, 5, 900, 50, 0x23⟩ }
def f1 : Fail := ⟨0x0402, 1, 2, 3, true⟩
def s7 : State := wRun { k0 with pend := [f0, f1, f0], inh := true }

theorem witness_ScalarArithmetic :
  (Issues z0 c0 l0 8 ∧ aluCode 20 = true ∧ Readable (z0.core l0) [63, 2] ∧ Writable (z0.core l0) 63) ∧
  (Issues z0 c0 l0 8 ∧ aluCode 17 = true ∧ Readable (z0.core l0) [63] ∧ Writable (z0.core l0) 0) ∧
  (Issues z0 c0 l0 8 ∧ aluCode 19 = false ∧ (z0.core l0).pendingAny [63, 2] = false ∧ Writable (z0.core l0) 63) ∧
  (Issues z0 c0 l0 8 ∧ aluCode 4095 = false ∧ (z0.core l0).pendingAny [63] = false ∧ Writable (z0.core l0) 63) ∧
  (Issues z0 c0 l0 8 ∧ Readable (z0.core l0) [63]) ∧
  (Issues z0 c0 l0 8) := by (repeat' apply And.intro) <;> decide +kernel

theorem witness_LoadsAndStores :
  (Issues zS c0 l0 8 ∧ 3 < 4 ∧ (7 = 3 ∨ 7 = 3 + 4) ∧ Writable (zS.core l0) 63 ∧
    (Readable (zS.core l0) [0]
      [(BitVec.toNat ((zS.core l0).getX 0 + BitVec.signExtend 64 4294967295#32) % 2 ^ 18 / 2 ^ 3 * 2 ^ 3, 2 ^ 3)]) ∧
    (zS.hazard l0
        [Rng.now (BitVec.toNat ((zS.core l0).getX 0 + BitVec.signExtend 64 4294967295#32) % 2 ^ 18 / 2 ^ 3 * 2 ^ 3) (2 ^ 3)
            false] =
      false)) ∧
  (Issues zS c0 l0 8 ∧ 2 < 4 ∧ (2 = 2 ∨ 2 = 2 + 4) ∧ Writable (zS.core l0) 63 ∧
    (Readable (zS.core l0) [0]
      [(BitVec.toNat ((zS.core l0).getX 0 + BitVec.signExtend 64 4294967295#32) % 2 ^ 18 / 2 ^ 2 * 2 ^ 2, 2 ^ 2)]) ∧
    (zS.hazard l0
        [Rng.now (BitVec.toNat ((zS.core l0).getX 0 + BitVec.signExtend 64 4294967295#32) % 2 ^ 18 / 2 ^ 2 * 2 ^ 2) (2 ^ 2)
            false] =
      false)) := by (repeat' apply And.intro) <;> decide +kernel

theorem witness_BranchesAndJumps :
  (Issues z0 c0 l0 8 ∧ 5 ≤ 5 ∧ Readable (z0.core l0) [1, 2] ∧ (¬brTable 5 ((z0.core l0).getX 1) ((z0.core l0).getX 2))) ∧
  (Issues z0 c0 l0 8 ∧ 5 ≤ 5 ∧ Readable (z0.core l0) [2, 1] ∧ brTable 5 ((z0.core l0).getX 2) ((z0.core l0).getX 1)) ∧
  (Issues z0 c0 l0 8 ∧ 2 ≤ 5 ∧ Readable (z0.core l0) [2, 1] ∧ brTable 2 ((z0.core l0).getX 2) ((z0.core l0).getX 1)) ∧
  (Issues z0 c0 l0 8 ∧ 3 ≤ 5 ∧ Readable (z0.core l0) [63, 1] ∧ (¬brTable 3 ((z0.core l0).getX 63) ((z0.core l0).getX 1))) ∧
  (Issues z0 c0 l0 8 ∧ Writable (z0.core l0) 63) ∧
  (Issues z0 c0 l0 8 ∧ Writable (z0.core l0) 1 ∧ Readable (z0.core l0) [1] ∧
    BitVec.toNat ((z0.core l0).getX 1 + BitVec.signExtend 64 3#32) % 2 ^ 18 % 8 = 0) ∧
  (Issues z0 c0 l0 8 ∧ Writable (z0.core l0) 1 ∧ (z0.core l0).pendingAny [1] = false ∧
    BitVec.toNat ((z0.core l0).getX 1 + BitVec.signExtend 64 0#32) % 2 ^ 18 % 8 ≠ 0) := by (repeat' apply And.intro) <;> decide +kernel

theorem witness_ExceptionsAndReturn :
  (Issues z0 c0 l0 8 ∧ 5 < 63 ∧ (z0.core l0).pendingAny [1, 1] = false) ∧
  ((drainLocal (z0.env l0) (z0.core l0)).ue = none ∧ ((z0.engOut l0 (drainLocal (z0.env l0) (z0.core l0))).core l0).inh = false ∧
    ((z0.engOut l0 (drainLocal (z0.env l0) (z0.core l0))).core l0).evec ≠ 0 ∧ Issues z0 c0 l0 8) ∧
  ((drainLocal (z0.env l0) (z0.core l0)).ue = none ∧ ((z0.engOut l0 (drainLocal (z0.env l0) (z0.core l0))).core l0).inh = false ∧
    ((z0.engOut l0 (drainLocal (z0.env l0) (z0.core l0))).core l0).evec ≠ 0 ∧ Issues z0 c0 l0 8 ∧ 65535 < 2 ^ 16) ∧
  ((drainLocal (z0.env l0) (z0.core l0)).ue = none ∧ ((z0.engOut l0 (drainLocal (z0.env l0) (z0.core l0))).core l0).inh = false ∧
    ((z0.engOut l0 (drainLocal (z0.env l0) (z0.core l0))).core l0).evec ≠ 0 ∧
    Issues z0 c0 l0 (if BitVec.getLsbD 255#8 7 = true then 16 else 8) ∧ illegalWord 255 = true) ∧
  (Issues s1 c0 l0 8 ∧ (s1.core l0).inh = true) ∧
  (Issues s1 c0 l0 8 ∧ (drainLocal (s1.env l0) (s1.core l0)).ue = none) ∧
  (On s6 ∧ s6.locate c0 = some l0 ∧ (s6.core l0).run = Run.running ∧ (s6.core l0).pend = [f0, f0] ∧ (s6.core l0).inh = false ∧
    (s6.core l0).evec ≠ 0 ∧ (∀ g ∈ [f0, f0], g.code ∉ [268, 1025, 1026, 1282, 2053])) ∧
  (On s7 ∧ s7.locate c0 = some l0 ∧ (s7.core l0).run = Run.running ∧ (s7.core l0).pend = [f0] ++ [f1, f0] ∧
    (∀ g ∈ [f0], g.code ∉ [268, 1025, 1026, 1282, 2053]) ∧ f1.code ∈ [268, 1025, 1026, 1282, 2053]) := by (repeat' apply And.intro) <;> decide +kernel

theorem witness_StateWordAccess :
  (Issues z0 c0 l0 8 ∧ Writable (z0.core l0) 63) ∧
  (Issues z0 c0 l0 8 ∧ Readable (z0.core l0) [2]) ∧
  (Issues z0 c0 l0 8 ∧ Writable (z0.core l0) 2 ∧ 24 ∉ [0, 1, 2, 3, 4, 5, 6, 16, 17, 18, 19, 20, 21, 22, 23, 32]) ∧
  (Issues z0 c0 l0 8 ∧ Readable (z0.core l0) [2] ∧ 22 ∉ [16, 17, 23, 32]) := by (repeat' apply And.intro) <;> decide +kernel

theorem witness_CounterInstructions :
  (Issues z0 c0 l0 8 ∧ Readable (z0.core l0) [2]) ∧
  (Issues z0 c0 l0 8 ∧ Readable (z0.core l0) [2] ∧ 63 ∉ (z0.core l0).cntPoison) ∧
  (Issues s2 c0 l0 8 ∧ Readable (s2.core l0) [2] ∧ 63 ∈ (s2.core l0).cntPoison) ∧
  (Issues s2 c0 l0 8 ∧ Writable (s2.core l0) 2 ∧ 63 ∈ (s2.core l0).cntPoison) ∧
  (Issues z0 c0 l0 8 ∧ Writable (z0.core l0) 2 ∧ 63 ∉ (z0.core l0).cntPoison) ∧
  (Issues z0 c0 l0 8) ∧
  (Issues s3 c0 l0 8 ∧ Readable (s3.core l0) [1] ∧ 63 ∉ (s3.core l0).cntPoison ∧
    2 ^ 31 ≤ BitVec.toNat (tgetD (s3.core l0).cnt 63 0 - BitVec.ofNat 32 (BitVec.toNat ((s3.core l0).getX 1)))) ∧
  (Issues s4 c0 l0 8 ∧ Readable (s4.core l0) [1] ∧ 63 ∉ (s4.core l0).cntPoison ∧
    BitVec.toNat (tgetD (s4.core l0).cnt 63 0 - BitVec.ofNat 32 (BitVec.toNat ((s4.core l0).getX 1))) < 2 ^ 31) ∧
  (On s5 ∧ s5.locate c0 = some l0 ∧ (s5.core l0).run = Run.running ∧ (s5.core l0).mustTake = false ∧
    (s5.core l0).stall = some { cnt := 63, v := 5, start := 900, tmo := 50, w0 := 35 } ∧ 50 ≠ 0) ∧
  ((s5.core l0).stall = some { cnt := 63, v := 5, start := 900, tmo := 50, w0 := 35 } ∧
    BitVec.toNat (tgetD (tput (s5.core l0).cnt 63 (tgetD (s5.core l0).cnt 63 0 + 1)) 63 0 - 5) < 2 ^ 31) ∧
  ((s5.core l0).stall = some { cnt := 63, v := 5, start := 900, tmo := 50, w0 := 35 } ∧
    (2 ^ 31 ≤ BitVec.toNat (tgetD (tput (s5.core l0).cnt 63 (tgetD (s5.core l0).cnt 63 0 + 2147483649)) 63 0 - 5) ∨
      (s5.core l0).mustTake = true)) := by (repeat' apply And.intro) <;> decide +kernel

end Wa

namespace Wb

/-! Witnesses: messages, matrix and vector engines. -/

/-- node 1 in x1, a scratchpad offset of cluster 1 in x2, addresses in x3 and x4 -/
def kR : CoreSt := { k0 with x := [(1, 1), (2, 0x10FFFF8), (3, 0x3FFF8), (4, 0x3FF00), (5, 7), (6, 65535), (63, 3)] }
def zR := wRun kR
def wS : W64 := 0x20  -- SPD, scratchpad form, 8 B
def wSr : W64 := 0xA0  -- SPD, register form
/-- Two rows of 264 bytes from offset 0xF8. -/
def wDesc : Nat := 0xF8 + 2^48 + 1 * 2^64 + 1 * 2^80 + 264 * 2^96 + 0x3FF00 * 2^128 + 8 * 2^160 + 512 * 2^192
def kD : CoreSt := { kR with spad := swrite [] 0x3FFE0 32 wDesc, x := [(1, 0x3FFE0)] }
def s1 : State := wRun kD
def dma0 : Dma := ⟨wDesc, false, 0, 63, 0, 0, 8, 0, false, 3⟩
def kDp : CoreSt := { kR with dmas := [dma0] }
def s2 : State := wRun kDp
def wT : Nat := 0x90 + 1 * 2 ^ 20 + 8 * 2 ^ 28 + 3 * 2 ^ 40
def bg (n : Nat) : BGroup := ⟨0x3FFE0, w64 (bits wT 0 64), w64 (bits wT 64 64), 0x100, 0, List.replicate n ⟨16, 32, 1⟩, 900⟩
def kB (n : Nat) : CoreSt := { k0 with x := [(1, 0x40), (2, 0x80), (3, 0x3FFE0)], batch := [bg n], batwait := 52500 }
def s3 : State := wRun (kB 6)
def s4 : State := wRun (kB 7)
/-- A template at 0x3FFE0: weights of format 3 at x1, rows of format 3. -/
def kT : CoreSt := { k0 with x := [(1, 0x2000), (2, 0x80), (3, 0x3FFE0), (4, 0x3000)], batwait := 52500, spad := mwrite [(0x2000, 3)] 0x3FFE0 32 wT }
def s5 : State := wRun kT
def s6 : State := wRun k0
def mopF : MOp := ⟨.mmaF, 0x3F00, 0x1000, 0x2000, none, 8, 3, 0, 0, 0, false, 0, none, 0, 3, 0x90⟩
def bgF : BGroup := { bg 5 with t0 := w64 (bits wT 0 64 + 2 ^ 32), tmpl := 0x3FFC0 }
def kF : CoreSt := { kB 6 with batch := [bgF, bg 6], a1 := { q := List.replicate 4 mopF } }
def s7 : State := wRun kF
/-- out x1, row x2, weights x3 (header FP8 format 3), accumulator or rows x4 -/
def kM : CoreSt := { k0 with x := [(1, 0x3F00), (2, 0x1000), (3, 0x2000), (4, 8), (5, 0x3000)], spad := [(0x2000, 3)] }
def zM := wRun kM
def mop0 : MOp := ⟨.mmaF, 0x3F00, 0x1000, 0x2000, none, 8, 3, 0, 0, 0, false, 0, none, 0, 3, 0x90⟩
def mopS : MOp := ⟨.sparsify, 0x3F00, 0x1000, 0x2000, none, 8, 3, 0, 0, 0, false, 7, none, 0, 3, 0x92⟩
def mact (o : MOp) : MAct := ⟨o, List.replicate 64 0x3F800000, [], 0, [], none⟩
def kMq : CoreSt := { kM with a3 := { q := [mop0], act := [mact mop0] } }
def kMa (o : MOp) : CoreSt := { kM with a3 := { act := [mact o] } }
def s8 : State := wRun kMq
def s9 : State := wRun (kMa mop0)
def s10 : State := wRun (kMa mopS)
def s11 : State := wRun { kM with a3 := { act := [{ mact mop0 with bad := some 5 }] } }

theorem witness_RemoteInstructionsSend :
  (Issues zR c0 l0 16 ∧
    (zR.remoteStall l0 (zR.core l0) (BitVec.toNat ((zR.core l0).getX 1) % 2 ^ 16) (rSPACE wSr)
        (BitVec.toNat ((zR.core l0).getX 2)) =
      false) ∧
    lnLive (zR.lnt l0.p (BitVec.toNat ((zR.core l0).getX 1) % 2 ^ 16)) = true ∧
    offsetBad (rSPACE wSr) (BitVec.toNat ((zR.core l0).getX 2)) = false ∧ w1Rsv wSr = false ∧
    (zR.ownClusterBad (zR.lnt l0.p (BitVec.toNat ((zR.core l0).getX 1) % 2 ^ 16)) (rSPACE wSr)
        (BitVec.toNat ((zR.core l0).getX 2)) (rNT wSr) (rNCLU wSr) =
      false) ∧
    ldstRsv (rW 63 1 2 0 0 wSr) true = false ∧ rREG wSr = true ∧
    blockBad (BitVec.toNat ((zR.core l0).getX 2)) (8 * (rSZ wSr + 1)) = false ∧ Readable (zR.core l0) [1, 2] ∧
    Writable (zR.core l0) 63) ∧
  (Issues zR c0 l0 16 ∧
    (zR.remoteStall l0 (zR.core l0) (BitVec.toNat ((zR.core l0).getX 1) % 2 ^ 16) (rSPACE wS)
        (BitVec.toNat ((zR.core l0).getX 2)) =
      false) ∧
    lnLive (zR.lnt l0.p (BitVec.toNat ((zR.core l0).getX 1) % 2 ^ 16)) = true ∧
    offsetBad (rSPACE wS) (BitVec.toNat ((zR.core l0).getX 2)) = false ∧ w1Rsv wS = false ∧
    (zR.ownClusterBad (zR.lnt l0.p (BitVec.toNat ((zR.core l0).getX 1) % 2 ^ 16)) (rSPACE wS)
        (BitVec.toNat ((zR.core l0).getX 2)) (rNT wS) (rNCLU wS) =
      false) ∧
    ldstRsv (rW 0 1 2 3 0 wS) true = false ∧ rREG wS = false ∧
    blockBad (BitVec.toNat ((zR.core l0).getX 2)) (8 * (rSZ wS + 1)) = false ∧ Readable (zR.core l0) [1, 2, 3] ∧
    zR.hazard l0 [Rng.wr (BitVec.toNat ((zR.core l0).getX 3) % 2 ^ 18) (8 * (rSZ wS + 1))] = false) ∧
  (Issues zR c0 l0 16 ∧
    (zR.remoteStall l0 (zR.core l0) (BitVec.toNat ((zR.core l0).getX 1) % 2 ^ 16) (rSPACE wSr)
        (BitVec.toNat ((zR.core l0).getX 2)) =
      false) ∧
    lnLive (zR.lnt l0.p (BitVec.toNat ((zR.core l0).getX 1) % 2 ^ 16)) = true ∧
    offsetBad (rSPACE wSr) (BitVec.toNat ((zR.core l0).getX 2)) = false ∧ w1Rsv wSr = false ∧
    (zR.ownClusterBad (zR.lnt l0.p (BitVec.toNat ((zR.core l0).getX 1) % 2 ^ 16)) (rSPACE wSr)
        (BitVec.toNat ((zR.core l0).getX 2)) (rNT wSr) (rNCLU wSr) =
      false) ∧
    ldstRsv (rW 0 1 2 3 0 wSr) false = false ∧ rREG wSr = true ∧
    blockBad (BitVec.toNat ((zR.core l0).getX 2)) (8 * (rSZ wSr + 1)) = false ∧ Readable (zR.core l0) [1, 2, 3]) ∧
  (Issues zR c0 l0 16 ∧
    (zR.remoteStall l0 (zR.core l0) (BitVec.toNat ((zR.core l0).getX 1) % 2 ^ 16) (rSPACE wS)
        (BitVec.toNat ((zR.core l0).getX 2)) =
      false) ∧
    lnLive (zR.lnt l0.p (BitVec.toNat ((zR.core l0).getX 1) % 2 ^ 16)) = true ∧
    offsetBad (rSPACE wS) (BitVec.toNat ((zR.core l0).getX 2)) = false ∧ w1Rsv wS = false ∧
    (zR.ownClusterBad (zR.lnt l0.p (BitVec.toNat ((zR.core l0).getX 1) % 2 ^ 16)) (rSPACE wS)
        (BitVec.toNat ((zR.core l0).getX 2)) (rNT wS) (rNCLU wS) =
      false) ∧
    ldstRsv (rW 0 1 2 3 0 wS) false = false ∧ rREG wS = false ∧
    blockBad (BitVec.toNat ((zR.core l0).getX 2)) (8 * (rSZ wS + 1)) = false ∧
    Readable (zR.core l0) [1, 2, 3] [(BitVec.toNat ((zR.core l0).getX 3) % 2 ^ 18, 8 * (rSZ wS + 1))] ∧
    zR.hazard l0 [Rng.now (BitVec.toNat ((zR.core l0).getX 3) % 2 ^ 18) (8 * (rSZ wS + 1)) false] = false) ∧
  (Issues zR c0 l0 16 ∧
    (zR.remoteStall l0 (zR.core l0) (BitVec.toNat ((zR.core l0).getX 1) % 2 ^ 16) (rSPACE 2199023255584#64)
        (BitVec.toNat ((zR.core l0).getX 3)) =
      false) ∧
    lnLive (zR.lnt l0.p (BitVec.toNat ((zR.core l0).getX 1) % 2 ^ 16)) = true ∧
    offsetBad (rSPACE 2199023255584#64) (BitVec.toNat ((zR.core l0).getX 3)) = false ∧ w1Rsv 2199023255584#64 = false ∧
    (zR.ownClusterBad (zR.lnt l0.p (BitVec.toNat ((zR.core l0).getX 1) % 2 ^ 16)) (rSPACE 2199023255584#64)
        (BitVec.toNat ((zR.core l0).getX 3)) (rNT 2199023255584#64) (rNCLU 2199023255584#64) =
      false) ∧
    2 ≤ 2 ∧ rREG 2199023255584#64 = false ∧ rSZ 2199023255584#64 = 0 ∧
    atomBad (rSPACE 2199023255584#64) (BitVec.toNat ((zR.core l0).getX 3)) (rATYPE 2199023255584#64) = false ∧
    Readable (zR.core l0) [1, 3, 3]) ∧
  (Issues zR c0 l0 16 ∧
    (zR.remoteStall l0 (zR.core l0) (BitVec.toNat ((zR.core l0).getX 1) % 2 ^ 16) (rSPACE 2199023255584#64)
        (BitVec.toNat ((zR.core l0).getX 3)) =
      false) ∧
    lnLive (zR.lnt l0.p (BitVec.toNat ((zR.core l0).getX 1) % 2 ^ 16)) = true ∧
    offsetBad (rSPACE 2199023255584#64) (BitVec.toNat ((zR.core l0).getX 3)) = false ∧ w1Rsv 2199023255584#64 = false ∧
    (zR.ownClusterBad (zR.lnt l0.p (BitVec.toNat ((zR.core l0).getX 1) % 2 ^ 16)) (rSPACE 2199023255584#64)
        (BitVec.toNat ((zR.core l0).getX 3)) (rNT 2199023255584#64) (rNCLU 2199023255584#64) =
      false) ∧
    rREG 2199023255584#64 = false ∧ rSZ 2199023255584#64 = 0 ∧
    atomBad (rSPACE 2199023255584#64) (BitVec.toNat ((zR.core l0).getX 3)) (rATYPE 2199023255584#64) = false ∧
    Readable (zR.core l0) [1, 3, 3] ∧ Writable (zR.core l0) 63) ∧
  (Issues zR c0 l0 16 ∧
    (zR.remoteStall l0 (zR.core l0) (BitVec.toNat ((zR.core l0).getX 1) % 2 ^ 16) (rSPACE wSr)
        (BitVec.toNat ((zR.core l0).getX 2)) =
      false) ∧
    lnLive (zR.lnt l0.p (BitVec.toNat ((zR.core l0).getX 1) % 2 ^ 16)) = true ∧
    offsetBad (rSPACE wSr) (BitVec.toNat ((zR.core l0).getX 2)) = false ∧ w1Rsv wSr = false ∧
    (zR.ownClusterBad (zR.lnt l0.p (BitVec.toNat ((zR.core l0).getX 1) % 2 ^ 16)) (rSPACE wSr)
        (BitVec.toNat ((zR.core l0).getX 2)) (rNT wSr) (rNCLU wSr) =
      false) ∧
    rREG wSr = true ∧ rSZ wSr = 0 ∧ rNT wSr = false ∧ rATYPE wSr = 0 ∧
    (rSPACE wSr = 2 ∨ BitVec.toNat ((zR.core l0).getX 2) % 8 = 0) ∧ Readable (zR.core l0) [1, 2, 63, 3] ∧ Writable (zR.core l0) 63) ∧
  (Issues zR c0 l0 16 ∧
    (zR.remoteStall l0 (zR.core l0) (BitVec.toNat ((zR.core l0).getX 1) % 2 ^ 16) (rSPACE 33)
        (BitVec.toNat ((zR.core l0).getX 4)) =
      false) ∧
    lnLive (zR.lnt l0.p (BitVec.toNat ((zR.core l0).getX 1) % 2 ^ 16)) = true ∧
    offsetBad (rSPACE 33) (BitVec.toNat ((zR.core l0).getX 4)) = false ∧ w1Rsv 33 = false ∧
    (zR.ownClusterBad (zR.lnt l0.p (BitVec.toNat ((zR.core l0).getX 1) % 2 ^ 16)) (rSPACE 33)
        (BitVec.toNat ((zR.core l0).getX 4)) (rNT 33) (rNCLU 33) =
      false) ∧
    rREG 33 = false ∧ rSZ 33 ≤ 1 ∧ rNT 33 = false ∧ rATYPE 33 = 0 ∧
    (rSPACE 33 = 2 ∨ BitVec.toNat ((zR.core l0).getX 4) % (8 * (rSZ 33 + 1)) = 0) ∧
    Readable (zR.core l0) [1, 4, 4] [(BitVec.toNat ((zR.core l0).getX 4) % 2 ^ 18, 2 * (8 * (rSZ 33 + 1)))] ∧
    (zR.hazard l0
        [Rng.wr (BitVec.toNat ((zR.core l0).getX 4) % 2 ^ 18) (8 * (rSZ 33 + 1)),
          Rng.now (BitVec.toNat ((zR.core l0).getX 4) % 2 ^ 18 + 8 * (rSZ 33 + 1)) (8 * (rSZ 33 + 1)) false] =
      false)) ∧
  (Issues zR c0 l0 16 ∧
    (zR.remoteStall l0 (zR.core l0) (BitVec.toNat ((zR.core l0).getX 6) % 2 ^ 16) (rSPACE 63)
        (BitVec.toNat ((zR.core l0).getX 4)) =
      false) ∧
    lnLive (zR.lnt l0.p (BitVec.toNat ((zR.core l0).getX 6) % 2 ^ 16)) = true ∧
    offsetBad (rSPACE 63) (BitVec.toNat ((zR.core l0).getX 4)) = false ∧ w1Rsv 63 = false ∧
    (zR.ownClusterBad (zR.lnt l0.p (BitVec.toNat ((zR.core l0).getX 6) % 2 ^ 16)) (rSPACE 63)
        (BitVec.toNat ((zR.core l0).getX 4)) (rNT 63) (rNCLU 63) =
      false) ∧
    ldstRsv (rW 0 6 4 4 0 63) false = false ∧ rREG 63 = false ∧
    blockBad (BitVec.toNat ((zR.core l0).getX 4)) (8 * (rSZ 63 + 1)) = false ∧
    Readable (zR.core l0) [6, 4, 4] [(BitVec.toNat ((zR.core l0).getX 4) % 2 ^ 18, 8 * (rSZ 63 + 1))] ∧
    zR.hazard l0 [Rng.now (BitVec.toNat ((zR.core l0).getX 4) % 2 ^ 18) (8 * (rSZ 63 + 1)) false] = false) := by (repeat' apply And.intro) <;> decide +kernel

theorem witness_RequestHeaders :
  15 < 16 ∧ 3 < 4 ∧ 1 < 2 ∧ 32 ≤ 32 ∧ 65535 < 2 ^ 16 ∧ 65535 < 2 ^ 16 ∧ 2 ^ 48 - 1 < 2 ^ 48 ∧ 3 < 4 ∧ 3 < 4 ∧ 3 < 4 ∧ 31 < 32 ∧
    15 < 16 ∧ 7 < 8 ∧ 15 < 16 ∧ 63 < 64 ∧ 63 < 64 ∧ 63 < 64 ∧ 4095 < 2 ^ 12 ∧ 1023 < 2 ^ 10 ∧ 2 ^ 22 - 1 < 2 ^ 22 ∧ 1023 < 2 ^ 10 ∧
    65535 < 2 ^ 16 ∧ 65535 < 2 ^ 16 := by (repeat' apply And.intro) <;> decide +kernel

theorem witness_TileDmaTransfers :
  (Issues s1 c0 l0 16 ∧ (s1.core l0).fence = false ∧ (s1.core l0).dmas.any Dma.left = false ∧ 1 ≤ 1 ∧
    tdmaRsv (rW 63 1 0 0 1 0) = false ∧
    dmaDescBad (sread (s1.core l0).spad (BitVec.toNat ((s1.core l0).getX 1) % 2 ^ 18) 32) = false ∧
    dmaRangeBad (sread (s1.core l0).spad (BitVec.toNat ((s1.core l0).getX 1) % 2 ^ 18) 32) = false ∧
    (s1.ownClusterBad (s1.lnt l0.p (dmaNode (sread (s1.core l0).spad (BitVec.toNat ((s1.core l0).getX 1) % 2 ^ 18) 32)))
        (dmaSpace (sread (s1.core l0).spad (BitVec.toNat ((s1.core l0).getX 1) % 2 ^ 18) 32))
        (dmaRoff (sread (s1.core l0).spad (BitVec.toNat ((s1.core l0).getX 1) % 2 ^ 18) 32)) (rNT 0) (rNCLU 0) =
      false) ∧
    (s1.ownClusterBad (s1.lnt l0.p (dmaNode (sread (s1.core l0).spad (BitVec.toNat ((s1.core l0).getX 1) % 2 ^ 18) 32)))
        (dmaSpace (sread (s1.core l0).spad (BitVec.toNat ((s1.core l0).getX 1) % 2 ^ 18) 32))
        (dmaLast (sread (s1.core l0).spad (BitVec.toNat ((s1.core l0).getX 1) % 2 ^ 18) 32)) false 0 =
      false) ∧
    lnLive (s1.lnt l0.p (dmaNode (sread (s1.core l0).spad (BitVec.toNat ((s1.core l0).getX 1) % 2 ^ 18) 32))) = true ∧
    Readable (s1.core l0) [1] [(BitVec.toNat ((s1.core l0).getX 1) % 2 ^ 18, 32)] ∧
    (s1.hazard l0
        [Rng.now (BitVec.toNat ((s1.core l0).getX 1) % 2 ^ 18) 32 false,
          dmaRng (sread (s1.core l0).spad (BitVec.toNat ((s1.core l0).getX 1) % 2 ^ 18) 32) (decide (1 = 1))] =
      false)) ∧
  (Issues s1 c0 l0 16 ∧ (s1.core l0).fence = false ∧ (s1.core l0).dmas.any Dma.left = false ∧ 0 ≤ 1 ∧
    tdmaRsv (rW 63 1 0 0 0 0) = false ∧
    dmaDescBad (sread (s1.core l0).spad (BitVec.toNat ((s1.core l0).getX 1) % 2 ^ 18) 32) = false ∧
    dmaRangeBad (sread (s1.core l0).spad (BitVec.toNat ((s1.core l0).getX 1) % 2 ^ 18) 32) = false ∧
    (s1.ownClusterBad (s1.lnt l0.p (dmaNode (sread (s1.core l0).spad (BitVec.toNat ((s1.core l0).getX 1) % 2 ^ 18) 32)))
        (dmaSpace (sread (s1.core l0).spad (BitVec.toNat ((s1.core l0).getX 1) % 2 ^ 18) 32))
        (dmaRoff (sread (s1.core l0).spad (BitVec.toNat ((s1.core l0).getX 1) % 2 ^ 18) 32)) (rNT 0) (rNCLU 0) =
      false) ∧
    (s1.ownClusterBad (s1.lnt l0.p (dmaNode (sread (s1.core l0).spad (BitVec.toNat ((s1.core l0).getX 1) % 2 ^ 18) 32)))
        (dmaSpace (sread (s1.core l0).spad (BitVec.toNat ((s1.core l0).getX 1) % 2 ^ 18) 32))
        (dmaLast (sread (s1.core l0).spad (BitVec.toNat ((s1.core l0).getX 1) % 2 ^ 18) 32)) false 0 =
      false) ∧
    lnLive (s1.lnt l0.p (dmaNode (sread (s1.core l0).spad (BitVec.toNat ((s1.core l0).getX 1) % 2 ^ 18) 32))) = true ∧
    Readable (s1.core l0) [1] [(BitVec.toNat ((s1.core l0).getX 1) % 2 ^ 18, 32)] ∧
    (s1.hazard l0
        [Rng.now (BitVec.toNat ((s1.core l0).getX 1) % 2 ^ 18) 32 false,
          dmaRng (sread (s1.core l0).spad (BitVec.toNat ((s1.core l0).getX 1) % 2 ^ 18) 32) (decide (0 = 1))] =
      false)) ∧
  (On s2 ∧ s2.locate c0 = some l0 ∧ List.find? Dma.left (s2.core l0).dmas = some dma0 ∧ s2.slotsFull = false ∧ s2.dmaOps l0 < 256 ∧
    lnLive (s2.lnt l0.p (dmaNode dma0.desc)) = true ∧ s2.flipWait l0 (dmaNode dma0.desc) (dmaSpace dma0.desc) dma0.piece.1 = false) ∧
  (0 < dmaRbytes dma0.desc ∧
    (0 +
        { dma0 with byte := 0 }.piece.2.2 <
      dmaRbytes dma0.desc)) ∧
  (0 < dmaRbytes dma0.desc) ∧
  (dma0.byte < dmaRbytes dma0.desc ∧ dma0.byte + dma0.piece.2.2 = dmaRbytes dma0.desc) := by (repeat' apply And.intro) <;> decide +kernel

theorem witness_DecodeBatcher :
  (Issues s3 c0 l0 16 ∧ 0 = 0 ∧ Readable (s3.core l0) [1, 2, 3] ∧ BitVec.toNat ((s3.core l0).getX 2) % 2 ^ 18 % 8 = 0 ∧
    (s3.core l0).batch = [bg 6] ∧ (bg 6).tmpl = BitVec.toNat ((s3.core l0).getX 3) % 2 ^ 18 ∧
    (s3.outBusy l0 (s3.core l0) (bg 6)
        { row := BitVec.toNat ((s3.core l0).getX 1) % 2 ^ 18, out := BitVec.toNat ((s3.core l0).getX 2) % 2 ^ 18,
          cnt := 63 } =
      false) ∧
    (s3.hazard l0
        ((bg 6).rowRng
          { row := BitVec.toNat ((s3.core l0).getX 1) % 2 ^ 18, out := BitVec.toNat ((s3.core l0).getX 2) % 2 ^ 18,
            cnt := 63 }) =
      false) ∧
    (bg 6).reqs.length < 7 ∧ ((s3.part l0.p).ruled = true ∨ 0 < (s3.core l0).batwait)) ∧
  (Issues s4 c0 l0 16 ∧ 0 = 0 ∧ Readable (s4.core l0) [1, 2, 3] ∧ BitVec.toNat ((s4.core l0).getX 2) % 2 ^ 18 % 8 = 0 ∧
    (s4.core l0).batch = [bg 7] ∧ (bg 7).tmpl = BitVec.toNat ((s4.core l0).getX 3) % 2 ^ 18 ∧
    (s4.outBusy l0 (s4.core l0) (bg 7)
        { row := BitVec.toNat ((s4.core l0).getX 1) % 2 ^ 18, out := BitVec.toNat ((s4.core l0).getX 2) % 2 ^ 18,
          cnt := 63 } =
      false) ∧
    (s4.hazard l0
        ((bg 7).rowRng
          { row := BitVec.toNat ((s4.core l0).getX 1) % 2 ^ 18, out := BitVec.toNat ((s4.core l0).getX 2) % 2 ^ 18,
            cnt := 63 }) =
      false) ∧
    (bg 7).reqs.length = 7 ∧ (s4.core l0).room (bg 7).arr = true) ∧
  (Issues s5 c0 l0 16 ∧ 0 = 0 ∧ Readable (s5.core l0) [4, 2, 3] ∧ BitVec.toNat ((s5.core l0).getX 2) % 2 ^ 18 % 8 = 0 ∧
    (s5.core l0).batch = [] ∧
    ({ tmpl := 262112, t0 := w64 (bits wT 0 64), t1 := w64 (bits wT 64 64), wgt := 8192, hdr := 3, reqs := [],
        opened := 1000 : BGroup } =
      { tmpl := BitVec.toNat ((s5.core l0).getX 3) % 2 ^ 18,
        t0 := w64 (bits (sread (s5.core l0).spad (BitVec.toNat ((s5.core l0).getX 3) % 2 ^ 18) 32) 0 64),
        t1 := w64 (bits (sread (s5.core l0).spad (BitVec.toNat ((s5.core l0).getX 3) % 2 ^ 18) 32) 64 64),
        wgt :=
          BitVec.toNat
              ((s5.core l0).getX (bits (sread (s5.core l0).spad (BitVec.toNat ((s5.core l0).getX 3) % 2 ^ 18) 32) 20 6)) %
            2 ^ 18,
        hdr := sread (s5.core l0).spad 8192 16, reqs := [], opened := s5.now }) ∧
    (Readable (s5.core l0) [bits (sread (s5.core l0).spad (BitVec.toNat ((s5.core l0).getX 3) % 2 ^ 18) 32) 20 6]
      [(BitVec.toNat ((s5.core l0).getX 3) % 2 ^ 18, 32)]) ∧
    templateBad (sread (s5.core l0).spad (BitVec.toNat ((s5.core l0).getX 3) % 2 ^ 18) 32) = false ∧
    hdrFmt (sread (s5.core l0).spad 8192 16) ≤ 12 ∧
    (pairBad (bits (sread (s5.core l0).spad (BitVec.toNat ((s5.core l0).getX 3) % 2 ^ 18) 32) 40 4)
        (hdrFmt (sread (s5.core l0).spad 8192 16)) =
      false) ∧
    (hdrBad (sread (s5.core l0).spad 8192 16)
        (32 * (bits (sread (s5.core l0).spad (BitVec.toNat ((s5.core l0).getX 3) % 2 ^ 18) 32) 64 7 + 1)) =
      false) ∧
    (bit (sread (s5.core l0).spad (BitVec.toNat ((s5.core l0).getX 3) % 2 ^ 18) 32) 35 = true →
      ((s5.core l0).drainGlyph
            (bits (sread (s5.core l0).spad (BitVec.toNat ((s5.core l0).getX 3) % 2 ^ 18) 32) 32 2)).isSome =
        true) ∧
    8192 % 16 = 0 ∧
    (s5.outBusy l0 (s5.core l0)
        { tmpl := 262112, t0 := w64 (bits wT 0 64), t1 := w64 (bits wT 64 64), wgt := 8192, hdr := 3, reqs := [],
          opened := 1000 : BGroup }
        { row := BitVec.toNat ((s5.core l0).getX 4) % 2 ^ 18, out := BitVec.toNat ((s5.core l0).getX 2) % 2 ^ 18,
          cnt := 63 } =
      false) ∧
    (s5.hazard l0
        ({ tmpl := 262112, t0 := w64 (bits wT 0 64), t1 := w64 (bits wT 64 64), wgt := 8192, hdr := 3, reqs := [],
                opened := 1000 : BGroup }.rowRng
            { row := BitVec.toNat ((s5.core l0).getX 4) % 2 ^ 18, out := BitVec.toNat ((s5.core l0).getX 2) % 2 ^ 18,
              cnt := 63 } ++
          Rng.now (BitVec.toNat ((s5.core l0).getX 3) % 2 ^ 18) 32 false ::
            List.map (fun r => Rng.now r.1 r.2 false)
              (wgtRanges (sread (s5.core l0).spad 8192 16) 8192
                (32 * (bits (sread (s5.core l0).spad (BitVec.toNat ((s5.core l0).getX 3) % 2 ^ 18) 32) 64 7 + 1)))) =
      false) ∧
    ((s5.part l0.p).ruled = true ∨ 0 < (s5.core l0).batwait)) ∧
  (Issues s6 c0 l0 8 ∧ (s6.core l0).batch = []) ∧
  (Issues s3 c0 l0 8 ∧ (s3.core l0).batch = [bg 6] ∧ (s3.core l0).room (bg 6).arr = true) ∧
  (On s7 ∧ s7.locate c0 = some l0 ∧ (s7.core l0).batch = [bgF] ++ [bg 6] ∧ (s7.part l0.p).ruled = false ∧
    (∀ x ∈ [bgF], (s7.core l0).room x.arr = false) ∧ (s7.core l0).room (bg 6).arr = true) ∧
  (On s3 ∧ s3.locate c0 = some l0 ∧ (s3.core l0).batch = [] ++ [bg 6] ∧ (s3.part l0.p).ruled = false ∧
    (∀ x ∈ ([] : List BGroup), (s3.core l0).room x.arr = false) ∧ (s3.core l0).room (bg 6).arr = true) := by (repeat' apply And.intro) <;> decide +kernel

theorem witness_MatrixArrays :
  (Issues zM c0 l0 16 ∧ (zM.core l0).room (3 % 4) = true ∧ (MKind.mmaF = MKind.mmaF ∨ MKind.mmaF = MKind.mmaS) ∧
    (firstErr
        (mmaErrs MKind.mmaF (zM.core l0)
          { r := { a := 1, b := 2, c := 3, d := 0, fn8 := 3, fmt := 3, rsv := 0 }, w1 := 0 }) =
      none) ∧
    (Readable (zM.core l0)
      ([1, 2, 3] ++
        if
            MKind.mmaF = MKind.mmaS ∨
              (mmaOp MKind.mmaF (zM.core l0)
                      { r := { a := 1, b := 2, c := 3, d := 0, fn8 := 3, fmt := 3, rsv := 0 }, w1 := 0 }
                      (FormR.w0
                        (match MKind.mmaF with
                        | MKind.mmaF => 144
                        | MKind.mmaS => 145
                        | MKind.sparsify => 146
                        | MKind.sparsifyT => 147)
                        { a := 1, b := 2, c := 3, d := 0, fn8 := 3, fmt := 3, rsv := 0 })).acc.isSome =
                true then
          [0]
        else [])
      (List.map (fun r => (r.a, r.n))
        (List.filter (fun r => !r.w)
          ((mmaOp MKind.mmaF (zM.core l0) { r := { a := 1, b := 2, c := 3, d := 0, fn8 := 3, fmt := 3, rsv := 0 }, w1 := 0 }
                (FormR.w0
                  (match MKind.mmaF with
                  | MKind.mmaF => 144
                  | MKind.mmaS => 145
                  | MKind.sparsify => 146
                  | MKind.sparsifyT => 147)
                  { a := 1, b := 2, c := 3, d := 0, fn8 := 3, fmt := 3, rsv := 0 })).rngs
            (if MKind.mmaF = MKind.sparsify ∨ MKind.mmaF = MKind.sparsifyT then none
            else (zM.core l0).drainGlyph (3 % 4)))))) ∧
    (zM.hazard l0
        ((mmaOp MKind.mmaF (zM.core l0) { r := { a := 1, b := 2, c := 3, d := 0, fn8 := 3, fmt := 3, rsv := 0 }, w1 := 0 }
              (FormR.w0
                (match MKind.mmaF with
                | MKind.mmaF => 144
                | MKind.mmaS => 145
                | MKind.sparsify => 146
                | MKind.sparsifyT => 147)
                { a := 1, b := 2, c := 3, d := 0, fn8 := 3, fmt := 3, rsv := 0 })).rngs
          (if MKind.mmaF = MKind.sparsify ∨ MKind.mmaF = MKind.sparsifyT then none else (zM.core l0).drainGlyph (3 % 4))) =
      false)) ∧
  (Issues zM c0 l0 16 ∧ (zM.core l0).room (7 % 4) = true ∧ (MKind.mmaF = MKind.mmaF ∨ MKind.mmaF = MKind.mmaS) ∧
    (firstErr
        (mmaErrs MKind.mmaF (zM.core l0)
          { r := { a := 1, b := 2, c := 3, d := 5, fn8 := 7, fmt := 3, rsv := 0 }, w1 := 0 }) =
      none) ∧
    (Readable (zM.core l0)
      ([1, 2, 3] ++
        if
            MKind.mmaF = MKind.mmaS ∨
              (mmaOp MKind.mmaF (zM.core l0)
                      { r := { a := 1, b := 2, c := 3, d := 5, fn8 := 7, fmt := 3, rsv := 0 }, w1 := 0 }
                      (FormR.w0
                        (match MKind.mmaF with
                        | MKind.mmaF => 144
                        | MKind.mmaS => 145
                        | MKind.sparsify => 146
                        | MKind.sparsifyT => 147)
                        { a := 1, b := 2, c := 3, d := 5, fn8 := 7, fmt := 3, rsv := 0 })).acc.isSome =
                true then
          [5]
        else [])
      (List.map (fun r => (r.a, r.n))
        (List.filter (fun r => !r.w)
          ((mmaOp MKind.mmaF (zM.core l0) { r := { a := 1, b := 2, c := 3, d := 5, fn8 := 7, fmt := 3, rsv := 0 }, w1 := 0 }
                (FormR.w0
                  (match MKind.mmaF with
                  | MKind.mmaF => 144
                  | MKind.mmaS => 145
                  | MKind.sparsify => 146
                  | MKind.sparsifyT => 147)
                  { a := 1, b := 2, c := 3, d := 5, fn8 := 7, fmt := 3, rsv := 0 })).rngs
            (if MKind.mmaF = MKind.sparsify ∨ MKind.mmaF = MKind.sparsifyT then none
            else (zM.core l0).drainGlyph (7 % 4)))))) ∧
    (zM.hazard l0
        ((mmaOp MKind.mmaF (zM.core l0) { r := { a := 1, b := 2, c := 3, d := 5, fn8 := 7, fmt := 3, rsv := 0 }, w1 := 0 }
              (FormR.w0
                (match MKind.mmaF with
                | MKind.mmaF => 144
                | MKind.mmaS => 145
                | MKind.sparsify => 146
                | MKind.sparsifyT => 147)
                { a := 1, b := 2, c := 3, d := 5, fn8 := 7, fmt := 3, rsv := 0 })).rngs
          (if MKind.mmaF = MKind.sparsify ∨ MKind.mmaF = MKind.sparsifyT then none else (zM.core l0).drainGlyph (7 % 4))) =
      false)) ∧
  (Issues zM c0 l0 16 ∧ (zM.core l0).room (0 % 4) = true ∧ (MKind.mmaS = MKind.mmaF ∨ MKind.mmaS = MKind.mmaS) ∧
    (firstErr
        (mmaErrs MKind.mmaS (zM.core l0)
          { r := { a := 1, b := 2, c := 3, d := 4, fn8 := 0, fmt := 3, rsv := 0 }, w1 := 0 }) =
      none) ∧
    (Readable (zM.core l0)
      ([1, 2, 3] ++
        if
            MKind.mmaS = MKind.mmaS ∨
              (mmaOp MKind.mmaS (zM.core l0)
                      { r := { a := 1, b := 2, c := 3, d := 4, fn8 := 0, fmt := 3, rsv := 0 }, w1 := 0 }
                      (FormR.w0
                        (match MKind.mmaS with
                        | MKind.mmaF => 144
                        | MKind.mmaS => 145
                        | MKind.sparsify => 146
                        | MKind.sparsifyT => 147)
                        { a := 1, b := 2, c := 3, d := 4, fn8 := 0, fmt := 3, rsv := 0 })).acc.isSome =
                true then
          [4]
        else [])
      (List.map (fun r => (r.a, r.n))
        (List.filter (fun r => !r.w)
          ((mmaOp MKind.mmaS (zM.core l0) { r := { a := 1, b := 2, c := 3, d := 4, fn8 := 0, fmt := 3, rsv := 0 }, w1 := 0 }
                (FormR.w0
                  (match MKind.mmaS with
                  | MKind.mmaF => 144
                  | MKind.mmaS => 145
                  | MKind.sparsify => 146
                  | MKind.sparsifyT => 147)
                  { a := 1, b := 2, c := 3, d := 4, fn8 := 0, fmt := 3, rsv := 0 })).rngs
            (if MKind.mmaS = MKind.sparsify ∨ MKind.mmaS = MKind.sparsifyT then none
            else (zM.core l0).drainGlyph (0 % 4)))))) ∧
    (zM.hazard l0
        ((mmaOp MKind.mmaS (zM.core l0) { r := { a := 1, b := 2, c := 3, d := 4, fn8 := 0, fmt := 3, rsv := 0 }, w1 := 0 }
              (FormR.w0
                (match MKind.mmaS with
                | MKind.mmaF => 144
                | MKind.mmaS => 145
                | MKind.sparsify => 146
                | MKind.sparsifyT => 147)
                { a := 1, b := 2, c := 3, d := 4, fn8 := 0, fmt := 3, rsv := 0 })).rngs
          (if MKind.mmaS = MKind.sparsify ∨ MKind.mmaS = MKind.sparsifyT then none else (zM.core l0).drainGlyph (0 % 4))) =
      false)) ∧
  (Issues zM c0 l0 16 ∧ (zM.core l0).room (3 % 4) = true ∧ (MKind.sparsify = MKind.sparsify ∨ MKind.sparsify = MKind.sparsifyT) ∧
    bits 3 2 6 = 0 ∧ fld 0#64 7 57 = 0 ∧
    (hdrFmt
        (sread (zM.core l0).spad
          (mmaOp MKind.sparsify (zM.core l0)
              { r := { a := 1, b := 2, c := 6, d := 0, fn8 := 3, fmt := 0, rsv := 0 }, w1 := 0 }
              (FormR.w0
                (match MKind.sparsify with
                | MKind.mmaF => 144
                | MKind.mmaS => 145
                | MKind.sparsify => 146
                | MKind.sparsifyT => 147)
                { a := 1, b := 2, c := 6, d := 0, fn8 := 3, fmt := 0, rsv := 0 })).row
          16) ≤
      12) ∧
    (hdrSparse
        (sread (zM.core l0).spad
          (mmaOp MKind.sparsify (zM.core l0)
              { r := { a := 1, b := 2, c := 6, d := 0, fn8 := 3, fmt := 0, rsv := 0 }, w1 := 0 }
              (FormR.w0
                (match MKind.sparsify with
                | MKind.mmaF => 144
                | MKind.mmaS => 145
                | MKind.sparsify => 146
                | MKind.sparsifyT => 147)
                { a := 1, b := 2, c := 6, d := 0, fn8 := 3, fmt := 0, rsv := 0 })).row
          16) =
      false) ∧
    (hdrBad
        (sread (zM.core l0).spad
          (mmaOp MKind.sparsify (zM.core l0)
              { r := { a := 1, b := 2, c := 6, d := 0, fn8 := 3, fmt := 0, rsv := 0 }, w1 := 0 }
              (FormR.w0
                (match MKind.sparsify with
                | MKind.mmaF => 144
                | MKind.mmaS => 145
                | MKind.sparsify => 146
                | MKind.sparsifyT => 147)
                { a := 1, b := 2, c := 6, d := 0, fn8 := 3, fmt := 0, rsv := 0 })).row
          16)
        (mmaOp MKind.sparsify (zM.core l0)
            { r := { a := 1, b := 2, c := 6, d := 0, fn8 := 3, fmt := 0, rsv := 0 }, w1 := 0 }
            (FormR.w0
              (match MKind.sparsify with
              | MKind.mmaF => 144
              | MKind.mmaS => 145
              | MKind.sparsify => 146
              | MKind.sparsifyT => 147)
              { a := 1, b := 2, c := 6, d := 0, fn8 := 3, fmt := 0, rsv := 0 })).depth =
      false) ∧
    ((mmaOp MKind.sparsify (zM.core l0) { r := { a := 1, b := 2, c := 6, d := 0, fn8 := 3, fmt := 0, rsv := 0 }, w1 := 0 }
            (FormR.w0
              (match MKind.sparsify with
              | MKind.mmaF => 144
              | MKind.mmaS => 145
              | MKind.sparsify => 146
              | MKind.sparsifyT => 147)
              { a := 1, b := 2, c := 6, d := 0, fn8 := 3, fmt := 0, rsv := 0 })).row %
        16 =
      0) ∧
    ((mmaOp MKind.sparsify (zM.core l0) { r := { a := 1, b := 2, c := 6, d := 0, fn8 := 3, fmt := 0, rsv := 0 }, w1 := 0 }
            (FormR.w0
              (match MKind.sparsify with
              | MKind.mmaF => 144
              | MKind.mmaS => 145
              | MKind.sparsify => 146
              | MKind.sparsifyT => 147)
              { a := 1, b := 2, c := 6, d := 0, fn8 := 3, fmt := 0, rsv := 0 })).out %
        16 =
      0) ∧
    (Writable (zM.core l0)
      (mmaOp MKind.sparsify (zM.core l0) { r := { a := 1, b := 2, c := 6, d := 0, fn8 := 3, fmt := 0, rsv := 0 }, w1 := 0 }
          (FormR.w0
            (match MKind.sparsify with
            | MKind.mmaF => 144
            | MKind.mmaS => 145
            | MKind.sparsify => 146
            | MKind.sparsifyT => 147)
            { a := 1, b := 2, c := 6, d := 0, fn8 := 3, fmt := 0, rsv := 0 })).dst) ∧
    (Readable (zM.core l0) [1, 2]
      (List.map (fun r => (r.a, r.n))
        (List.filter (fun r => !r.w)
          ((mmaOp MKind.sparsify (zM.core l0)
                { r := { a := 1, b := 2, c := 6, d := 0, fn8 := 3, fmt := 0, rsv := 0 }, w1 := 0 }
                (FormR.w0
                  (match MKind.sparsify with
                  | MKind.mmaF => 144
                  | MKind.mmaS => 145
                  | MKind.sparsify => 146
                  | MKind.sparsifyT => 147)
                  { a := 1, b := 2, c := 6, d := 0, fn8 := 3, fmt := 0, rsv := 0 })).rngs
            (if MKind.sparsify = MKind.sparsify ∨ MKind.sparsify = MKind.sparsifyT then none
            else (zM.core l0).drainGlyph (3 % 4)))))) ∧
    (zM.hazard l0
        ((mmaOp MKind.sparsify (zM.core l0)
              { r := { a := 1, b := 2, c := 6, d := 0, fn8 := 3, fmt := 0, rsv := 0 }, w1 := 0 }
              (FormR.w0
                (match MKind.sparsify with
                | MKind.mmaF => 144
                | MKind.mmaS => 145
                | MKind.sparsify => 146
                | MKind.sparsifyT => 147)
                { a := 1, b := 2, c := 6, d := 0, fn8 := 3, fmt := 0, rsv := 0 })).rngs
          (if MKind.sparsify = MKind.sparsify ∨ MKind.sparsify = MKind.sparsifyT then none
          else (zM.core l0).drainGlyph (3 % 4))) =
      false)) ∧
  (Issues zM c0 l0 16 ∧ (zM.core l0).room (0 % 4) = true ∧ (MKind.sparsifyT = MKind.sparsify ∨ MKind.sparsifyT = MKind.sparsifyT) ∧
    bits 0 2 6 = 0 ∧ fld 127#64 7 57 = 0 ∧
    (hdrFmt
        (sread (zM.core l0).spad
          (mmaOp MKind.sparsifyT (zM.core l0)
              { r := { a := 1, b := 3, c := 0, d := 0, fn8 := 0, fmt := 0, rsv := 0 }, w1 := 127 }
              (FormR.w0
                (match MKind.sparsifyT with
                | MKind.mmaF => 144
                | MKind.mmaS => 145
                | MKind.sparsify => 146
                | MKind.sparsifyT => 147)
                { a := 1, b := 3, c := 0, d := 0, fn8 := 0, fmt := 0, rsv := 0 })).row
          16) ≤
      12) ∧
    (hdrSparse
        (sread (zM.core l0).spad
          (mmaOp MKind.sparsifyT (zM.core l0)
              { r := { a := 1, b := 3, c := 0, d := 0, fn8 := 0, fmt := 0, rsv := 0 }, w1 := 127 }
              (FormR.w0
                (match MKind.sparsifyT with
                | MKind.mmaF => 144
                | MKind.mmaS => 145
                | MKind.sparsify => 146
                | MKind.sparsifyT => 147)
                { a := 1, b := 3, c := 0, d := 0, fn8 := 0, fmt := 0, rsv := 0 })).row
          16) =
      false) ∧
    (hdrBad
        (sread (zM.core l0).spad
          (mmaOp MKind.sparsifyT (zM.core l0)
              { r := { a := 1, b := 3, c := 0, d := 0, fn8 := 0, fmt := 0, rsv := 0 }, w1 := 127 }
              (FormR.w0
                (match MKind.sparsifyT with
                | MKind.mmaF => 144
                | MKind.mmaS => 145
                | MKind.sparsify => 146
                | MKind.sparsifyT => 147)
                { a := 1, b := 3, c := 0, d := 0, fn8 := 0, fmt := 0, rsv := 0 })).row
          16)
        (mmaOp MKind.sparsifyT (zM.core l0)
            { r := { a := 1, b := 3, c := 0, d := 0, fn8 := 0, fmt := 0, rsv := 0 }, w1 := 127 }
            (FormR.w0
              (match MKind.sparsifyT with
              | MKind.mmaF => 144
              | MKind.mmaS => 145
              | MKind.sparsify => 146
              | MKind.sparsifyT => 147)
              { a := 1, b := 3, c := 0, d := 0, fn8 := 0, fmt := 0, rsv := 0 })).depth =
      false) ∧
    ((mmaOp MKind.sparsifyT (zM.core l0) { r := { a := 1, b := 3, c := 0, d := 0, fn8 := 0, fmt := 0, rsv := 0 }, w1 := 127 }
            (FormR.w0
              (match MKind.sparsifyT with
              | MKind.mmaF => 144
              | MKind.mmaS => 145
              | MKind.sparsify => 146
              | MKind.sparsifyT => 147)
              { a := 1, b := 3, c := 0, d := 0, fn8 := 0, fmt := 0, rsv := 0 })).row %
        16 =
      0) ∧
    ((mmaOp MKind.sparsifyT (zM.core l0) { r := { a := 1, b := 3, c := 0, d := 0, fn8 := 0, fmt := 0, rsv := 0 }, w1 := 127 }
            (FormR.w0
              (match MKind.sparsifyT with
              | MKind.mmaF => 144
              | MKind.mmaS => 145
              | MKind.sparsify => 146
              | MKind.sparsifyT => 147)
              { a := 1, b := 3, c := 0, d := 0, fn8 := 0, fmt := 0, rsv := 0 })).out %
        16 =
      0) ∧
    (Writable (zM.core l0)
      (mmaOp MKind.sparsifyT (zM.core l0)
          { r := { a := 1, b := 3, c := 0, d := 0, fn8 := 0, fmt := 0, rsv := 0 }, w1 := 127 }
          (FormR.w0
            (match MKind.sparsifyT with
            | MKind.mmaF => 144
            | MKind.mmaS => 145
            | MKind.sparsify => 146
            | MKind.sparsifyT => 147)
            { a := 1, b := 3, c := 0, d := 0, fn8 := 0, fmt := 0, rsv := 0 })).dst) ∧
    (Readable (zM.core l0) [1, 3]
      (List.map (fun r => (r.a, r.n))
        (List.filter (fun r => !r.w)
          ((mmaOp MKind.sparsifyT (zM.core l0)
                { r := { a := 1, b := 3, c := 0, d := 0, fn8 := 0, fmt := 0, rsv := 0 }, w1 := 127 }
                (FormR.w0
                  (match MKind.sparsifyT with
                  | MKind.mmaF => 144
                  | MKind.mmaS => 145
                  | MKind.sparsify => 146
                  | MKind.sparsifyT => 147)
                  { a := 1, b := 3, c := 0, d := 0, fn8 := 0, fmt := 0, rsv := 0 })).rngs
            (if MKind.sparsifyT = MKind.sparsify ∨ MKind.sparsifyT = MKind.sparsifyT then none
            else (zM.core l0).drainGlyph (0 % 4)))))) ∧
    (zM.hazard l0
        ((mmaOp MKind.sparsifyT (zM.core l0)
              { r := { a := 1, b := 3, c := 0, d := 0, fn8 := 0, fmt := 0, rsv := 0 }, w1 := 127 }
              (FormR.w0
                (match MKind.sparsifyT with
                | MKind.mmaF => 144
                | MKind.mmaS => 145
                | MKind.sparsify => 146
                | MKind.sparsifyT => 147)
                { a := 1, b := 3, c := 0, d := 0, fn8 := 0, fmt := 0, rsv := 0 })).rngs
          (if MKind.sparsifyT = MKind.sparsify ∨ MKind.sparsifyT = MKind.sparsifyT then none
          else (zM.core l0).drainGlyph (0 % 4))) =
      false)) ∧
  (On s8 ∧ s8.locate c0 = some l0 ∧ ((s8.core l0).arr 3).q = [mop0] ∧ ((s8.core l0).arr 3).act.length < 2 ∧
    (((s8.core l0).arr 3).act.any fun x => x.op.isSparsify) = false) ∧
  (On s9 ∧ s9.locate c0 = some l0 ∧ ((s9.core l0).arr 3).act = [mact mop0] ∧ (mact mop0).op.isSparsify = false ∧
    (mact mop0).ready = true) ∧
  (On s10 ∧ s10.locate c0 = some l0 ∧ ((s10.core l0).arr 3).act = [mact mopS] ∧ (mact mopS).op.isSparsify = true) ∧
  (On s11 ∧ s11.locate c0 = some l0 ∧
    (((s11.core l0).arr 3).act =
      [{ (mact mop0) with bad := some 5 }]) ∧
    (mact mop0).op.isSparsify = false ∧ 5 < 2 ^ 18) ∧
  (On s9 ∧ s9.locate c0 = some l0 ∧ ((s9.core l0).arr 3).act = [mact mop0] ∧ (mact mop0).op.kind = MKind.mmaF ∧
    (mact mop0).op.gly = false ∧ (mact mop0).op.breqs = none ∧ (mact mop0).bad = none) := by (repeat' apply And.intro) <;> decide +kernel

end Wb

namespace Wc

/-! Witnesses: vector functions, glyph slots, Ductus. -/

/-- x1 an address near the top, x2 a count of 33 -/
def kV : CoreSt := { k0 with x := [(1, 0x3FF85), (2, 33)], spad := swrite [] 0x3FF80 64 (0x0102030405060708 * (1 + 2^64 + 3 * 2^128 + 5 * 2^200)), vr := mwrite (mwrite [] (1024 * 4) 64 (0x3F8000004000000040400000C0800000 * (1 + 2 ^ 128 + 2^256))) (1024 * 8) 16 (5 + 7 * 2^32 + 2^64) }
def zV := wRun kV
def vR (a b c d : BitVec 6) (fn : BitVec 8) (fmt : BitVec 4) : FormV := ⟨a, b, c, d, fn, fmt, 0, 2, 1, 0⟩ -- count from x2
def vo : VOp := ⟨0x3B, vW 28 4 8 0 0 12 7, 8, 0⟩
def kVq (n : Nat) : CoreSt := { kV with vBusy := true, vq := List.replicate n vo }
def s1 : State := wRun (kVq 3)
def s2 : State := wRun (kVq 0)
def s3 : State := wRun (kVq 1)
/-- A glyph of one operation at x1. -/
def kG : CoreSt := { k0 with x := [(1, 0x3FD00)], spad := swrite [] (0x3FD00 + 16) 1 1 }
def zG := wRun kG
def mopG : MOp := ⟨.mmaF, 0x3F00, 0x1000, 0x2000, none, 8, 3, 0, 0, 0, true, 0, none, 0, 3, 0x90⟩
def mactG : MAct := ⟨mopG, List.replicate 64 0x3F800000, [], 0, [], none⟩
def kGa : CoreSt := { k0 with glyph := [(2, 2 ^ 128)], a3 := { act := [mactG], att := some 2 } }
def kGm : CoreSt := { kG with a3 := { att := some 2, dseq := 5, mx := [(3, (0x3F800000, 7))], mxf := 1 } }
def s4 : State := wRun kGm
def s5 : State := wRun kGa
def gl : GateLoad := ⟨15, 7, 1, 3, 1⟩
def zGl : State := State.setDuctus zG 63 { loads := [gl] }

theorem witness_VectorMemoryAndQueue :
  (VStarts zV c0 l0 48 (vR 0 1 0 0 0 0) [1, 2]) ∧
  (VStarts zV c0 l0 48 (vW 31 1 0 0 0 3 1023) [1]) ∧
  (VStarts zV c0 l0 49 (vW 4 1 0 0 0 0 7) [1]) ∧
  (VStarts zV c0 l0 50 (vW 4 1 8 0 0 1 3) [1]) ∧
  (VStarts zV c0 l0 51 (vW 4 1 8 0 0 1 3) [1]) ∧
  (VStarts zV c0 l0 52 (vW 28 1 0 0 0 0 1023) [1]) ∧
  (VStarts zV c0 l0 53 (vW 28 0 0 0 0 0 31) []) ∧
  (VIssues s1 c0 l0 59 (vW 28 4 8 0 0 12 7) [] ∧ ((s1.core l0).vBusy = true ∨ (s1.core l0).vq ≠ []) ∧ (s1.core l0).vq.length < 4) ∧
  (On s2 ∧ s2.locate c0 = some l0 ∧ (s2.core l0).vq = []) ∧
  (On s3 ∧ s3.locate c0 = some l0 ∧ (s3.core l0).vq = [vo]) := by (repeat' apply And.intro) <;> decide +kernel

theorem witness_VectorElementwise :
  (VStarts zV c0 l0 56 (vW 31 4 8 0 0 0 7) []) ∧
  (VStarts zV c0 l0 57 (vW 28 4 4 4 0 0 7) []) ∧
  (VStarts zV c0 l0 58 (vW 28 4 0 0 0 0 7) []) ∧
  (VStarts zV c0 l0 59 (vW 28 4 8 0 0 12 7) []) ∧
  (VStarts zV c0 l0 60 (vW 28 4 8 0 0 0 7) []) ∧
  (VStarts zV c0 l0 61 (vW 28 4 8 4 0 0 7) []) ∧
  (VStarts zV c0 l0 62 (vW 28 4 0 0 12 0 7) []) ∧
  (VStarts zV c0 l0 63 (vW 28 1 0 0 81 0 31) [1] ∧ 81 % 2 = 1) ∧
  (VStarts zV c0 l0 63 (vW 28 1 0 0 80 0 31) [1] ∧ 80 % 2 = 0) := by (repeat' apply And.intro) <;> decide +kernel

theorem witness_VectorAcrossElements :
  (VStarts zV c0 l0 64 (vW 28 4 0 0 0 0 11) []) ∧
  (VStarts zV c0 l0 64 (vW 28 4 0 0 2 0 11) []) ∧
  (VStarts zV c0 l0 65 (vW 28 4 0 0 1 0 11) []) ∧
  (VStarts zV c0 l0 66 (vW 28 4 0 1 0 0 11) []) ∧
  (VStarts zV c0 l0 67 (vW 28 4 0 1 71 0 11) []) ∧
  (VStarts zV c0 l0 68 (vW 28 4 8 1 1 0 11) []) ∧
  (VStarts zV c0 l0 69 (vW 28 8 0 0 2 12 3) []) ∧
  (VStarts zV c0 l0 70 (vW 28 0 0 0 0 12 11) []) := by (repeat' apply And.intro) <;> decide +kernel

theorem witness_GlyphSlots :
  (Issues zG c0 l0 16 ∧ 3 < 8 ∧ glyRsv (rW 0 1 0 0 3 0) true = false ∧ (zG.core l0).vq.length < 4 ∧
    Readable (zG.core l0) [1] [(BitVec.toNat ((zG.core l0).getX 1) % 2 ^ 18 / 16 * 16, 528)] ∧
    zG.hazard l0 [Rng.now (BitVec.toNat ((zG.core l0).getX 1) % 2 ^ 18 / 16 * 16) 528 false] = false ∧ 3 < 4 ∧
    firstErr (glyErrs (sread (zG.core l0).spad (BitVec.toNat ((zG.core l0).getX 1) % 2 ^ 18 / 16 * 16) 528) false) = none ∧
    (∀ i < 4, ((zG.core l0).arr i).att = some 3 → (((zG.core l0).arr i).holds fun o => o.gly) = false)) ∧
  (Issues zG c0 l0 16 ∧ 7 < 8 ∧ glyRsv (rW 0 1 0 0 7 0) true = false ∧ (zG.core l0).vq.length < 4 ∧
    Readable (zG.core l0) [1] [(BitVec.toNat ((zG.core l0).getX 1) % 2 ^ 18 / 16 * 16, 528)] ∧
    zG.hazard l0 [Rng.now (BitVec.toNat ((zG.core l0).getX 1) % 2 ^ 18 / 16 * 16) 528 false] = false ∧ 4 ≤ 7 ∧
    firstErr (glyErrs (sread (zG.core l0).spad (BitVec.toNat ((zG.core l0).getX 1) % 2 ^ 18 / 16 * 16) 528) true) = none) ∧
  (Issues zG c0 l0 16 ∧ glyRsv (rW 0 0 0 0 15 0) false = false ∧ (((zG.core l0).arr (15 % 4)).holds fun o => o.gly) = false ∧
    15 < 16) ∧
  (Issues zG c0 l0 16 ∧ glyRsv (rW 0 0 0 0 19 0) false = false ∧ (((zG.core l0).arr (19 % 4)).holds fun o => o.gly) = false ∧
    19 = 16 + 19 % 4) ∧
  (Issues zG c0 l0 16 ∧ glyRsv (rW 0 1 0 0 3 0) true = false ∧ 3 < 4 ∧ Readable (zG.core l0) [1] ∧
    (((zG.core l0).arr 3).holds fun x => true) = false ∧ ((zG.core l0).arr 3).mx = []) ∧
  (Issues s4 c0 l0 16 ∧ glyRsv (rW 0 1 0 0 3 0) true = false ∧ 3 < 4 ∧ Readable (s4.core l0) [1] ∧
    (((s4.core l0).arr 3).holds fun x => true) = false ∧ ((s4.core l0).arr 3).mx ≠ [] ∧ ((s4.core l0).arr 3).bad = false ∧
    (s4.hazard l0 [Rng.now (BitVec.toNat ((s4.core l0).getX 1) % 2 ^ 18) (tileSize (((s4.core l0).arr 3).mxf % 16)) true] =
      false)) ∧
  (On s5 ∧ s5.locate c0 = some l0 ∧ ((s5.core l0).arr 3).act = [mactG] ∧ mactG.op.gly = true ∧ mactG.drained < mactG.op.nrows ∧
    mactG.bad = none) ∧
  (On zGl ∧ (zGl.ductus 63).loads = [gl] ∧ (zGl.ductus 63).run = []) := by (repeat' apply And.intro) <;> decide +kernel

end Wc

namespace Wd

/-! Witnesses: Ductus. -/

/-- x1 the descriptor, x3 a key, x4 an address -/
def kL : CoreSt := { k0 with x := [(1, 0x3FF00), (3, 3), (4, 0x3FE00), (5, 0x3FFE0), (6, 0x200000003#64)], spad := swrite (swrite [] 0x3FF00 128 wLayer) 0x3FE00 64 (0x40004000 * 2 ^ 32) }
def busyU (s : State) (u : Nat) (o : DOp) : State := State.setDuctus s 63 { s.ductus 63 with q := [(u, [o])] }
def dop0 : DOp := ⟨l0, 0xB0, 0, 5, 0, wLayer, 3, 0, 3, 0⟩
def zLd : State := State.setCtx (wRunM kL [(0x1003, 0x3F), (0x1007, 0x40), (0x100B, 0x41)]) 15 7 { wCtx with gates := [(0, 2^128)] }
def qz (u : Nat) : State := busyU zLd u dop0
def W1 : FormX := rW 63 1 0 0 0 0
def s1 : State := qz 0
def s2 : State := qz 1
/-- A split descriptor: one inbox home, one core list. -/
def wSplit : Nat := 0x1000 + 0x2000 * 2 ^ 64 + 1 * 2 ^ 224 + 2 ^ 242 + 64 * 2 ^ 256 + 1 * 2 ^ 288
def kSp : CoreSt := { kL with spad := swrite [] 0x3FF00 64 wSplit }
def zSp (m : Mem) : State := wRunM kSp m
def s3 : State := busyU (zSp []) 1 dop0
def s4 : State := qz 2
/-- A work item of record 0x1000, row 0, one row. -/
def wItem : Nat := 0x1000 + 1 * 2 ^ 96 + 1 * 2 ^ 208
def kIt : CoreSt := { kL with spad := swrite [] 0x3FF00 32 wItem }
def zIt (m : Mem) : State := wRunM kIt m
def s5 : State := busyU (zIt []) 2 dop0
def ctE (st : Nat) : CtEntry := { st, batch := 3, gen := 0, half := 0, expect := 16 }
def withCt (s : State) (st : Nat) : State := State.setDuctus s 63 { s.ductus 63 with ct := [(127, ctE st)] }
def s6 : State := withCt (qz 3) 1
def s7 : State := qz 3
def recs0 : List (Nat × Nat) := [(0, 0), (1, 0), (0, 0), (2, 1), (0, 1), (2^128-1, 0), (0xFFFFFFFF00000000 , 0)]
/-- An inbox at 0x4000 with one valid record of 513 rows and one that is not. -/
def mSp : Mem := mwrite (mwrite (mwrite (mwrite [] 0x1000 16 (0x4000 + 4 * 2 ^ 64)) 0x4000 8 2) 0x4040 64 (513 * 2^64 + 2^231)) 0x4080 64 (7 * 2 ^ 64)
def s8 : State := zSp mSp
/-- Counts 1 and 0 for half 0 of experts 0, 1. -/
def mEx : Mem := mwrite (mwrite [] 0x3000 16 1) 0x5000 16 (0x10000 + 2 ^ 40)
def zEx : State := wRunM kL mEx
def mRt : Mem := mwrite [] 0x1000 64 (1 * 2 ^ 64 + 0x100 * 2 ^ 96 + 0x9000 * 2^128 + 1 * 2^176 + 16 * 2 ^ 192 + 2^231)
def s9 : State := zIt mRt
def ld0 : Ladder := { e := 1, em := 0x40 * 2^32, c0 := 4, c1 := 3 }

theorem witness_DuctusIssue :
  ((DReads s1 c0 l0 0 [1] (if 128 = 0 then 0 else BitVec.toNat ((s1.core l0).getX 1) % 2 ^ 18 / 16 * 16) 128 ∧
      tgetD (s1.ductus (s1.phys l0.p l0.l)).q 0 [] ≠ []) ∧
    (firstErr
        (layerErrs
          (if 128 = 0 then BitVec.toNat ((s1.core l0).getX 1)
          else
            sread (s1.core l0).spad (if 128 = 0 then 0 else BitVec.toNat ((s1.core l0).getX 1) % 2 ^ 18 / 16 * 16) 128)) =
      none) ∧
    ductusRsv (rW 63 1 0 0 0 0) true false false false = false ∧
    (s1.noGate l0
        (if 128 = 0 then BitVec.toNat ((s1.core l0).getX 1)
        else sread (s1.core l0).spad (if 128 = 0 then 0 else BitVec.toNat ((s1.core l0).getX 1) % 2 ^ 18 / 16 * 16) 128) =
      false)) ∧
  ((DReads s1 c0 l0 0 [1] (if 128 = 0 then 0 else BitVec.toNat ((s1.core l0).getX 1) % 2 ^ 18 / 16 * 16) 128 ∧
      tgetD (s1.ductus (s1.phys l0.p l0.l)).q 0 [] ≠ []) ∧
    (firstErr
        (layerErrs
          (if 128 = 0 then BitVec.toNat ((s1.core l0).getX 1)
          else
            sread (s1.core l0).spad (if 128 = 0 then 0 else BitVec.toNat ((s1.core l0).getX 1) % 2 ^ 18 / 16 * 16) 128)) =
      none) ∧
    ductusRsv (rW 63 1 0 0 0 0) true false false false = false) ∧
  ((DReads s1 c0 l0 0 [1] (if 128 = 0 then 0 else BitVec.toNat ((s1.core l0).getX 1) % 2 ^ 18 / 16 * 16) 128 ∧
      tgetD (s1.ductus (s1.phys l0.p l0.l)).q 0 [] ≠ []) ∧
    (firstErr
        (layerErrs
          (if 128 = 0 then BitVec.toNat ((s1.core l0).getX 1)
          else
            sread (s1.core l0).spad (if 128 = 0 then 0 else BitVec.toNat ((s1.core l0).getX 1) % 2 ^ 18 / 16 * 16) 128)) =
      none) ∧
    ductusRsv (rW 63 1 0 0 1 0) true false false false = false ∧ 1 < 2) ∧
  ((DReads s2 c0 l0 1 [1] (if 128 = 0 then 0 else BitVec.toNat ((s2.core l0).getX 1) % 2 ^ 18 / 16 * 16) 128 ∧
      tgetD (s2.ductus (s2.phys l0.p l0.l)).q 1 [] ≠ []) ∧
    (firstErr
        (layerErrs
          (if 128 = 0 then BitVec.toNat ((s2.core l0).getX 1)
          else
            sread (s2.core l0).spad (if 128 = 0 then 0 else BitVec.toNat ((s2.core l0).getX 1) % 2 ^ 18 / 16 * 16) 128)) =
      none) ∧
    ductusRsv (rW 63 1 0 0 0 0) true false false false = false) ∧
  ((DReads s3 c0 l0 1 [1] (if 64 = 0 then 0 else BitVec.toNat ((s3.core l0).getX 1) % 2 ^ 18 / 16 * 16) 64 ∧
      tgetD (s3.ductus (s3.phys l0.p l0.l)).q 1 [] ≠ []) ∧
    (splitBad
        (if 64 = 0 then BitVec.toNat ((s3.core l0).getX 1)
        else sread (s3.core l0).spad (if 64 = 0 then 0 else BitVec.toNat ((s3.core l0).getX 1) % 2 ^ 18 / 16 * 16) 64) =
      false) ∧
    ductusRsv (rW 63 1 0 0 0 0) true false false false = false) ∧
  ((DReads s4 c0 l0 2 [1] (if 128 = 0 then 0 else BitVec.toNat ((s4.core l0).getX 1) % 2 ^ 18 / 16 * 16) 128 ∧
      tgetD (s4.ductus (s4.phys l0.p l0.l)).q 2 [] ≠ []) ∧
    (firstErr
        (layerErrs
          (if 128 = 0 then BitVec.toNat ((s4.core l0).getX 1)
          else
            sread (s4.core l0).spad (if 128 = 0 then 0 else BitVec.toNat ((s4.core l0).getX 1) % 2 ^ 18 / 16 * 16) 128)) =
      none) ∧
    ductusRsv (rW 63 1 7 0 0 0) true true false true = false ∧ Writable (s4.core l0) 7) ∧
  ((DReads s4 c0 l0 2 [1] (if 128 = 0 then 0 else BitVec.toNat ((s4.core l0).getX 1) % 2 ^ 18 / 16 * 16) 128 ∧
      tgetD (s4.ductus (s4.phys l0.p l0.l)).q 2 [] ≠ []) ∧
    (firstErr
        (layerErrs
          (if 128 = 0 then BitVec.toNat ((s4.core l0).getX 1)
          else
            sread (s4.core l0).spad (if 128 = 0 then 0 else BitVec.toNat ((s4.core l0).getX 1) % 2 ^ 18 / 16 * 16) 128)) =
      none) ∧
    ductusRsv (rW 63 1 0 0 1 0) true false false true = false ∧ 1 < 2 ∧
    (genLive
        (lyGEN
          (if 128 = 0 then BitVec.toNat ((s4.core l0).getX 1)
          else sread (s4.core l0).spad (if 128 = 0 then 0 else BitVec.toNat ((s4.core l0).getX 1) % 2 ^ 18 / 16 * 16) 128))
        ((s4.ductus (s4.phys l0.p l0.l)).floorOf l0.s) =
      true) ∧
    ((s4.ductus (s4.phys l0.p l0.l)).find l0.s
        (lyBATCH
          (if 128 = 0 then BitVec.toNat ((s4.core l0).getX 1)
          else sread (s4.core l0).spad (if 128 = 0 then 0 else BitVec.toNat ((s4.core l0).getX 1) % 2 ^ 18 / 16 * 16) 128))
        (lyGEN
          (if 128 = 0 then BitVec.toNat ((s4.core l0).getX 1)
          else sread (s4.core l0).spad (if 128 = 0 then 0 else BitVec.toNat ((s4.core l0).getX 1) % 2 ^ 18 / 16 * 16) 128))
        1 =
      none) ∧
    (s4.ductus (s4.phys l0.p l0.l)).freeEntry l0.s = some 112) ∧
  ((DReads s5 c0 l0 2 [1, 4] (if 32 = 0 then 0 else BitVec.toNat ((s5.core l0).getX 1) % 2 ^ 18 / 1 * 1) 32 ∧
      tgetD (s5.ductus (s5.phys l0.p l0.l)).q 2 [] ≠ []) ∧
    ductusRsv (rW 63 1 0 4 2 0) true false true true = false ∧
    (itSEG
        (if 32 = 0 then BitVec.toNat ((s5.core l0).getX 1)
        else sread (s5.core l0).spad (if 32 = 0 then 0 else BitVec.toNat ((s5.core l0).getX 1) % 2 ^ 18 / 1 * 1) 32) =
      0) ∧
    (0 <
      itSEGS
        (if 32 = 0 then BitVec.toNat ((s5.core l0).getX 1)
        else sread (s5.core l0).spad (if 32 = 0 then 0 else BitVec.toNat ((s5.core l0).getX 1) % 2 ^ 18 / 1 * 1) 32))) ∧
  ((DReads s6 c0 l0 3 [1, 3] (if 128 = 0 then 0 else BitVec.toNat ((s6.core l0).getX 1) % 2 ^ 18 / 16 * 16) 128 ∧
      tgetD (s6.ductus (s6.phys l0.p l0.l)).q 3 [] ≠ []) ∧
    (firstErr
        (layerErrs
          (if 128 = 0 then BitVec.toNat ((s6.core l0).getX 1)
          else
            sread (s6.core l0).spad (if 128 = 0 then 0 else BitVec.toNat ((s6.core l0).getX 1) % 2 ^ 18 / 16 * 16) 128)) =
      none) ∧
    ductusRsv (rW 63 1 3 0 6 0) true true false false = false ∧ 6 < 8 ∧ 6 % 2 = 0 ∧
    (((s6.ductus (s6.phys l0.p l0.l)).find l0.s (keyOf (BitVec.toNat ((s6.core l0).getX 3))).1
          (keyOf (BitVec.toNat ((s6.core l0).getX 3))).2.1 (keyOf (BitVec.toNat ((s6.core l0).getX 3))).2.2).isSome =
      true)) ∧
  ((DReads s7 c0 l0 3 [1, 6, 4] (if 0 = 0 then 0 else BitVec.toNat ((s7.core l0).getX 1) % 2 ^ 18 / 1 * 1) 0 ∧
      tgetD (s7.ductus (s7.phys l0.p l0.l)).q 3 [] ≠ []) ∧
    ductusRsv (rW 63 1 6 4 1 0) true true true false = false ∧ shapeBad ((s7.core l0).getX 6) = false) ∧
  ((DReads s4 c0 l0 2 [3] (if 0 = 0 then 0 else BitVec.toNat ((s4.core l0).getX 0) % 2 ^ 18 / 1 * 1) 0 ∧
      tgetD (s4.ductus (s4.phys l0.p l0.l)).q 2 [] ≠ []) ∧
    ductusRsv (rW 63 0 3 0 1 0) false true false false = false ∧ 1 < 2) := by (repeat' apply And.intro) <;> decide +kernel

theorem witness_DuctusSelectsAndCounts :
  (zLd.noGate l0 (sread (zLd.core l0).spad (BitVec.toNat ((zLd.core l0).getX 1) % 2 ^ 18 / 16 * 16) 128) = false ∧
    DReads zLd c0 l0 0 [1] (BitVec.toNat ((zLd.core l0).getX 1) % 2 ^ 18 / 16 * 16) 128 ∧ DIdle zLd (zLd.phys l0.p l0.l) 0 ∧
    firstErr (layerErrs (sread (zLd.core l0).spad (BitVec.toNat ((zLd.core l0).getX 1) % 2 ^ 18 / 16 * 16) 128)) = none ∧
    ductusRsv (rW 63 1 0 0 0 0) true false false false = false ∧
    (((zLd.setCore l0 ((zLd.core l0).adv 16)).ductusTaken (zLd.phys l0.p l0.l) 0
            (ductusOp (zLd.core l0) l0 176 (rW 63 1 0 0 0 0)
              (sread (zLd.core l0).spad (BitVec.toNat ((zLd.core l0).getX 1) % 2 ^ 18 / 16 * 16) 128))).tblCheck
        (ductusOp (zLd.core l0) l0 176 (rW 63 1 0 0 0 0)
          (sread (zLd.core l0).spad (BitVec.toNat ((zLd.core l0).getX 1) % 2 ^ 18 / 16 * 16) 128))
        [(lySCORES (sread (zLd.core l0).spad (BitVec.toNat ((zLd.core l0).getX 1) % 2 ^ 18 / 16 * 16) 128), 0,
            4 *
              (lyN (sread (zLd.core l0).spad (BitVec.toNat ((zLd.core l0).getX 1) % 2 ^ 18 / 16 * 16) 128) *
                lyE (sread (zLd.core l0).spad (BitVec.toNat ((zLd.core l0).getX 1) % 2 ^ 18 / 16 * 16) 128)),
            false),
          (lySCORES (sread (zLd.core l0).spad (BitVec.toNat ((zLd.core l0).getX 1) % 2 ^ 18 / 16 * 16) 128), 0,
            4 *
              (lyN (sread (zLd.core l0).spad (BitVec.toNat ((zLd.core l0).getX 1) % 2 ^ 18 / 16 * 16) 128) *
                lyE (sread (zLd.core l0).spad (BitVec.toNat ((zLd.core l0).getX 1) % 2 ^ 18 / 16 * 16) 128)),
            true)] =
      TblCheck.ok)) ∧
  (DReads zLd c0 l0 0 [1] (BitVec.toNat ((zLd.core l0).getX 1) % 2 ^ 18 / 16 * 16) 128 ∧ DIdle zLd (zLd.phys l0.p l0.l) 0 ∧
    firstErr (layerErrs (sread (zLd.core l0).spad (BitVec.toNat ((zLd.core l0).getX 1) % 2 ^ 18 / 16 * 16) 128)) = none ∧
    ductusRsv (rW 63 1 0 0 0 0) true false false false = false ∧
    (((zLd.setCore l0 ((zLd.core l0).adv 16)).ductusTaken (zLd.phys l0.p l0.l) 0
            (ductusOp (zLd.core l0) l0 177 (rW 63 1 0 0 0 0)
              (sread (zLd.core l0).spad (BitVec.toNat ((zLd.core l0).getX 1) % 2 ^ 18 / 16 * 16) 128))).tblCheck
        (ductusOp (zLd.core l0) l0 177 (rW 63 1 0 0 0 0)
          (sread (zLd.core l0).spad (BitVec.toNat ((zLd.core l0).getX 1) % 2 ^ 18 / 16 * 16) 128))
        [(lySCORES (sread (zLd.core l0).spad (BitVec.toNat ((zLd.core l0).getX 1) % 2 ^ 18 / 16 * 16) 128), 0,
            4 *
              (lyN (sread (zLd.core l0).spad (BitVec.toNat ((zLd.core l0).getX 1) % 2 ^ 18 / 16 * 16) 128) *
                lyE (sread (zLd.core l0).spad (BitVec.toNat ((zLd.core l0).getX 1) % 2 ^ 18 / 16 * 16) 128)),
            false),
          (lySEL (sread (zLd.core l0).spad (BitVec.toNat ((zLd.core l0).getX 1) % 2 ^ 18 / 16 * 16) 128), 0,
            16 * lyN (sread (zLd.core l0).spad (BitVec.toNat ((zLd.core l0).getX 1) % 2 ^ 18 / 16 * 16) 128) *
              lyK (sread (zLd.core l0).spad (BitVec.toNat ((zLd.core l0).getX 1) % 2 ^ 18 / 16 * 16) 128),
            true)] =
      TblCheck.ok)) ∧
  (DReads zLd c0 l0 0 [1] (BitVec.toNat ((zLd.core l0).getX 1) % 2 ^ 18 / 16 * 16) 128 ∧ DIdle zLd (zLd.phys l0.p l0.l) 0 ∧
    firstErr (layerErrs (sread (zLd.core l0).spad (BitVec.toNat ((zLd.core l0).getX 1) % 2 ^ 18 / 16 * 16) 128)) = none ∧
    ductusRsv (rW 63 1 0 0 1 0) true false false false = false ∧
    (((zLd.setCore l0 ((zLd.core l0).adv 16)).ductusTaken (zLd.phys l0.p l0.l) 0
            (ductusOp (zLd.core l0) l0 178 (rW 63 1 0 0 1 0)
              (sread (zLd.core l0).spad (BitVec.toNat ((zLd.core l0).getX 1) % 2 ^ 18 / 16 * 16) 128))).tblCheck
        (ductusOp (zLd.core l0) l0 178 (rW 63 1 0 0 1 0)
          (sread (zLd.core l0).spad (BitVec.toNat ((zLd.core l0).getX 1) % 2 ^ 18 / 16 * 16) 128))
        [(lySEL (sread (zLd.core l0).spad (BitVec.toNat ((zLd.core l0).getX 1) % 2 ^ 18 / 16 * 16) 128), 0,
            16 * lyN (sread (zLd.core l0).spad (BitVec.toNat ((zLd.core l0).getX 1) % 2 ^ 18 / 16 * 16) 128) *
              lyK (sread (zLd.core l0).spad (BitVec.toNat ((zLd.core l0).getX 1) % 2 ^ 18 / 16 * 16) 128),
            false),
          (lySEL (sread (zLd.core l0).spad (BitVec.toNat ((zLd.core l0).getX 1) % 2 ^ 18 / 16 * 16) 128), 0,
            16 * lyN (sread (zLd.core l0).spad (BitVec.toNat ((zLd.core l0).getX 1) % 2 ^ 18 / 16 * 16) 128) *
              lyK (sread (zLd.core l0).spad (BitVec.toNat ((zLd.core l0).getX 1) % 2 ^ 18 / 16 * 16) 128),
            true)] =
      TblCheck.ok)) ∧
  (DReads zLd c0 l0 1 [1] (BitVec.toNat ((zLd.core l0).getX 1) % 2 ^ 18 / 16 * 16) 128 ∧ DIdle zLd (zLd.phys l0.p l0.l) 1 ∧
    firstErr (layerErrs (sread (zLd.core l0).spad (BitVec.toNat ((zLd.core l0).getX 1) % 2 ^ 18 / 16 * 16) 128)) = none ∧
    ductusRsv (rW 63 1 0 0 0 0) true false false false = false ∧
    (((zLd.setCore l0 ((zLd.core l0).adv 16)).ductusTaken (zLd.phys l0.p l0.l) 1
            (ductusOp (zLd.core l0) l0 179 (rW 63 1 0 0 0 0)
              (sread (zLd.core l0).spad (BitVec.toNat ((zLd.core l0).getX 1) % 2 ^ 18 / 16 * 16) 128))).tblCheck
        (ductusOp (zLd.core l0) l0 179 (rW 63 1 0 0 0 0)
          (sread (zLd.core l0).spad (BitVec.toNat ((zLd.core l0).getX 1) % 2 ^ 18 / 16 * 16) 128))
        [(lySEL (sread (zLd.core l0).spad (BitVec.toNat ((zLd.core l0).getX 1) % 2 ^ 18 / 16 * 16) 128), 0,
            16 * lyN (sread (zLd.core l0).spad (BitVec.toNat ((zLd.core l0).getX 1) % 2 ^ 18 / 16 * 16) 128) *
              lyK (sread (zLd.core l0).spad (BitVec.toNat ((zLd.core l0).getX 1) % 2 ^ 18 / 16 * 16) 128),
            false),
          (lySEL (sread (zLd.core l0).spad (BitVec.toNat ((zLd.core l0).getX 1) % 2 ^ 18 / 16 * 16) 128), 0,
            16 * lyN (sread (zLd.core l0).spad (BitVec.toNat ((zLd.core l0).getX 1) % 2 ^ 18 / 16 * 16) 128) *
              lyK (sread (zLd.core l0).spad (BitVec.toNat ((zLd.core l0).getX 1) % 2 ^ 18 / 16 * 16) 128),
            true),
          (lyCNT (sread (zLd.core l0).spad (BitVec.toNat ((zLd.core l0).getX 1) % 2 ^ 18 / 16 * 16) 128), 0,
            8 * lyE (sread (zLd.core l0).spad (BitVec.toNat ((zLd.core l0).getX 1) % 2 ^ 18 / 16 * 16) 128), true)] =
      TblCheck.ok)) ∧
  (DReads zLd c0 l0 1 [1] (BitVec.toNat ((zLd.core l0).getX 1) % 2 ^ 18 / 16 * 16) 128 ∧ DIdle zLd (zLd.phys l0.p l0.l) 1 ∧
    firstErr (layerErrs (sread (zLd.core l0).spad (BitVec.toNat ((zLd.core l0).getX 1) % 2 ^ 18 / 16 * 16) 128)) = none ∧
    ductusRsv (rW 63 1 0 0 0 0) true false false false = false ∧
    (((zLd.setCore l0 ((zLd.core l0).adv 16)).ductusTaken (zLd.phys l0.p l0.l) 1
            (ductusOp (zLd.core l0) l0 180 (rW 63 1 0 0 0 0)
              (sread (zLd.core l0).spad (BitVec.toNat ((zLd.core l0).getX 1) % 2 ^ 18 / 16 * 16) 128))).tblCheck
        (ductusOp (zLd.core l0) l0 180 (rW 63 1 0 0 0 0)
          (sread (zLd.core l0).spad (BitVec.toNat ((zLd.core l0).getX 1) % 2 ^ 18 / 16 * 16) 128))
        [(lyCNT (sread (zLd.core l0).spad (BitVec.toNat ((zLd.core l0).getX 1) % 2 ^ 18 / 16 * 16) 128), 0,
            8 * lyE (sread (zLd.core l0).spad (BitVec.toNat ((zLd.core l0).getX 1) % 2 ^ 18 / 16 * 16) 128), false),
          (lyOFFS (sread (zLd.core l0).spad (BitVec.toNat ((zLd.core l0).getX 1) % 2 ^ 18 / 16 * 16) 128), 0,
            8 * lyE (sread (zLd.core l0).spad (BitVec.toNat ((zLd.core l0).getX 1) % 2 ^ 18 / 16 * 16) 128), true)] =
      TblCheck.ok)) := by (repeat' apply And.intro) <;> decide +kernel

theorem witness_DuctusHistAndSplit :
  ((∀ x ∈ recs0, x.1 < 2 ^ 128 ∧ x.2 < 2)) ∧
  ((∀ x ∈ recs0, x.1 < 2 ^ 128 ∧ x.2 < 2) ∧ 0 < 2 ∧ 1 < 2) ∧
  ((∀ x ∈ recs0, x.1 < 2 ^ 128 ∧ x.2 < 2) ∧ 1 < 2 ∧ 0 < 2) ∧
  (0 < 100) ∧
  ([5, 3, 3, 9] ≠ []) ∧
  (DReads s8 c0 l0 1 [1] (BitVec.toNat ((s8.core l0).getX 1) % 2 ^ 18 / 16 * 16) 64 ∧ DIdle s8 (s8.phys l0.p l0.l) 1 ∧
    splitBad (sread (s8.core l0).spad (BitVec.toNat ((s8.core l0).getX 1) % 2 ^ 18 / 16 * 16) 64) = false ∧
    ductusRsv (rW 63 1 0 0 0 0) true false false false = false ∧
    (((s8.setCore l0 ((s8.core l0).adv 16)).ductusTaken (s8.phys l0.p l0.l) 1
            (ductusOp (s8.core l0) l0 186 (rW 63 1 0 0 0 0)
              (sread (s8.core l0).spad (BitVec.toNat ((s8.core l0).getX 1) % 2 ^ 18 / 16 * 16) 64))).tblCheck
        (ductusOp (s8.core l0) l0 186 (rW 63 1 0 0 0 0)
          (sread (s8.core l0).spad (BitVec.toNat ((s8.core l0).getX 1) % 2 ^ 18 / 16 * 16) 64))
        [(spHOME (sread (s8.core l0).spad (BitVec.toNat ((s8.core l0).getX 1) % 2 ^ 18 / 16 * 16) 64), 0,
            16 * spNHOME (sread (s8.core l0).spad (BitVec.toNat ((s8.core l0).getX 1) % 2 ^ 18 / 16 * 16) 64), false)] =
      TblCheck.ok) ∧
    (((s8.setCore l0 ((s8.core l0).adv 16)).ductusTaken (s8.phys l0.p l0.l) 1
            (ductusOp (s8.core l0) l0 186 (rW 63 1 0 0 0 0)
              (sread (s8.core l0).spad (BitVec.toNat ((s8.core l0).getX 1) % 2 ^ 18 / 16 * 16) 64))).tblCheck
        (ductusOp (s8.core l0) l0 186 (rW 63 1 0 0 0 0)
          (sread (s8.core l0).spad (BitVec.toNat ((s8.core l0).getX 1) % 2 ^ 18 / 16 * 16) 64))
        (List.map (fun b => (b.1, 0, 8, false))
          (inboxes (sread (s8.core l0).spad (BitVec.toNat ((s8.core l0).getX 1) % 2 ^ 18 / 16 * 16) 64)
            (((s8.setCore l0 ((s8.core l0).adv 16)).ductusTaken (s8.phys l0.p l0.l) 1
                  (ductusOp (s8.core l0) l0 186 (rW 63 1 0 0 0 0)
                    (sread (s8.core l0).spad (BitVec.toNat ((s8.core l0).getX 1) % 2 ^ 18 / 16 * 16) 64))).rdT
              (ductusOp (s8.core l0) l0 186 (rW 63 1 0 0 0 0)
                (sread (s8.core l0).spad (BitVec.toNat ((s8.core l0).getX 1) % 2 ^ 18 / 16 * 16) 64))
              (spHOME (sread (s8.core l0).spad (BitVec.toNat ((s8.core l0).getX 1) % 2 ^ 18 / 16 * 16) 64)) 0
              (16 * spNHOME (sread (s8.core l0).spad (BitVec.toNat ((s8.core l0).getX 1) % 2 ^ 18 / 16 * 16) 64))))) =
      TblCheck.ok) ∧
    (((s8.setCore l0 ((s8.core l0).adv 16)).ductusTaken (s8.phys l0.p l0.l) 1
            (ductusOp (s8.core l0) l0 186 (rW 63 1 0 0 0 0)
              (sread (s8.core l0).spad (BitVec.toNat ((s8.core l0).getX 1) % 2 ^ 18 / 16 * 16) 64))).tblCheck
        (ductusOp (s8.core l0) l0 186 (rW 63 1 0 0 0 0)
          (sread (s8.core l0).spad (BitVec.toNat ((s8.core l0).getX 1) % 2 ^ 18 / 16 * 16) 64))
        (List.map (fun a => (a, 0, 64, false))
              (List.map
                  (fun b =>
                    List.map (fun i => b.1 + 64 + 64 * i)
                      (List.range
                        (min
                          (((s8.setCore l0 ((s8.core l0).adv 16)).ductusTaken (s8.phys l0.p l0.l) 1
                                (ductusOp (s8.core l0) l0 186 (rW 63 1 0 0 0 0)
                                  (sread (s8.core l0).spad (BitVec.toNat ((s8.core l0).getX 1) % 2 ^ 18 / 16 * 16) 64))).rdT
                            (ductusOp (s8.core l0) l0 186 (rW 63 1 0 0 0 0)
                              (sread (s8.core l0).spad (BitVec.toNat ((s8.core l0).getX 1) % 2 ^ 18 / 16 * 16) 64))
                            b.1 0 8)
                          b.2)))
                  (inboxes (sread (s8.core l0).spad (BitVec.toNat ((s8.core l0).getX 1) % 2 ^ 18 / 16 * 16) 64)
                    (((s8.setCore l0 ((s8.core l0).adv 16)).ductusTaken (s8.phys l0.p l0.l) 1
                          (ductusOp (s8.core l0) l0 186 (rW 63 1 0 0 0 0)
                            (sread (s8.core l0).spad (BitVec.toNat ((s8.core l0).getX 1) % 2 ^ 18 / 16 * 16) 64))).rdT
                      (ductusOp (s8.core l0) l0 186 (rW 63 1 0 0 0 0)
                        (sread (s8.core l0).spad (BitVec.toNat ((s8.core l0).getX 1) % 2 ^ 18 / 16 * 16) 64))
                      (spHOME (sread (s8.core l0).spad (BitVec.toNat ((s8.core l0).getX 1) % 2 ^ 18 / 16 * 16) 64)) 0
                      (16 *
                        spNHOME
                          (sread (s8.core l0).spad (BitVec.toNat ((s8.core l0).getX 1) % 2 ^ 18 / 16 * 16)
                            64))))).flatten ++
            List.map (fun a => (a, 0, 64, true))
              (List.map
                  (fun b =>
                    List.map (fun i => b.1 + 64 + 64 * i)
                      (List.range
                        (min
                          (((s8.setCore l0 ((s8.core l0).adv 16)).ductusTaken (s8.phys l0.p l0.l) 1
                                (ductusOp (s8.core l0) l0 186 (rW 63 1 0 0 0 0)
                                  (sread (s8.core l0).spad (BitVec.toNat ((s8.core l0).getX 1) % 2 ^ 18 / 16 * 16) 64))).rdT
                            (ductusOp (s8.core l0) l0 186 (rW 63 1 0 0 0 0)
                              (sread (s8.core l0).spad (BitVec.toNat ((s8.core l0).getX 1) % 2 ^ 18 / 16 * 16) 64))
                            b.1 0 8)
                          b.2)))
                  (inboxes (sread (s8.core l0).spad (BitVec.toNat ((s8.core l0).getX 1) % 2 ^ 18 / 16 * 16) 64)
                    (((s8.setCore l0 ((s8.core l0).adv 16)).ductusTaken (s8.phys l0.p l0.l) 1
                          (ductusOp (s8.core l0) l0 186 (rW 63 1 0 0 0 0)
                            (sread (s8.core l0).spad (BitVec.toNat ((s8.core l0).getX 1) % 2 ^ 18 / 16 * 16) 64))).rdT
                      (ductusOp (s8.core l0) l0 186 (rW 63 1 0 0 0 0)
                        (sread (s8.core l0).spad (BitVec.toNat ((s8.core l0).getX 1) % 2 ^ 18 / 16 * 16) 64))
                      (spHOME (sread (s8.core l0).spad (BitVec.toNat ((s8.core l0).getX 1) % 2 ^ 18 / 16 * 16) 64)) 0
                      (16 *
                        spNHOME
                          (sread (s8.core l0).spad (BitVec.toNat ((s8.core l0).getX 1) % 2 ^ 18 / 16 * 16)
                            64))))).flatten ++
          if spConsume (sread (s8.core l0).spad (BitVec.toNat ((s8.core l0).getX 1) % 2 ^ 18 / 16 * 16) 64) = true then
            List.map (fun b => (b.1, 0, 8, true))
              (inboxes (sread (s8.core l0).spad (BitVec.toNat ((s8.core l0).getX 1) % 2 ^ 18 / 16 * 16) 64)
                (((s8.setCore l0 ((s8.core l0).adv 16)).ductusTaken (s8.phys l0.p l0.l) 1
                      (ductusOp (s8.core l0) l0 186 (rW 63 1 0 0 0 0)
                        (sread (s8.core l0).spad (BitVec.toNat ((s8.core l0).getX 1) % 2 ^ 18 / 16 * 16) 64))).rdT
                  (ductusOp (s8.core l0) l0 186 (rW 63 1 0 0 0 0)
                    (sread (s8.core l0).spad (BitVec.toNat ((s8.core l0).getX 1) % 2 ^ 18 / 16 * 16) 64))
                  (spHOME (sread (s8.core l0).spad (BitVec.toNat ((s8.core l0).getX 1) % 2 ^ 18 / 16 * 16) 64)) 0
                  (16 * spNHOME (sread (s8.core l0).spad (BitVec.toNat ((s8.core l0).getX 1) % 2 ^ 18 / 16 * 16) 64))))
          else []) =
      TblCheck.ok) ∧
    (((s8.setCore l0 ((s8.core l0).adv 16)).ductusTaken (s8.phys l0.p l0.l) 1
            (ductusOp (s8.core l0) l0 186 (rW 63 1 0 0 0 0)
              (sread (s8.core l0).spad (BitVec.toNat ((s8.core l0).getX 1) % 2 ^ 18 / 16 * 16) 64))).tblCheck
        (ductusOp (s8.core l0) l0 186 (rW 63 1 0 0 0 0)
          (sread (s8.core l0).spad (BitVec.toNat ((s8.core l0).getX 1) % 2 ^ 18 / 16 * 16) 64))
        (if spNnz (sread (s8.core l0).spad (BitVec.toNat ((s8.core l0).getX 1) % 2 ^ 18 / 16 * 16) 64) = true then
          [(spCOST (sread (s8.core l0).spad (BitVec.toNat ((s8.core l0).getX 1) % 2 ^ 18 / 16 * 16) 64), 0,
              4 *
                listSum
                  (List.map (fun r => rcCOUNT r.2)
                    (List.filter (fun r => rcVALID r.2)
                      (List.map
                        (fun a =>
                          (a,
                            ((s8.setCore l0 ((s8.core l0).adv 16)).ductusTaken (s8.phys l0.p l0.l) 1
                                  (ductusOp (s8.core l0) l0 186 (rW 63 1 0 0 0 0)
                                    (sread (s8.core l0).spad (BitVec.toNat ((s8.core l0).getX 1) % 2 ^ 18 / 16 * 16)
                                      64))).rdT
                              (ductusOp (s8.core l0) l0 186 (rW 63 1 0 0 0 0)
                                (sread (s8.core l0).spad (BitVec.toNat ((s8.core l0).getX 1) % 2 ^ 18 / 16 * 16) 64))
                              a 0 64))
                        (List.map
                            (fun b =>
                              List.map (fun i => b.1 + 64 + 64 * i)
                                (List.range
                                  (min
                                    (((s8.setCore l0 ((s8.core l0).adv 16)).ductusTaken (s8.phys l0.p l0.l) 1
                                          (ductusOp (s8.core l0) l0 186 (rW 63 1 0 0 0 0)
                                            (sread (s8.core l0).spad (BitVec.toNat ((s8.core l0).getX 1) % 2 ^ 18 / 16 * 16)
                                              64))).rdT
                                      (ductusOp (s8.core l0) l0 186 (rW 63 1 0 0 0 0)
                                        (sread (s8.core l0).spad (BitVec.toNat ((s8.core l0).getX 1) % 2 ^ 18 / 16 * 16)
                                          64))
                                      b.1 0 8)
                                    b.2)))
                            (inboxes (sread (s8.core l0).spad (BitVec.toNat ((s8.core l0).getX 1) % 2 ^ 18 / 16 * 16) 64)
                              (((s8.setCore l0 ((s8.core l0).adv 16)).ductusTaken (s8.phys l0.p l0.l) 1
                                    (ductusOp (s8.core l0) l0 186 (rW 63 1 0 0 0 0)
                                      (sread (s8.core l0).spad (BitVec.toNat ((s8.core l0).getX 1) % 2 ^ 18 / 16 * 16)
                                        64))).rdT
                                (ductusOp (s8.core l0) l0 186 (rW 63 1 0 0 0 0)
                                  (sread (s8.core l0).spad (BitVec.toNat ((s8.core l0).getX 1) % 2 ^ 18 / 16 * 16) 64))
                                (spHOME
                                  (sread (s8.core l0).spad (BitVec.toNat ((s8.core l0).getX 1) % 2 ^ 18 / 16 * 16) 64))
                                0
                                (16 *
                                  spNHOME
                                    (sread (s8.core l0).spad (BitVec.toNat ((s8.core l0).getX 1) % 2 ^ 18 / 16 * 16)
                                      64))))).flatten))),
              false)]
        else []) =
      TblCheck.ok) ∧
    (((s8.setCore l0 ((s8.core l0).adv 16)).ductusTaken (s8.phys l0.p l0.l) 1
            (ductusOp (s8.core l0) l0 186 (rW 63 1 0 0 0 0)
              (sread (s8.core l0).spad (BitVec.toNat ((s8.core l0).getX 1) % 2 ^ 18 / 16 * 16) 64))).tblCheck
        (ductusOp (s8.core l0) l0 186 (rW 63 1 0 0 0 0)
          (sread (s8.core l0).spad (BitVec.toNat ((s8.core l0).getX 1) % 2 ^ 18 / 16 * 16) 64))
        (List.map
          (fun x =>
            (spWL (sread (s8.core l0).spad (BitVec.toNat ((s8.core l0).getX 1) % 2 ^ 18 / 16 * 16) 64),
              x.1 * spSTRIDE (sread (s8.core l0).spad (BitVec.toNat ((s8.core l0).getX 1) % 2 ^ 18 / 16 * 16) 64), x.2.2.1,
              true))
          (List.map
            (fun k =>
              (k,
                workList (spNnz (sread (s8.core l0).spad (BitVec.toNat ((s8.core l0).getX 1) % 2 ^ 18 / 16 * 16) 64))
                  (spSTRIDE (sread (s8.core l0).spad (BitVec.toNat ((s8.core l0).getX 1) % 2 ^ 18 / 16 * 16) 64))
                  (List.map Prod.snd
                    (List.filter (fun y => y.1 == k)
                      (deal (spNnz (sread (s8.core l0).spad (BitVec.toNat ((s8.core l0).getX 1) % 2 ^ 18 / 16 * 16) 64))
                        (List.map Prod.snd
                            (List.map
                              (fun x =>
                                match x with
                                | (r, j) =>
                                  (r.1,
                                    if
                                        spNnz
                                            (sread (s8.core l0).spad (BitVec.toNat ((s8.core l0).getX 1) % 2 ^ 18 / 16 * 16)
                                              64) =
                                          true then
                                      itemsNnz r.1
                                        (spBUDGET
                                          (sread (s8.core l0).spad (BitVec.toNat ((s8.core l0).getX 1) % 2 ^ 18 / 16 * 16)
                                            64))
                                        (rcCOUNT r.2) 0
                                        (List.take (rcCOUNT r.2)
                                          (List.drop
                                            (listSum
                                              (List.map (fun r => rcCOUNT r.2)
                                                (List.take j
                                                  (List.filter (fun r => rcVALID r.2)
                                                    (List.map
                                                      (fun a =>
                                                        (a,
                                                          ((s8.setCore l0 ((s8.core l0).adv 16)).ductusTaken
                                                                (s8.phys l0.p l0.l) 1
                                                                (ductusOp (s8.core l0) l0 186 (rW 63 1 0 0 0 0)
                                                                  (sread (s8.core l0).spad
                                                                    (BitVec.toNat ((s8.core l0).getX 1) % 2 ^ 18 / 16 * 16)
                                                                    64))).rdT
                                                            (ductusOp (s8.core l0) l0 186 (rW 63 1 0 0 0 0)
                                                              (sread (s8.core l0).spad
                                                                (BitVec.toNat ((s8.core l0).getX 1) % 2 ^ 18 / 16 * 16) 64))
                                                            a 0 64))
                                                      (List.map
                                                          (fun b =>
                                                            List.map (fun i => b.1 + 64 + 64 * i)
                                                              (List.range
                                                                (min
                                                                  (((s8.setCore l0 ((s8.core l0).adv 16)).ductusTaken
                                                                        (s8.phys l0.p l0.l) 1
                                                                        (ductusOp (s8.core l0) l0 186 (rW 63 1 0 0 0 0)
                                                                          (sread (s8.core l0).spad
                                                                            (BitVec.toNat ((s8.core l0).getX 1) % 2 ^ 18 /
                                                                                16 *
                                                                              16)
                                                                            64))).rdT
                                                                    (ductusOp (s8.core l0) l0 186 (rW 63 1 0 0 0 0)
                                                                      (sread (s8.core l0).spad
                                                                        (BitVec.toNat ((s8.core l0).getX 1) % 2 ^ 18 / 16 *
                                                                          16)
                                                                        64))
                                                                    b.1 0 8)
                                                                  b.2)))
                                                          (inboxes
                                                            (sread (s8.core l0).spad
                                                              (BitVec.toNat ((s8.core l0).getX 1) % 2 ^ 18 / 16 * 16) 64)
                                                            (((s8.setCore l0 ((s8.core l0).adv 16)).ductusTaken
                                                                  (s8.phys l0.p l0.l) 1
                                                                  (ductusOp (s8.core l0) l0 186 (rW 63 1 0 0 0 0)
                                                                    (sread (s8.core l0).spad
                                                                      (BitVec.toNat ((s8.core l0).getX 1) % 2 ^ 18 / 16 *
                                                                        16)
                                                                      64))).rdT
                                                              (ductusOp (s8.core l0) l0 186 (rW 63 1 0 0 0 0)
                                                                (sread (s8.core l0).spad
                                                                  (BitVec.toNat ((s8.core l0).getX 1) % 2 ^ 18 / 16 * 16)
                                                                  64))
                                                              (spHOME
                                                                (sread (s8.core l0).spad
                                                                  (BitVec.toNat ((s8.core l0).getX 1) % 2 ^ 18 / 16 * 16)
                                                                  64))
                                                              0
                                                              (16 *
                                                                spNHOME
                                                                  (sread (s8.core l0).spad
                                                                    (BitVec.toNat ((s8.core l0).getX 1) % 2 ^ 18 / 16 * 16)
                                                                    64))))).flatten)))))
                                            (splitN 32
                                              (listSum
                                                (List.map (fun r => rcCOUNT r.2)
                                                  (List.filter (fun r => rcVALID r.2)
                                                    (List.map
                                                      (fun a =>
                                                        (a,
                                                          ((s8.setCore l0 ((s8.core l0).adv 16)).ductusTaken
                                                                (s8.phys l0.p l0.l) 1
                                                                (ductusOp (s8.core l0) l0 186 (rW 63 1 0 0 0 0)
                                                                  (sread (s8.core l0).spad
                                                                    (BitVec.toNat ((s8.core l0).getX 1) % 2 ^ 18 / 16 * 16)
                                                                    64))).rdT
                                                            (ductusOp (s8.core l0) l0 186 (rW 63 1 0 0 0 0)
                                                              (sread (s8.core l0).spad
                                                                (BitVec.toNat ((s8.core l0).getX 1) % 2 ^ 18 / 16 * 16) 64))
                                                            a 0 64))
                                                      (List.map
                                                          (fun b =>
                                                            List.map (fun i => b.1 + 64 + 64 * i)
                                                              (List.range
                                                                (min
                                                                  (((s8.setCore l0 ((s8.core l0).adv 16)).ductusTaken
                                                                        (s8.phys l0.p l0.l) 1
                                                                        (ductusOp (s8.core l0) l0 186 (rW 63 1 0 0 0 0)
                                                                          (sread (s8.core l0).spad
                                                                            (BitVec.toNat ((s8.core l0).getX 1) % 2 ^ 18 /
                                                                                16 *
                                                                              16)
                                                                            64))).rdT
                                                                    (ductusOp (s8.core l0) l0 186 (rW 63 1 0 0 0 0)
                                                                      (sread (s8.core l0).spad
                                                                        (BitVec.toNat ((s8.core l0).getX 1) % 2 ^ 18 / 16 *
                                                                          16)
                                                                        64))
                                                                    b.1 0 8)
                                                                  b.2)))
                                                          (inboxes
                                                            (sread (s8.core l0).spad
                                                              (BitVec.toNat ((s8.core l0).getX 1) % 2 ^ 18 / 16 * 16) 64)
                                                            (((s8.setCore l0 ((s8.core l0).adv 16)).ductusTaken
                                                                  (s8.phys l0.p l0.l) 1
                                                                  (ductusOp (s8.core l0) l0 186 (rW 63 1 0 0 0 0)
                                                                    (sread (s8.core l0).spad
                                                                      (BitVec.toNat ((s8.core l0).getX 1) % 2 ^ 18 / 16 *
                                                                        16)
                                                                      64))).rdT
                                                              (ductusOp (s8.core l0) l0 186 (rW 63 1 0 0 0 0)
                                                                (sread (s8.core l0).spad
                                                                  (BitVec.toNat ((s8.core l0).getX 1) % 2 ^ 18 / 16 * 16)
                                                                  64))
                                                              (spHOME
                                                                (sread (s8.core l0).spad
                                                                  (BitVec.toNat ((s8.core l0).getX 1) % 2 ^ 18 / 16 * 16)
                                                                  64))
                                                              0
                                                              (16 *
                                                                spNHOME
                                                                  (sread (s8.core l0).spad
                                                                    (BitVec.toNat ((s8.core l0).getX 1) % 2 ^ 18 / 16 * 16)
                                                                    64))))).flatten))))
                                              (((s8.setCore l0 ((s8.core l0).adv 16)).ductusTaken (s8.phys l0.p l0.l) 1
                                                    (ductusOp (s8.core l0) l0 186 (rW 63 1 0 0 0 0)
                                                      (sread (s8.core l0).spad
                                                        (BitVec.toNat ((s8.core l0).getX 1) % 2 ^ 18 / 16 * 16) 64))).rdT
                                                (ductusOp (s8.core l0) l0 186 (rW 63 1 0 0 0 0)
                                                  (sread (s8.core l0).spad
                                                    (BitVec.toNat ((s8.core l0).getX 1) % 2 ^ 18 / 16 * 16) 64))
                                                (spCOST
                                                  (sread (s8.core l0).spad
                                                    (BitVec.toNat ((s8.core l0).getX 1) % 2 ^ 18 / 16 * 16) 64))
                                                0
                                                (4 *
                                                  listSum
                                                    (List.map (fun r => rcCOUNT r.2)
                                                      (List.filter (fun r => rcVALID r.2)
                                                        (List.map
                                                          (fun a =>
                                                            (a,
                                                              ((s8.setCore l0 ((s8.core l0).adv 16)).ductusTaken
                                                                    (s8.phys l0.p l0.l) 1
                                                                    (ductusOp (s8.core l0) l0 186 (rW 63 1 0 0 0 0)
                                                                      (sread (s8.core l0).spad
                                                                        (BitVec.toNat ((s8.core l0).getX 1) % 2 ^ 18 / 16 *
                                                                          16)
                                                                        64))).rdT
                                                                (ductusOp (s8.core l0) l0 186 (rW 63 1 0 0 0 0)
                                                                  (sread (s8.core l0).spad
                                                                    (BitVec.toNat ((s8.core l0).getX 1) % 2 ^ 18 / 16 * 16)
                                                                    64))
                                                                a 0 64))
                                                          (List.map
                                                              (fun b =>
                                                                List.map (fun i => b.1 + 64 + 64 * i)
                                                                  (List.range
                                                                    (min
                                                                      (((s8.setCore l0 ((s8.core l0).adv 16)).ductusTaken
                                                                            (s8.phys l0.p l0.l) 1
                                                                            (ductusOp (s8.core l0) l0 186 (rW 63 1 0 0 0 0)
                                                                              (sread (s8.core l0).spad
                                                                                (BitVec.toNat ((s8.core l0).getX 1) %
                                                                                      2 ^ 18 /
                                                                                    16 *
                                                                                  16)
                                                                                64))).rdT
                                                                        (ductusOp (s8.core l0) l0 186 (rW 63 1 0 0 0 0)
                                                                          (sread (s8.core l0).spad
                                                                            (BitVec.toNat ((s8.core l0).getX 1) % 2 ^ 18 /
                                                                                16 *
                                                                              16)
                                                                            64))
                                                                        b.1 0 8)
                                                                      b.2)))
                                                              (inboxes
                                                                (sread (s8.core l0).spad
                                                                  (BitVec.toNat ((s8.core l0).getX 1) % 2 ^ 18 / 16 * 16)
                                                                  64)
                                                                (((s8.setCore l0 ((s8.core l0).adv 16)).ductusTaken
                                                                      (s8.phys l0.p l0.l) 1
                                                                      (ductusOp (s8.core l0) l0 186 (rW 63 1 0 0 0 0)
                                                                        (sread (s8.core l0).spad
                                                                          (BitVec.toNat ((s8.core l0).getX 1) % 2 ^ 18 /
                                                                              16 *
                                                                            16)
                                                                          64))).rdT
                                                                  (ductusOp (s8.core l0) l0 186 (rW 63 1 0 0 0 0)
                                                                    (sread (s8.core l0).spad
                                                                      (BitVec.toNat ((s8.core l0).getX 1) % 2 ^ 18 / 16 *
                                                                        16)
                                                                      64))
                                                                  (spHOME
                                                                    (sread (s8.core l0).spad
                                                                      (BitVec.toNat ((s8.core l0).getX 1) % 2 ^ 18 / 16 *
                                                                        16)
                                                                      64))
                                                                  0
                                                                  (16 *
                                                                    spNHOME
                                                                      (sread (s8.core l0).spad
                                                                        (BitVec.toNat ((s8.core l0).getX 1) % 2 ^ 18 / 16 *
                                                                          16)
                                                                        64))))).flatten))))))))
                                    else itemsDense r.1 (rcCOUNT r.2)))
                              ((List.filter (fun r => rcVALID r.2)
                                    (List.map
                                      (fun a =>
                                        (a,
                                          ((s8.setCore l0 ((s8.core l0).adv 16)).ductusTaken (s8.phys l0.p l0.l) 1
                                                (ductusOp (s8.core l0) l0 186 (rW 63 1 0 0 0 0)
                                                  (sread (s8.core l0).spad
                                                    (BitVec.toNat ((s8.core l0).getX 1) % 2 ^ 18 / 16 * 16) 64))).rdT
                                            (ductusOp (s8.core l0) l0 186 (rW 63 1 0 0 0 0)
                                              (sread (s8.core l0).spad
                                                (BitVec.toNat ((s8.core l0).getX 1) % 2 ^ 18 / 16 * 16) 64))
                                            a 0 64))
                                      (List.map
                                          (fun b =>
                                            List.map (fun i => b.1 + 64 + 64 * i)
                                              (List.range
                                                (min
                                                  (((s8.setCore l0 ((s8.core l0).adv 16)).ductusTaken (s8.phys l0.p l0.l) 1
                                                        (ductusOp (s8.core l0) l0 186 (rW 63 1 0 0 0 0)
                                                          (sread (s8.core l0).spad
                                                            (BitVec.toNat ((s8.core l0).getX 1) % 2 ^ 18 / 16 * 16)
                                                            64))).rdT
                                                    (ductusOp (s8.core l0) l0 186 (rW 63 1 0 0 0 0)
                                                      (sread (s8.core l0).spad
                                                        (BitVec.toNat ((s8.core l0).getX 1) % 2 ^ 18 / 16 * 16) 64))
                                                    b.1 0 8)
                                                  b.2)))
                                          (inboxes
                                            (sread (s8.core l0).spad (BitVec.toNat ((s8.core l0).getX 1) % 2 ^ 18 / 16 * 16)
                                              64)
                                            (((s8.setCore l0 ((s8.core l0).adv 16)).ductusTaken (s8.phys l0.p l0.l) 1
                                                  (ductusOp (s8.core l0) l0 186 (rW 63 1 0 0 0 0)
                                                    (sread (s8.core l0).spad
                                                      (BitVec.toNat ((s8.core l0).getX 1) % 2 ^ 18 / 16 * 16) 64))).rdT
                                              (ductusOp (s8.core l0) l0 186 (rW 63 1 0 0 0 0)
                                                (sread (s8.core l0).spad
                                                  (BitVec.toNat ((s8.core l0).getX 1) % 2 ^ 18 / 16 * 16) 64))
                                              (spHOME
                                                (sread (s8.core l0).spad
                                                  (BitVec.toNat ((s8.core l0).getX 1) % 2 ^ 18 / 16 * 16) 64))
                                              0
                                              (16 *
                                                spNHOME
                                                  (sread (s8.core l0).spad
                                                    (BitVec.toNat ((s8.core l0).getX 1) % 2 ^ 18 / 16 * 16)
                                                    64))))).flatten)).zip
                                (List.range
                                  (List.filter (fun r => rcVALID r.2)
                                      (List.map
                                        (fun a =>
                                          (a,
                                            ((s8.setCore l0 ((s8.core l0).adv 16)).ductusTaken (s8.phys l0.p l0.l) 1
                                                  (ductusOp (s8.core l0) l0 186 (rW 63 1 0 0 0 0)
                                                    (sread (s8.core l0).spad
                                                      (BitVec.toNat ((s8.core l0).getX 1) % 2 ^ 18 / 16 * 16) 64))).rdT
                                              (ductusOp (s8.core l0) l0 186 (rW 63 1 0 0 0 0)
                                                (sread (s8.core l0).spad
                                                  (BitVec.toNat ((s8.core l0).getX 1) % 2 ^ 18 / 16 * 16) 64))
                                              a 0 64))
                                        (List.map
                                            (fun b =>
                                              List.map (fun i => b.1 + 64 + 64 * i)
                                                (List.range
                                                  (min
                                                    (((s8.setCore l0 ((s8.core l0).adv 16)).ductusTaken (s8.phys l0.p l0.l)
                                                          1
                                                          (ductusOp (s8.core l0) l0 186 (rW 63 1 0 0 0 0)
                                                            (sread (s8.core l0).spad
                                                              (BitVec.toNat ((s8.core l0).getX 1) % 2 ^ 18 / 16 * 16)
                                                              64))).rdT
                                                      (ductusOp (s8.core l0) l0 186 (rW 63 1 0 0 0 0)
                                                        (sread (s8.core l0).spad
                                                          (BitVec.toNat ((s8.core l0).getX 1) % 2 ^ 18 / 16 * 16) 64))
                                                      b.1 0 8)
                                                    b.2)))
                                            (inboxes
                                              (sread (s8.core l0).spad
                                                (BitVec.toNat ((s8.core l0).getX 1) % 2 ^ 18 / 16 * 16) 64)
                                              (((s8.setCore l0 ((s8.core l0).adv 16)).ductusTaken (s8.phys l0.p l0.l) 1
                                                    (ductusOp (s8.core l0) l0 186 (rW 63 1 0 0 0 0)
                                                      (sread (s8.core l0).spad
                                                        (BitVec.toNat ((s8.core l0).getX 1) % 2 ^ 18 / 16 * 16) 64))).rdT
                                                (ductusOp (s8.core l0) l0 186 (rW 63 1 0 0 0 0)
                                                  (sread (s8.core l0).spad
                                                    (BitVec.toNat ((s8.core l0).getX 1) % 2 ^ 18 / 16 * 16) 64))
                                                (spHOME
                                                  (sread (s8.core l0).spad
                                                    (BitVec.toNat ((s8.core l0).getX 1) % 2 ^ 18 / 16 * 16) 64))
                                                0
                                                (16 *
                                                  spNHOME
                                                    (sread (s8.core l0).spad
                                                      (BitVec.toNat ((s8.core l0).getX 1) % 2 ^ 18 / 16 * 16)
                                                      64))))).flatten)).length)))).flatten
                        (List.replicate
                          (spNCORE (sread (s8.core l0).spad (BitVec.toNat ((s8.core l0).getX 1) % 2 ^ 18 / 16 * 16) 64))
                          0))))))
            (List.range (spNCORE (sread (s8.core l0).spad (BitVec.toNat ((s8.core l0).getX 1) % 2 ^ 18 / 16 * 16) 64))))) =
      TblCheck.ok)) := by (repeat' apply And.intro) <;> decide +kernel

theorem witness_DuctusExchange :
  (DReads zEx c0 l0 2 [1] (BitVec.toNat ((zEx.core l0).getX 1) % 2 ^ 18 / 16 * 16) 128 ∧ DIdle zEx (zEx.phys l0.p l0.l) 2 ∧
    firstErr (layerErrs (sread (zEx.core l0).spad (BitVec.toNat ((zEx.core l0).getX 1) % 2 ^ 18 / 16 * 16) 128)) = none ∧
    ductusRsv (rW 63 1 7 0 0 0) true true false true = false ∧ Writable (zEx.core l0) 7 ∧
    (((zEx.setCore l0
                ((if 7 = 0 then zEx.core l0
                    else
                      { (zEx.core l0) with xPend := addOnce (zEx.core l0).xPend 7 }).adv
                  16)).ductusTaken
            (zEx.phys l0.p l0.l) 2
            (ductusOp (zEx.core l0) l0 181 (rW 63 1 7 0 0 0)
              (sread (zEx.core l0).spad (BitVec.toNat ((zEx.core l0).getX 1) % 2 ^ 18 / 16 * 16) 128))).tblCheck
        (ductusOp (zEx.core l0) l0 181 (rW 63 1 7 0 0 0)
          (sread (zEx.core l0).spad (BitVec.toNat ((zEx.core l0).getX 1) % 2 ^ 18 / 16 * 16) 128))
        (dallocTables
          (ductusOp (zEx.core l0) l0 181 (rW 63 1 7 0 0 0)
            (sread (zEx.core l0).spad (BitVec.toNat ((zEx.core l0).getX 1) % 2 ^ 18 / 16 * 16) 128))) =
      TblCheck.ok)) ∧
  (DReads zEx c0 l0 2 [1] (BitVec.toNat ((zEx.core l0).getX 1) % 2 ^ 18 / 16 * 16) 128 ∧ DIdle zEx (zEx.phys l0.p l0.l) 2 ∧
    firstErr (layerErrs (sread (zEx.core l0).spad (BitVec.toNat ((zEx.core l0).getX 1) % 2 ^ 18 / 16 * 16) 128)) = none ∧
    ductusRsv (rW 63 1 0 0 0 0) true false false true = false ∧ 0 < 2 ∧
    (genLive (lyGEN (sread (zEx.core l0).spad (BitVec.toNat ((zEx.core l0).getX 1) % 2 ^ 18 / 16 * 16) 128))
        ((zEx.ductus (zEx.phys l0.p l0.l)).floorOf l0.s) =
      true) ∧
    ((zEx.ductus (zEx.phys l0.p l0.l)).find l0.s
        (lyBATCH (sread (zEx.core l0).spad (BitVec.toNat ((zEx.core l0).getX 1) % 2 ^ 18 / 16 * 16) 128))
        (lyGEN (sread (zEx.core l0).spad (BitVec.toNat ((zEx.core l0).getX 1) % 2 ^ 18 / 16 * 16) 128)) 0 =
      none) ∧
    (zEx.ductus (zEx.phys l0.p l0.l)).freeEntry l0.s = some 112 ∧
    ((((zEx.setCore l0 ((zEx.core l0).adv 16)).setDuctus (zEx.phys l0.p l0.l)
                { (zEx.ductus (zEx.phys l0.p l0.l)) with ct := tput (zEx.ductus (zEx.phys l0.p l0.l)).ct 112 (openedEntry (sread (zEx.core l0).spad (BitVec.toNat ((zEx.core l0).getX 1) % 2 ^ 18 / 16 * 16) 128) 0) }).ductusTaken
            (zEx.phys l0.p l0.l) 2
            (ductusOp (zEx.core l0) l0 182 (rW 63 1 0 0 0 0)
              (sread (zEx.core l0).spad (BitVec.toNat ((zEx.core l0).getX 1) % 2 ^ 18 / 16 * 16) 128))).tblCheck
        (ductusOp (zEx.core l0) l0 182 (rW 63 1 0 0 0 0)
          (sread (zEx.core l0).spad (BitVec.toNat ((zEx.core l0).getX 1) % 2 ^ 18 / 16 * 16) 128))
        [(lySEL (sread (zEx.core l0).spad (BitVec.toNat ((zEx.core l0).getX 1) % 2 ^ 18 / 16 * 16) 128), 0,
            16 *
              (lyN (sread (zEx.core l0).spad (BitVec.toNat ((zEx.core l0).getX 1) % 2 ^ 18 / 16 * 16) 128) *
                lyK (sread (zEx.core l0).spad (BitVec.toNat ((zEx.core l0).getX 1) % 2 ^ 18 / 16 * 16) 128)),
            false),
          (lyCNT (sread (zEx.core l0).spad (BitVec.toNat ((zEx.core l0).getX 1) % 2 ^ 18 / 16 * 16) 128), 0,
            8 * lyE (sread (zEx.core l0).spad (BitVec.toNat ((zEx.core l0).getX 1) % 2 ^ 18 / 16 * 16) 128), false),
          (lyOFFS (sread (zEx.core l0).spad (BitVec.toNat ((zEx.core l0).getX 1) % 2 ^ 18 / 16 * 16) 128), 0,
            8 * lyE (sread (zEx.core l0).spad (BitVec.toNat ((zEx.core l0).getX 1) % 2 ^ 18 / 16 * 16) 128), false),
          (lyEMAP (sread (zEx.core l0).spad (BitVec.toNat ((zEx.core l0).getX 1) % 2 ^ 18 / 16 * 16) 128), 0,
            16 * lyE (sread (zEx.core l0).spad (BitVec.toNat ((zEx.core l0).getX 1) % 2 ^ 18 / 16 * 16) 128), false),
          (lyALLOC (sread (zEx.core l0).spad (BitVec.toNat ((zEx.core l0).getX 1) % 2 ^ 18 / 16 * 16) 128), 0,
            32 * lyE (sread (zEx.core l0).spad (BitVec.toNat ((zEx.core l0).getX 1) % 2 ^ 18 / 16 * 16) 128), false)] =
      TblCheck.ok) ∧
    ((((zEx.setCore l0 ((zEx.core l0).adv 16)).setDuctus (zEx.phys l0.p l0.l)
                { (zEx.ductus (zEx.phys l0.p l0.l)) with ct := tput (zEx.ductus (zEx.phys l0.p l0.l)).ct 112 (openedEntry (sread (zEx.core l0).spad (BitVec.toNat ((zEx.core l0).getX 1) % 2 ^ 18 / 16 * 16) 128) 0) }).ductusTaken
            (zEx.phys l0.p l0.l) 2
            (ductusOp (zEx.core l0) l0 182 (rW 63 1 0 0 0 0)
              (sread (zEx.core l0).spad (BitVec.toNat ((zEx.core l0).getX 1) % 2 ^ 18 / 16 * 16) 128))).tblCheck
        (ductusOp (zEx.core l0) l0 182 (rW 63 1 0 0 0 0)
          (sread (zEx.core l0).spad (BitVec.toNat ((zEx.core l0).getX 1) % 2 ^ 18 / 16 * 16) 128))
        (List.map
            (fun x =>
              List.map
                (fun y =>
                  (lyTOK (sread (zEx.core l0).spad (BitVec.toNat ((zEx.core l0).getX 1) % 2 ^ 18 / 16 * 16) 128), y.2.1,
                    y.2.2, false))
                (linePieces (sread (zEx.core l0).spad (BitVec.toNat ((zEx.core l0).getX 1) % 2 ^ 18 / 16 * 16) 128)
                  (x.2 / lyK (sread (zEx.core l0).spad (BitVec.toNat ((zEx.core l0).getX 1) % 2 ^ 18 / 16 * 16) 128)) 0))
            (List.filter
              (fun x =>
                bits x.1 96 2 == 0 &&
                  lyHalf (sread (zEx.core l0).spad (BitVec.toNat ((zEx.core l0).getX 1) % 2 ^ 18 / 16 * 16) 128)
                      (x.2 / lyK (sread (zEx.core l0).spad (BitVec.toNat ((zEx.core l0).getX 1) % 2 ^ 18 / 16 * 16) 128)) ==
                    0)
              ((splitN 128
                    (lyN (sread (zEx.core l0).spad (BitVec.toNat ((zEx.core l0).getX 1) % 2 ^ 18 / 16 * 16) 128) *
                      lyK (sread (zEx.core l0).spad (BitVec.toNat ((zEx.core l0).getX 1) % 2 ^ 18 / 16 * 16) 128))
                    ((((zEx.setCore l0 ((zEx.core l0).adv 16)).setDuctus (zEx.phys l0.p l0.l)
                              { (zEx.ductus (zEx.phys l0.p l0.l)) with ct := tput (zEx.ductus (zEx.phys l0.p l0.l)).ct 112 (openedEntry (sread (zEx.core l0).spad (BitVec.toNat ((zEx.core l0).getX 1) % 2 ^ 18 / 16 * 16) 128) 0) }).ductusTaken
                          (zEx.phys l0.p l0.l) 2
                          (ductusOp (zEx.core l0) l0 182 (rW 63 1 0 0 0 0)
                            (sread (zEx.core l0).spad (BitVec.toNat ((zEx.core l0).getX 1) % 2 ^ 18 / 16 * 16) 128))).rdT
                      (ductusOp (zEx.core l0) l0 182 (rW 63 1 0 0 0 0)
                        (sread (zEx.core l0).spad (BitVec.toNat ((zEx.core l0).getX 1) % 2 ^ 18 / 16 * 16) 128))
                      (lySEL (sread (zEx.core l0).spad (BitVec.toNat ((zEx.core l0).getX 1) % 2 ^ 18 / 16 * 16) 128)) 0
                      (16 *
                        (lyN (sread (zEx.core l0).spad (BitVec.toNat ((zEx.core l0).getX 1) % 2 ^ 18 / 16 * 16) 128) *
                          lyK
                            (sread (zEx.core l0).spad (BitVec.toNat ((zEx.core l0).getX 1) % 2 ^ 18 / 16 * 16) 128))))).zip
                (List.range
                  (lyN (sread (zEx.core l0).spad (BitVec.toNat ((zEx.core l0).getX 1) % 2 ^ 18 / 16 * 16) 128) *
                    lyK
                      (sread (zEx.core l0).spad (BitVec.toNat ((zEx.core l0).getX 1) % 2 ^ 18 / 16 * 16) 128)))))).flatten =
      TblCheck.ok)) ∧
  (DReads s9 c0 l0 2 [1, 4] (BitVec.toNat ((s9.core l0).getX 1) % 2 ^ 18) 32 ∧ DIdle s9 (s9.phys l0.p l0.l) 2 ∧
    ductusRsv (rW 63 1 0 4 2 0) true false true true = false ∧
    itSEG (sread (s9.core l0).spad (BitVec.toNat ((s9.core l0).getX 1) % 2 ^ 18) 32) = 0 ∧
    0 < itSEGS (sread (s9.core l0).spad (BitVec.toNat ((s9.core l0).getX 1) % 2 ^ 18) 32) ∧
    (((s9.setCore l0 ((s9.core l0).adv 16)).ductusTaken (s9.phys l0.p l0.l) 2
            (ductusOp (s9.core l0) l0 182 (rW 63 1 0 4 2 0)
              (sread (s9.core l0).spad (BitVec.toNat ((s9.core l0).getX 1) % 2 ^ 18) 32))).tblCheck
        (ductusOp (s9.core l0) l0 182 (rW 63 1 0 4 2 0)
          (sread (s9.core l0).spad (BitVec.toNat ((s9.core l0).getX 1) % 2 ^ 18) 32))
        [(itREC (sread (s9.core l0).spad (BitVec.toNat ((s9.core l0).getX 1) % 2 ^ 18) 32), 0, 64, false),
          (itREC (sread (s9.core l0).spad (BitVec.toNat ((s9.core l0).getX 1) % 2 ^ 18) 32), 40, 4, true)] =
      TblCheck.ok) ∧
    (itFIRST (sread (s9.core l0).spad (BitVec.toNat ((s9.core l0).getX 1) % 2 ^ 18) 32) +
        itROWS (sread (s9.core l0).spad (BitVec.toNat ((s9.core l0).getX 1) % 2 ^ 18) 32) ≤
      rcCOUNT
        (((s9.setCore l0 ((s9.core l0).adv 16)).ductusTaken (s9.phys l0.p l0.l) 2
              (ductusOp (s9.core l0) l0 182 (rW 63 1 0 4 2 0)
                (sread (s9.core l0).spad (BitVec.toNat ((s9.core l0).getX 1) % 2 ^ 18) 32))).rdT
          (ductusOp (s9.core l0) l0 182 (rW 63 1 0 4 2 0)
            (sread (s9.core l0).spad (BitVec.toNat ((s9.core l0).getX 1) % 2 ^ 18) 32))
          (itREC (sread (s9.core l0).spad (BitVec.toNat ((s9.core l0).getX 1) % 2 ^ 18) 32)) 0 64)) ∧
    (((s9.setCore l0 ((s9.core l0).adv 16)).ductusTaken (s9.phys l0.p l0.l) 2
            (ductusOp (s9.core l0) l0 182 (rW 63 1 0 4 2 0)
              (sread (s9.core l0).spad (BitVec.toNat ((s9.core l0).getX 1) % 2 ^ 18) 32))).tblCheck
        (ductusOp (s9.core l0) l0 182 (rW 63 1 0 4 2 0)
          (sread (s9.core l0).spad (BitVec.toNat ((s9.core l0).getX 1) % 2 ^ 18) 32))
        [(bits
                (((s9.setCore l0 ((s9.core l0).adv 16)).ductusTaken (s9.phys l0.p l0.l) 2
                      (ductusOp (s9.core l0) l0 182 (rW 63 1 0 4 2 0)
                        (sread (s9.core l0).spad (BitVec.toNat ((s9.core l0).getX 1) % 2 ^ 18) 32))).rdT
                  (ductusOp (s9.core l0) l0 182 (rW 63 1 0 4 2 0)
                    (sread (s9.core l0).spad (BitVec.toNat ((s9.core l0).getX 1) % 2 ^ 18) 32))
                  (itREC (sread (s9.core l0).spad (BitVec.toNat ((s9.core l0).getX 1) % 2 ^ 18) 32)) 0 64)
                0 48 +
              rcTAGOFF
                (((s9.setCore l0 ((s9.core l0).adv 16)).ductusTaken (s9.phys l0.p l0.l) 2
                      (ductusOp (s9.core l0) l0 182 (rW 63 1 0 4 2 0)
                        (sread (s9.core l0).spad (BitVec.toNat ((s9.core l0).getX 1) % 2 ^ 18) 32))).rdT
                  (ductusOp (s9.core l0) l0 182 (rW 63 1 0 4 2 0)
                    (sread (s9.core l0).spad (BitVec.toNat ((s9.core l0).getX 1) % 2 ^ 18) 32))
                  (itREC (sread (s9.core l0).spad (BitVec.toNat ((s9.core l0).getX 1) % 2 ^ 18) 32)) 0 64),
            8 * itFIRST (sread (s9.core l0).spad (BitVec.toNat ((s9.core l0).getX 1) % 2 ^ 18) 32),
            8 * itROWS (sread (s9.core l0).spad (BitVec.toNat ((s9.core l0).getX 1) % 2 ^ 18) 32), false)] =
      TblCheck.ok)) := by (repeat' apply And.intro) <;> decide +kernel

theorem witness_DuctusAllocation :
  (0 < 4 ∧ 4 ≤ ld0.c0) ∧
  (ld0.c0 < 7 ∧ 0 < ld0.c0) ∧
  (0 < 3) ∧
  (bit (2 ^ 63 + 519) 63 = true ∧ bits (2 ^ 63 + 519) 0 16 ∈ [513, 514, 519]) ∧
  (bit (2 ^ 63 + 518) 63 = true ∧ bits (2 ^ 63 + 518) 0 16 ∉ [513, 514, 519]) ∧
  (bit 20480 63 = false ∧ 0 < 3) ∧
  (bit (2 ^ 63 + 513) 63 = true ∧ 0 < 4) ∧
  (emCAP 0 ≤ 4294967295) := by (repeat' apply And.intro) <;> decide +kernel

end Wd

namespace We

/-! Witnesses: allocation, Inkwell, Tier Mover. -/

def kL : CoreSt := { k0 with x := [(1, 0x3FF00), (3, 3), (4, 0x3FE00), (5, 0x3FFE0), (6, 0x200000003#64)], spad := swrite (swrite [] 0x3FF00 128 wLayer) 0x3FE00 64 (0x40004000 * 2 ^ 32) }
def dop0 : DOp := ⟨l0, 0xB0, 0, 5, 0, wLayer, 3, 0, 3, 0⟩
def zLd : State := wRunM kL [(0x1003, 0x3F), (0x1007, 0x40), (0x100B, 0x41)]
def ctE (st : Nat) : CtEntry := { st, batch := 3, gen := 0, half := 0, expect := 16 }
def withCt (s : State) (st : Nat) : State := State.setDuctus s 63 { s.ductus 63 with ct := [(127, ctE st)] }
def run0 : DRun := { op := { dop0 with op := 0xB5 }, out := 1, ladders := [{ e := 1, em := 0, c0 := 4, c1 := 0, phase := 1, a := 4, a0 := 4 }] }
def zDr : State := wSent (State.setDuctus zLd 63 { run := [(2, run0)] }) (.ductus 63 2 0 l0 0 10)
def s1 : State := withCt zLd 2
def s2 : State := withCt zLd 1
def mCo : Mem := mwrite (mwrite [] 0x2000 32 (1 + 0x3F800000 * 2^32 + 2^128 * 0x40000000 * 2^32)) 0x8000 64 (0x3F8000004000000040400000C0800000 * (1 + 2^128 + 2^256))
def zCo : State := withCt (wRunM kL mCo) 2
def wPool : Pool := { st := .active, base := 1, ngran := 1, total := 8192, top := [8191], fresh := 3, md := [(0, 456)] }
def wRq : Requester := { valid := true, kind := 2, part := 15, quota := 512, inuse := 256 }
/-- An ALLOC of n bytes with no fallback by requester 200. -/
def inkV (n : Nat) : Nat := n + 200 * 2^32 + 2^46 + 2^60
def inkQ (v : Nat) : InkReq := ⟨wReq 4 0 0xFFFFFFE00000 1 v 1 0, 0, none⟩
def zInk (p : Pool) (v : Nat) (inuse : Nat := 256) : State := { wRun k0 with pools := [(480, p)], reqs := [(200, { wRq with inuse })], inkq := [inkQ v] }
def s3 : State := zInk wPool (inkV 0)
def s4 : State := zInk wPool (inkV 256)
def s5 : State := zInk wPool (inkV 1) 257
def s6 : State := zInk {} (inkV 1)
def s7 : State := zInk { wPool with reclaim := true } (inkV 1)
def frV (off : Nat) : Nat := off + 2 * 2^60
def s8 : State := zInk wPool (frV (2^21))
def s9 : State := zInk { wPool with reclaim := true } (frV (2^21))
def s10 : State := zInk wPool (frV (2^22-1))
def s11 : State := zInk wPool (frV (2^22-256))
def s12 : State := zInk wPool (frV (2^22))
def inkE (off : Nat) : InkReq := ⟨wReq 4 0 0 1 (frV 0) 1 0, 0, some (15, 3, off)⟩
def s13 : State := { zInk wPool (frV 0) with inkq := [inkE (2^21)] }
def zFe (f : FrontEnd) (p : Pool := wPool) : State := { wRun k0 with pools := [(480, p)], reqs := [(200, { wRq with inuse := 256 })], fe := [(62, f)] }
def feQ (cr : Nat) : FrontEnd := { q := [inkQ (inkV 256)], credit := [(200, cr)] }
def s14 : State := zFe (feQ 256)
def s15 : State := zFe (feQ 255)
def s16 : State := { zFe (feQ 255) with reqs := [(200, { wRq with inuse := 512 })] }
def feC : FrontEnd := { q := [inkQ (inkV 256)], cache := [(0, [7, 8])], credit := [(200, 256)] }
def s17 : State := zFe feC
def s18 : State := { zFe { cache := [(0, [7])] } with reg := [(0x00A00200, 16)] }
def gr0 : Grant := ⟨15, 0, 7, 200⟩
def s19 : State := zFe { grants := [gr0] }
def wObjP : Obj := ⟨1 * 2^21 + 2 * 2^64 + 2 * 2^104, [(0, .t2 1), (1, .t2 2)], 1, [], [], []⟩
def zPl (p : Pool) : State := { wOn with parts := [(15, { wPart with objs := [wObjP] })], pools := [(480, p)], metaUsed := 12 }
def s20 : State := zPl { base := 1, ngran := 2 }
def s21 : State := zPl { base := 1, ngran := 3 }
def s22 : State := zPl { wPool with st := .enabling }
def s23 : State := zPl wPool
def s24 : State := zPl { wPool with reclaim := true }
def s25 : State := { zPl wPool with upsets := [⟨.metadata 480, true⟩] }
def m0 : Mem := mwrite [] 5 4 0x01000203
/-- A move of two rows of 128 FP32 from 0x1000 by the index at 0x8000 to 0x9000. -/
def tmD (op : Nat) (idx nrows : Nat) : Nat := 0x1000 + 2 * 2^64 + 128 * 2^96 + idx * 2^128 + nrows * 2^192 + op * 2^240 + 0x9000 * 2^256 + 1 * 2^320 + 0x7000 * 2^384
def tmo (d : Nat) : TmOp := ⟨15, 7, d⟩
def zTm (d : Nat) (m : Mem := []) : State := State.setMover (wRunM k0 m) 11 { q := [tmo d] }
def s26 : State := zTm (tmD 0 0x8000 0)
def s27 : State := zTm (tmD 0 0x8000 2 + 2^234)
def s28 : State := zTm (tmD 0 0x8000 2) (mwrite (mwrite [] 0x8000 8 (1 + 7 * 2^32)) 0x1200 8 0x77)
def s29 : State := zTm (tmD 1 0 0)
def s30 : State := zTm (tmD 1 0 1) (mwrite [] 0x1010 1 1)
def s31 : State := zTm (tmD 1 0 1)
def tmR : TmRun := ⟨tmo (tmD 0 0x8000 2), 0, 3, 0, true⟩
def zTr : State := State.setMover (wRunM k0 []) 11 { run := some tmR }
def zT0 : State := wRunM k0 (mwrite (mwrite [] 0x8000 8 (1 + 7 * 2^32)) 0x1200 8 0x77)
def tm2 := tmo (tmD 0 0x8000 2)
def tm3 := tmo (tmD 0 (2^48-1) 2)
def some1 (x : Option State × Nat) : State := x.1.getD State.reset
def s32 : State := some1 (zT0.putRow 11 tm2 2 0 0 false)
def s33 : State := some1 ((zT0.count 0x0702).putRow 11 tm2 1 0 0 false)
def s34 : State := some1 (zT0.putRow 11 tm3 1 0x77 0 false)
def mig0 : Mig := ⟨0, .t2 0, .t2 5, 31⟩
def zMg : State := { wOn with parts := [(15, { wPartM with migs := [mig0] })], dram := mwrite [] (31 * 65536) 2 7 }
def migX (src dst : Place) : Mig := ⟨0, src, dst, 31⟩
def zMx (src dst : Place) : State := { wOn with parts := [(15, { wPartM with migs := [migX src dst] })], dram := mwrite [] (31 * 65536) 2 7 }
def s35 : State := zMx (.t2 0) (.t3 0x4000000)
def s36 : State := zMx (.t3 0x4000000) (.t2 0)
def wObjS : Obj := ⟨1 * 2^64 + 2 * 2^96 + 3 * 2^104 + 0x10000 * 2^192 + 8 * 2^256, [(0, .t2 0)], 1, [], [], []⟩
def zSt : State := { wOn with parts := [(15, { wPart with objs := [wObjS], perm := [(0, 1)] })], dram := mwrite [] 65535 2 0x707 }
def wObjU : Obj := ⟨1 * 2^64 + 1 * 2^96 + 1 * 2^104 + 3 * 2 ^ 107 + 0x4000000 * 2^192, [(0, .t3 0x4000000)], 1, [], [], []⟩
def zUp : State := { wOn with parts := [(15, { wPart with objs := [wObjU], quads := [15] })] }
def s37 : State := { wOn with parts := [(15, { wPart with ruled := true })] }
def s38 : State := { wOn with parts := [(15, wPart)] }

theorem witness_DuctusAllocation :
  zDr.reaches (wAns 9 0 1192960) [9] = true ∧ zDr.unnumbered (wAns 9 0 1192960) = false ∧
    tget zDr.ops (wAns 9 0 1192960).rslot = some (wOp (Owner.ductus 63 2 0 l0 0 10)) ∧
    (wOp (Owner.ductus 63 2 0 l0 0 10)).owner = Owner.ductus 63 2 0 l0 0 10 ∧
    (wOp (Owner.ductus 63 2 0 l0 0 10)).use = (wAns 9 0 1192960).ruse ∧ tget (zDr.ductus 63).run 2 = some run0 ∧
    isDalloc run0 = true ∧ 2 ≤ 10 % 8 := by (repeat' apply And.intro) <;> decide +kernel

theorem witness_DuctusCollectsAndCancels :
  (Issues s1 c0 l0 16 ∧ ductusRsv (rW 63 0 3 0 0 0) false true false false = false ∧ Readable (s1.core l0) [3] ∧
    ((s1.ductus (s1.phys l0.p l0.l)).find l0.s (keyOf (BitVec.toNat ((s1.core l0).getX 3))).1
        (keyOf (BitVec.toNat ((s1.core l0).getX 3))).2.1 (keyOf (BitVec.toNat ((s1.core l0).getX 3))).2.2 =
      some 127) ∧
    ((s1.ductus (s1.phys l0.p l0.l)).entry 127).st = 2) ∧
  (Issues s2 c0 l0 16 ∧ ductusRsv (rW 63 0 3 0 0 0) false true false false = false ∧ Readable (s2.core l0) [3] ∧
    ((s2.ductus (s2.phys l0.p l0.l)).find l0.s (keyOf (BitVec.toNat ((s2.core l0).getX 3))).1
        (keyOf (BitVec.toNat ((s2.core l0).getX 3))).2.1 (keyOf (BitVec.toNat ((s2.core l0).getX 3))).2.2 =
      some 127) ∧
    ((s2.ductus (s2.phys l0.p l0.l)).entry 127).st ≠ 2) ∧
  (DReads zLd c0 l0 3 [1, 6, 5] 0 0 ∧ DIdle zLd (zLd.phys l0.p l0.l) 3 ∧ ductusRsv (rW 63 1 6 5 1 0) true true true false = false ∧
    shapeBad ((zLd.core l0).getX 6) = false) ∧
  (DReads s2 c0 l0 2 [3] 0 0 ∧ DIdle s2 (s2.phys l0.p l0.l) 2 ∧ ductusRsv (rW 63 0 3 0 0 0) false true false false = false) ∧
  (genLive 0 ((s2.ductus 63).floorOf 7) = true) ∧
  (16 * 7 ≤ 127 ∧ 127 < 16 * 7 + 16 ∧ ((s2.ductus 63).entry 127).st ≠ 0 ∧ ((s2.ductus 63).entry 127).batch = 3 ∧
    (genLive ((s2.ductus 63).entry 127).gen
        (if genLive 0 ((s2.ductus 63).floorOf 7) = true then 0 else (s2.ductus 63).floorOf 7) =
      false)) ∧
  (16 * 7 ≤ 127 ∧ 127 < 16 * 7 + 16 ∧
    (((s2.ductus 63).entry 127).batch ≠ 4 ∨
      genLive ((s2.ductus 63).entry 127).gen
          (if genLive 0 ((s2.ductus 63).floorOf 7) = true then 0 else (s2.ductus 63).floorOf 7) =
        true)) := by (repeat' apply And.intro) <;> decide +kernel

theorem witness_DuctusCombines :
  (DReads zCo c0 l0 3 [1, 3] (BitVec.toNat ((zCo.core l0).getX 1) % 2 ^ 18 / 16 * 16) 128 ∧ DIdle zCo (zCo.phys l0.p l0.l) 3 ∧
    firstErr (layerErrs (sread (zCo.core l0).spad (BitVec.toNat ((zCo.core l0).getX 1) % 2 ^ 18 / 16 * 16) 128)) = none ∧
    ductusRsv (rW 63 1 3 0 6 0) true true false false = false ∧ 6 < 8 ∧ 6 % 2 = 0 ∧
    ((zCo.ductus (zCo.phys l0.p l0.l)).find l0.s (keyOf (BitVec.toNat ((zCo.core l0).getX 3))).1
        (keyOf (BitVec.toNat ((zCo.core l0).getX 3))).2.1 (keyOf (BitVec.toNat ((zCo.core l0).getX 3))).2.2 =
      some 127) ∧
    ((zCo.ductus (zCo.phys l0.p l0.l)).entry 127).st = 2 ∧
    (((zCo.setCore l0 ((zCo.core l0).adv 16)).ductusTaken (zCo.phys l0.p l0.l) 3
            (ductusOp (zCo.core l0) l0 184 (rW 63 1 3 0 6 0)
              (sread (zCo.core l0).spad (BitVec.toNat ((zCo.core l0).getX 1) % 2 ^ 18 / 16 * 16) 128))).tblCheck
        (ductusOp (zCo.core l0) l0 184 (rW 63 1 3 0 6 0)
          (sread (zCo.core l0).spad (BitVec.toNat ((zCo.core l0).getX 1) % 2 ^ 18 / 16 * 16) 128))
        [(lySEL (sread (zCo.core l0).spad (BitVec.toNat ((zCo.core l0).getX 1) % 2 ^ 18 / 16 * 16) 128), 0,
            16 * lyN (sread (zCo.core l0).spad (BitVec.toNat ((zCo.core l0).getX 1) % 2 ^ 18 / 16 * 16) 128) *
              lyK (sread (zCo.core l0).spad (BitVec.toNat ((zCo.core l0).getX 1) % 2 ^ 18 / 16 * 16) 128),
            false),
          (lyCNT (sread (zCo.core l0).spad (BitVec.toNat ((zCo.core l0).getX 1) % 2 ^ 18 / 16 * 16) 128), 0,
            8 * lyE (sread (zCo.core l0).spad (BitVec.toNat ((zCo.core l0).getX 1) % 2 ^ 18 / 16 * 16) 128), false),
          (lyOFFS (sread (zCo.core l0).spad (BitVec.toNat ((zCo.core l0).getX 1) % 2 ^ 18 / 16 * 16) 128), 0,
            8 * lyE (sread (zCo.core l0).spad (BitVec.toNat ((zCo.core l0).getX 1) % 2 ^ 18 / 16 * 16) 128), false)] =
      TblCheck.ok) ∧
    (((zCo.setCore l0 ((zCo.core l0).adv 16)).ductusTaken (zCo.phys l0.p l0.l) 3
            (ductusOp (zCo.core l0) l0 184 (rW 63 1 3 0 6 0)
              (sread (zCo.core l0).spad (BitVec.toNat ((zCo.core l0).getX 1) % 2 ^ 18 / 16 * 16) 128))).tblCheck
        (ductusOp (zCo.core l0) l0 184 (rW 63 1 3 0 6 0)
          (sread (zCo.core l0).spad (BitVec.toNat ((zCo.core l0).getX 1) % 2 ^ 18 / 16 * 16) 128))
        ([(lySEL (sread (zCo.core l0).spad (BitVec.toNat ((zCo.core l0).getX 1) % 2 ^ 18 / 16 * 16) 128), 0,
              16 * lyN (sread (zCo.core l0).spad (BitVec.toNat ((zCo.core l0).getX 1) % 2 ^ 18 / 16 * 16) 128) *
                lyK (sread (zCo.core l0).spad (BitVec.toNat ((zCo.core l0).getX 1) % 2 ^ 18 / 16 * 16) 128),
              false),
            (lyCNT (sread (zCo.core l0).spad (BitVec.toNat ((zCo.core l0).getX 1) % 2 ^ 18 / 16 * 16) 128), 0,
              8 * lyE (sread (zCo.core l0).spad (BitVec.toNat ((zCo.core l0).getX 1) % 2 ^ 18 / 16 * 16) 128), false),
            (lyOFFS (sread (zCo.core l0).spad (BitVec.toNat ((zCo.core l0).getX 1) % 2 ^ 18 / 16 * 16) 128), 0,
              8 * lyE (sread (zCo.core l0).spad (BitVec.toNat ((zCo.core l0).getX 1) % 2 ^ 18 / 16 * 16) 128), false)] ++
          ((List.map
                (fun t =>
                  List.map
                    (fun r =>
                      (lyRET (sread (zCo.core l0).spad (BitVec.toNat ((zCo.core l0).getX 1) % 2 ^ 18 / 16 * 16) 128),
                        ansOff (sread (zCo.core l0).spad (BitVec.toNat ((zCo.core l0).getX 1) % 2 ^ 18 / 16 * 16) 128)
                          (keyOf (BitVec.toNat ((zCo.core l0).getX 3))).2.2
                          (splitN 32
                            (2 *
                              lyE (sread (zCo.core l0).spad (BitVec.toNat ((zCo.core l0).getX 1) % 2 ^ 18 / 16 * 16) 128))
                            (((zCo.setCore l0 ((zCo.core l0).adv 16)).ductusTaken (zCo.phys l0.p l0.l) 3
                                  (ductusOp (zCo.core l0) l0 184 (rW 63 1 3 0 6 0)
                                    (sread (zCo.core l0).spad (BitVec.toNat ((zCo.core l0).getX 1) % 2 ^ 18 / 16 * 16)
                                      128))).rdT
                              (ductusOp (zCo.core l0) l0 184 (rW 63 1 3 0 6 0)
                                (sread (zCo.core l0).spad (BitVec.toNat ((zCo.core l0).getX 1) % 2 ^ 18 / 16 * 16) 128))
                              (lyCNT
                                (sread (zCo.core l0).spad (BitVec.toNat ((zCo.core l0).getX 1) % 2 ^ 18 / 16 * 16) 128))
                              0
                              (8 *
                                lyE
                                  (sread (zCo.core l0).spad (BitVec.toNat ((zCo.core l0).getX 1) % 2 ^ 18 / 16 * 16) 128))))
                          (splitN 32
                            (2 *
                              lyE (sread (zCo.core l0).spad (BitVec.toNat ((zCo.core l0).getX 1) % 2 ^ 18 / 16 * 16) 128))
                            (((zCo.setCore l0 ((zCo.core l0).adv 16)).ductusTaken (zCo.phys l0.p l0.l) 3
                                  (ductusOp (zCo.core l0) l0 184 (rW 63 1 3 0 6 0)
                                    (sread (zCo.core l0).spad (BitVec.toNat ((zCo.core l0).getX 1) % 2 ^ 18 / 16 * 16)
                                      128))).rdT
                              (ductusOp (zCo.core l0) l0 184 (rW 63 1 3 0 6 0)
                                (sread (zCo.core l0).spad (BitVec.toNat ((zCo.core l0).getX 1) % 2 ^ 18 / 16 * 16) 128))
                              (lyOFFS
                                (sread (zCo.core l0).spad (BitVec.toNat ((zCo.core l0).getX 1) % 2 ^ 18 / 16 * 16) 128))
                              0
                              (8 *
                                lyE
                                  (sread (zCo.core l0).spad (BitVec.toNat ((zCo.core l0).getX 1) % 2 ^ 18 / 16 * 16) 128))))
                          (bits r 0 32) (bits r 64 32),
                        lyAB (sread (zCo.core l0).spad (BitVec.toNat ((zCo.core l0).getX 1) % 2 ^ 18 / 16 * 16) 128),
                        false))
                    (keptOf (sread (zCo.core l0).spad (BitVec.toNat ((zCo.core l0).getX 1) % 2 ^ 18 / 16 * 16) 128)
                      (splitN 128
                        (lyN (sread (zCo.core l0).spad (BitVec.toNat ((zCo.core l0).getX 1) % 2 ^ 18 / 16 * 16) 128) *
                          lyK (sread (zCo.core l0).spad (BitVec.toNat ((zCo.core l0).getX 1) % 2 ^ 18 / 16 * 16) 128))
                        (((zCo.setCore l0 ((zCo.core l0).adv 16)).ductusTaken (zCo.phys l0.p l0.l) 3
                              (ductusOp (zCo.core l0) l0 184 (rW 63 1 3 0 6 0)
                                (sread (zCo.core l0).spad (BitVec.toNat ((zCo.core l0).getX 1) % 2 ^ 18 / 16 * 16)
                                  128))).rdT
                          (ductusOp (zCo.core l0) l0 184 (rW 63 1 3 0 6 0)
                            (sread (zCo.core l0).spad (BitVec.toNat ((zCo.core l0).getX 1) % 2 ^ 18 / 16 * 16) 128))
                          (lySEL (sread (zCo.core l0).spad (BitVec.toNat ((zCo.core l0).getX 1) % 2 ^ 18 / 16 * 16) 128)) 0
                          (16 *
                              lyN (sread (zCo.core l0).spad (BitVec.toNat ((zCo.core l0).getX 1) % 2 ^ 18 / 16 * 16) 128) *
                            lyK (sread (zCo.core l0).spad (BitVec.toNat ((zCo.core l0).getX 1) % 2 ^ 18 / 16 * 16) 128))))
                      t))
                (List.filter
                  (fun t =>
                    lyHalf (sread (zCo.core l0).spad (BitVec.toNat ((zCo.core l0).getX 1) % 2 ^ 18 / 16 * 16) 128) t ==
                      (keyOf (BitVec.toNat ((zCo.core l0).getX 3))).2.2)
                  (List.range
                    (lyN
                      (sread (zCo.core l0).spad (BitVec.toNat ((zCo.core l0).getX 1) % 2 ^ 18 / 16 * 16) 128))))).flatten ++
            List.map
              (fun t =>
                (lyOUT (sread (zCo.core l0).spad (BitVec.toNat ((zCo.core l0).getX 1) % 2 ^ 18 / 16 * 16) 128),
                  t *
                      (lyAB (sread (zCo.core l0).spad (BitVec.toNat ((zCo.core l0).getX 1) % 2 ^ 18 / 16 * 16) 128) /
                        (fmtBits
                            (lyAFMT
                              (sread (zCo.core l0).spad (BitVec.toNat ((zCo.core l0).getX 1) % 2 ^ 18 / 16 * 16) 128)) /
                          8)) *
                    (fmtBits
                        (lyOFMT (sread (zCo.core l0).spad (BitVec.toNat ((zCo.core l0).getX 1) % 2 ^ 18 / 16 * 16) 128)) /
                      8),
                  lyAB (sread (zCo.core l0).spad (BitVec.toNat ((zCo.core l0).getX 1) % 2 ^ 18 / 16 * 16) 128) /
                      (fmtBits
                          (lyAFMT (sread (zCo.core l0).spad (BitVec.toNat ((zCo.core l0).getX 1) % 2 ^ 18 / 16 * 16) 128)) /
                        8) *
                    (fmtBits
                        (lyOFMT (sread (zCo.core l0).spad (BitVec.toNat ((zCo.core l0).getX 1) % 2 ^ 18 / 16 * 16) 128)) /
                      8),
                  true))
              (List.filter
                (fun t =>
                  lyHalf (sread (zCo.core l0).spad (BitVec.toNat ((zCo.core l0).getX 1) % 2 ^ 18 / 16 * 16) 128) t ==
                    (keyOf (BitVec.toNat ((zCo.core l0).getX 3))).2.2)
                (List.range
                  (lyN (sread (zCo.core l0).spad (BitVec.toNat ((zCo.core l0).getX 1) % 2 ^ 18 / 16 * 16) 128)))))) =
      TblCheck.ok)) ∧
  (DReads zCo c0 l0 3 [1, 3] (BitVec.toNat ((zCo.core l0).getX 1) % 2 ^ 18 / 16 * 16) 128 ∧ DIdle zCo (zCo.phys l0.p l0.l) 3 ∧
    firstErr (layerErrs (sread (zCo.core l0).spad (BitVec.toNat ((zCo.core l0).getX 1) % 2 ^ 18 / 16 * 16) 128)) = none ∧
    ductusRsv (rW 63 1 3 0 0 0) true true false false = false ∧ 0 < 8 ∧ 0 % 2 = 0 ∧
    ((zCo.ductus (zCo.phys l0.p l0.l)).find l0.s (keyOf (BitVec.toNat ((zCo.core l0).getX 3))).1
        (keyOf (BitVec.toNat ((zCo.core l0).getX 3))).2.1 (keyOf (BitVec.toNat ((zCo.core l0).getX 3))).2.2 =
      some 127) ∧
    ((zCo.ductus (zCo.phys l0.p l0.l)).entry 127).st = 2 ∧
    (((zCo.setCore l0 ((zCo.core l0).adv 16)).ductusTaken (zCo.phys l0.p l0.l) 3
            (ductusOp (zCo.core l0) l0 184 (rW 63 1 3 0 0 0)
              (sread (zCo.core l0).spad (BitVec.toNat ((zCo.core l0).getX 1) % 2 ^ 18 / 16 * 16) 128))).tblCheck
        (ductusOp (zCo.core l0) l0 184 (rW 63 1 3 0 0 0)
          (sread (zCo.core l0).spad (BitVec.toNat ((zCo.core l0).getX 1) % 2 ^ 18 / 16 * 16) 128))
        [(lySEL (sread (zCo.core l0).spad (BitVec.toNat ((zCo.core l0).getX 1) % 2 ^ 18 / 16 * 16) 128), 0,
            16 * lyN (sread (zCo.core l0).spad (BitVec.toNat ((zCo.core l0).getX 1) % 2 ^ 18 / 16 * 16) 128) *
              lyK (sread (zCo.core l0).spad (BitVec.toNat ((zCo.core l0).getX 1) % 2 ^ 18 / 16 * 16) 128),
            false),
          (lyCNT (sread (zCo.core l0).spad (BitVec.toNat ((zCo.core l0).getX 1) % 2 ^ 18 / 16 * 16) 128), 0,
            8 * lyE (sread (zCo.core l0).spad (BitVec.toNat ((zCo.core l0).getX 1) % 2 ^ 18 / 16 * 16) 128), false),
          (lyOFFS (sread (zCo.core l0).spad (BitVec.toNat ((zCo.core l0).getX 1) % 2 ^ 18 / 16 * 16) 128), 0,
            8 * lyE (sread (zCo.core l0).spad (BitVec.toNat ((zCo.core l0).getX 1) % 2 ^ 18 / 16 * 16) 128), false)] =
      TblCheck.ok) ∧
    (((zCo.setCore l0 ((zCo.core l0).adv 16)).ductusTaken (zCo.phys l0.p l0.l) 3
            (ductusOp (zCo.core l0) l0 184 (rW 63 1 3 0 0 0)
              (sread (zCo.core l0).spad (BitVec.toNat ((zCo.core l0).getX 1) % 2 ^ 18 / 16 * 16) 128))).tblCheck
        (ductusOp (zCo.core l0) l0 184 (rW 63 1 3 0 0 0)
          (sread (zCo.core l0).spad (BitVec.toNat ((zCo.core l0).getX 1) % 2 ^ 18 / 16 * 16) 128))
        ([(lySEL (sread (zCo.core l0).spad (BitVec.toNat ((zCo.core l0).getX 1) % 2 ^ 18 / 16 * 16) 128), 0,
              16 * lyN (sread (zCo.core l0).spad (BitVec.toNat ((zCo.core l0).getX 1) % 2 ^ 18 / 16 * 16) 128) *
                lyK (sread (zCo.core l0).spad (BitVec.toNat ((zCo.core l0).getX 1) % 2 ^ 18 / 16 * 16) 128),
              false),
            (lyCNT (sread (zCo.core l0).spad (BitVec.toNat ((zCo.core l0).getX 1) % 2 ^ 18 / 16 * 16) 128), 0,
              8 * lyE (sread (zCo.core l0).spad (BitVec.toNat ((zCo.core l0).getX 1) % 2 ^ 18 / 16 * 16) 128), false),
            (lyOFFS (sread (zCo.core l0).spad (BitVec.toNat ((zCo.core l0).getX 1) % 2 ^ 18 / 16 * 16) 128), 0,
              8 * lyE (sread (zCo.core l0).spad (BitVec.toNat ((zCo.core l0).getX 1) % 2 ^ 18 / 16 * 16) 128), false)] ++
          ((List.map
                (fun t =>
                  List.map
                    (fun r =>
                      (lyRET (sread (zCo.core l0).spad (BitVec.toNat ((zCo.core l0).getX 1) % 2 ^ 18 / 16 * 16) 128),
                        ansOff (sread (zCo.core l0).spad (BitVec.toNat ((zCo.core l0).getX 1) % 2 ^ 18 / 16 * 16) 128)
                          (keyOf (BitVec.toNat ((zCo.core l0).getX 3))).2.2
                          (splitN 32
                            (2 *
                              lyE (sread (zCo.core l0).spad (BitVec.toNat ((zCo.core l0).getX 1) % 2 ^ 18 / 16 * 16) 128))
                            (((zCo.setCore l0 ((zCo.core l0).adv 16)).ductusTaken (zCo.phys l0.p l0.l) 3
                                  (ductusOp (zCo.core l0) l0 184 (rW 63 1 3 0 0 0)
                                    (sread (zCo.core l0).spad (BitVec.toNat ((zCo.core l0).getX 1) % 2 ^ 18 / 16 * 16)
                                      128))).rdT
                              (ductusOp (zCo.core l0) l0 184 (rW 63 1 3 0 0 0)
                                (sread (zCo.core l0).spad (BitVec.toNat ((zCo.core l0).getX 1) % 2 ^ 18 / 16 * 16) 128))
                              (lyCNT
                                (sread (zCo.core l0).spad (BitVec.toNat ((zCo.core l0).getX 1) % 2 ^ 18 / 16 * 16) 128))
                              0
                              (8 *
                                lyE
                                  (sread (zCo.core l0).spad (BitVec.toNat ((zCo.core l0).getX 1) % 2 ^ 18 / 16 * 16) 128))))
                          (splitN 32
                            (2 *
                              lyE (sread (zCo.core l0).spad (BitVec.toNat ((zCo.core l0).getX 1) % 2 ^ 18 / 16 * 16) 128))
                            (((zCo.setCore l0 ((zCo.core l0).adv 16)).ductusTaken (zCo.phys l0.p l0.l) 3
                                  (ductusOp (zCo.core l0) l0 184 (rW 63 1 3 0 0 0)
                                    (sread (zCo.core l0).spad (BitVec.toNat ((zCo.core l0).getX 1) % 2 ^ 18 / 16 * 16)
                                      128))).rdT
                              (ductusOp (zCo.core l0) l0 184 (rW 63 1 3 0 0 0)
                                (sread (zCo.core l0).spad (BitVec.toNat ((zCo.core l0).getX 1) % 2 ^ 18 / 16 * 16) 128))
                              (lyOFFS
                                (sread (zCo.core l0).spad (BitVec.toNat ((zCo.core l0).getX 1) % 2 ^ 18 / 16 * 16) 128))
                              0
                              (8 *
                                lyE
                                  (sread (zCo.core l0).spad (BitVec.toNat ((zCo.core l0).getX 1) % 2 ^ 18 / 16 * 16) 128))))
                          (bits r 0 32) (bits r 64 32),
                        lyAB (sread (zCo.core l0).spad (BitVec.toNat ((zCo.core l0).getX 1) % 2 ^ 18 / 16 * 16) 128),
                        false))
                    (keptOf (sread (zCo.core l0).spad (BitVec.toNat ((zCo.core l0).getX 1) % 2 ^ 18 / 16 * 16) 128)
                      (splitN 128
                        (lyN (sread (zCo.core l0).spad (BitVec.toNat ((zCo.core l0).getX 1) % 2 ^ 18 / 16 * 16) 128) *
                          lyK (sread (zCo.core l0).spad (BitVec.toNat ((zCo.core l0).getX 1) % 2 ^ 18 / 16 * 16) 128))
                        (((zCo.setCore l0 ((zCo.core l0).adv 16)).ductusTaken (zCo.phys l0.p l0.l) 3
                              (ductusOp (zCo.core l0) l0 184 (rW 63 1 3 0 0 0)
                                (sread (zCo.core l0).spad (BitVec.toNat ((zCo.core l0).getX 1) % 2 ^ 18 / 16 * 16)
                                  128))).rdT
                          (ductusOp (zCo.core l0) l0 184 (rW 63 1 3 0 0 0)
                            (sread (zCo.core l0).spad (BitVec.toNat ((zCo.core l0).getX 1) % 2 ^ 18 / 16 * 16) 128))
                          (lySEL (sread (zCo.core l0).spad (BitVec.toNat ((zCo.core l0).getX 1) % 2 ^ 18 / 16 * 16) 128)) 0
                          (16 *
                              lyN (sread (zCo.core l0).spad (BitVec.toNat ((zCo.core l0).getX 1) % 2 ^ 18 / 16 * 16) 128) *
                            lyK (sread (zCo.core l0).spad (BitVec.toNat ((zCo.core l0).getX 1) % 2 ^ 18 / 16 * 16) 128))))
                      t))
                (List.filter
                  (fun t =>
                    lyHalf (sread (zCo.core l0).spad (BitVec.toNat ((zCo.core l0).getX 1) % 2 ^ 18 / 16 * 16) 128) t ==
                      (keyOf (BitVec.toNat ((zCo.core l0).getX 3))).2.2)
                  (List.range
                    (lyN
                      (sread (zCo.core l0).spad (BitVec.toNat ((zCo.core l0).getX 1) % 2 ^ 18 / 16 * 16) 128))))).flatten ++
            List.map
              (fun t =>
                (lyOUT (sread (zCo.core l0).spad (BitVec.toNat ((zCo.core l0).getX 1) % 2 ^ 18 / 16 * 16) 128),
                  t *
                      (lyAB (sread (zCo.core l0).spad (BitVec.toNat ((zCo.core l0).getX 1) % 2 ^ 18 / 16 * 16) 128) /
                        (fmtBits
                            (lyAFMT
                              (sread (zCo.core l0).spad (BitVec.toNat ((zCo.core l0).getX 1) % 2 ^ 18 / 16 * 16) 128)) /
                          8)) *
                    (fmtBits
                        (lyOFMT (sread (zCo.core l0).spad (BitVec.toNat ((zCo.core l0).getX 1) % 2 ^ 18 / 16 * 16) 128)) /
                      8),
                  lyAB (sread (zCo.core l0).spad (BitVec.toNat ((zCo.core l0).getX 1) % 2 ^ 18 / 16 * 16) 128) /
                      (fmtBits
                          (lyAFMT (sread (zCo.core l0).spad (BitVec.toNat ((zCo.core l0).getX 1) % 2 ^ 18 / 16 * 16) 128)) /
                        8) *
                    (fmtBits
                        (lyOFMT (sread (zCo.core l0).spad (BitVec.toNat ((zCo.core l0).getX 1) % 2 ^ 18 / 16 * 16) 128)) /
                      8),
                  true))
              (List.filter
                (fun t =>
                  lyHalf (sread (zCo.core l0).spad (BitVec.toNat ((zCo.core l0).getX 1) % 2 ^ 18 / 16 * 16) 128) t ==
                    (keyOf (BitVec.toNat ((zCo.core l0).getX 3))).2.2)
                (List.range
                  (lyN (sread (zCo.core l0).spad (BitVec.toNat ((zCo.core l0).getX 1) % 2 ^ 18 / 16 * 16) 128)))))) =
      TblCheck.ok)) := by (repeat' apply And.intro) <;> decide +kernel

theorem witness_DuctusIssue :
  (On
      (zLd.setDuctus 63
        {
          q :=
            [(1,
                [{ dop0 with op := 179 }])] })) ∧
    (∀
      e ∈
        (zLd.setDuctus 63
            {
              q :=
                [(1,
                    [{ dop0 with op := 179 }])] }).far,
      e.st ≠ 5) ∧
    (tget
        ((zLd.setDuctus 63
                {
                  q :=
                    [(1,
                        [{ dop0 with op := 179 }])] }).ductus
            63).run
        1 =
      none) ∧
    (tgetD
        ((zLd.setDuctus 63
                {
                  q :=
                    [(1,
                        [{ dop0 with op := 179 }])] }).ductus
            63).q
        1 [] =
      [] ++
        [{ dop0 with op := 179 }]) ∧
    (∀ h ∈ [],
      (zLd.setDuctus 63
              {
                q :=
                  [(1,
                      [{ dop0 with op := 179 }])] }).ductusLive
          h =
        false) ∧
    ((zLd.setDuctus 63
            {
              q :=
                [(1,
                    [{ dop0 with op := 179 }])] }).ductusLive
        { dop0 with op := 179 } =
      true) := by (repeat' apply And.intro) <;> decide +kernel

theorem witness_InkwellPools :
  (2 ^ 30 ≤ 2 ^ 30) ∧
  (257 ≤ 2 ^ 30 ∧ 0 < classOf 257) ∧
  (wPool.top = [8191]) ∧
  (8191 ≤ wPool.total ∧
    (0 <
      { wPool with fresh := 8191 }.free)) ∧
  (On s20 ∧ 0 ≤ 22 ∧ s20.upsets = [] ∧ (s20.pool (poolKey 15 0)).st = PoolState.disabled ∧ s20.poolOk 15 0 = true) ∧
  (On s21 ∧ 0 ≤ 22 ∧ s21.upsets = [] ∧ (s21.pool (poolKey 15 0)).st = PoolState.disabled ∧ s21.poolOk 15 0 = false) ∧
  (On s22 ∧ 0 ≤ 22 ∧ s22.upsets = [] ∧ (s22.pool (poolKey 15 0)).st = PoolState.enabling) ∧
  (On s23 ∧ 0 ≤ 22 ∧ s23.upsets = [] ∧ (s23.pool (poolKey 15 0)).st = PoolState.active ∧
    (s23.recallCaches 15 0).pool (poolKey 15 0) = s23.pool (poolKey 15 0) ∧ (s23.pool (poolKey 15 0)).allocated = true) ∧
  (On s23 ∧ 0 ≤ 22 ∧ s23.upsets = [] ∧
    ((s23.pool (poolKey 15 0)).st = PoolState.active ∨
      (s23.pool (poolKey 15 0)).st = PoolState.draining ∨ (s23.pool (poolKey 15 0)).st = PoolState.failed)) ∧
  (On s23 ∧ 0 ≤ 22 ∧ s23.upsets = [] ∧ (s23.pool (poolKey 15 0)).st = PoolState.active) ∧
  (On s24 ∧ 0 ≤ 22 ∧ s24.upsets = [] ∧ (s24.pool (poolKey 15 0)).st = PoolState.active ∧ (s24.pool (poolKey 15 0)).reclaim = true) ∧
  (On s25 ∧ 0 ≤ 22 ∧ { at_ := ErrAt.metadata 480, hard := true } ∈ s25.upsets ∧ ErrAt.metadata 480 = ErrAt.metadata (poolKey 15 0) ∧
    (s25.pool (poolKey 15 0)).st = PoolState.active) := by (repeat' apply And.intro) <;> decide +kernel

theorem witness_InkwellService :
  (On s3 ∧ s3.upsets = [] ∧ s3.inkq = [inkQ (inkV 0)] ∧ inkOp (inkQ (inkV 0)).operand ≠ 2 ∧
    ({ s3 with inkq := [] }.allocBad
        (inkQ (inkV 0)).pkt (inkQ (inkV 0)).operand =
      some 519)) ∧
  (On s4 ∧ s4.upsets = [] ∧ s4.inkq = [inkQ (inkV 256)] ∧ inkOp (inkQ (inkV 256)).operand ≠ 2 ∧
    ({ s4 with inkq := [] }.allocBad
        (inkQ (inkV 256)).pkt (inkQ (inkV 256)).operand =
      none) ∧
    inkNofb (inkQ (inkV 256)).operand = true ∧ (inkQ (inkV 256)).step = 0 ∧
    (s4.pool (poolKey (inkQ (inkV 256)).pkt.dpart (classOf (inkSize (inkQ (inkV 256)).operand)))).st = PoolState.active ∧
    (s4.pool (poolKey (inkQ (inkV 256)).pkt.dpart (classOf (inkSize (inkQ (inkV 256)).operand)))).reclaim = false ∧
    (s4.pool (poolKey (inkQ (inkV 256)).pkt.dpart (classOf (inkSize (inkQ (inkV 256)).operand)))).free ≠ 0 ∧
    ((s4.reqr (inkReqId (inkQ (inkV 256)).operand)).inuse + classSize (classOf (inkSize (inkQ (inkV 256)).operand)) ≤
      (s4.reqr (inkReqId (inkQ (inkV 256)).operand)).quota) ∧
    ((s4.pool (poolKey (inkQ (inkV 256)).pkt.dpart (classOf (inkSize (inkQ (inkV 256)).operand)))).base * 2 ^ 21 +
        (s4.pool (poolKey (inkQ (inkV 256)).pkt.dpart (classOf (inkSize (inkQ (inkV 256)).operand)))).pop.1 *
          classSize (classOf (inkSize (inkQ (inkV 256)).operand)) <
      2 ^ 48)) ∧
  (On s5 ∧ s5.upsets = [] ∧ s5.inkq = [inkQ (inkV 1)] ∧ inkOp (inkQ (inkV 1)).operand ≠ 2 ∧
    ({ s5 with inkq := [] }.allocBad
        (inkQ (inkV 1)).pkt (inkQ (inkV 1)).operand =
      none) ∧
    inkNofb (inkQ (inkV 1)).operand = true ∧ (inkQ (inkV 1)).step = 0 ∧
    (s5.pool (poolKey (inkQ (inkV 1)).pkt.dpart (classOf (inkSize (inkQ (inkV 1)).operand)))).st = PoolState.active ∧
    (s5.pool (poolKey (inkQ (inkV 1)).pkt.dpart (classOf (inkSize (inkQ (inkV 1)).operand)))).reclaim = false ∧
    (s5.pool (poolKey (inkQ (inkV 1)).pkt.dpart (classOf (inkSize (inkQ (inkV 1)).operand)))).free ≠ 0 ∧
    s5.creditOf (inkReqId (inkQ (inkV 1)).operand) = 0 ∧ s5.fe = [] ∧
    ((s5.reqr (inkReqId (inkQ (inkV 1)).operand)).quota <
      (s5.reqr (inkReqId (inkQ (inkV 1)).operand)).inuse + classSize (classOf (inkSize (inkQ (inkV 1)).operand)))) ∧
  (On s6 ∧ s6.upsets = [] ∧ s6.inkq = [inkQ (inkV 1)] ∧ inkOp (inkQ (inkV 1)).operand ≠ 2 ∧
    ({ s6 with inkq := [] }.allocBad
        (inkQ (inkV 1)).pkt (inkQ (inkV 1)).operand =
      none) ∧
    inkNofb (inkQ (inkV 1)).operand = true ∧ (inkQ (inkV 1)).step = 0 ∧
    (s6.pool (poolKey (inkQ (inkV 1)).pkt.dpart (classOf (inkSize (inkQ (inkV 1)).operand)))).st = PoolState.disabled ∧
    (s6.pool (poolKey (inkQ (inkV 1)).pkt.dpart (classOf (inkSize (inkQ (inkV 1)).operand)))).reclaim = false) ∧
  (On s7 ∧ s7.upsets = [] ∧ s7.inkq = [inkQ (inkV 1)] ∧ inkOp (inkQ (inkV 1)).operand ≠ 2 ∧
    ({ s7 with inkq := [] }.allocBad
        (inkQ (inkV 1)).pkt (inkQ (inkV 1)).operand =
      none) ∧
    inkNofb (inkQ (inkV 1)).operand = true ∧ (inkQ (inkV 1)).step = 0 ∧
    (s7.pool (poolKey (inkQ (inkV 1)).pkt.dpart (classOf (inkSize (inkQ (inkV 1)).operand)))).reclaim = true) ∧
  (On s8 ∧ s8.upsets = [] ∧ s8.inkq = [inkQ (frV (2 ^ 21))] ∧ inkOp (inkQ (frV (2 ^ 21))).operand = 2 ∧
    inkBad (inkQ (frV (2 ^ 21))).operand = false ∧
    (s8.poolOf (inkQ (frV (2 ^ 21))).part
        (match (inkQ (frV (2 ^ 21))).own with
        | some x => x.2.2
        | none => inkOff (inkQ (frV (2 ^ 21))).operand) =
      some 0) ∧
    (s8.pool (poolKey (inkQ (frV (2 ^ 21))).part 0)).st = PoolState.active ∧
    (s8.pool (poolKey (inkQ (frV (2 ^ 21))).part 0)).reclaim = false ∧
    ((match (inkQ (frV (2 ^ 21))).own with
        | some x => x.2.2
        | none => inkOff (inkQ (frV (2 ^ 21))).operand) %
        classSize 0 =
      0) ∧
    (mdAllocated
        (tgetD (s8.pool (poolKey (inkQ (frV (2 ^ 21))).part 0)).md
          (((match (inkQ (frV (2 ^ 21))).own with
              | some x => x.2.2
              | none => inkOff (inkQ (frV (2 ^ 21))).operand) -
              (s8.pool (poolKey (inkQ (frV (2 ^ 21))).part 0)).base * 2 ^ 21) /
            classSize 0)
          0) =
      true) ∧
    (mdCached
        (tgetD (s8.pool (poolKey (inkQ (frV (2 ^ 21))).part 0)).md
          (((match (inkQ (frV (2 ^ 21))).own with
              | some x => x.2.2
              | none => inkOff (inkQ (frV (2 ^ 21))).operand) -
              (s8.pool (poolKey (inkQ (frV (2 ^ 21))).part 0)).base * 2 ^ 21) /
            classSize 0)
          0) =
      false)) ∧
  (On s9 ∧ s9.upsets = [] ∧ s9.inkq = [inkQ (frV (2 ^ 21))] ∧ inkOp (inkQ (frV (2 ^ 21))).operand = 2 ∧
    inkBad (inkQ (frV (2 ^ 21))).operand = false ∧
    (s9.poolOf (inkQ (frV (2 ^ 21))).part
        (match (inkQ (frV (2 ^ 21))).own with
        | some x => x.2.2
        | none => inkOff (inkQ (frV (2 ^ 21))).operand) =
      some 0) ∧
    (s9.pool (poolKey (inkQ (frV (2 ^ 21))).part 0)).reclaim = true) ∧
  (On s10 ∧ s10.upsets = [] ∧ s10.inkq = [inkQ (frV (2 ^ 22 - 1))] ∧ inkOp (inkQ (frV (2 ^ 22 - 1))).operand = 2 ∧
    inkBad (inkQ (frV (2 ^ 22 - 1))).operand = false ∧
    (s10.poolOf (inkQ (frV (2 ^ 22 - 1))).part
        (match (inkQ (frV (2 ^ 22 - 1))).own with
        | some x => x.2.2
        | none => inkOff (inkQ (frV (2 ^ 22 - 1))).operand) =
      some 0) ∧
    (s10.pool (poolKey (inkQ (frV (2 ^ 22 - 1))).part 0)).reclaim = false ∧
    (516 = 521 ∧ (s10.pool (poolKey (inkQ (frV (2 ^ 22 - 1))).part 0)).st = PoolState.failed ∨
      516 = 516 ∧
          (s10.pool (poolKey (inkQ (frV (2 ^ 22 - 1))).part 0)).st ≠ PoolState.failed ∧
            (match (inkQ (frV (2 ^ 22 - 1))).own with
                | some x => x.2.2
                | none => inkOff (inkQ (frV (2 ^ 22 - 1))).operand) %
                classSize 0 ≠
              0 ∨
        516 = 517 ∧
          (s10.pool (poolKey (inkQ (frV (2 ^ 22 - 1))).part 0)).st ≠ PoolState.failed ∧
            (match (inkQ (frV (2 ^ 22 - 1))).own with
                  | some x => x.2.2
                  | none => inkOff (inkQ (frV (2 ^ 22 - 1))).operand) %
                  classSize 0 =
                0 ∧
              mdCached
                    (tgetD (s10.pool (poolKey (inkQ (frV (2 ^ 22 - 1))).part 0)).md
                      (((match (inkQ (frV (2 ^ 22 - 1))).own with
                          | some x => x.2.2
                          | none => inkOff (inkQ (frV (2 ^ 22 - 1))).operand) -
                          (s10.pool (poolKey (inkQ (frV (2 ^ 22 - 1))).part 0)).base * 2 ^ 21) /
                        classSize 0)
                      0) =
                  false ∧
                mdAllocated
                    (tgetD (s10.pool (poolKey (inkQ (frV (2 ^ 22 - 1))).part 0)).md
                      (((match (inkQ (frV (2 ^ 22 - 1))).own with
                          | some x => x.2.2
                          | none => inkOff (inkQ (frV (2 ^ 22 - 1))).operand) -
                          (s10.pool (poolKey (inkQ (frV (2 ^ 22 - 1))).part 0)).base * 2 ^ 21) /
                        classSize 0)
                      0) =
                  false)) ∧
  (On s11 ∧ s11.upsets = [] ∧ s11.inkq = [inkQ (frV (2 ^ 22 - 256))] ∧ inkOp (inkQ (frV (2 ^ 22 - 256))).operand = 2 ∧
    inkBad (inkQ (frV (2 ^ 22 - 256))).operand = false ∧
    (s11.poolOf (inkQ (frV (2 ^ 22 - 256))).part
        (match (inkQ (frV (2 ^ 22 - 256))).own with
        | some x => x.2.2
        | none => inkOff (inkQ (frV (2 ^ 22 - 256))).operand) =
      some 0) ∧
    (s11.pool (poolKey (inkQ (frV (2 ^ 22 - 256))).part 0)).reclaim = false ∧
    (517 = 521 ∧ (s11.pool (poolKey (inkQ (frV (2 ^ 22 - 256))).part 0)).st = PoolState.failed ∨
      517 = 516 ∧
          (s11.pool (poolKey (inkQ (frV (2 ^ 22 - 256))).part 0)).st ≠ PoolState.failed ∧
            (match (inkQ (frV (2 ^ 22 - 256))).own with
                | some x => x.2.2
                | none => inkOff (inkQ (frV (2 ^ 22 - 256))).operand) %
                classSize 0 ≠
              0 ∨
        517 = 517 ∧
          (s11.pool (poolKey (inkQ (frV (2 ^ 22 - 256))).part 0)).st ≠ PoolState.failed ∧
            (match (inkQ (frV (2 ^ 22 - 256))).own with
                  | some x => x.2.2
                  | none => inkOff (inkQ (frV (2 ^ 22 - 256))).operand) %
                  classSize 0 =
                0 ∧
              mdCached
                    (tgetD (s11.pool (poolKey (inkQ (frV (2 ^ 22 - 256))).part 0)).md
                      (((match (inkQ (frV (2 ^ 22 - 256))).own with
                          | some x => x.2.2
                          | none => inkOff (inkQ (frV (2 ^ 22 - 256))).operand) -
                          (s11.pool (poolKey (inkQ (frV (2 ^ 22 - 256))).part 0)).base * 2 ^ 21) /
                        classSize 0)
                      0) =
                  false ∧
                mdAllocated
                    (tgetD (s11.pool (poolKey (inkQ (frV (2 ^ 22 - 256))).part 0)).md
                      (((match (inkQ (frV (2 ^ 22 - 256))).own with
                          | some x => x.2.2
                          | none => inkOff (inkQ (frV (2 ^ 22 - 256))).operand) -
                          (s11.pool (poolKey (inkQ (frV (2 ^ 22 - 256))).part 0)).base * 2 ^ 21) /
                        classSize 0)
                      0) =
                  false)) ∧
  (On s12 ∧ s12.upsets = [] ∧ s12.inkq = [inkQ (frV (2 ^ 22))] ∧ inkOp (inkQ (frV (2 ^ 22))).operand = 2 ∧
    inkBad (inkQ (frV (2 ^ 22))).operand = false ∧
    (s12.poolOf (inkQ (frV (2 ^ 22))).part
        (match (inkQ (frV (2 ^ 22))).own with
        | some x => x.2.2
        | none => inkOff (inkQ (frV (2 ^ 22))).operand) =
      none)) ∧
  (On s13 ∧ s13.upsets = [] ∧ s13.inkq = [inkE (2 ^ 21)] ∧ inkOp (inkE (2 ^ 21)).operand = 2 ∧
    inkBad (inkE (2 ^ 21)).operand = false ∧
    (s13.poolOf (inkE (2 ^ 21)).part
        (match (inkE (2 ^ 21)).own with
        | some x => x.2.2
        | none => inkOff (inkE (2 ^ 21)).operand) =
      some 0) ∧
    (s13.pool (poolKey (inkE (2 ^ 21)).part 0)).st = PoolState.active ∧ (s13.pool (poolKey (inkE (2 ^ 21)).part 0)).reclaim = false ∧
    ((match (inkE (2 ^ 21)).own with
        | some x => x.2.2
        | none => inkOff (inkE (2 ^ 21)).operand) %
        classSize 0 =
      0) ∧
    (mdAllocated
        (tgetD (s13.pool (poolKey (inkE (2 ^ 21)).part 0)).md
          (((match (inkE (2 ^ 21)).own with
              | some x => x.2.2
              | none => inkOff (inkE (2 ^ 21)).operand) -
              (s13.pool (poolKey (inkE (2 ^ 21)).part 0)).base * 2 ^ 21) /
            classSize 0)
          0) =
      true) ∧
    (mdCached
        (tgetD (s13.pool (poolKey (inkE (2 ^ 21)).part 0)).md
          (((match (inkE (2 ^ 21)).own with
              | some x => x.2.2
              | none => inkOff (inkE (2 ^ 21)).operand) -
              (s13.pool (poolKey (inkE (2 ^ 21)).part 0)).base * 2 ^ 21) /
            classSize 0)
          0) =
      false)) := by (repeat' apply And.intro) <;> decide +kernel

theorem witness_FrontEnds :
  (On s14 ∧ (s14.front 62).q = [inkQ (inkV 256)] ∧
    tgetD (s14.front 62).cache (classOf (inkSize (inkQ (inkV 256)).operand)) [] = [] ∧
    (classSize (classOf (inkSize (inkQ (inkV 256)).operand)) ≤
      tgetD (s14.front 62).credit (inkReqId (inkQ (inkV 256)).operand) 0)) ∧
  (On s15 ∧ (s15.front 62).q = [inkQ (inkV 256)] ∧
    (tgetD (s15.front 62).credit (inkReqId (inkQ (inkV 256)).operand) 0 <
      classSize (classOf (inkSize (inkQ (inkV 256)).operand))) ∧
    s15.feMine 62 (inkQ (inkV 256)) = true ∧
    (0 <
      min (2 ^ 20)
        ((s15.reqr (inkReqId (inkQ (inkV 256)).operand)).quota - (s15.reqr (inkReqId (inkQ (inkV 256)).operand)).inuse))) ∧
  (On s16 ∧ (s16.front 62).q = [inkQ (inkV 256)] ∧
    (tgetD (s16.front 62).credit (inkReqId (inkQ (inkV 256)).operand) 0 <
      classSize (classOf (inkSize (inkQ (inkV 256)).operand))) ∧
    (s16.feMine 62 (inkQ (inkV 256)) = false ∨
      min (2 ^ 20)
          ((s16.reqr (inkReqId (inkQ (inkV 256)).operand)).quota - (s16.reqr (inkReqId (inkQ (inkV 256)).operand)).inuse) =
        0)) ∧
  (On s17 ∧ (s17.front 62).q = [inkQ (inkV 256)] ∧
    tgetD (s17.front 62).cache (classOf (inkSize (inkQ (inkV 256)).operand)) [] = [7, 8] ∧ s17.feMine 62 (inkQ (inkV 256)) = true ∧
    (s17.pool (poolKey (inkQ (inkV 256)).pkt.dpart (classOf (inkSize (inkQ (inkV 256)).operand)))).st = PoolState.active ∧
    (s17.pool (poolKey (inkQ (inkV 256)).pkt.dpart (classOf (inkSize (inkQ (inkV 256)).operand)))).reclaim = false ∧
    (classSize (classOf (inkSize (inkQ (inkV 256)).operand)) ≤
      tgetD (s17.front 62).credit (inkReqId (inkQ (inkV 256)).operand) 0) ∧
    (s17.reqr (inkReqId (inkQ (inkV 256)).operand)).inuse ≤ (s17.reqr (inkReqId (inkQ (inkV 256)).operand)).quota ∧
    ((s17.pool (poolKey (inkQ (inkV 256)).pkt.dpart (classOf (inkSize (inkQ (inkV 256)).operand)))).base * 2 ^ 21 +
        7 * classSize (classOf (inkSize (inkQ (inkV 256)).operand)) <
      2 ^ 48)) ∧
  (On s18 ∧ s18.fePart 62 = some 15 ∧ 0 ≤ 22 ∧ (s18.pool (poolKey 15 0)).st = PoolState.active ∧
    (s18.pool (poolKey 15 0)).reclaim = false) ∧
  (On s17 ∧ tgetD (s17.front 62).credit 200 0 ≠ 0) ∧
  (On s19 ∧ (s19.front 62).grants = [gr0]) := by (repeat' apply And.intro) <;> decide +kernel

theorem witness_MemoryReadsBack :
  ((0 + 6 ≤ 6 ∨ 6 + 5 ≤ 0)) ∧
  (Memory.wf m0 = true) := by (repeat' apply And.intro) <;> decide +kernel

theorem witness_TierMoverRuns :
  (On s26 ∧ (s26.mover 11).q = [tmo (tmD 0 32768 0)] ∧ (s26.mover 11).run = none ∧ (s26.mover 11).wait = [] ∧
    tmOP (tmo (tmD 0 32768 0)).desc = 0 ∧ tmBad (tmo (tmD 0 32768 0)).desc = true) ∧
  (On s27 ∧ (s27.mover 11).q = [tmo (tmD 0 32768 2 + 2 ^ 234)] ∧ (s27.mover 11).run = none ∧ (s27.mover 11).wait = [] ∧
    tmOP (tmo (tmD 0 32768 2 + 2 ^ 234)).desc = 0 ∧ tmBad (tmo (tmD 0 32768 2 + 2 ^ 234)).desc = false ∧
    s27.moveGlyphBad 11 (tmo (tmD 0 32768 2 + 2 ^ 234)) = true) ∧
  (On s28 ∧ (s28.mover 11).q = [tmo (tmD 0 32768 2)] ∧ (s28.mover 11).run = none ∧ (s28.mover 11).wait = [] ∧
    tmOP (tmo (tmD 0 32768 2)).desc = 0 ∧ tmBad (tmo (tmD 0 32768 2)).desc = false ∧
    s28.moveGlyphBad 11 (tmo (tmD 0 32768 2)) = false ∧ s28.moveHeld 11 (tmo (tmD 0 32768 2)) = [] ∧
    ((List.foldl (fun x j => x.1.moveRow 11 (tmo (tmD 0 32768 2)) x.2 j) (s28, { status := 0, drops := 0, drawn := 0 })
              (List.range ((tmNROWS (tmo (tmD 0 32768 2)).desc + 7) / 8 * 8))).1.mover
        11 =
      s28.mover 11)) ∧
  (On s29 ∧ (s29.mover 11).q = [tmo (tmD 1 0 0)] ∧ (s29.mover 11).run = none ∧ (s29.mover 11).wait = [] ∧
    tmOP (tmo (tmD 1 0 0)).desc = 1 ∧ tmBad (tmo (tmD 1 0 0)).desc = true) ∧
  (On s30 ∧ (s30.mover 11).q = [tmo (tmD 1 0 1)] ∧ (s30.mover 11).run = none ∧ (s30.mover 11).wait = [] ∧
    tmOP (tmo (tmD 1 0 1)).desc = 1 ∧ s30.upsets = [] ∧ tmBad (tmo (tmD 1 0 1)).desc = false ∧
    s30.tblBad (tmo (tmD 1 0 1)).p (tmSRC (tmo (tmD 1 0 1)).desc) 0 528 false = none ∧
    s30.tblLost (Who.mover 11) (tmo (tmD 1 0 1)).p (tmSRC (tmo (tmD 1 0 1)).desc) 0 528 = none ∧
    s30.tblHeld (Who.mover 11) (tmo (tmD 1 0 1)).p (tmSRC (tmo (tmD 1 0 1)).desc) 0 528 false = [] ∧
    s30.tblPoison (Who.mover 11) (tmo (tmD 1 0 1)).p (tmo (tmD 1 0 1)).s (tmSRC (tmo (tmD 1 0 1)).desc) 0 528 = false ∧
    (firstErr
        (glyErrs (s30.tblRead (Who.mover 11) (tmo (tmD 1 0 1)).p (tmo (tmD 1 0 1)).s (tmSRC (tmo (tmD 1 0 1)).desc) 0 528)
          false) =
      none)) ∧
  (On s31 ∧ (s31.mover 11).q = [tmo (tmD 1 0 1)] ∧ (s31.mover 11).run = none ∧ (s31.mover 11).wait = [] ∧
    tmOP (tmo (tmD 1 0 1)).desc = 1 ∧ s31.upsets = [] ∧ tmBad (tmo (tmD 1 0 1)).desc = false ∧
    s31.tblBad (tmo (tmD 1 0 1)).p (tmSRC (tmo (tmD 1 0 1)).desc) 0 528 false = none ∧
    s31.tblLost (Who.mover 11) (tmo (tmD 1 0 1)).p (tmSRC (tmo (tmD 1 0 1)).desc) 0 528 = none ∧
    s31.tblHeld (Who.mover 11) (tmo (tmD 1 0 1)).p (tmSRC (tmo (tmD 1 0 1)).desc) 0 528 false = [] ∧
    s31.tblPoison (Who.mover 11) (tmo (tmD 1 0 1)).p (tmo (tmD 1 0 1)).s (tmSRC (tmo (tmD 1 0 1)).desc) 0 528 = false ∧
    (firstErr
        (glyErrs (s31.tblRead (Who.mover 11) (tmo (tmD 1 0 1)).p (tmo (tmD 1 0 1)).s (tmSRC (tmo (tmD 1 0 1)).desc) 0 528)
          false) ≠
      none)) ∧
  (On zTr ∧ (zTr.mover 11).run = some tmR ∧ tmR.done = true ∧ tmR.out = 0 ∧ zTr.slotsFull = false ∧
    zTr.farBusy (Who.mover 11) = false ∧ lnLive (zTr.lnt tmR.op.p (bits (tmNOTE tmR.op.desc) 0 16)) = true) := by (repeat' apply And.intro) <;> decide +kernel

theorem witness_MovesAndPlaces :
  (zT0.upsets = [] ∧ 1027 ≠ 0) ∧
  (zT0.upsets = [] ∧ tmNROWS tm2.desc ≤ 2 ∧ (zT0.putRow 11 tm2 2 0 0 false).1 = some s32) ∧
  (zT0.upsets = [] ∧ 1 < tmNROWS tm2.desc ∧ tmNoIdx tm2.desc = false ∧ zT0.tblBad tm2.p (tmIDX tm2.desc) (4 * 1) 4 false = none ∧
    zT0.tblLost (Who.mover 11) tm2.p (tmIDX tm2.desc) (4 * 1) 4 = none ∧
    tmSROWS tm2.desc ≤ zT0.tblRead (Who.mover 11) tm2.p tm2.s (tmIDX tm2.desc) (4 * 1) 4 ∧
    ((zT0.count 1794).putRow 11 tm2 1 0 0 false).1 = some s33) ∧
  (zT0.upsets = [] ∧ 1 < tmNROWS tm3.desc ∧ tmNoIdx tm3.desc = true ∧ 1 < tmSROWS tm3.desc ∧ tmGLY tm3.desc = false ∧
    (zT0.tblBad tm3.p (tmSRC tm3.desc) (1 * rowBytes (tmSFMT tm3.desc) (tmK tm3.desc))
        (rowBytes (tmSFMT tm3.desc) (tmK tm3.desc)) false =
      none) ∧
    (zT0.tblLost (Who.mover 11) tm3.p (tmSRC tm3.desc) (1 * rowBytes (tmSFMT tm3.desc) (tmK tm3.desc))
        (rowBytes (tmSFMT tm3.desc) (tmK tm3.desc)) =
      none) ∧
    (zT0.tblPoison (Who.mover 11) tm3.p tm3.s (tmSRC tm3.desc) (1 * rowBytes (tmSFMT tm3.desc) (tmK tm3.desc))
        (rowBytes (tmSFMT tm3.desc) (tmK tm3.desc)) =
      false) ∧
    ((zT0.putRow 11 tm3 1
          (zT0.tblRead (Who.mover 11) tm3.p tm3.s (tmSRC tm3.desc) (1 * rowBytes (tmSFMT tm3.desc) (tmK tm3.desc))
              (rowBytes (tmSFMT tm3.desc) (tmK tm3.desc)) %
            2 ^ (tmK tm3.desc * fmtBits (tmSFMT tm3.desc)))
          (zT0.tblRead (Who.mover 11) tm3.p tm3.s (tmSRC tm3.desc) (1 * rowBytes (tmSFMT tm3.desc) (tmK tm3.desc))
              (rowBytes (tmSFMT tm3.desc) (tmK tm3.desc)) /
            2 ^ (tmK tm3.desc * fmtBits (tmSFMT tm3.desc)))
          false).1 =
      some s34)) ∧
  (On zMg ∧ List.find? (fun x => x.gran == 0) (zMg.part 15).migs = some mig0 ∧ zMg.moving 15 mig0.gran = false ∧
    zMg.homeBusy 15 (mig0.src.home (65536 * mig0.next + 256 * 0)) 65536 = false ∧
    zMg.homeBusy 15 (mig0.dst.home (65536 * mig0.next + 256 * 0)) 65536 = false ∧ mig0.src.onChip = true ∧ mig0.dst.onChip = true) ∧
  (On s35 ∧ List.find? (fun x => x.gran == 0) (s35.part 15).migs = some (migX (Place.t2 0) (Place.t3 67108864)) ∧
    s35.moving 15 (migX (Place.t2 0) (Place.t3 67108864)).gran = false ∧
    (s35.homeBusy 15
        ((migX (Place.t2 0) (Place.t3 67108864)).src.home (65536 * (migX (Place.t2 0) (Place.t3 67108864)).next + 256 * 0))
        65536 =
      false) ∧
    (s35.homeBusy 15
        ((migX (Place.t2 0) (Place.t3 67108864)).dst.home (65536 * (migX (Place.t2 0) (Place.t3 67108864)).next + 256 * 0))
        65536 =
      false) ∧
    (migX (Place.t2 0) (Place.t3 67108864)).src.onChip = true ∧ (migX (Place.t2 0) (Place.t3 67108864)).dst.onChip = false ∧
    s35.link = PortState.up ∧ s35.upsets = []) ∧
  (On s36 ∧ List.find? (fun x => x.gran == 0) (s36.part 15).migs = some (migX (Place.t3 67108864) (Place.t2 0)) ∧
    s36.moving 15 (migX (Place.t3 67108864) (Place.t2 0)).gran = false ∧
    (s36.homeBusy 15
        ((migX (Place.t3 67108864) (Place.t2 0)).src.home (65536 * (migX (Place.t3 67108864) (Place.t2 0)).next + 256 * 0))
        65536 =
      false) ∧
    (s36.homeBusy 15
        ((migX (Place.t3 67108864) (Place.t2 0)).dst.home (65536 * (migX (Place.t3 67108864) (Place.t2 0)).next + 256 * 0))
        65536 =
      false) ∧
    (migX (Place.t3 67108864) (Place.t2 0)).src.onChip = false ∧ s36.link = PortState.up) ∧
  (On zSt ∧ zSt.objAt 15 (2097151 / 2 ^ 21) = some wObjS ∧ dPolicy wObjS.desc = 2 ∧
    wObjS.staged.contains ((2097151 - dGran wObjS.desc * 2 ^ 21) / 65536) = false) ∧
  (On zUp ∧ (zUp.part 15).objs = [wObjU] ∧ (zUp.part 15).ruled = false ∧ (zUp.part 15).st = PartState.active ∧
    (zUp.part 15).migs = [] ∧ dPolicy wObjU.desc = 1 ∧ wObjU.place = [(0, Place.t3 67108864)] ∧ 0 < 2 ^ 28 ∧
    dTiers wObjU.desc = [(Place.t1 126).tier, (Place.t3 67108864).tier] ∧ (Place.t1 126).tier ≠ (Place.t3 67108864).tier ∧
    zUp.room 15 wObjU.desc 0 (Place.t1 126).tier (zUp.usedPlaces 15) = some (Place.t1 126)) ∧
  (On zSt) ∧
  (On s37 ∧ 191 < 192 ∧ s37.holder (191 / 3) = some 15 ∧ (s37.part 15).ruled = true) ∧
  (On s38 ∧ 191 < 192 ∧ s38.holder (191 / 3) = some 15 ∧ (s38.part 15).ruled = false) := by (repeat' apply And.intro) <;> decide +kernel

end We

namespace Wf

/-! Witnesses: requests, links, versions, management. -/

def zM (m : Mem := mwrite [] 0x10F8 8 0x1122334455667788) : State := wRunM { k0 with cnt := [(63, 0xFFFFFFFF)] } m
def s1 : State := zM
def wObjH : Obj := ⟨2 ^ 64, [(0, .t3 0x4000000)], 1, [], [], []⟩
def zH : State := { zM with parts := [(15, { wPart with objs := [wObjH], perm := [(0, 2)] })] }
def kPm : Packet := wReq 2 0 0xFFFFFFE02000 1 (1 * 2^27 + 1 * 2^31)
def zInk : State := { zM with reqs := [(200, { valid := true, kind := 2, part := 15, quota := 512 })] }
def own (k : Packet) : Packet := { k with w0 := putFld k.w0 32 16 9 }
def kAl : Packet := own (wReq 4 0 0xFFFFFFE00000 1 (256 + 200 * 2^32 + 1 * 2^40 + 2^60) 1)
def s2 : State := { zInk with mesh := [kAl] }
def kRet : Packet := ({ ptype := 2, cls := 2, size := 1, off := 0x8000, space := 0, ext := true, x0 := 3, x1 := 0, data := 7, words := 2 } : RReq).packet 0 10 9 15 7 0 5 1 0 0
def ctE (st : Nat) : CtEntry := { st, batch := 3, gen := 0, half := 0, lo := 0x8000, len := 16, expect := 16, armed := some (l0, 63) }
def withCt (s : State) (st : Nat) : State := State.setDuctus s 63 { s.ductus 63 with ct := [(127, ctE st)] }
def s3 : State := withCt zM 1
def s4 : State := withCt zM 0
def zA (d : Dest) (c : CoreSt := k0) : State := wSent (wRun c) (.core l0 8) d
def s5 : State := zA .none
def s6 : State := zA (.reg l0 63) { k0 with xPend := [63], fence := true }
def kMc : Packet := ({ ptype := 6, cls := 2, size := 0, off := 0x1000, space := 0, tree := 1023, data := 7, words := 1 } : RReq).packet 1 10 9 15 7 0 5 1 0 0
def zMc (mask : Nat) : State := { wOn with verB := { st := 1, since := 0 }, tree := [(2047, BitVec.ofNat 128 (mask + 2^18 + 3 * 2^24))], ports := [(15, { st := .up }), (3, { st := .up })] }
def s7 : State := zMc 0x8001
def s8 : State := zMc 0
def ag (l : Nat) : Agg := ⟨1, 1023, l, 0x0402, kMc⟩
def kMk : Packet := { wAns 11 0x0401 0 with w0 := w64 (11 + 2 * 2^4 + 10 * 2^16 + 12 * 2^32) }
def s9 : State := { zMc 1 with aggs := [ag 2] }
def s10 : State := { zMc 1 with aggs := [ag 1] }
def kFw (hops : Nat) : Packet := { wReq 2 0 0x1000 1 7 with w0 := w64 (2 + 2 * 2^4 + 2^8 + 65535 * 2^16 + 10 * 2^32 + hops * 2^48) }
def zFw (st : Nat) (e : Nat) : State := { wOn with verA := ⟨st, 0⟩, route := [(65535, BitVec.ofNat 16 e)], ports := [(15, { st := .up }), (3, { st := .up })] }
def s11 : State := zFw 0 0x1F
def s12 : State := zFw 1 0x1F
def s13 : State := zFw 1 0x1E
def kCi : Packet := { kFw 62 with w0 := w64 (2 + 1 * 2^4 + 2^8 + 65535 * 2^16 + 10 * 2^32 + 62 * 2^48), w2 := putFld (kFw 0).w2 30 12 4095 }
def zCi (v : Nat) : State := { zFw 1 0x1F with circ := [(4095, BitVec.ofNat 128 (15 + v * 32 + 4094 * 2^16))] }
def s14 : State := zCi 1
def s15 : State := zCi 0
def s16 : State := zFw 1 (0x1F + 3 * 32 + 512)
def zP (p : Port) : State := { wOn with ports := [(15, p)], verA := ⟨1, 0⟩ }
def s17 : State := zP {}
def s18 : State := zP { st := .up }
def s19 : State := { zP { st := .down } with plat := { wPlat with dom := [(79, 2)] } }
def s20 : State := zP { st := .training, since := 900 }
def s21 : State := zP { st := .aligning, since := 900 }
def s22 : State := zP { st := .down, since := 900 }
def fl0 : Flit := ⟨0x5, 0, []⟩
def s23 : State := zP { st := .up, retry := [fl0] }
def pU : Port := { st := .up, rxNext := 4095, retry := [fl0], txSeq := 6, retries := 6 }
def s24 : State := zP pU
def s25 : State := zP { pU with failed := 2, resent := true }
def s26 : State := zP { st := .init }
def s27 : State := zP { pU with nakDue := true }
def s28 : State := zP { pU with replay := [fl0], frameSlot := 1024 }
def s29 : State := zP { pU with retry := [] }
def s30 : State := { zP { pU with credit := [(4, 9)], outq := [⟨kFw 0, 50, 16, none⟩] } with reg := [(0x00D00000, 0x10009)] }
def s31 : State := { zP pU with circ := [(7, 15 + 32 + 3 * 2^32)] }
def zV (a b se : Nat) : State := { wOn with verA := ⟨a, 1⟩, verB := ⟨b, 1⟩, srcEpoch := se, aggs := [ag 1] }
def s32 : State := zV 1 0 0
def s33 : State := zV 1 1 0
def s34 : State := zV 1 2 0
def s35 : State := { zA .none with quar := [(4194303, 99999)] }
def qe : QEnt := ⟨kFw 0, 50, 16, none⟩
def s36 : State := zP { st := .up, outq := [qe], credit := [(4, 1)] }
def s37 : State := { wOn with reg := [(0x00D00040, 0xFFFFF)], parts := [(15, wPart)] }
def kMg (sub n data : Nat) (snode : Nat := 10) : Packet := { wReq 2 0 0 1 data with w0 := w64 (12 + 2 * 2^4 + 9 * 2^16 + snode * 2^32), w1 := w64 (sub + (n-1) * 2^54) }
def zMg (fm : Nat) : State := { wOn with reg := [(0x00D00000, 0x10009), (0x00D00008, (BitVec.ofNat 64 (0x10000 + fm)))] }
def s38 : State := zMg 10
def s39 : State := zMg 11
def s40 : State := zMg 9
def zTj : State := { zMg 10 with parts := [(15, wPart)], cores := [], verA := ⟨1, 0⟩, tree := [(1, BitVec.ofNat 128 (2^18 + 2^16 + 3 * 2^24))] }
def kJs : Packet := let k := kMg 6 2 0; { k with w2 := putFld k.w2 42 10 1 }
def ev0 : Event := ⟨0x0805, 3, 255, 2^32-1, 1, 15, 7, true, 1, 2, 3, 2^64-1⟩
def ev1 : Event := ⟨0x0805, 0, 4, 5, 1, 15, 7, true, 1, 2, 3, 1050⟩
def s41 : State := { wOn with bltq := [ev0, ev1], bltHead := 65535 }
def zLg : State := { wOn with bltq := [ev1], blt := [(7, { ev1 with time := 1000 }.record 7)], reg := [(0x00800018, 0xBE8)] }

theorem witness_RequestsInMemory :
  ((wReq 1 0 4344 1 0).space = 0 ∧ (wReq 1 0 4344 1 0).isPort = false ∧ (wReq 1 0 4344 1 0).ext = false ∧
    s1.homeOf (wReq 1 0 4344 1 0).dpart (wReq 1 0 4344 1 0).offset = some (Home.mem true 4344) ∧ s1.upsets = [] ∧
    Admitted s1 (wReq 1 0 4344 1 0) [1]) ∧
  ((wReq 2 0 2096896 32 (2 ^ 2047 + 5)).space = 0 ∧ (wReq 2 0 2096896 32 (2 ^ 2047 + 5)).isPort = false ∧
    (wReq 2 0 2096896 32 (2 ^ 2047 + 5)).ext = false ∧
    (s1.homeOf (wReq 2 0 2096896 32 (2 ^ 2047 + 5)).dpart (wReq 2 0 2096896 32 (2 ^ 2047 + 5)).offset =
      some (Home.mem true 2096896)) ∧
    s1.upsets = [] ∧ Admitted s1 (wReq 2 0 2096896 32 (2 ^ 2047 + 5)) [2]) ∧
  ((wReq 3 0 4348 1 4294967295 0 2).space = 0 ∧ (wReq 3 0 4348 1 4294967295 0 2).isPort = false ∧
    (wReq 3 0 4348 1 4294967295 0 2).ext = false ∧
    s1.homeOf (wReq 3 0 4348 1 4294967295 0 2).dpart (wReq 3 0 4348 1 4294967295 0 2).offset = some (Home.mem true 4348) ∧
    s1.upsets = [] ∧ Admitted s1 (wReq 3 0 4348 1 4294967295 0 2) [3]) ∧
  ((wReq 4 0 4344 1 18446744073709551615 1).space = 0 ∧ (wReq 4 0 4344 1 18446744073709551615 1).isPort = false ∧
    (wReq 4 0 4344 1 18446744073709551615 1).ext = false ∧
    (s1.homeOf (wReq 4 0 4344 1 18446744073709551615 1).dpart (wReq 4 0 4344 1 18446744073709551615 1).offset =
      some (Home.mem true 4344)) ∧
    s1.upsets = [] ∧ Admitted s1 (wReq 4 0 4344 1 18446744073709551615 1) [4]) ∧
  ((wReq 5 0 4344 1 (1234605616436508552 + 7 * 2 ^ 64)).space = 0 ∧
    (wReq 5 0 4344 1 (1234605616436508552 + 7 * 2 ^ 64)).isPort = false ∧
    (wReq 5 0 4344 1 (1234605616436508552 + 7 * 2 ^ 64)).ext = false ∧
    (s1.homeOf (wReq 5 0 4344 1 (1234605616436508552 + 7 * 2 ^ 64)).dpart
        (wReq 5 0 4344 1 (1234605616436508552 + 7 * 2 ^ 64)).offset =
      some (Home.mem true 4344)) ∧
    s1.upsets = [] ∧ Admitted s1 (wReq 5 0 4344 1 (1234605616436508552 + 7 * 2 ^ 64)) [5]) ∧
  ((wReq 5 0 4336 2 (1 + 7 * 2 ^ 64)).space = 0 ∧ (wReq 5 0 4336 2 (1 + 7 * 2 ^ 64)).isPort = false ∧
    (wReq 5 0 4336 2 (1 + 7 * 2 ^ 64)).ext = false ∧
    s1.homeOf (wReq 5 0 4336 2 (1 + 7 * 2 ^ 64)).dpart (wReq 5 0 4336 2 (1 + 7 * 2 ^ 64)).offset = some (Home.mem true 4336) ∧
    s1.upsets = [] ∧ Admitted s1 (wReq 5 0 4336 2 (1 + 7 * 2 ^ 64)) [5]) ∧
  ((wReq 1 0 4344 1 0).space = 0 ∧ (wReq 1 0 4344 1 0).isPort = false ∧ (wReq 1 0 4344 1 0).ext = false ∧
    zH.homeOf (wReq 1 0 4344 1 0).dpart (wReq 1 0 4344 1 0).offset = some (Home.host 67113208) ∧
    zH.carries (wReq 1 0 4344 1 0) = false ∧ Admitted zH (wReq 1 0 4344 1 0) [1]) ∧
  ((wReq 2 0 2096896 32 (2 ^ 2047 + 5)).space = 0 ∧ (wReq 2 0 2096896 32 (2 ^ 2047 + 5)).isPort = false ∧
    (wReq 2 0 2096896 32 (2 ^ 2047 + 5)).ext = false ∧
    (zH.homeOf (wReq 2 0 2096896 32 (2 ^ 2047 + 5)).dpart (wReq 2 0 2096896 32 (2 ^ 2047 + 5)).offset =
      some (Home.host 69205760)) ∧
    zH.carries (wReq 2 0 2096896 32 (2 ^ 2047 + 5)) = false ∧ Admitted zH (wReq 2 0 2096896 32 (2 ^ 2047 + 5)) [2]) ∧
  ((wReq 3 0 4348 1 4294967295 0 2).space = 0 ∧ (wReq 3 0 4348 1 4294967295 0 2).isPort = false ∧
    (wReq 3 0 4348 1 4294967295 0 2).ext = false ∧
    zH.homeOf (wReq 3 0 4348 1 4294967295 0 2).dpart (wReq 3 0 4348 1 4294967295 0 2).offset = some (Home.host 67113212) ∧
    zH.carries (wReq 3 0 4348 1 4294967295 0 2) = false ∧ Admitted zH (wReq 3 0 4348 1 4294967295 0 2) [3]) ∧
  ((wReq 4 0 4344 1 5 1).space = 0 ∧ (wReq 4 0 4344 1 5 1).isPort = false ∧ (wReq 4 0 4344 1 5 1).ext = false ∧
    zH.homeOf (wReq 4 0 4344 1 5 1).dpart (wReq 4 0 4344 1 5 1).offset = some (Home.host 67113208) ∧
    zH.carries (wReq 4 0 4344 1 5 1) = false ∧ Admitted zH (wReq 4 0 4344 1 5 1) [4]) ∧
  ((wReq 5 0 4344 1 (1 + 7 * 2 ^ 64)).space = 0 ∧ (wReq 5 0 4344 1 (1 + 7 * 2 ^ 64)).isPort = false ∧
    (wReq 5 0 4344 1 (1 + 7 * 2 ^ 64)).ext = false ∧
    zH.homeOf (wReq 5 0 4344 1 (1 + 7 * 2 ^ 64)).dpart (wReq 5 0 4344 1 (1 + 7 * 2 ^ 64)).offset = some (Home.host 67113208) ∧
    zH.carries (wReq 5 0 4344 1 (1 + 7 * 2 ^ 64)) = false ∧ Admitted zH (wReq 5 0 4344 1 (1 + 7 * 2 ^ 64)) [5]) ∧
  (2 ^ 63 < 2 ^ 64) := by (repeat' apply And.intro) <;> decide +kernel

theorem witness_RequestsOnChipOrRefused :
  ((wReq 1 1 17039352 1 0).isPort = false ∧ (wReq 1 1 17039352 1 0).ext = false ∧ (wReq 1 1 17039352 1 0).space = 1 ∧
    Admitted zM (wReq 1 1 17039352 1 0) [1]) ∧
  ((wReq 2 1 17039352 1 7).isPort = false ∧ (wReq 2 1 17039352 1 7).ext = false ∧ (wReq 2 1 17039352 1 7).space = 1 ∧
    Admitted zM (wReq 2 1 17039352 1 7) [2] ∧ zM.carries (wReq 2 1 17039352 1 7) = false ∧
    (wReq 2 1 17039352 1 7).offset % 2 ^ 18 + (wReq 2 1 17039352 1 7).size ≤ 2 ^ 18) ∧
  ((wReq 3 1 17039352 1 7 1 2).isPort = false ∧ (wReq 3 1 17039352 1 7 1 2).ext = false ∧ (wReq 3 1 17039352 1 7 1 2).space = 1 ∧
    Admitted zM (wReq 3 1 17039352 1 7 1 2) [3] ∧ (wReq 3 1 17039352 1 7 1 2).comb = false ∧
    ((zM.core
            (offLoc (wReq 3 1 17039352 1 7 1 2).dpart (wReq 3 1 17039352 1 7 1 2).dctx
              (wReq 3 1 17039352 1 7 1 2).offset)).poisonIn
        ((wReq 3 1 17039352 1 7 1 2).offset % 2 ^ 18) (atomBytes (wReq 3 1 17039352 1 7 1 2).atype) =
      none)) ∧
  ((wReq 4 1 17039352 1 7 1).isPort = false ∧ (wReq 4 1 17039352 1 7 1).ext = false ∧ (wReq 4 1 17039352 1 7 1).space = 1 ∧
    Admitted zM (wReq 4 1 17039352 1 7 1) [4] ∧ (wReq 4 1 17039352 1 7 1).comb = false ∧
    ((zM.core
            (offLoc (wReq 4 1 17039352 1 7 1).dpart (wReq 4 1 17039352 1 7 1).dctx
              (wReq 4 1 17039352 1 7 1).offset)).poisonIn
        ((wReq 4 1 17039352 1 7 1).offset % 2 ^ 18) (atomBytes (wReq 4 1 17039352 1 7 1).atype) =
      none)) ∧
  ((wReq 5 1 17039352 1 (7 * 2 ^ 64)).isPort = false ∧ (wReq 5 1 17039352 1 (7 * 2 ^ 64)).ext = false ∧
    (wReq 5 1 17039352 1 (7 * 2 ^ 64)).space = 1 ∧ Admitted zM (wReq 5 1 17039352 1 (7 * 2 ^ 64)) [5] ∧
    ((zM.core
            (offLoc (wReq 5 1 17039352 1 (7 * 2 ^ 64)).dpart (wReq 5 1 17039352 1 (7 * 2 ^ 64)).dctx
              (wReq 5 1 17039352 1 (7 * 2 ^ 64)).offset)).poisonIn
        ((wReq 5 1 17039352 1 (7 * 2 ^ 64)).offset % 2 ^ 18) (wReq 5 1 17039352 1 (7 * 2 ^ 64)).size =
      none)) ∧
  ((wReq 3 2 (63 * 2 ^ 18 + 63) 1 1).isPort = false ∧ (wReq 3 2 (63 * 2 ^ 18 + 63) 1 1).ext = false ∧
    (wReq 3 2 (63 * 2 ^ 18 + 63) 1 1).space = 2 ∧ Admitted zM (wReq 3 2 (63 * 2 ^ 18 + 63) 1 1) [3]) ∧
  ((wReq 4 2 (63 * 2 ^ 18 + 63) 1 1).isPort = false ∧ (wReq 4 2 (63 * 2 ^ 18 + 63) 1 1).ext = false ∧
    (wReq 4 2 (63 * 2 ^ 18 + 63) 1 1).space = 2 ∧ Admitted zM (wReq 4 2 (63 * 2 ^ 18 + 63) 1 1) [4]) ∧
  (zM.reaches (wReq 1 0 2097152 1 0) [(wReq 1 0 2097152 1 0).ptype] = true ∧ zM.unnumbered (wReq 1 0 2097152 1 0) = false ∧
    zM.admitted (wReq 1 0 2097152 1 0) (wReq 1 0 2097152 1 0).dpart (wReq 1 0 2097152 1 0).dctx = false ∧
    (wReq 1 0 2097152 1 0).isPort = false ∧ (wReq 1 0 2097152 1 0).ext = false ∧ (wReq 1 0 2097152 1 0).ptype = 1) ∧
  (zM.reaches (wReq 2 1 33554432 1 0) [(wReq 2 1 33554432 1 0).ptype] = true ∧ zM.unnumbered (wReq 2 1 33554432 1 0) = false ∧
    zM.admitted (wReq 2 1 33554432 1 0) (wReq 2 1 33554432 1 0).dpart (wReq 2 1 33554432 1 0).dctx = false ∧
    (wReq 2 1 33554432 1 0).isPort = false ∧ (wReq 2 1 33554432 1 0).ext = false ∧ (wReq 2 1 33554432 1 0).ptype = 2) ∧
  (zM.reaches (wReq 3 2 64 1 0) [(wReq 3 2 64 1 0).ptype] = true ∧ zM.unnumbered (wReq 3 2 64 1 0) = false ∧
    zM.admitted (wReq 3 2 64 1 0) (wReq 3 2 64 1 0).dpart (wReq 3 2 64 1 0).dctx = false ∧ (wReq 3 2 64 1 0).isPort = false ∧
    (wReq 3 2 64 1 0).ext = false ∧ (wReq 3 2 64 1 0).ptype = 3) ∧
  (zM.reaches (wReq 4 3 0 1 0) [(wReq 4 3 0 1 0).ptype] = true ∧ zM.unnumbered (wReq 4 3 0 1 0) = false ∧
    zM.admitted (wReq 4 3 0 1 0) (wReq 4 3 0 1 0).dpart (wReq 4 3 0 1 0).dctx = false ∧ (wReq 4 3 0 1 0).isPort = false ∧
    (wReq 4 3 0 1 0).ext = false ∧ (wReq 4 3 0 1 0).ptype = 4) ∧
  (zM.reaches (wReq 5 0 2097152 1 0) [(wReq 5 0 2097152 1 0).ptype] = true ∧ zM.unnumbered (wReq 5 0 2097152 1 0) = false ∧
    zM.admitted (wReq 5 0 2097152 1 0) (wReq 5 0 2097152 1 0).dpart (wReq 5 0 2097152 1 0).dctx = false ∧
    (wReq 5 0 2097152 1 0).isPort = false ∧ (wReq 5 0 2097152 1 0).ext = false ∧ (wReq 5 0 2097152 1 0).ptype = 5) ∧
  (zM.reaches (wReq 5 0 2097152 1 0) [(wReq 5 0 2097152 1 0).ptype] = true ∧ zM.unnumbered (wReq 5 0 2097152 1 0) = false ∧
    zM.admitted (wReq 5 0 2097152 1 0) (wReq 5 0 2097152 1 0).dpart (wReq 5 0 2097152 1 0).dctx = false ∧
    (wReq 5 0 2097152 1 0).isPort = false ∧ (wReq 5 0 2097152 1 0).ext = false) := by (repeat' apply And.intro) <;> decide +kernel

theorem witness_PortsOfTheDevice :
  (zM.reaches (wReq 2 0 281474974617600 8 (2 ^ 511)) [2] = true ∧ zM.unnumbered (wReq 2 0 281474974617600 8 (2 ^ 511)) = false ∧
    (wReq 2 0 281474974617600 8 (2 ^ 511)).space = 0 ∧ portQuad (wReq 2 0 281474974617600 8 (2 ^ 511)).offset = some 0 ∧
    (zM.portOk (wReq 2 0 281474974617600 8 (2 ^ 511))
        ((wReq 2 0 281474974617600 8 (2 ^ 511)).size == 64 &&
            decide (0 < (zM.part (wReq 2 0 281474974617600 8 (2 ^ 511)).dpart).quads.length) &&
          (wReq 2 0 281474974617600 8 (2 ^ 511)).wgrp == zM.wg (wReq 2 0 281474974617600 8 (2 ^ 511)).dpart) =
      true) ∧
    zM.isCopy (wReq 2 0 281474974617600 8 (2 ^ 511)) = false ∧
    (zM.mover ((zM.part (wReq 2 0 281474974617600 8 (2 ^ 511)).dpart).quads.getD 0 0)).wait = [] ∧
    (zM.mover ((zM.part (wReq 2 0 281474974617600 8 (2 ^ 511)).dpart).quads.getD 0 0)).q.length < 64) ∧
  (zM.reaches kPm [2] = true ∧ zM.unnumbered kPm = false ∧ kPm.ext = false ∧ kPm.isPort = true ∧ kPm.offset = permPort ∧
    zM.isCopy kPm = false ∧ zM.portOk kPm (zM.permOk kPm) = true) ∧
  (zInk.reaches (wReq 4 0 281474974613504 1 (2 * 2 ^ 60) 1) [4] = true ∧
    zInk.unnumbered (wReq 4 0 281474974613504 1 (2 * 2 ^ 60) 1) = false ∧ (wReq 4 0 281474974613504 1 (2 * 2 ^ 60) 1).isPort = true ∧
    (zInk.portOk (wReq 4 0 281474974613504 1 (2 * 2 ^ 60) 1)
        ((wReq 4 0 281474974613504 1 (2 * 2 ^ 60) 1).offset == inkPort &&
          (wReq 4 0 281474974613504 1 (2 * 2 ^ 60) 1).atype == 1) =
      true) ∧
    inkOp ((wReq 4 0 281474974613504 1 (2 * 2 ^ 60) 1).data % 2 ^ 64) = 2) ∧
  (s2.reaches kAl [4] = true ∧ s2.unnumbered kAl = false ∧ kAl.isPort = true ∧
    s2.portOk kAl (kAl.offset == inkPort && kAl.atype == 1) = true ∧ inkOp (kAl.data % 2 ^ 64) = 1 ∧
    inkBad (kAl.data % 2 ^ 64) = false ∧ kAl.snode = s2.pnode ∧ inkClu (kAl.data % 2 ^ 64) < s2.nclu kAl.dpart ∧
    (s2.part kAl.dpart).ruled = false) ∧
  (kRet.ext = true ∧ Admitted s3 kRet [2] ∧ fld kRet.x1 0 6 < s3.nclu kRet.dpart ∧
    ((s3.take kRet).returnFate (s3.phys kRet.dpart (fld kRet.x1 0 6)) kRet.dctx kRet).1 = 2) ∧
  (kRet.ext = true ∧ Admitted s4 kRet [2] ∧ fld kRet.x1 0 6 < s4.nclu kRet.dpart ∧
    ((s4.take kRet).returnFate (s4.phys kRet.dpart (fld kRet.x1 0 6)) kRet.dctx kRet).1 ≠ 2) ∧
  (On s17 ∧ s17.looping 15 = false ∧ (s17.port 15).st = PortState.disabled) ∧
  (On s18 ∧ s18.looping 15 = false) ∧
  (On s19 ∧ s19.looping 15 = false ∧ s19.plat.domOn (64 + 15) = true) ∧
  (On s20 ∧ s20.looping 15 = false ∧ (s20.port 15).st = PortState.training) ∧
  (On s21 ∧ s21.looping 15 = false ∧ (s21.port 15).st = PortState.aligning) ∧
  (On s22 ∧ s22.looping 15 = false ∧ (s22.port 15).st = PortState.down) ∧
  (On s23 ∧ s23.looping 15 = false ∧ (s23.port 15).st = PortState.up) ∧
  (On s23 ∧ s23.looping 15 = false ∧ (s23.port 15).st = PortState.up ∧ (s23.port 15).outq = []) := by (repeat' apply And.intro) <;> decide +kernel

theorem witness_ResponsesAndMulticast :
  (s5.unnumbered (wAns 8 0 0) = false ∧ s5.answered (wAns 8 0 0) = some (wOp (Owner.core l0 8)) ∧
    (wOp (Owner.core l0 8)).owner = Owner.core l0 8 ∧ s5.reaches (wAns 8 0 0) [8] = true ∧ (wOp (Owner.core l0 8)).dest = Dest.none) ∧
  (s6.unnumbered (wAns 9 0 77) = false ∧ s6.answered (wAns 9 0 77) = some (wOp (Owner.core l0 8) (Dest.reg l0 63)) ∧
    (wOp (Owner.core l0 8) (Dest.reg l0 63)).owner = Owner.core l0 8 ∧ s6.reaches (wAns 9 0 77) [9] = true ∧
    (wOp (Owner.core l0 8) (Dest.reg l0 63)).dest = Dest.reg l0 63 ∧ (wAns 9 0 77).status = 0) ∧
  (s5.unnumbered (wAns 10 1027 0) = false ∧ s5.answered (wAns 10 1027 0) = some (wOp (Owner.core l0 8)) ∧
    (wOp (Owner.core l0 8)).owner = Owner.core l0 8 ∧ s5.reaches (wAns 10 1027 0) [10] = true ∧
    (wOp (Owner.core l0 8)).dest = Dest.none) ∧
  (s5.unnumbered (wAns 10 1027 0) = false ∧ s5.answered (wAns 10 1027 0) = some (wOp (Owner.core l0 8)) ∧
    (wOp (Owner.core l0 8)).owner = Owner.core l0 8 ∧
    (s5.answered
        { (wAns 8 0 0) with w1 := 6 } =
      none) ∧
    (s5.unnumbered
        { (wAns 8 0 0) with w1 := 6 } =
      false) ∧
    (s5.reaches
        { (wAns 8 0 0) with w1 := 6 }
        [8] =
      true)) ∧
  (s5.unnumbered (wAns 10 1027 0) = false ∧ s5.answered (wAns 10 1027 0) = some (wOp (Owner.core l0 8)) ∧
    (wOp (Owner.core l0 8)).owner = Owner.core l0 8 ∧
    (s5.answered
        { (wAns 10 5 0) with w1 := 6 } =
      none) ∧
    (s5.unnumbered
        { (wAns 10 5 0) with w1 := 6 } =
      false) ∧
    (s5.reaches
        { (wAns 10 5 0) with w1 := 6 }
        [10] =
      true)) ∧
  (s7.mayTake kMc = true ∧ kMc.ptype = 6 ∧ kMc.bad = false ∧ s7.unnumbered kMc = false ∧ (s7.version kMc.epoch).st ≠ 0 ∧
    trVALID (s7.treeOf kMc.epoch kMc.tree) = true ∧
    (kMc.snode = s7.pnode →
      trROOT (s7.treeOf kMc.epoch kMc.tree) = true ∧
        (List.filter (fun i => bit (trMASK (s7.treeOf kMc.epoch kMc.tree)) i) (List.range 16) = [] ∨
          s7.ruledOp kMc = false ∧ s7.nodeValid = true)) ∧
    kMc.hops + 1 < 64 ∧ s7.aggs.length < 4096 ∧ s7.slotsFull = false ∧
    ((List.filter (fun i => bit (trMASK (s7.treeOf kMc.epoch kMc.tree)) i) (List.range 16)).length +
        b2n (trLOCAL (s7.treeOf kMc.epoch kMc.tree)) ≠
      0)) ∧
  (s8.mayTake kMc = true ∧ kMc.ptype = 6 ∧ kMc.bad = false ∧ s8.unnumbered kMc = false ∧ (s8.version kMc.epoch).st ≠ 0 ∧
    trVALID (s8.treeOf kMc.epoch kMc.tree) = true ∧
    (kMc.snode = s8.pnode →
      trROOT (s8.treeOf kMc.epoch kMc.tree) = true ∧
        (List.filter (fun i => bit (trMASK (s8.treeOf kMc.epoch kMc.tree)) i) (List.range 16) = [] ∨
          s8.ruledOp kMc = false ∧ s8.nodeValid = true)) ∧
    kMc.hops + 1 < 64 ∧ s8.aggs.length < 4096 ∧ s8.slotsFull = false ∧
    ((List.filter (fun i => bit (trMASK (s8.treeOf kMc.epoch kMc.tree)) i) (List.range 16)).length +
        b2n (trLOCAL (s8.treeOf kMc.epoch kMc.tree)) =
      0)) ∧
  (kMk.ptype = 11 ∧ s9.mayTake kMk = true ∧ kMk.bad = false ∧ kMk.snode ≠ s9.pnode ∧ s9.unnumbered kMk = false ∧ s9.aggs = [ag 2] ∧
    (ag 2).pkt.snode = kMk.dnode ∧ (ag 2).pkt.slot = kMk.rslot ∧ (ag 2).pkt.use = kMk.ruse ∧ 2 ≤ (ag 2).left) ∧
  (kMk.ptype = 11 ∧ s10.mayTake kMk = true ∧ kMk.bad = false ∧ kMk.snode ≠ s10.pnode ∧ s10.unnumbered kMk = false ∧
    s10.aggs = [ag 1] ∧ (ag 1).pkt.snode = kMk.dnode ∧ (ag 1).pkt.slot = kMk.rslot ∧ (ag 1).pkt.use = kMk.ruse ∧ (ag 1).left = 1) := by (repeat' apply And.intro) <;> decide +kernel

theorem witness_Routing :
  (On s11 ∧ s11.mayTake (kFw 0) = true ∧ (kFw 0).bad = false ∧ (kFw 0).ptype ≠ 6 ∧ (kFw 0).ptype ≠ 11 ∧ (kFw 0).onTree = false ∧
    s11.nodeValid = true ∧ (kFw 0).dnode ≠ s11.pnode ∧ s11.mgmtOut = [] ∧ s11.upsets = [] ∧
    ((kFw 0).cls ≠ 1 ∨ (kFw 0).isReq = false) ∧ s11.ofRuled (kFw 0) = false ∧ (s11.version (kFw 0).epoch).st = 0) ∧
  (On s12 ∧ s12.mayTake (kFw 63) = true ∧ (kFw 63).bad = false ∧ (kFw 63).ptype ≠ 6 ∧ (kFw 63).ptype ≠ 11 ∧
    (kFw 63).onTree = false ∧ s12.nodeValid = true ∧ (kFw 63).dnode ≠ s12.pnode ∧ s12.mgmtOut = [] ∧ s12.upsets = [] ∧
    ((kFw 63).cls ≠ 1 ∨ (kFw 63).isReq = false) ∧ s12.ofRuled (kFw 63) = false ∧ (s12.version (kFw 63).epoch).st ≠ 0 ∧
    63 ≤ (kFw 63).hops) ∧
  (On s13 ∧ s13.mayTake (kFw 62) = true ∧ (kFw 62).bad = false ∧ (kFw 62).ptype ≠ 6 ∧ (kFw 62).ptype ≠ 11 ∧
    (kFw 62).onTree = false ∧ s13.nodeValid = true ∧ (kFw 62).dnode ≠ s13.pnode ∧ s13.mgmtOut = [] ∧ s13.upsets = [] ∧
    ((kFw 62).cls ≠ 1 ∨ (kFw 62).isReq = false) ∧ s13.ofRuled (kFw 62) = false ∧ (s13.version (kFw 62).epoch).st ≠ 0 ∧
    (kFw 62).hops < 63 ∧ s13.outPort (kFw 62) = none) ∧
  (On s12 ∧ s12.mayTake (kFw 62) = true ∧ (kFw 62).bad = false ∧ (kFw 62).ptype ≠ 6 ∧ (kFw 62).ptype ≠ 11 ∧
    (kFw 62).onTree = false ∧ s12.nodeValid = true ∧ (kFw 62).dnode ≠ s12.pnode ∧ s12.mgmtOut = [] ∧ s12.upsets = [] ∧
    ((kFw 62).cls ≠ 1 ∨ (kFw 62).isReq = false) ∧ s12.ofRuled (kFw 62) = false ∧ (s12.version (kFw 62).epoch).st ≠ 0 ∧
    (kFw 62).hops < 63 ∧ s12.outPort (kFw 62) = some 15) ∧
  (On s14 ∧ s14.mayTake kCi = true ∧ kCi.bad = false ∧ kCi.ptype ≠ 6 ∧ kCi.ptype ≠ 11 ∧ kCi.onTree = false ∧ s14.nodeValid = true ∧
    kCi.dnode ≠ s14.pnode ∧ s14.mgmtOut = [] ∧ s14.upsets = [] ∧ kCi.isReq = true ∧ kCi.cls = 1 ∧ kCi.snode ≠ s14.pnode ∧
    kCi.hops < 63 ∧ ciVALID (s14.circOf kCi.circ) = true ∧ ciOUT (s14.circOf kCi.circ) < 16 ∧
    s14.portUp (ciOUT (s14.circOf kCi.circ)) = true) ∧
  (On s15 ∧ s15.mayTake kCi = true ∧ kCi.bad = false ∧ kCi.ptype ≠ 6 ∧ kCi.ptype ≠ 11 ∧ kCi.onTree = false ∧ s15.nodeValid = true ∧
    kCi.dnode ≠ s15.pnode ∧ s15.mgmtOut = [] ∧ s15.upsets = [] ∧ kCi.isReq = true ∧ kCi.cls = 1 ∧ kCi.snode ≠ s15.pnode ∧
    kCi.hops < 63 ∧ ciVALID (s15.circOf kCi.circ) = false) ∧
  (s16.outPort (kFw 62) = some 3 ∧ rtPV (s16.routeOf (kFw 62).epoch (kFw 62).dnode) = true ∧
    rtAV (s16.routeOf (kFw 62).epoch (kFw 62).dnode) = true ∧
    s16.portUp (rtPORT (s16.routeOf (kFw 62).epoch (kFw 62).dnode)) = true ∧
    s16.portUp (rtALT (s16.routeOf (kFw 62).epoch (kFw 62).dnode)) = true) ∧
  ((s16.outPort
        { (kFw 62) with w1 := 4352 } =
      some 15) ∧
    (rtPV
        (s16.routeOf
          { (kFw 62) with w1 := 4352 }.epoch
          { (kFw 62) with w1 := 4352 }.dnode) =
      true) ∧
    (rtAV
        (s16.routeOf
          { (kFw 62) with w1 := 4352 }.epoch
          { (kFw 62) with w1 := 4352 }.dnode) =
      true) ∧
    (s16.portUp
        (rtPORT
          (s16.routeOf
            { (kFw 62) with w1 := 4352 }.epoch
            { (kFw 62) with w1 := 4352 }.dnode)) =
      true) ∧
    (s16.portUp
        (rtALT
          (s16.routeOf
            { (kFw 62) with w1 := 4352 }.epoch
            { (kFw 62) with w1 := 4352 }.dnode)) =
      true)) := by (repeat' apply And.intro) <;> decide +kernel

theorem witness_LinkFlits :
  (On s24 ∧ (s24.port 15).st = PortState.up ∧ fhBad 0 = false ∧ fhTYPE 0 = 0 ∧ fhSEQ 0 ≠ (s24.port 15).rxNext) ∧
  (On s24 ∧ (s24.port 15).st = PortState.up ∧ fhBad 34359762943 = false ∧ fhTYPE 34359762943 = 0 ∧
    fhSEQ 34359762943 = (s24.port 15).rxNext) ∧
  (On s24 ∧ (s24.port 15).st = PortState.up ∧ fhBad 17589786923008 = false ∧ fhTYPE 17589786923008 = 1) ∧
  (On s24 ∧ (s24.port 15).st = PortState.up ∧ fhBad 50352128 = false ∧ fhTYPE 50352128 = 3 ∧
    ((((s24.port 15).takeAck (fhACK 50352128)).takeCredit (fhCVC 50352128) (fhCCNT 50352128)).failed +
          b2n
            ((((s24.port 15).takeAck (fhACK 50352128)).takeCredit (fhCVC 50352128) (fhCCNT 50352128)).resent &&
              !(((s24.port 15).takeAck (fhACK 50352128)).takeCredit (fhCVC 50352128) (fhCCNT 50352128)).retry.isEmpty) +
        (((s24.port 15).takeAck (fhACK 50352128)).takeCredit (fhCVC 50352128) (fhCCNT 50352128)).retries <
      8)) ∧
  (On s25 ∧ (s25.port 15).st = PortState.up ∧ fhBad 50348032 = false ∧ fhTYPE 50348032 = 3 ∧
    (8 ≤
      (((s25.port 15).takeAck (fhACK 50348032)).takeCredit (fhCVC 50348032) (fhCCNT 50348032)).failed +
          b2n
            ((((s25.port 15).takeAck (fhACK 50348032)).takeCredit (fhCVC 50348032) (fhCCNT 50348032)).resent &&
              !(((s25.port 15).takeAck (fhACK 50348032)).takeCredit (fhCVC 50348032) (fhCCNT 50348032)).retry.isEmpty) +
        (((s25.port 15).takeAck (fhACK 50348032)).takeCredit (fhCVC 50348032) (fhCCNT 50348032)).retries)) ∧
  (On s24 ∧ (s24.port 15).st = PortState.up ∧ fhTYPE 20480 = 0) ∧
  (On s24 ∧ (s24.port 15).st = PortState.up ∧ fhBad 117460992 = true ∧ (s24.port 15).failed + (s24.port 15).retries < 7) ∧
  (On s26 ∧ (s26.port 15).st = PortState.init ∧ fhBad 33554432 = false ∧ fhTYPE 33554432 = 2) ∧
  (On s17 ∧ s17.link = PortState.up) ∧
  (On s27 ∧ (s27.port 15).st = PortState.up ∧ (s27.port 15).nakDue = true) ∧
  (On s28 ∧ (s28.port 15).st = PortState.up ∧ (s28.port 15).nakDue = false ∧ s28.nodeValid = true) ∧
  (On s29 ∧ (s29.port 15).st = PortState.up ∧ (s29.port 15).nakDue = false ∧
    (s29.nodeValid = false ∨ (s29.port 15).replay = [] ∧ (s29.port 15).outq = [] ∧ (s29.port 15).partial_ = [])) ∧
  (On s30 ∧ (s30.port 15).st = PortState.up ∧ (s30.port 15).nakDue = false ∧ s30.nodeValid = true ∧ (s30.port 15).replay = [] ∧
    (s30.port 15).retry.length < 512 ∧ (s30.port 15).txSeq < 4096 ∧
    ((fillFlit s30.weights (s30.sharesOf 15) (s30.ready [] (s30.port 15).outq)
          (Option.filter (fun o => ((s30.port 15).cands (s30.ready [] (s30.port 15).outq)).any fun c => c.circ == some o)
            (s30.slotOwner 15))
          15 (s30.port 15) []).2 ≠
      [])) ∧
  (On s26 ∧ (s26.port 15).st = PortState.init ∧ (s26.port 15).initRcvd = false) ∧
  (On s31) ∧
  (On s24) := by (repeat' apply And.intro) <;> decide +kernel

theorem witness_VersionsAndTimers :
  (On s32) ∧
  (On s33) ∧
  (On s34 ∧ (s34.version 1).st = 2) ∧
  (On s5 ∧ tget s5.ops 5 = some (wOp (Owner.core l0 8)) ∧ (wOp (Owner.core l0 8)).timed = true) ∧
  (On s35 ∧ tget s35.quar 4194303 = some 99999) ∧
  (On s36 ∧ List.find? (fun q => q.pkt.vc == 4) (s36.port 15).outq = some qe ∧ tgetD (s36.port 15).credit 4 0 < qe.pkt.slots) ∧
  (On s37 ∧ 18446744073709551615 &&& 35180102287359 ≠ 0) := by (repeat' apply And.intro) <;> decide +kernel

theorem witness_Management :
  (On s38 ∧ s38.reaches (kMg 1 2 (13631488 + 8388624 * 2 ^ 64)) [12] = true ∧
    s38.unnumbered (kMg 1 2 (13631488 + 8388624 * 2 ^ 64)) = false ∧ s38.fmSent (kMg 1 2 (13631488 + 8388624 * 2 ^ 64)) = true ∧
    s38.scribeUp 2 = true ∧ (kMg 1 2 (13631488 + 8388624 * 2 ^ 64)).size / 8 ≤ 8 ∧ (kMg 1 2 (13631488 + 8388624 * 2 ^ 64)).sub = 1 ∧
    ((List.map (mgmtWord (kMg 1 2 (13631488 + 8388624 * 2 ^ 64)))
            (List.range ((kMg 1 2 (13631488 + 8388624 * 2 ^ 64)).size / 8))).all
        mgmtOff =
      true)) ∧
  (On s38 ∧ s38.reaches (kMg 2 2 (8388632 + 65535 * 2 ^ 64)) [12] = true ∧
    s38.unnumbered (kMg 2 2 (8388632 + 65535 * 2 ^ 64)) = false ∧ s38.fmSent (kMg 2 2 (8388632 + 65535 * 2 ^ 64)) = true ∧
    s38.scribeUp 2 = true ∧ (kMg 2 2 (8388632 + 65535 * 2 ^ 64)).size / 8 ≤ 8 ∧ (kMg 2 2 (8388632 + 65535 * 2 ^ 64)).sub = 2 ∧
    (kMg 2 2 (8388632 + 65535 * 2 ^ 64)).size / 8 = 2 ∧ mgmtOff (mgmtWord (kMg 2 2 (8388632 + 65535 * 2 ^ 64)) 0) = true ∧
    (((s38.take (kMg 2 2 (8388632 + 65535 * 2 ^ 64))).regWrite (mgmtWord (kMg 2 2 (8388632 + 65535 * 2 ^ 64)) 0 % 2 ^ 26)
            (mgmtWord (kMg 2 2 (8388632 + 65535 * 2 ^ 64)) 1)).plat.power =
      Power.running)) ∧
  (On s38 ∧ s38.reaches (kMg 3 2 (983041 + 25100297 * 2 ^ 64)) [12] = true ∧
    s38.unnumbered (kMg 3 2 (983041 + 25100297 * 2 ^ 64)) = false ∧ s38.fmSent (kMg 3 2 (983041 + 25100297 * 2 ^ 64)) = true ∧
    s38.scribeUp 2 = true ∧ (kMg 3 2 (983041 + 25100297 * 2 ^ 64)).size / 8 ≤ 8 ∧ (kMg 3 2 (983041 + 25100297 * 2 ^ 64)).sub = 3 ∧
    (kMg 3 2 (983041 + 25100297 * 2 ^ 64)).size / 8 = 2 ∧ mgmtWord (kMg 3 2 (983041 + 25100297 * 2 ^ 64)) 0 < 2 ^ 20 ∧
    (lnMask (w64 (mgmtWord (kMg 3 2 (983041 + 25100297 * 2 ^ 64)) 1)) =
      w64 (mgmtWord (kMg 3 2 (983041 + 25100297 * 2 ^ 64)) 1))) ∧
  (On s38 ∧ s38.reaches (kMg 255 1 0) [12] = true ∧ s38.unnumbered (kMg 255 1 0) = false ∧ s38.fmSent (kMg 255 1 0) = true ∧
    ((kMg 255 1 0).sub = 0 ∨ 7 ≤ (kMg 255 1 0).sub)) ∧
  (On s39 ∧ s39.reaches (kMg 1 1 0) [12] = true ∧ s39.unnumbered (kMg 1 1 0) = false ∧ s39.fmSent (kMg 1 1 0) = false ∧
    (kMg 1 1 0).sub = 1) ∧
  (On s39 ∧ s39.reaches (kMg 2 1 0) [12] = true ∧ s39.unnumbered (kMg 2 1 0) = false ∧ s39.fmSent (kMg 2 1 0) = false ∧
    (kMg 2 1 0).sub = 2) ∧
  (On s39 ∧ s39.reaches (kMg 3 1 0) [12] = true ∧ s39.unnumbered (kMg 3 1 0) = false ∧ s39.fmSent (kMg 3 1 0) = false ∧
    (kMg 3 1 0).sub = 3) ∧
  (On s40 ∧ s40.reaches (kMg 4 8 (2 ^ 511)) [12] = true ∧ s40.unnumbered (kMg 4 8 (2 ^ 511)) = false ∧ (kMg 4 8 (2 ^ 511)).sub = 4 ∧
    s40.isFm = true ∧ (kMg 4 8 (2 ^ 511)).size = 64 ∧
    (((s40.take (kMg 4 8 (2 ^ 511))).noticeWrite (kMg 4 8 (2 ^ 511)).data (kMg 4 8 (2 ^ 511)).snode).plat.power =
      Power.running)) ∧
  (On s38 ∧ s38.reaches (kMg 4 8 (2 ^ 511)) [12] = true ∧ s38.unnumbered (kMg 4 8 (2 ^ 511)) = false ∧ (kMg 4 8 (2 ^ 511)).sub = 4 ∧
    s38.isFm = false) ∧
  ((kMg 5 1 (0 + 0 * 2 ^ 16)).ptype = 12 ∧ (kMg 5 1 (0 + 0 * 2 ^ 16)).sub = 5 ∧ (kMg 5 1 (0 + 0 * 2 ^ 16)).onTree = false ∧
    zTj.reaches (kMg 5 1 (0 + 0 * 2 ^ 16)) [12] = true ∧ zTj.unnumbered (kMg 5 1 (0 + 0 * 2 ^ 16)) = false ∧
    zTj.fmSent (kMg 5 1 (0 + 0 * 2 ^ 16)) = true ∧ (kMg 5 1 (0 + 0 * 2 ^ 16)).size = 8 ∧ (kMg 5 1 (0 + 0 * 2 ^ 16)).data < 2 ^ 32) ∧
  (kJs.ptype = 12 ∧ kJs.sub = 6 ∧ zTj.mayTake kJs = true ∧ kJs.bad = false ∧ zTj.unnumbered kJs = false ∧
    (zTj.version kJs.epoch).st ≠ 0 ∧ trVALID (zTj.treeOf kJs.epoch kJs.tree) = true ∧
    (kJs.snode = zTj.pnode →
      trROOT (zTj.treeOf kJs.epoch kJs.tree) = true ∧
        (List.filter (fun i => bit (trMASK (zTj.treeOf kJs.epoch kJs.tree)) i) (List.range 16) = [] ∨ zTj.nodeValid = true)) ∧
    kJs.hops + 1 < 64 ∧ zTj.aggs.length < 4096 ∧
    ((List.filter (fun i => bit (trMASK (zTj.treeOf kJs.epoch kJs.tree)) i) (List.range 16)).length +
        b2n (trLOCAL (zTj.treeOf kJs.epoch kJs.tree)) ≠
      0) ∧
    zTj.fmSent kJs = true) ∧
  (kJs.ptype = 12 ∧ 32768 < 2 ^ 16 ∧ 1 < 2 ^ 16) ∧
  (kJs.ptype = 12 ∧ 32769 < 2 ^ 16 ∧ 1 < 2 ^ 16) := by (repeat' apply And.intro) <;> decide +kernel

theorem witness_LogAndNotices :
  (s41.plat.power ≠ Power.islandReset ∧ s41.bltq = [ev0, ev1] ∧ ev0.cls ≠ 0 ∧ s41.bltHead < 65536) ∧
  (zLg.plat.power ≠ Power.islandReset ∧ zLg.bltq = [ev1] ∧
    (zLg.foldInto ev1 =
      some
        ({ ev1 with time := 1000 }.record
          7))) ∧
  (2 ^ 64 - 1 < 2 ^ 64 ∧ ev0.time < 2 ^ 64 ∧ ev0.code < 2 ^ 16 ∧ ev0.cls < 8 ∧ ev0.srck < 256 ∧ ev0.srcid < 2 ^ 32) := by (repeat' apply And.intro) <;> decide +kernel

end Wf

namespace Wg

/-! Witnesses: notices, Ligature, job starts. -/

def ev0 : Event := ⟨0x0831, 3, 6, 3, 1, 15, 7, true, 1, 2, 3, 500⟩
def zN (fm : Nat) (note : NoticeSt) (ops : Tbl Op := []) : State := { wOn with reg := [(0x00800018, 0xBE8 ), (0x00D00000, 0x10009), (0x00D00008, (BitVec.ofNat 64 (0x10000 + fm)))], blt := [(7, ev0.record 7), (8, ev0.record 8)], bltHead := 9, bltNote := note, ops }
def s1 : State := zN 9 {}
def s2 : State := zN 10 {}
def kNr (st : Nat) : Packet := { wAns 13 st 0 with w1 := w64 (5 + 2 ^ 22 + st * 2 ^ 32 + 4 * 2^48) }
def s3 : State := zN 10 { cur := some 7, tries := 2, sentAt := 900 } [(5, wOp .notice)]
def s4 : State := zN 10 { cur := some 7, tries := 3, sentAt := 900 } [(5, wOp .notice)]
/-- Group 63: no children, root, W 1, cluster 0, cores 0 and 63. -/
def wGd (root : Nat) : Nat := 63 + root * 2^16 + (if root = 0 then 1 * 2 ^ 32 else 0) + 1 * 2^64 + (1 + 2^63) * 2^128 + 0x7000 * 2^256
def kLg (d : Nat) : CoreSt := { k0 with x := [(1, 0x3FFA0), (3, 63)], spad := swrite [] 0x3FFA0 96 d }
def s5 : State := wRunM (kLg (wGd 1)) []
def s6 : State := wRunM (kLg (wGd 1 + 64)) []
def gr (st : Nat) (d : Nat := wGd 1) : Group := { st, p := 15, s := 7, gid := 63, desc := d, total := 2, slots := 2, rslots := 1, told := decide (st = 1) }
def zG (c : CoreSt) (g : Group) : State := { wRunM c [] with grps := [(255, g)], lfree := 238, lrfree := 3 }
def s7 : State := zG (kLg (wGd 1)) (gr 2)
/-- An all-reduce of 4 FP32 from 0x1000 to 0x2000. -/
def wCd : Nat := 0x1000 + 0x2000 * 2^64 + 0x7000 * 2^128 + 4 * 2^192 + 2 * 2^240 + 63 * 2^256
def s8 : State := zG (kLg wCd) (gr 2)
def s9 : State := zG (kLg wCd) (gr 1)
def s10 : State := wRunM k0 []
/-- Group 63 with children on nodes 65535 (node 10). -/
def wGc (root : Nat) : Nat := wGd root + 1 * 2^8 + 65535 * 2^512
def kUp (hdr : Nat) : Packet := wReq 2 0 (0xFFFFFFF00000 + 63 * 0x100) 8 hdr
def kDn (hdr : Nat) : Packet := wReq 2 0 (0xFFFFFFF80000 + 63 * 0x100) 8 hdr
def hRep : Nat := 1 + 2 * 2^352 + 2 * 2^384
def hRank : Nat := 2 + 2 * 2^384 + 4 * 2^416
def s11 : State := zG k0 (gr 1 (wGc 1))
def s12 : State := zG k0 (gr 1 (wGd 1))
def wGp : Nat := wGd 0 - 2^32 + 65535 * 2^32
def s13 : State := zG k0 (gr 1 wGp)
/-- A chunk of an all-reduce of 4 FP32, collective 0, one piece. -/
def hCh : Nat := (0 + 2 * 2^5) * 2^8 + 1 * 2^96 + 4 * 2^128
def gV : Group := { gr 2 (wGc 1) with reports := [(0, 1, 2, 0)], total := 4 }
def gB : Group := { gV with bypass := true, slots := 0 }
def dPk (up : Bool) : Packet := wReq 2 0 ((if up then 0xFFFFFFF00000 else 0xFFFFFFF80000) + 63 * 0x100) 32 0x3F8000003F800000
def s14 : State := zG k0 gV
def s15 : State := zG k0 gB
def s16 : State := zG k0 { gr 1 wGp with since := 900 }
def zJ (b : Bool) : State := { zN 9 {} with jsBusy := b }
def s17 : State := zJ false
def s18 : State := { zJ true with ops := [(5, wOp .jobstart)] }
def cmd0 (op : Nat) (body : Nat) : Cmd := ⟨5, 15, 63, 0, op + body, 0, 0, [], 0, 0, 900, 0⟩
def zHl : State := { wOn with parts := [(15, { wPart with resident := none, ctxs := [(7, { wCtx with st := .held, startAt := 2000, launchSeq := some 5 })] })], cmds := [cmd0 1 0] }

theorem witness_LogAndNotices :
  (s1.maySendNotice = true ∧ s1.bltNote.cur = none ∧ s1.noticeDue = some 7 ∧ s1.record 7 = some (ev0.record 7) ∧ s1.isFm = true) ∧
  (s2.maySendNotice = true ∧ s2.bltNote.cur = none ∧ s2.noticeDue = some 7 ∧ s2.record 7 = some (ev0.record 7) ∧ s2.isFm = false ∧
    s2.slotsFull = false) ∧
  (s3.maySendNotice = true ∧ s3.bltNote.cur = some 7 ∧ s3.record 7 = some (ev0.record 7) ∧ s3.reaches (kNr 0) [13] = true ∧
    s3.unnumbered (kNr 0) = false ∧ s3.answered (kNr 0) = some (wOp Owner.notice) ∧ (wOp Owner.notice).owner = Owner.notice ∧
    (kNr 0).rsub = 4 ∧ (kNr 0).status = 0) ∧
  (s3.maySendNotice = true ∧ s3.bltNote.cur = some 7 ∧ s3.record 7 = some (ev0.record 7) ∧ s3.reaches (kNr 1029) [13] = true ∧
    s3.unnumbered (kNr 1029) = false ∧ s3.answered (kNr 1029) = some (wOp Owner.notice) ∧ (wOp Owner.notice).owner = Owner.notice ∧
    (kNr 1029).rsub = 4 ∧ (kNr 1029).status ≠ 0 ∧ s3.bltNote.tries < 3) ∧
  (s3.maySendNotice = true ∧ s3.bltNote.cur = some 7 ∧ s3.record 7 = some (ev0.record 7) ∧ s3.slotsFull = false ∧
    s3.bltNote.tries < 3 ∧
    ({ ((s3.reach (s3.bltNote.sentAt + usTicks 1000)).dropOps fun o => o.owner.isNotice) with mgmtOut := List.filter (fun k => !(k.ptype == 12 && k.sub == 4)) ((s3.reach (s3.bltNote.sentAt + usTicks 1000)).dropOps fun o => o.owner.isNotice).mgmtOut }.record
        7 =
      some (ev0.record 7)) ∧
    ((s3.reach (s3.bltNote.sentAt + usTicks 1000)).dropOps fun o => o.owner.isNotice).bltNote = s3.bltNote) ∧
  (s4.maySendNotice = true ∧ s4.bltNote.cur = some 7 ∧ s4.record 7 = some (ev0.record 7) ∧ s4.slotsFull = false ∧
    3 ≤ s4.bltNote.tries ∧
    ({ ((s4.reach (s4.bltNote.sentAt + usTicks 1000)).dropOps fun o => o.owner.isNotice) with mgmtOut := List.filter (fun k => !(k.ptype == 12 && k.sub == 4)) ((s4.reach (s4.bltNote.sentAt + usTicks 1000)).dropOps fun o => o.owner.isNotice).mgmtOut }.record
        7 =
      some (ev0.record 7)) ∧
    ((s4.reach (s4.bltNote.sentAt + usTicks 1000)).dropOps fun o => o.owner.isNotice).bltNote = s4.bltNote) := by (repeat' apply And.intro) <;> decide +kernel

theorem witness_LigatureGroups :
  (LigIssues s5 c0 l0 (rW 63 1 0 0 0 0) [1] 96 ∧ ligRsv (rW 63 1 0 0 0 0) true false = false ∧
    (groupBad (s5.part l0.p).ruled (s5.part l0.p).clus.length
        (sread (s5.core l0).spad (BitVec.toNat ((s5.core l0).getX 1) % 2 ^ 18 / 16 * 16) 96) =
      false) ∧
    s5.grpOf l0.p l0.s (gdGID (sread (s5.core l0).spad (BitVec.toNat ((s5.core l0).getX 1) % 2 ^ 18 / 16 * 16) 96)) = none ∧
    s5.freeGrp = some 0) ∧
  (LigIssues s6 c0 l0 (rW 63 1 0 0 0 0) [1] 96 ∧ ligRsv (rW 63 1 0 0 0 0) true false = false ∧
    (groupBad (s6.part l0.p).ruled (s6.part l0.p).clus.length
        (sread (s6.core l0).spad (BitVec.toNat ((s6.core l0).getX 1) % 2 ^ 18 / 16 * 16) 96) =
      true)) ∧
  (LigIssues s7 c0 l0 (rW 63 1 0 0 0 0) [1] 96 ∧ ligRsv (rW 63 1 0 0 0 0) true false = false ∧
    (groupBad (s7.part l0.p).ruled (s7.part l0.p).clus.length
        (sread (s7.core l0).spad (BitVec.toNat ((s7.core l0).getX 1) % 2 ^ 18 / 16 * 16) 96) =
      false) ∧
    ((s7.grpOf l0.p l0.s
          (gdGID (sread (s7.core l0).spad (BitVec.toNat ((s7.core l0).getX 1) % 2 ^ 18 / 16 * 16) 96))).isSome =
      true)) ∧
  (LigIssues s8 c0 l0 (rW 63 1 0 0 0 0) [1] 64 ∧ ligRsv (rW 63 1 0 0 0 0) true false = false ∧
    (s8.grpOf l0.p l0.s (cdGID (sread (s8.core l0).spad (BitVec.toNat ((s8.core l0).getX 1) % 2 ^ 18 / 16 * 16) 64)) =
      some 255) ∧
    ((s8.grp 255).st = 2 ∧
        collBad (some (s8.grp 255).total)
            (sread (s8.core l0).spad (BitVec.toNat ((s8.core l0).getX 1) % 2 ^ 18 / 16 * 16) 64) =
          false ∨
      (s8.grp 255).st = 1 ∧
        collBad none (sread (s8.core l0).spad (BitVec.toNat ((s8.core l0).getX 1) % 2 ^ 18 / 16 * 16) 64) = false) ∧
    (gdOwn (s8.grp 255).desc).contains (l0.l, l0.k) = true) ∧
  (LigIssues s9 c0 l0 (rW 63 1 0 0 0 0) [1] 64 ∧ ligRsv (rW 63 1 0 0 0 0) true false = false ∧
    (s9.grpOf l0.p l0.s (cdGID (sread (s9.core l0).spad (BitVec.toNat ((s9.core l0).getX 1) % 2 ^ 18 / 16 * 16) 64)) =
      some 255) ∧
    ((s9.grp 255).st = 2 ∧
        collBad (some (s9.grp 255).total)
            (sread (s9.core l0).spad (BitVec.toNat ((s9.core l0).getX 1) % 2 ^ 18 / 16 * 16) 64) =
          false ∨
      (s9.grp 255).st = 1 ∧
        collBad none (sread (s9.core l0).spad (BitVec.toNat ((s9.core l0).getX 1) % 2 ^ 18 / 16 * 16) 64) = false) ∧
    (gdOwn (s9.grp 255).desc).contains (l0.l, l0.k) = true) ∧
  (LigIssues s9 c0 l0 (rW 63 0 3 0 0 0) [3] 0 ∧ ligRsv (rW 63 0 3 0 0 0) false true = false ∧
    s9.grpOf l0.p l0.s (fld ((s9.core l0).getX 3) 0 6) = some 255 ∧ (s9.grp 255).st = 1) ∧
  (LigIssues s8 c0 l0 (rW 63 0 3 0 0 0) [3] 0 ∧ ligRsv (rW 63 0 3 0 0 0) false true = false ∧
    s8.grpOf l0.p l0.s (fld ((s8.core l0).getX 3) 0 6) = some 255 ∧ (s8.grp 255).st = 2 ∧ (s8.grp 255).colls = [] ∧
    (s8.grp 255).closers = [] ∧ (s8.grp 255).opener = none) ∧
  (gdNCHILD (wGd 1) = 0 ∧ s10.grps = [] ∧ s10.slotsFull = false ∧ gdROOT (wGd 1) = true) ∧
  (gdNCHILD (wGd 0) = 0 ∧ s10.grps = [] ∧ s10.slotsFull = false ∧ gdROOT (wGd 0) = false ∧
    lnLive (s10.lnt l0.p (gdPARENT (wGd 0))) = true) := by (repeat' apply And.intro) <;> decide +kernel

theorem witness_LigatureCombining :
  (s11.reaches (kUp hRep) [2] = true ∧ s11.unnumbered (kUp hRep) = false ∧ upOff (kUp hRep) = true ∧ lhKIND (kUp hRep).data = 1 ∧
    (kUp hRep).size = 64 ∧ (kUp hRep).ext = false ∧ s11.blockGroup (kUp hRep) = some (255, gr 1 (wGc 1)) ∧ (gr 1 (wGc 1)).st = 1 ∧
    s11.portOk (kUp hRep) true = true ∧ s11.isCopy (kUp hRep) = false ∧ s11.childrenAt (gr 1 (wGc 1)) (kUp hRep).snode = [0] ∧
    (gr 1 (wGc 1)).reports = []) ∧
  (s12.reaches (kUp hRep) [2] = true ∧ s12.unnumbered (kUp hRep) = false ∧ upOff (kUp hRep) = true ∧ lhKIND (kUp hRep).data = 1 ∧
    (kUp hRep).size = 64 ∧ (kUp hRep).ext = false ∧ s12.blockGroup (kUp hRep) = some (255, gr 1) ∧ (gr 1).st = 1 ∧
    s12.portOk (kUp hRep) true = true ∧ s12.isCopy (kUp hRep) = false ∧ s12.childrenAt (gr 1) (kUp hRep).snode = []) ∧
  (s13.reaches (kDn hRank) [2] = true ∧ s13.unnumbered (kDn hRank) = false ∧ downOff (kDn hRank) = true ∧
    lhKIND (kDn hRank).data = 2 ∧ (kDn hRank).size = 64 ∧ (kDn hRank).ext = false ∧
    s13.blockGroup (kDn hRank) = some (255, gr 1 wGp) ∧ (gr 1 wGp).st = 1 ∧ (gr 1 wGp).told = true ∧
    s13.nodeIs (gr 1 wGp).p (gdPARENT (gr 1 wGp).desc) (kDn hRank).snode = true ∧ s13.portOk (kDn hRank) true = true) ∧
  (s14.reaches (kUp hCh) [2] = true ∧ s14.unnumbered (kUp hCh) = false ∧ upOff (kUp hCh) = true ∧
    s14.msgOk (kUp hCh) [dPk true] = true ∧ s14.blockGroup (kUp hCh) = some (255, gV) ∧ gV.st = 2 ∧
    s14.portOk (kUp hCh) true = true ∧ s14.isCopy (kUp hCh) = false ∧ gV.over_ (lhGSEQ (kUp hCh).data) = false ∧
    shOP (lhShape (kUp hCh).data) ≠ 2 ∧ s14.childrenAt gV (kUp hCh).snode = [0] ∧ gV.bypass = false ∧
    gV.coll (lhGSEQ (kUp hCh).data) = { k := lhGSEQ (kUp hCh).data } ∧
    s14.slotFor 255 (lhGSEQ (kUp hCh).data) (lhCHUNK (kUp hCh).data) = true ∧ 0 < (gV.report 0).1) ∧
  (s15.reaches (kUp hCh) [2] = true ∧ s15.unnumbered (kUp hCh) = false ∧ upOff (kUp hCh) = true ∧
    s15.msgOk (kUp hCh) [dPk true] = true ∧ s15.blockGroup (kUp hCh) = some (255, gB) ∧ gB.st = 2 ∧
    s15.portOk (kUp hCh) true = true ∧ s15.isCopy (kUp hCh) = false ∧ gB.over_ (lhGSEQ (kUp hCh).data) = false ∧
    shOP (lhShape (kUp hCh).data) ≠ 2 ∧ s15.childrenAt gB (kUp hCh).snode = [0] ∧ gB.bypass = true ∧
    s15.roomFor [dPk true].length = true ∧ s15.windowOpen 255 ((kUp hCh).snode * 2 ^ 32 + lhWHO (kUp hCh).data + 1) = true) ∧
  (s14.reaches (kDn hCh) [2] = true ∧ s14.unnumbered (kDn hCh) = false ∧ downOff (kDn hCh) = true ∧
    s14.msgOk (kDn hCh) [dPk false] = true ∧ s14.blockGroup (kDn hCh) = some (255, gV) ∧ gV.st = 2 ∧
    s14.portOk (kDn hCh) true = true ∧ gV.over_ (lhGSEQ (kDn hCh).data) = false ∧ shOP (lhShape (kDn hCh).data) ≠ 2 ∧
    s14.downHeld 255 gV ((gV.coll (lhGSEQ (kDn hCh).data)).meet (lhShape (kDn hCh).data)) (lhCHUNK (kDn hCh).data) = [] ∧
    s14.roomFor (([dPk false].length + 1) * max 1 (gdNCHILD gV.desc)) = true) ∧
  (s10.reaches (kUp hCh) [2] = true ∧ s10.unnumbered (kUp hCh) = false ∧ s10.blockGroup (kUp hCh) = none ∧ upOff (kUp hCh) = true ∧
    s10.msgOk (kUp hCh) [dPk true] = true) ∧
  ([[1], [2], [3]].length ≤ 3) ∧
  (4294967295 < 2 ^ 32 ∧ 4294967294 < 2 ^ 32) ∧
  (4294967295 < 2 ^ 64 ∧ 18446744073709551614 < 2 ^ 64) ∧
  (1049 < 1050) ∧
  (1050 * 16384 ≤ 1050 * 16384) ∧
  (1 ≤ 14 ∧ 14 ≤ 14 ∧ 1050 * 2 ^ (14 - 1) ≤ 1050 * 16384 - 1 ∧ 1050 * 16384 - 1 < 1050 * 2 ^ 14) := by (repeat' apply And.intro) <;> decide +kernel

theorem witness_StallsAndJobStarts :
  (On s16 ∧ (s16.grp 255).st = 1 ∧ (s16.grp 255).told = true ∧ gdROOT (s16.grp 255).desc = false ∧ (s16.grp 255).stalled = false) ∧
  (On s17 ∧ s17.jsBusy = false ∧ s17.isFm = true ∧ s17.slotsFull = false) ∧
  (On s18 ∧ s18.jsBusy = true) ∧
  (On zHl ∧ (zHl.ctx 15 7).st = CtxState.held ∧ (zHl.ctx 15 7).startAt ≠ 0 ∧ (zHl.ctx 15 7).launchSeq = some (cmd0 1 0).seq ∧
    zHl.cmd (cmd0 1 0).seq = some (cmd0 1 0)) := by (repeat' apply And.intro) <;> decide +kernel

end Wg

namespace Wh

/-! Witnesses: host commands. -/

def cm (op : Nat) (body : Nat) (st : Nat := 0) : Cmd := ⟨5, 15, 63, 0, op + body, st, 0, [], 0, 0, 900, 0⟩
def zC (c : Cmd) (x : Ctx := { wCtx with st := .idle }) (pt : Part := { wPart with resident := none }) : State :=
  { wOn with parts := [(15, { pt with ctxs := [(7, x)] })], cmds := [c], rings := [(1023, { st := 1 })], jrnHead := 6 }
def s1 : State := zC (cm 1 0 2)
def s2 : State := zC (cm 1 0 1)
def s3 : State := { zC (cm 1 0 1) with rings := [] }
def zW2 (c : Cmd) : State := { zC c with cmds := [{ cm 2 0 with seq := 4 }, c] }
def s4 : State := zW2 (cm 1 0)
def zFr (c : Cmd) : State := { zC c with parts := [] }
def s5 : State := zFr (cm 1 0)
def s6 : State := zFr (cm 2 0)
def s7 : State := zFr (cm 4 0)
def s8 : State := zFr (cm 0x18 0)
/-- LAUNCH of context 7, at 0x3FFF8, cores 63 of clusters 0 and 1; with HOLD where h = 1. -/
def cL (h sched : Nat := 0) : Cmd := cm 1 (7 * 2^64 + h * 2^67 + 3 * 2^192 + 2^63 * 2^256 + 0x3FFF8 * 2^320 + sched * 2^384)
def s9 : State := zC (cL) wCtx
def s10 : State := zC (cL 0 1)
def s11 : State := zC cL
def s12 : State := zC (cL 1)
def zS2 (q : Bool) (c0 : CtxState := .ready) : State := { zC cL with parts := [(15, { wPart with resident := some 7, ctxs := [(0, { wCtx with st := c0 }), (7, {wCtx with quantumOut := q})] })] }
def s13 : State := zS2 false
def s14 : State := zS2 true
def cX (op : Nat) (prio : Nat := 0) : Cmd := cm op (7 * 2^64 + prio * 2^72)
def s15 : State := zC (cX 0x18)
def zCr : State := { zC (cX 0x18 2) {} with reg := (zC (cX 0x18 2)).reg ++ [(0x00C00008, 2^25 * 2000)] }
def s16 : State := zC (cX 0x19) {}
def s17 : State := zC (cX 0x19 2)
def s18 : State := zC (cX 0x1A)
def s19 : State := zC (cX 0x1A) { wCtx with st := .ready }
def s20 : State := zC (cX 0x1A) wCtx wPart
def s21 : State := zC (cX 0x1A) { wCtx with st := .saving } wPart
def s22 : State := zC (cX 0x1A) { wCtx with st := .saving, pausing := true } wPart
def s23 : State := zC (cX 0x1B)
def s24 : State := zC (cX 0x1B) { wCtx with st := .paused }
def s25 : State := zC (cX 0x1C) wCtx wPart
def s26 : State := zC (cX 0x1C)
def s27 : State := zC (cX 0x1D) wCtx wPart
def s28 : State := zC (cX 0x1D)
def s29 : State := wRun k0
def s30 : State := zC (cL) wCtx wPart
def s31 : State := zC (cL) { wCtx with st := .saving } wPart
def s32 : State := zC (cL) { wCtx with st := .saving, stopcode := 0x201 } wPart
def s33 : State := zC (cL) { wCtx with st := .restoring, started := [] } wPart
def cRul : Ctx := { wCtx with st := .restoring, started := [], rperiod := 2000, saveTick := 900 }
def s34 : State := zC (cL) cRul { wPart with ruled := true }
/-- 4 MiB + 64 B from 0x1000 to 0x100 above the first granule. -/
def cCf (op : Nat) (st parts : Nat := 0) : Cmd := { cm op (0x1000 * 2^128 + 0x200100 * 2^192 + 0x400040 * 2^256) st with parts }
def zP2 (c : Cmd) : State := zC c { wCtx with st := .idle } { wPartM with resident := none }
def s35 : State := zP2 (cCf 2)
def s36 : State := zP2 (cCf 3)
def s37 : State := zP2 (cCf (2+256))
def s38 : State := zP2 (cCf 2 1 3)
def s39 : State := zP2 (cCf 3 1 2)
/-- An object of n granules at granule g, PINNED in T2. -/
def dM (g n : Nat) : Nat := g * 2^21 + n * 2^64 + 2 * 2^104
def cM (d : Nat) : Cmd := cm 4 (d * 2^128)
def zM (c : Cmd) (os : List Obj) : State := zC c { wCtx with st := .idle } { wPart with objs := os, dpa := [(4, 8)], share := 8, resident := none }
def s40 : State := zM (cM (dM 5 0)) []
def tM : State := ((zM (cM (dM (2^27 - 2) 1)) []).mapNew 15 (dM (2^27 - 2) 1)).getD State.reset
def s41 : State := zM (cM (dM (2^27 - 2) 1)) []
def oM : Obj := ⟨dM 5 3, [(0, .t2 4), (1, .t2 5), (2, .t2 6)], 1, [], [], []⟩
def s42 : State := zM (cM (dM 7 2)) [oM]
def cU (g n : Nat) : Cmd := cm 5 (g * 2^(128+21) + n * 2^192)
def s43 : State := zM (cU 5 3) []
def s44 : State := zM (cU 5 3) [oM]
def zMp : State := { zM (cU 5 3) [oM] with pools := [(480, { st := .active, base := 7, ngran := 1 })] }
def cF (st : Nat := 0) (sc : Nat := 0) : Cmd := cm 6 (sc * 2^64) st
def zF (c d : Cmd) : State := { zC c with cmds := [{ d with seq := 4 }, c] }
def s45 : State := zF (cF 0 1) { cm 2 0 1 with r := 3 }
def s46 : State := zF (cF) (cm 2 0 2)
def s47 : State := zF (cF 1) (cm 2 0 1)
def s48 : State := zF (cF 1) (cm 2 0 2)
def cK : Cmd := cm 7 (7 * 2^64 + 3 * 2^96 + 2^112)
def s49 : State := zC cK
def cQ (k : Nat) : Cmd := cm 0x30 (k * 2^64 + 7 * 2^72)
def s50 : State := zC (cQ 0)
def s51 : State := zC (cQ 1)
def s52 : State := zC (cQ 2)
/-- Freehand, clusters 62 and 63, 8 granules. -/
def pdW (share : Nat) : Nat := 15 + share * 2^32 + 3 * 2^62 * 2^64
def cP (op : Nat) (d : Nat := 0) (st : Nat := 0) : Cmd := cm op (d * 2^128) st
def zPc (share : Nat) : State := { zFr (cP 0x10 (pdW share)) with reg := [(0x00C00008, 2^25 * 2000), (0x00D00000, 0x10009)] }
def s53 : State := zPc (2^26)
def s54 : State := zPc 8
def s55 : State := zC (cP 0x11)
def zCr2 (st : PartState) (q : Option Nat) : State := { zC (cP 0x10 (pdW 8) 1) with parts := [(15, { st, clus := [62, 63], quads := [15], dpa := [(4, 8)], share := 8, cmdSeq := q, drainTick := 5000 })] }
def s56 : State := { zCr2 .creating (some 5) with plat := { wPlat with dom := [(62, 2), (63, 2)] } }
def s57 : State := zCr2 .draining (some 5)
def s58 : State := zCr2 .aborting none
def s59 : State := { wRun k0 with mslot := [(4, 31), (5, 3)] }
def s60 : State := { wRunM k0 [(0x200000, 5), (0x400000, 7)] with clearing := [(1, 1)], dramPoison := [8192, 16384] }
def s61 : State := zCr2 .creating (some 5)
def cK2 (op : Nat) : Cmd := cm op (7 * 2^64 + (0x100000 + 2^48) * 2^128)
def s62 : State := zC (cK2 0x20) wCtx wPart
def ckW : Ckpt := { seq := 4, s := 7, restore := false, watched := [], torn := false, out := 1, blocks := 0, phase := 0, code := 0, man := [], img := [] }
def s63 : State := zC (cK2 0x20) { wCtx with st := .idle } { wPart with ckpt := some ckW, resident := none }
def s64 : State := zP2 (cK2 0x20)
def s65 : State := zC (cK2 0x21) wCtx wPart
def s66 : State := zP2 (cK2 0x21)

theorem witness_CommandEnds :
  (s1.cmd 5 = some (cm 1 0 2) ∧ 2 ≤ (cm 1 0 2).st) ∧
  (s2.cmd 5 = some (cm 1 0 1) ∧ (cm 1 0 1).st < 2 ∧ s2.ringActive (cm 1 0 1).f (cm 1 0 1).r = true) ∧
  (s2.cmd 5 = some (cm 1 0 1) ∧ (cm 1 0 1).st < 2 ∧ s2.ringActive (cm 1 0 1).f (cm 1 0 1).r = true ∧ 6 ≠ 5) ∧
  (s3.cmd 5 = some (cm 1 0 1) ∧ (cm 1 0 1).st < 2 ∧ s3.ringActive (cm 1 0 1).f (cm 1 0 1).r = false) ∧
  (s4.cmd 5 = some (cm 1 0) ∧ (cm 1 0).st = 0 ∧ s4.mayStart (cm 1 0) = false) ∧
  (s5.cmd 5 = some (cm 1 0) ∧ (cm 1 0).st = 0 ∧ s5.mayStart (cm 1 0) = true ∧ s5.heldLaunch (cm 1 0) = false ∧
    (s5.part (cm 1 0).f).st = PartState.free ∧ (cm 1 0).op = 1) ∧
  (s6.cmd 5 = some (cm 2 0) ∧ (cm 2 0).st = 0 ∧ s6.mayStart (cm 2 0) = true ∧ s6.heldLaunch (cm 2 0) = false ∧
    (s6.part (cm 2 0).f).st = PartState.free ∧ (cm 2 0).op = 2) ∧
  (s7.cmd 5 = some (cm 4 0) ∧ (cm 4 0).st = 0 ∧ s7.mayStart (cm 4 0) = true ∧ s7.heldLaunch (cm 4 0) = false ∧
    (s7.part (cm 4 0).f).st = PartState.free ∧ (cm 4 0).op = 4) ∧
  (s8.cmd 5 = some (cm 24 0) ∧ (cm 24 0).st = 0 ∧ s8.mayStart (cm 24 0) = true ∧ s8.heldLaunch (cm 24 0) = false ∧
    (s8.part (cm 24 0).f).st = PartState.free ∧ (cm 24 0).op = 24) ∧
  (Starts s45 5 6 (cF 0 1) ∧
    ({ (cm 2 0 1) with seq := 4, r := 3 } ∈
      s45.cmds) ∧
    (cm 2 0 1).f = (cF 0 1).f ∧ (bit (cF 0 1).body 64 = true ∨ 3 = (cF 0 1).r) ∧ 4 < (cF 0 1).seq ∧ (cm 2 0 1).st < 2) ∧
  (Starts s46 5 6 cF ∧ (¬∃ d ∈ s46.cmds, d.f = cF.f ∧ (bit cF.body 64 = true ∨ d.r = cF.r) ∧ d.seq < cF.seq ∧ d.st < 2)) ∧
  (On s47 ∧ s47.cmd 5 = some (cF 1) ∧ (cF 1).op = 6 ∧ (cF 1).st = 1 ∧
    ({ (cm 2 0 1) with seq := 4 } ∈
      s47.cmds) ∧
    (cm 2 0 1).f = (cF 1).f ∧ (bit (cF 1).body 64 = true ∨ (cm 2 0 1).r = (cF 1).r) ∧ 4 < (cF 1).seq ∧ (cm 2 0 1).st < 2) ∧
  (On s48 ∧ s48.cmd 5 = some (cF 1) ∧ (cF 1).op = 6 ∧ (cF 1).st = 1 ∧
    (¬∃ d ∈ s48.cmds, d.f = (cF 1).f ∧ (bit (cF 1).body 64 = true ∨ d.r = (cF 1).r) ∧ d.seq < (cF 1).seq ∧ d.st < 2)) ∧
  (Starts s49 5 7 cK) ∧
  (Starts s50 5 48 (cQ 0) ∧ bits (cQ 0).body 64 2 = 0) ∧
  (Starts s51 5 48 (cQ 1) ∧ bits (cQ 1).body 64 2 = 1) ∧
  (Starts s52 5 48 (cQ 2) ∧ bits (cQ 2).body 64 2 = 2) := by (repeat' apply And.intro) <;> decide +kernel

theorem witness_LaunchAndScheduling :
  (Starts s9 5 1 cL ∧ (s9.ctx cL.f (bits cL.body 64 3)).st ≠ CtxState.idle) ∧
  (Starts s10 5 1 (cL 0 1) ∧ (s10.ctx (cL 0 1).f (bits (cL 0 1).body 64 3)).st = CtxState.idle ∧
    (s10.part (cL 0 1).f).ruled = false ∧ bits (cL 0 1).body 384 64 ≠ 0) ∧
  (Starts s11 5 1 cL ∧ (s11.ctx cL.f (bits cL.body 64 3)).st = CtxState.idle ∧ (s11.part cL.f).ruled = false ∧
    bits cL.body 384 64 = 0) ∧
  (Starts s12 5 1 (cL 1) ∧ (s12.ctx (cL 1).f (bits (cL 1).body 64 3)).st = CtxState.idle ∧ (s12.part (cL 1).f).ruled = false ∧
    bits (cL 1).body 384 64 = 0) ∧
  (Starts s11 5 1 cL ∧ cL.f < 16 ∧ bits cL.body 64 3 < 8 ∧ (s11.part cL.f).clus.length ≤ 64 ∧ 1 < (s11.part cL.f).clus.length ∧
    63 < 64) ∧
  (Starts s11 5 1 cL ∧ cL.f < 16 ∧ bits cL.body 64 3 < 8 ∧ (s11.part cL.f).clus.length ≤ 64 ∧ 1 < (s11.part cL.f).clus.length ∧
    62 < 64) ∧
  (Starts s11 5 1 cL) ∧
  (s13.choose 15 = some (7, 3) ∧ (∀ (r : ℕ), (s13.part 15).resident = some r → r < 8)) ∧
  (s14.choose 15 = some (0, 3) ∧ (∀ (r : ℕ), (s14.part 15).resident = some r → r < 8)) ∧
  (s13.choose 15 = some (7, 3) ∧ (∀ (r : ℕ), (s13.part 15).resident = some r → r < 8) ∧ 2 < 3 ∧ 7 < 8) ∧
  (s13.choose 15 = some (7, 3) ∧ (∀ (r : ℕ), (s13.part 15).resident = some r → r < 8) ∧ (s13.part 15).resident = some 7 ∧
    (s13.ctx 15 7).st = CtxState.running ∧ (s13.ctx 15 7).prio = 3 ∧ (s13.ctx 15 7).quantumOut = false) := by (repeat' apply And.intro) <;> decide +kernel

theorem witness_ContextLifecycle :
  (Starts s15 5 24 (cX 24) ∧ (s15.ctx (cX 24).f (bits (cX 24).body 64 3)).st ≠ CtxState.free) ∧
  (Starts zCr 5 24 (cX 24 2) ∧ (zCr.ctx (cX 24 2).f (bits (cX 24 2).body 64 3)).st = CtxState.free ∧
    zCr.rsvRoom (bandUse (zCr.part (cX 24 2).f).clus (zCr.part (cX 24 2).f).quads 1 false) = true) ∧
  (Starts s16 5 25 (cX 25) ∧ (s16.ctx (cX 25).f (bits (cX 25).body 64 3)).st = CtxState.free) ∧
  (Starts s17 5 25 (cX 25 2) ∧ (s17.ctx (cX 25 2).f (bits (cX 25 2).body 64 3)).st ≠ CtxState.free) ∧
  (Starts s18 5 26 (cX 26) ∧ (s18.ctx (cX 26).f (bits (cX 26).body 64 3)).st = CtxState.idle) ∧
  (Starts s19 5 26 (cX 26) ∧ (s19.ctx (cX 26).f (bits (cX 26).body 64 3)).st = CtxState.ready) ∧
  (Starts s20 5 26 (cX 26) ∧
    ((s20.ctx (cX 26).f (bits (cX 26).body 64 3)).st = CtxState.running ∨
      (s20.ctx (cX 26).f (bits (cX 26).body 64 3)).st = CtxState.restoring)) ∧
  (Starts s21 5 26 (cX 26) ∧ (s21.ctx (cX 26).f (bits (cX 26).body 64 3)).st = CtxState.saving ∧
    (s21.ctx (cX 26).f (bits (cX 26).body 64 3)).pausing = false) ∧
  (Starts s22 5 26 (cX 26) ∧ (s22.ctx (cX 26).f (bits (cX 26).body 64 3)).st = CtxState.saving ∧
    (s22.ctx (cX 26).f (bits (cX 26).body 64 3)).pausing = true) ∧
  (Starts s23 5 27 (cX 27) ∧ (s23.ctx (cX 27).f (bits (cX 27).body 64 3)).st ≠ CtxState.paused) ∧
  (Starts s24 5 27 (cX 27) ∧ (s24.ctx (cX 27).f (bits (cX 27).body 64 3)).st = CtxState.paused) ∧
  (Starts s25 5 28 (cX 28) ∧ (s25.ctx (cX 28).f (bits (cX 28).body 64 3)).st = CtxState.running) ∧
  (Starts s26 5 28 (cX 28) ∧ (s26.ctx (cX 28).f (bits (cX 28).body 64 3)).st = CtxState.idle ∧
    (s26.ctx (cX 28).f (bits (cX 28).body 64 3)).launchSeq = none) ∧
  (Starts s27 5 29 (cX 29) ∧ (s27.ctx (cX 29).f (bits (cX 29).body 64 3)).st = CtxState.running) ∧
  (Starts s28 5 29 (cX 29) ∧ (s28.ctx (cX 29).f (bits (cX 29).body 64 3)).st = CtxState.idle ∧
    (s28.ctx (cX 29).f (bits (cX 29).body 64 3)).launchSeq = none) ∧
  (15 < 16 ∧ 7 < 8 ∧ 0 < 64 ∧ 63 < 64) ∧
  (15 < 16 ∧ 6 < 8 ∧ 15 < 16 ∧ 7 < 8 ∧ 0 < 64 ∧ 63 < 64 ∧ (15 ≠ 15 ∨ 7 ≠ 6)) ∧
  (On s30 ∧ (s30.part 15).resident = some 7 ∧ (s30.ctx 15 7).st = CtxState.running ∧ (s30.ctx 15 7).quantumOut = false) ∧
  (On s31 ∧ (s31.part 15).resident = some 7 ∧ (s31.ctx 15 7).st = CtxState.saving ∧ (s31.ctx 15 7).stopcode = 0) ∧
  (On s32 ∧ (s32.part 15).resident = some 7 ∧ (s32.ctx 15 7).st = CtxState.saving ∧ (s32.ctx 15 7).stopcode ≠ 0) ∧
  (On s33 ∧ (s33.part 15).resident = some 7 ∧ (s33.part 15).ruled = false ∧ (s33.ctx 15 7).st = CtxState.restoring ∧
    (s33.ctx 15 7).startedAt 1 63 = false ∧ 1 < (s33.part 15).clus.length) ∧
  (On s34 ∧ (s34.part 15).resident = some 7 ∧ (s34.part 15).ruled = true ∧ (s34.ctx 15 7).st = CtxState.restoring) ∧
  (On s34 ∧ (s34.part 15).resident = some 7 ∧ (s34.ctx 15 7).rperiod ≠ 0 ∧ (s34.ctx 15 7).saveTick ≤ 1000) := by (repeat' apply And.intro) <;> decide +kernel

theorem witness_CopiesAndMaps :
  (Starts s35 5 2 (cCf 2) ∧ s35.copyHeld (cCf 2) = [] ∧ (cCf 2).atomic = false) ∧
  (Starts s36 5 3 (cCf 3) ∧ s36.copyHeld (cCf 3) = [] ∧ (cCf 3).atomic = false) ∧
  (Starts s37 5 2 (cCf (2 + 256)) ∧ (cCf (2 + 256)).atomic = true ∧ 1 < (cCf (2 + 256)).ranges) ∧
  (On s38 ∧ s38.cmd 5 = some (cCf 2 1 3) ∧ (cCf 2 1 3).st = 1 ∧ ((cCf 2 1 3).op = 2 ∨ (cCf 2 1 3).op = 3) ∧ 2 < (cCf 2 1 3).nparts ∧
    bit (cCf 2 1 3).parts 2 = false ∧ (cCf 2 1 3).fails = [] ∧ s38.partFlying (cCf 2 1 3).seq 2 = false) ∧
  (On s39 ∧ s39.cmd 5 = some (cCf 3 1 2) ∧ (cCf 3 1 2).st = 1 ∧ ((cCf 3 1 2).op = 2 ∨ (cCf 3 1 2).op = 3) ∧ 2 < (cCf 3 1 2).nparts ∧
    bit (cCf 3 1 2).parts 2 = false ∧ (cCf 3 1 2).fails = [] ∧ s39.partFlying (cCf 3 1 2).seq 2 = false) ∧
  (((cCf 3).op = 2 ∨ (cCf 3).op = 3) ∧ 0 < (cCf 3).len ∧ (cCf 3).len ≤ 2 ^ 40) ∧
  (((cCf 3).op = 2 ∨ (cCf 3).op = 3) ∧ 0 < (cCf 3).len ∧ (cCf 3).len ≤ 2 ^ 40 ∧ 1 + 1 < (cCf 3).nparts) ∧
  (((cCf 3).op = 2 ∨ (cCf 3).op = 3) ∧ 0 < (cCf 3).len ∧ (cCf 3).len ≤ 2 ^ 40 ∧ 2 < (cCf 3).nparts) ∧
  (15 < 16) ∧
  (Starts s40 5 4 (cM (dM 5 0)) ∧
    (s40.rangeBusy (cM (dM 5 0)).f (dGran (bits (cM (dM 5 0)).body 128 384)) (dNgran (bits (cM (dM 5 0)).body 128 384)) =
      false) ∧
    mapBad (bits (cM (dM 5 0)).body 128 384) = true) ∧
  (Starts s41 5 4 (cM (dM (2 ^ 27 - 2) 1)) ∧
    (s41.rangeBusy (cM (dM (2 ^ 27 - 2) 1)).f (dGran (bits (cM (dM (2 ^ 27 - 2) 1)).body 128 384))
        (dNgran (bits (cM (dM (2 ^ 27 - 2) 1)).body 128 384)) =
      false) ∧
    mapBad (bits (cM (dM (2 ^ 27 - 2) 1)).body 128 384) = false ∧
    dGran (bits (cM (dM (2 ^ 27 - 2) 1)).body 128 384) + dNgran (bits (cM (dM (2 ^ 27 - 2) 1)).body 128 384) ≤ 2 ^ 27 - 1 ∧
    (s41.part (cM (dM (2 ^ 27 - 2) 1)).f).objs = [] ∧
    s41.mapNew (cM (dM (2 ^ 27 - 2) 1)).f (bits (cM (dM (2 ^ 27 - 2) 1)).body 128 384) = some tM) ∧
  (Starts s42 5 4 (cM (dM 7 2)) ∧
    (s42.rangeBusy (cM (dM 7 2)).f (dGran (bits (cM (dM 7 2)).body 128 384)) (dNgran (bits (cM (dM 7 2)).body 128 384)) =
      false) ∧
    mapBad (bits (cM (dM 7 2)).body 128 384) = false ∧
    dGran (bits (cM (dM 7 2)).body 128 384) + dNgran (bits (cM (dM 7 2)).body 128 384) ≤ 2 ^ 27 - 1 ∧
    (s42.part (cM (dM 7 2)).f).objs = [oM] ∧
    oM.same (dGran (bits (cM (dM 7 2)).body 128 384)) (dNgran (bits (cM (dM 7 2)).body 128 384)) = false ∧
    oM.overlaps (dGran (bits (cM (dM 7 2)).body 128 384)) (dNgran (bits (cM (dM 7 2)).body 128 384)) = true) ∧
  (Starts s43 5 5 (cU 5 3) ∧ (s43.part (cU 5 3).f).objs = []) ∧
  (Starts s44 5 5 (cU 5 3) ∧ (s44.part (cU 5 3).f).objs = [oM] ∧
    oM.same (bits (cU 5 3).body 128 64 / 2 ^ 21) (bits (cU 5 3).body 192 32) = true ∧ bits (cU 5 3).body 128 64 % 2 ^ 21 = 0 ∧
    s44.poolMeets (cU 5 3).f (bits (cU 5 3).body 128 64 / 2 ^ 21) (bits (cU 5 3).body 192 32) = false ∧ s44.sf = []) ∧
  (Starts zMp 5 5 (cU 5 3) ∧ (zMp.part (cU 5 3).f).objs = [oM] ∧
    oM.same (bits (cU 5 3).body 128 64 / 2 ^ 21) (bits (cU 5 3).body 192 32) = true ∧
    zMp.poolMeets (cU 5 3).f (bits (cU 5 3).body 128 64 / 2 ^ 21) (bits (cU 5 3).body 192 32) = true) := by (repeat' apply And.intro) <;> decide +kernel

theorem witness_PartitionsAndCheckpoints :
  (Starts s53 5 16 (cP 16 (pdW (2 ^ 26))) ∧
    s53.createReason (cP 16 (pdW (2 ^ 26))).f (bits (cP 16 (pdW (2 ^ 26))).body 128 256) = 5 ∧ 5 ≠ 0) ∧
  (Starts s54 5 16 (cP 16 (pdW 8)) ∧ s54.createReason (cP 16 (pdW 8)).f (bits (cP 16 (pdW 8)).body 128 256) = 0) ∧
  (Starts s55 5 17 (cP 17)) ∧
  (On s56 ∧ (s56.part 15).st = PartState.creating ∧ s56.clearingMeets (s56.part 15).dpa = false ∧
    (∀ k ∈ (s56.part 15).clus, s56.plat.domOn k = true) ∧ (s56.part 15).cmdSeq = some (cP 16 (pdW 8) 1).seq) ∧
  (On s57 ∧ (s57.part 15).st = PartState.draining ∧ (s57.part 15).resident = none) ∧
  (On s58 ∧ (s58.part 15).st = PartState.aborting ∧ s58.sf = [] ∧ (s58.part 15).cmdSeq = none) ∧
  (On s59) ∧
  (On s60) ∧
  (On s61) ∧
  (Starts s62 5 32 (cK2 32) ∧ (s62.ctx (cK2 32).f (bits (cK2 32).body 64 3)).st = CtxState.running) ∧
  (Starts s63 5 32 (cK2 32) ∧ (s63.ctx (cK2 32).f (bits (cK2 32).body 64 3)).st = CtxState.idle ∧
    s63.areaBad (cK2 32).f (cK2 32).area = false ∧ (s63.part (cK2 32).f).ckpt.isSome = true) ∧
  (Starts s64 5 32 (cK2 32) ∧ (s64.ctx (cK2 32).f (bits (cK2 32).body 64 3)).st = CtxState.idle ∧
    s64.areaBad (cK2 32).f (cK2 32).area = false ∧ (s64.part (cK2 32).f).ckpt = none ∧
    s64.ctxOpen (cK2 32).f (bits (cK2 32).body 64 3) = false) ∧
  (Starts s65 5 33 (cK2 33) ∧ (s65.ctx (cK2 33).f (bits (cK2 33).body 64 3)).st = CtxState.running) ∧
  (Starts s66 5 33 (cK2 33) ∧ (s66.ctx (cK2 33).f (bits (cK2 33).body 64 3)).st = CtxState.idle ∧
    s66.areaBad (cK2 33).f (cK2 33).area = false ∧ (s66.part (cK2 33).f).ckpt = none) := by (repeat' apply And.intro) <;> decide +kernel

end Wh

namespace Wi

/-! Witnesses: DynerLink, rings. -/

def zD : State := wRunM k0 [(0x1000, 0x55), (0x1FFFFF, 0x66)]
def hm (a : Nat) : Home := (zD.hostHome 15 a).getD (.host 0)
def s1 : State := { zD with dramPoison := [16] }
def s2 : State := { zD with sf := [⟨15, 64, false⟩] }
def sf16 : List SfEnt := (List.range 16).map (fun i => ⟨15, 100 + i, false⟩)
def s3 : State := { zD with sf := sf16 }
def s4 : State := { zD with sf := [⟨15, 64, true⟩] }
/-- Block 0 of granule 0 is being moved to T3. -/
def zMv : State := { zD with parts := [(15, { wPartM with migs := [⟨0, .t2 0, .t3 0x10000, 0⟩] })], hreqs := [⟨9, 0, 0x1000, 256, 0, .move 15 0 0, 0, 0⟩] }
def zRo : State := { zD with parts := [(15, { wPartM with objs := [{ wObj with desc := wObj.desc + 2^98 }] })] }
def zWl : State := { zD with reg := [(0x00610010 + 0x800 * 15 + 0x20 * 63, 1 + 4095 * 2^9), (0x00620000 + 8 * 4095, 31), (0x00D00000, 0x10009)], rings := [(1023, { st := 1 })] }
def zSf : State := { zD with sf := [⟨15, 64, true⟩], recalls := [(15, 64)] }
def dSt : Nat := 2^64 + 2 * 2^96 + 2 * 2^104 + 2 * 2^256
def zSt (w : HostWait) (b : List Nat := []) : State := { zD with hreqs := [⟨9, 0, 0x1000, 256, 0, w, 0, 0⟩], parts := [(15, { wPartM with objs := [⟨dSt, [(0, .t3 0x10000)], 1, b, [], []⟩] })] }
def s5 : State := zSt (.stage 15 1 3 255)
def s6 : State := zSt .complete
def rq (id : Nat) : HostReq := ⟨id, 1, 0x1000 + 64 * id, 64, 0, .complete, 2^64 - 1, 7⟩
def s7 : State := { zD with hreqs := [rq 9, rq 10] }
def s8 : State := { zSf with sf := [⟨15, 64, false⟩] }
def s9 : State := { zD with link := .down }
def zR : State := { zWl with rings := [(1023, { st := 1, woken := true })], jrnHead := 262144 + 5, wl := swrite [] (64 * 4095) 8 (1 + 2^32 * 0) }
def recF : Nat := 6 + 77 * 2^32 + 2^64
def c15 (op f seq st : Nat) : Cmd := ⟨seq, f, 62, 0, op, st, 0, [], 0, 0, 900, 0⟩
def zDis : State := { zR with cmds := [c15 0x11 15 3 1], order := [] }
def s10 : State := { zR with plat := { zR.plat with berr := 6 } }
def s11 : State := { zR with plat := { zR.plat with stage := 4 } }
def rC (r : Nat) : Nat := 0x00610010 + 0x800 * 15 + 0x20 * r
def zRw (w : Nat) (j : Tbl Nat := []) (loc : Nat := 0) : State := { zR with wl := swrite [] (64 * 4095) 8 w, jrn := j, reg := tput zR.reg (rC 63 - 16) (BitVec.ofNat 64 (0x1000 + loc)), rings := [(1023, { st := 1, woken := true, head := 63 })] }
def s12 : State := zRw 128
def s13 : State := zRw 63
def s14 : State := zRw 127 [(5, 2^288)]
def s15 : State := zRw 127 [(5, 2^290)] 1
def s16 : State := zRw 127 [(5, 2^290)]
def s17 : State := zRw 127 [] 1
def s18 : State := zRw 127 []
def cmd2 (st : Nat) (body : Nat := 6) : Cmd := ⟨5, 15, 63, 0, body, st, 0, [], 0, 0, 900, 0⟩
def zCo (cqh : Nat) (g : Ring := { st := 1, cqt := 64 }) (lk : PortState := .up) : State := { zRw (2^32 * cqh) with cmds := [cmd2 2], order := [5], rings := [(1023, g)], link := lk, reg := [(rC 63 - 8, 0x10000), (rC 63, 1 + 4095 * 2^9 + 2^35 + 1049 * 2^24), (0x00620000 + 8 * 4095, 31)] }
def s19 : State := zCo 63 { st := 2, cqt := 64 }
def s20 : State := zCo 0
def s21 : State := zCo 1
def s22 : State := zCo 1 { st := 1, cqt := 64 } .down

theorem witness_HostAccess :
  (On zD ∧ zD.link = PortState.up ∧ zD.upsets = [] ∧ 13631488 < 67108864 ∧ 13631488 % 8 = 0) ∧
  (On zD ∧ zD.link = PortState.up ∧ zD.upsets = [] ∧ 84410368 ≤ 84410368) ∧
  (On zD ∧ zD.link = PortState.up ∧ zD.upsets = [] ∧ peekOk 2097144 8 = true ∧ wlIndex 2097144 = none ∧
    zD.hostHome 15 2097144 = some (hm 2097144) ∧ zD.migBusy 15 2097144 = false) ∧
  (On s1 ∧ s1.link = PortState.up ∧ s1.upsets = [] ∧ peekOk 4096 64 = true ∧ wlIndex 4096 = none ∧
    s1.hostHome 15 4096 = some (hm 4096) ∧ s1.migBusy 15 4096 = false) ∧
  (On s1 ∧ s1.link = PortState.up ∧ s1.upsets = [] ∧ 4096 % 64 = 0 ∧ wlIndex 4096 = none ∧ s1.hostHome 15 4096 = some (hm 4096) ∧
    s1.migBusy 15 4096 = false ∧ (true = true → s1.hostRo 15 4096 = false) ∧ s1.hpoison (hm 4096) 64 = true) ∧
  (On zD ∧ zD.link = PortState.up ∧ zD.upsets = [] ∧ 4096 % 64 = 0 ∧ wlIndex 4096 = none ∧ zD.hostHome 15 4096 = some (hm 4096) ∧
    zD.migBusy 15 4096 = false ∧ (true = true → zD.hostRo 15 4096 = false) ∧ zD.hpoison (hm 4096) 64 = false) ∧
  (On s2 ∧ s2.link = PortState.up ∧ s2.upsets = [] ∧ 4096 % 64 = 0 ∧ wlIndex 4096 = none ∧ s2.hostHome 15 4096 = some (hm 4096) ∧
    s2.migBusy 15 4096 = false ∧ (false = true → s2.hostRo 15 4096 = false) ∧ s2.hpoison (hm 4096) 64 = false) ∧
  (On s3 ∧ s3.link = PortState.up ∧ s3.upsets = [] ∧ 4096 % 64 = 0 ∧ wlIndex 4096 = none ∧ s3.hostHome 15 4096 = some (hm 4096) ∧
    s3.migBusy 15 4096 = false ∧ (false = true → s3.hostRo 15 4096 = false) ∧ s3.hpoison (hm 4096) 64 = false) ∧
  (On zD ∧ zD.link = PortState.up ∧ zD.upsets = []) ∧
  (On s4 ∧ s4.link = PortState.up ∧ s4.upsets = []) ∧
  (On zD ∧ zD.link = PortState.up ∧ zD.upsets = [] ∧ 4104 % 64 ≠ 0) ∧
  (On zMv ∧ zMv.link = PortState.up ∧ zMv.upsets = [] ∧ peekOk 65528 8 = true ∧ wlIndex 65528 = none ∧
    zMv.hostHome 15 65528 = some ((zMv.hostHome 15 65528).getD (Home.host 0)) ∧ zMv.migBusy 15 65528 = true) ∧
  (On zD ∧ zD.link = PortState.up ∧ zD.upsets = [] ∧ 2097088 % 64 = 0 ∧ wlIndex 2097088 = none ∧
    zD.hostHome 15 2097088 = some (hm 2097088) ∧ zD.migBusy 15 2097088 = false) ∧
  (On zRo ∧ zRo.link = PortState.up ∧ zRo.upsets = [] ∧ 2097088 % 64 = 0 ∧ wlIndex 2097088 = none ∧
    zRo.hostHome 15 2097088 = some ((zRo.hostHome 15 2097088).getD (Home.host 0)) ∧ zRo.migBusy 15 2097088 = false) ∧
  (On zWl ∧ zWl.link = PortState.up ∧ zWl.upsets = [] ∧ 281474975137728 % 64 = 0 ∧ wlIndex 281474975137728 = some 4095) ∧
  (On zWl ∧ zWl.link = PortState.up ∧ zWl.upsets = [] ∧ 281474974875648 % 64 = 0 ∧ wlIndex 281474974875648 = some 0) ∧
  (On zD ∧ zD.link = PortState.up ∧ zD.upsets = [] ∧ 13631488 % 64 = 0 ∧ 1 < 8 ∧ 65280 = 255 * 2 ^ (8 * 1) ∧ 13631488 < 67108864) ∧
  (15 < 16) ∧
  (On zD ∧ zD.link = PortState.up ∧ zD.upsets = [] ∧ wlIndex 2097144 = none ∧ zD.hostHome 15 2097144 = some (hm 2097144) ∧
    zD.hostRo 15 2097144 = false ∧ zD.migBusy 15 2097144 = false ∧ 1 ≤ 1 ∧ 2097144 % (4 + 4 * 1) = 0 ∧
    zD.hpoison (hm 2097144) (4 + 4 * 1) = false) ∧
  (On zD ∧ zD.link = PortState.up ∧ zD.upsets = [] ∧ wlIndex 2097148 = none ∧ zD.hostHome 15 2097148 = some (hm 2097148) ∧
    zD.hostRo 15 2097148 = false ∧ zD.migBusy 15 2097148 = false ∧ 0 ≤ 1 ∧ 2097148 % (4 + 4 * 0) = 0 ∧
    zD.hpoison (hm 2097148) (4 + 4 * 0) = false) ∧
  (On zD ∧ zD.link = PortState.up ∧ zD.upsets = [] ∧ wlIndex 4096 = none ∧ zD.hostHome 15 4096 = some (hm 4096) ∧
    zD.hostRo 15 4096 = false ∧ zD.migBusy 15 4096 = false ∧ (4096 % if true = true then 16 else 8) = 0 ∧
    zD.hpoison (hm 4096) (if true = true then 16 else 8) = false) ∧
  (On zD ∧ zD.link = PortState.up ∧ zD.upsets = [] ∧ wlIndex 4104 = none ∧ zD.hostHome 15 4104 = some (hm 4104) ∧
    zD.hostRo 15 4104 = false ∧ zD.migBusy 15 4104 = false ∧ (4104 % if false = true then 16 else 8) = 0 ∧
    zD.hpoison (hm 4104) (if false = true then 16 else 8) = false) ∧
  (On zMv ∧ zMv.link = PortState.up ∧ zMv.upsets = [] ∧ 65472 % 64 = 0 ∧ wlIndex 65472 = none ∧
    zMv.hostHome 15 65472 = some ((zMv.hostHome 15 65472).getD (Home.host 0)) ∧ zMv.hostRo 15 65472 = false ∧
    zMv.migBusy 15 65472 = true) ∧
  (On zWl ∧ zWl.link = PortState.up ∧ wlIndex 281474975137784 = some 4095 ∧ zWl.wlOf 15 4095 = true ∧ 281474975137784 % 8 = 0) := by (repeat' apply And.intro) <;> decide +kernel

theorem witness_HostReturns :
  (On zSf ∧ zSf.link = PortState.up ∧ 4096 % 64 = 0 ∧ (zSf.part 15).st = PartState.active ∧
    zSf.sfEntry 15 (4096 / 64) = some { f := 15, line := 64, claimed := true }) ∧
  (On zSf ∧ zSf.link = PortState.up ∧ 4160 % 64 = 0 ∧ (zSf.part 15).st = PartState.active ∧ zSf.sfEntry 15 (4160 / 64) = none) ∧
  (On zSf ∧ zSf.link = PortState.up ∧ 4096 % 64 = 0 ∧ (zSf.part 15).st = PartState.active) ∧
  (On zSf ∧ zSf.link = PortState.up ∧ (15, 64) ∈ zSf.recalls) ∧
  (On zSf ∧ zSf.link = PortState.up ∧ (15, 64) ∈ zSf.recalls ∧ zSf.sfEntry 15 64 = some { f := 15, line := 64, claimed := true }) ∧
  (On zSf ∧ zSf.link = PortState.up) ∧
  (On s5 ∧ s5.link = PortState.up ∧
    s5.hreqs = [{ id := 9, kind := 0, addr := 4096, size := 256, data := 0, wait := HostWait.stage 15 1 3 255 }] ∧ 9 % 2 ^ 32 = 9) ∧
  (On s6 ∧ s6.link = PortState.up ∧
    s6.hreqs = [{ id := 9, kind := 0, addr := 4096, size := 256, data := 0, wait := HostWait.complete }] ∧ 9 % 2 ^ 32 = 9 ∧
    s6.blocked = []) ∧
  (On s7 ∧ s7.link = PortState.up ∧ s7.hreqs = [rq 9, rq 10] ∧ (rq 9).id % 2 ^ 32 = 9 ∧ (rq 9).kind = 1 ∧ (rq 10).grp = (rq 9).grp ∧
    (rq 10).id ≠ (rq 9).id ∧ (rq 9).wait = HostWait.complete ∧ s7.blocked = []) ∧
  (On s8 ∧ s8.hreqs = [] ∧ s8.cmds = [] ∧ s8.grps = [] ∧ s8.sf.any SfEnt.claimed = false) ∧
  (On s9 ∧ s9.link ≠ PortState.up ∧ 5 ≤ s9.plat.stage ∧ s9.plat.stage ≤ 6 ∧ bits (s9.rg 34603520) 0 3 = 0) := by (repeat' apply And.intro) <;> decide +kernel

theorem witness_RingsAndCompletions :
  (({ seq := zR.jrnHead, f := 15, r := 63, ridx := (zR.ring (ringKey 15 63)).head, body := recF, st := 0, parts := 0,
          fails := [], code := 0, detail := 0, accept := zR.now, fin := 0 : Cmd }.badRec =
      false) ∧
    (zR.afterDisable
        { seq := zR.jrnHead, f := 15, r := 63, ridx := (zR.ring (ringKey 15 63)).head, body := recF, st := 0, parts := 0,
          fails := [], code := 0, detail := 0, accept := zR.now, fin := 0 : Cmd } =
      false)) ∧
  (zR.jrnHead < 2 ^ 64 ∧ recF < 2 ^ 512 ∧ 15 < 16 ∧ 63 < 64) ∧
  (({ seq := zR.jrnHead, f := 15, r := 63, ridx := (zR.ring (ringKey 15 63)).head, body := recF + 2 ^ 11, st := 0,
          parts := 0, fails := [], code := 0, detail := 0, accept := zR.now, fin := 0 : Cmd }.badRec =
      true) ∧
    zR.cmd zR.jrnHead = none ∧ (zR.ring (ringKey 15 63)).st = 1) ∧
  (({ seq := zDis.jrnHead, f := 15, r := 63, ridx := (zDis.ring (ringKey 15 63)).head, body := recF, st := 0, parts := 0,
          fails := [], code := 0, detail := 0, accept := zDis.now, fin := 0 : Cmd }.badRec =
      false) ∧
    (zDis.afterDisable
        { seq := zDis.jrnHead, f := 15, r := 63, ridx := (zDis.ring (ringKey 15 63)).head, body := recF, st := 0,
          parts := 0, fails := [], code := 0, detail := 0, accept := zDis.now, fin := 0 : Cmd } =
      true) ∧
    zDis.cmd zDis.jrnHead = none ∧ (zDis.ring (ringKey 15 63)).st = 1) ∧
  (recOperands (bits (recF + 8) 0 8) = none) ∧
  (bits (recF + 2 ^ 11) 11 21 ≠ 0) ∧
  (zR.nextRing ≠ some (ringKey 15 62)) ∧
  ((s10.plat.berr ≠ 0 ∨ s10.plat.stage < 5)) ∧
  ((s11.plat.berr ≠ 0 ∨ s11.plat.stage < 5)) ∧
  (On s12 ∧ s12.plat.berr = 0 ∧ 5 ≤ s12.plat.stage ∧ s12.nextRing = some (ringKey 15 63) ∧
    (2 ^ (min 10 (bits (s12.ringCtl 15 63) 1 4) + 6) <
        (s12.ringTail 15 63 + 2 ^ 32 - (s12.ring (ringKey 15 63)).head) % 2 ^ 32 ∨
      2 ^ (min 10 (bits (s12.ringCtl 15 63) 5 4) + 6) <
        ((s12.ring (ringKey 15 63)).cqt + 2 ^ 32 - s12.ringCqh 15 63) % 2 ^ 32)) ∧
  (On s13 ∧ s13.plat.berr = 0 ∧ 5 ≤ s13.plat.stage ∧ s13.nextRing = some (ringKey 15 63) ∧
    (¬(2 ^ (min 10 (bits (s13.ringCtl 15 63) 1 4) + 6) <
          (s13.ringTail 15 63 + 2 ^ 32 - (s13.ring (ringKey 15 63)).head) % 2 ^ 32 ∨
        2 ^ (min 10 (bits (s13.ringCtl 15 63) 5 4) + 6) <
          ((s13.ring (ringKey 15 63)).cqt + 2 ^ 32 - s13.ringCqh 15 63) % 2 ^ 32)) ∧
    s13.ringTail 15 63 = (s13.ring (ringKey 15 63)).head) ∧
  (On s14 ∧ s14.plat.berr = 0 ∧ 5 ≤ s14.plat.stage ∧ s14.nextRing = some (ringKey 15 63) ∧
    (¬(2 ^ (min 10 (bits (s14.ringCtl 15 63) 1 4) + 6) <
            (s14.ringTail 15 63 + 2 ^ 32 - (s14.ring (ringKey 15 63)).head) % 2 ^ 32 ∨
          2 ^ (min 10 (bits (s14.ringCtl 15 63) 5 4) + 6) <
            ((s14.ring (ringKey 15 63)).cqt + 2 ^ 32 - s14.ringCqh 15 63) % 2 ^ 32) ∧
      s14.ringTail 15 63 ≠ (s14.ring (ringKey 15 63)).head) ∧
    s14.jrnFull = true ∧ s14.jrnWait = false) ∧
  (On s15 ∧ s15.plat.berr = 0 ∧ 5 ≤ s15.plat.stage ∧ s15.nextRing = some (ringKey 15 63) ∧
    (¬(2 ^ (min 10 (bits (s15.ringCtl 15 63) 1 4) + 6) <
            (s15.ringTail 15 63 + 2 ^ 32 - (s15.ring (ringKey 15 63)).head) % 2 ^ 32 ∨
          2 ^ (min 10 (bits (s15.ringCtl 15 63) 5 4) + 6) <
            ((s15.ring (ringKey 15 63)).cqt + 2 ^ 32 - s15.ringCqh 15 63) % 2 ^ 32) ∧
      s15.ringTail 15 63 ≠ (s15.ring (ringKey 15 63)).head) ∧
    s15.jrnFull = false ∧ bit (s15.rg (6356992 + 2048 * 15 + 32 * 63)) 0 = true) ∧
  (On s16 ∧ s16.plat.berr = 0 ∧ 5 ≤ s16.plat.stage ∧ s16.nextRing = some (ringKey 15 63) ∧
    (¬(2 ^ (min 10 (bits (s16.ringCtl 15 63) 1 4) + 6) <
            (s16.ringTail 15 63 + 2 ^ 32 - (s16.ring (ringKey 15 63)).head) % 2 ^ 32 ∨
          2 ^ (min 10 (bits (s16.ringCtl 15 63) 5 4) + 6) <
            ((s16.ring (ringKey 15 63)).cqt + 2 ^ 32 - s16.ringCqh 15 63) % 2 ^ 32) ∧
      s16.ringTail 15 63 ≠ (s16.ring (ringKey 15 63)).head) ∧
    s16.jrnFull = false ∧ bit (s16.rg (6356992 + 2048 * 15 + 32 * 63)) 0 = false ∧ s16.link = PortState.up ∧
    (∀ x ∈ s16.hreqs, x.wait ≠ HostWait.record (ringKey 15 63))) ∧
  ((s17.rg (6356992 + 2048 * 15 + 32 * 63) / 64 % 2 ^ 46 * 64 +
        64 * ((s17.ring (ringKey 15 63)).head % 2 ^ (min 10 (bits (s17.ringCtl 15 63) 1 4) + 6)) <
      2 ^ 48) ∧
    s17.upsets = [] ∧ s17.far = [] ∧
    (s17.tblBad 15
        (s17.rg (6356992 + 2048 * 15 + 32 * 63) / 64 % 2 ^ 46 * 64 +
          64 * ((s17.ring (ringKey 15 63)).head % 2 ^ (min 10 (bits (s17.ringCtl 15 63) 1 4) + 6)))
        0 64 false =
      none) ∧
    (s17.tblHeld (Who.ring (ringKey 15 63)) 15
        (s17.rg (6356992 + 2048 * 15 + 32 * 63) / 64 % 2 ^ 46 * 64 +
          64 * ((s17.ring (ringKey 15 63)).head % 2 ^ (min 10 (bits (s17.ringCtl 15 63) 1 4) + 6)))
        0 64 false =
      []) ∧
    (s17.homeOf 15
        (s17.rg (6356992 + 2048 * 15 + 32 * 63) / 64 % 2 ^ 46 * 64 +
          64 * ((s17.ring (ringKey 15 63)).head % 2 ^ (min 10 (bits (s17.ringCtl 15 63) 1 4) + 6))) =
      some (Home.mem true 8128)) ∧
    s17.hpoison (Home.mem true 8128) 64 = false) ∧
  ((s18.ring (ringKey 15 63)).st = 1 ∧ s18.ringTail 15 63 ≠ (s18.ring (ringKey 15 63)).head ∧ s18.jrnFull = false) ∧
  (zR.nextRing = some (ringKey 15 63)) ∧
  (On s19 ∧ s19.dueOn 15 63 = some (cmd2 2) ∧ (s19.ring (ringKey 15 63)).st ≠ 1) ∧
  (On s20 ∧ s20.dueOn 15 63 = some (cmd2 2) ∧ (s20.ring (ringKey 15 63)).st = 1 ∧ s20.ringOut 15 63 = false ∧
    2 ^ (min 10 (bits (s20.ringCtl 15 63) 5 4) + 6) ≤ ((s20.ring (ringKey 15 63)).cqt + 2 ^ 32 - s20.ringCqh 15 63) % 2 ^ 32) ∧
  (On s21 ∧ s21.dueOn 15 63 = some (cmd2 2) ∧ (s21.ring (ringKey 15 63)).st = 1 ∧ s21.ringOut 15 63 = false ∧
    ((s21.ring (ringKey 15 63)).cqt + 2 ^ 32 - s21.ringCqh 15 63) % 2 ^ 32 < 2 ^ (min 10 (bits (s21.ringCtl 15 63) 5 4) + 6) ∧
    bit (s21.rg (6356992 + 2048 * 15 + 32 * 63 + 8)) 0 = false ∧ s21.link = PortState.up) ∧
  (On s22 ∧ s22.dueOn 15 63 = some (cmd2 2) ∧ (s22.ring (ringKey 15 63)).st = 1 ∧ s22.ringOut 15 63 = false ∧
    ((s22.ring (ringKey 15 63)).cqt + 2 ^ 32 - s22.ringCqh 15 63) % 2 ^ 32 < 2 ^ (min 10 (bits (s22.ringCtl 15 63) 5 4) + 6) ∧
    s22.link ≠ PortState.up) ∧
  (On zWl ∧ bit 2096641 0 = true ∧ bit (zWl.rg (6357008 + 2048 * 15 + 32 * 62)) 0 = false ∧
    zWl.wlOf 15 (bits (2096641 % 2 ^ 36) 9 12) = true) ∧
  (On zWl ∧ bit 2096129 0 = true ∧ bit (zWl.rg (6357008 + 2048 * 15 + 32 * 62)) 0 = false ∧
    zWl.wlOf 15 (bits (2096129 % 2 ^ 36) 9 12) = false) ∧
  (On zWl ∧ bit 2096640 0 = false ∧
    (bit (zWl.rg (6357008 + 2048 * 15 + 32 * 63)) 0 = false ∨
      zWl.rg (6357008 + 2048 * 15 + 32 * 63) / 2 = 2096640 % 2 ^ 36 / 2)) ∧
  (On zWl ∧ bit 2096128 0 = false ∧ bit (zWl.rg (6357008 + 2048 * 15 + 32 * 63)) 0 = true ∧
    zWl.rg (6357008 + 2048 * 15 + 32 * 63) / 2 ≠ 2096128 % 2 ^ 36 / 2) := by (repeat' apply And.intro) <;> decide +kernel

end Wi

namespace Wj

/-! Witnesses: registers, resets, power, boot, test access. -/

def zCt : State := { wOn with ctr := [(0x00801088, 2^48 - 3)] }
def s1 : State := { wOn with reg := [(0x00D00000, 0x10009), (0x00D00008, 0x1000A)] }
def s2 : State := { wOn with satCfg := 1 }
def zDn (l : List Nat) (f : List Nat := []) : State := { wOn with plat := { wPlat with scribeDown := l, failLatch := f }, hasPrev := true, lastFail := 100, mtbf := 5000 }
def s3 : State := zDn [2]
def s4 : State := { zDn [] with reg := [(0x00B02008, 2^16 + 3)] }
def s5 : State := zDn [0, 2]
def s6 : State := zDn [0, 2] [900, 950]

def zP (x : Plat) : State := { wRunM k0 [(5, 5)] with plat := x, jrn := [(1, 5)], blt := [(7, 8)], bltHead := 8, ctr := [(0x00801088, 1)], reg := [(0x00D00000, 0x10009), (0x00800008, 5)], jrnHead := 9 }
def s7 : State := zP wPlat
def s8 : State := zP { wPlat with power := .waitGood, pwrGood := false }
def s9 : State := zP { wPlat with power := .inReset }
def s10 : State := zP { wPlat with power := .inReset, pwrGood := false }
def s11 : State := zP { wPlat with ready6 := false }
def s12 : State := { wOn with plat := { wPlat with tripAt := [223] } }
def s13 : State := zP { wPlat with power := .waitGood, lock := false }
def s14 : State := zP { wPlat with tbStarted := false, lock := false }
def zRu : State := { wOn with parts := [(15, { wPart with ruled := true })] }
def s15 : State := { wOn with plat := { wPlat with tbRun := false } }
def zTr (n a : Nat) : State := { wOn with reg := [(0x00101010, n)], plat := { wPlat with trimAcc := a } }
def s16 : State := zTr 100000 999999999
def s17 : State := zTr 100000 5
def s18 : State := zTr (2^19 - 100000) 999999999
def s19 : State := zTr (2^19 - 100000) 5
def s20 : State := { wOn with plat := { wPlat with swallow := true } }
def vA : BitVec 12 := BitVec.ofNat 12 (wOn.plat.vAt wOn.plat.minDiv)
def s21 : State := { wOn with plat := { wPlat with avsTry := 2 } }
def zCap (x : Plat) (r : Bool := false) : State := { wOn with plat := { x with dom := [(62, 2), (63, 2)] }, parts := [(15, { wPart with ruled := r })], reg := [(0x00200008, 1000)] }
def s22 : State := zCap wPlat
def s23 : State := zCap { wPlat with capDiv := [(62, 12), (63, 12)] }
def s24 : State := zCap wPlat true
def s25 : State := zCap { wPlat with capSteps := [1] }
/-- A Ruled partition created at NCLK divider 6, and a cap step of NCLK that ran before it. -/
def zCn : State := { zCap { wPlat with capSteps := [2, 9], ndiv := 6 } true with parts := [(15, { wPart with ruled := true, nclk := 6 })] }
def s26 : State := { wOn with plat := { wPlat with temp := [(191, 824)] } }
def s27 : State := { wOn with plat := { wPlat with temp := [(191, 784)], thDiv := [(63, 12)] } }
def zT (h : List Nat) : State := { wOn with plat := { wPlat with holdT := h } }
def s28 : State := zT [191, 3]
def s29 : State := zT [3]
def zDm (l : Tbl Nat) : State := { wOn with plat := { wPlat with dom := l }, parts := [(15, wPart)] }
def s30 : State := zDm [(5, 2), (62, 1)]
def s31 : State := zDm ((List.range 8).map (fun i => (i + 80, 1)))
def zB (n : Nat) (lk : PortState := .up) (x : Plat := wPlat) : State := { wOn with plat := { x with stage := n, ready5 := false, ready6 := false, image := 0, flash := 0 }, link := lk }
def s32 : State := zB 0
def s33 : State := zB 1
def s34 : State := zB 3
def s35 : State := zB 5
def s36 : State := zB 5 .down
def s37 : State := zB 6
def s38 : State := { zB 6 with plat := { (zB 6).plat with warmBoot := true }, dram := [(5, 5)], dramPoison := [3] }
def s39 : State := { zB 6 with dram := [(5, 5)], dramPoison := [3] }
def s40 : State := zB 4
def s41 : State := { zB 6 with plat := { (zB 6).plat with warmBoot := true, recBoot := true, image := 77 } }
def zRc (x : Plat := {}) (st : Nat := 7) : State := { wOn with plat := { wPlat with stage := st, recSt := 1, recBytes := 8, image := 5, updSt := x.updSt, flash := 77 }, reg := [(0x00400408, 2^13)] }
def s42 : State := zRc
def s43 : State := zRc {} 2
def s44 : State := zRc {} 6
def s45 : State := zRc { updSt := 3 } 6
def s46 : State := { wOn with reg := [(0x00D00100 + 8 * 15, 1)] }
def s47 : State := { wOn with reg := [(0x02100200, 1)] }
def s48 : State := { wOn with plat := { wPlat with dbistBusy := true } }
def s49 : State := zB 2
def s50 : State := zRc {} 7
def s51 : State := zRc {} 3
def rA (a b c : BitVec 6) (fn : BitVec 8) : FormR := { a, b, c, d := 0, fn8 := fn, fmt := 0, rsv := 0 }
def s52 : State := { wOn with pending := [.domainWake 5] }

def uo (o : Host.Outcome State Fault Refusal) : State := match o with | .next t => t | _ => State.reset
def w8 : State := wOn
def un (o : Host.Outcome State Fault Refusal) : State := match o with | .next t => t | _ => State.reset
def zWr : State := { zP wPlat with parts := [(15, { wPart with dpa := [(3, 4)] })] }
def s9R : State := wRun k0

theorem witness_RegistersAndCounters :
  (2 ^ 48 - 1 < 2 ^ 48 ∧ 2 ^ 48 ≤ 2 ^ 48 - 1 + 5) ∧
  (2 ^ 48 - 6 < 2 ^ 48 ∧ 2 ^ 48 - 6 + 5 < 2 ^ 48) ∧
  (2 ^ 48 - 1 < 2 ^ 48 ∧ 2 ^ 64 - 1 < 2 ^ 64 ∧ 2 ^ 63 ≤ 2 ^ 64 - 1) ∧
  (2 ^ 48 - 1 < 2 ^ 48 ∧ 2 ^ 63 - 1 < 2 ^ 64 ∧ 2 ^ 63 - 1 < 2 ^ 63) ∧
  (2 ^ 63 ≤ 2 ^ 63 + 5) ∧
  (2 ^ 63 ≤ 2 ^ 63 + 5 ∧ 2 ^ 63 ≤ 2 ^ 64 - 1) ∧
  (2 ^ 63 ≤ 2 ^ 63 + 5 ∧ 2 ^ 63 - 1 < 2 ^ 63) ∧
  (On wOn) ∧
  (wOn.cnt 8392840 < 2 ^ 48 ∧ 7 ≤ 2 ^ 48 ∧ wOn.cnt 8392840 + 7 < 2 ^ 48) ∧
  (zCt.cnt 8392840 < 2 ^ 48 ∧ 7 ≤ 2 ^ 48 ∧ 2 ^ 48 ≤ zCt.cnt 8392840 + 7 ∧ 8392840 ≠ 8392832 ∧ zCt.bltq.length < 64) ∧
  (zCt.cnt 8392840 < 2 ^ 48 ∧ 7 ≤ 2 ^ 48 ∧ 8392848 ≠ 8392840 ∧ 8392848 ≠ 8392832 ∧ zCt.bltq.length < 64) ∧
  (occupied 67108856 = false) ∧
  (isCounter 8392840 = true) ∧
  (2 ^ 64 - 1 < 2 ^ 64 ∧ 15 < 16) ∧
  (s1.pathOpen RegPath.fabric 13631488 = true) ∧
  (4095 < 4096 ∧ 2 ^ 64 - 1 < 2 ^ 64 ∧ 2 ^ 64 - 1 < 2 ^ 64) := by (repeat' apply And.intro) <;> decide +kernel

theorem witness_MonitorAndIntervals :
  (On wOn ∧ wOn.plat.tbRun = true) ∧
  (On s2 ∧ s2.plat.tbRun = true) ∧
  (satLevel 1024 4190208 0 = 0 ∧ 1 ≤ 2 ∧ 2 ≤ 5) ∧
  (satLevel 512 2097664 3146496 ≠ 0) ∧
  (satLevel 512 17181966848 3146496 ≠ 0) ∧
  (satLevel 512 17181966848 3146496 ≠ 0 ∧ 1 ≤ 2 ∧ 2 ≤ 5 ∧ 512 ≤ min 1024 (fld 17181966848#64 (12 * (2 - 1)) 11)) ∧
  (On wOn) ∧
  (On s3) ∧
  (On wOn ∧ (wOn.ckpPart 15).due = false) ∧
  (On wOn ∧ wOn.hasPrev = false) ∧
  (On s4 ∧ s4.hasPrev = true ∧ 1000 - s4.lastFail < bits (s4.rg 11542536) 16 16 * 1050000000) ∧
  (On s4 ∧ s4.hasPrev = true ∧ bits (s4.rg 11542536) 16 16 * 1050000000 ≤ 1050000100 - s4.lastFail) ∧
  (On s5 ∧ 0 ∈ s5.plat.scribeDown ∧ 0 ≠ 2) ∧
  (On s6 ∧ 2 ∈ s6.plat.scribeDown) ∧
  (65535 < 2 ^ (2 * 8)) := by (repeat' apply And.intro) <;> decide +kernel

theorem witness_Resets :
  (s8.plat.power = Power.waitGood) ∧
  (s9.plat.power = Power.inReset) ∧
  (s10.plat.power = Power.inReset) ∧
  (s7.plat.power ≠ Power.islandReset) ∧
  ((s7.plat.updSt = 0 ∨ 3 < s7.plat.updSt) ∧ s7.plat.recSt ≠ 3) ∧
  (5 ≠ 8388616) ∧
  (On s7) ∧
  (On s11) ∧
  (fld 1465013077#64 0 32 ≠ 1465013076) ∧
  (2 ≤ bits (2 ^ 289 + 7) 288 3) ∧
  (bits (2 ^ 288 + 7 + 2 ^ 271 + 2 ^ 500) 288 3 < 2) := by (repeat' apply And.intro) <;> decide +kernel

theorem witness_StopsAndTimebase :
  (On s7) ∧
  (On wOn ∧ 6 ≤ 6 ∧ railBad wOn.plat 6 0 = true ∧ wOn.bltq.length < 64 ∧ wOn.newSat 8393096 1 = false) ∧
  (On wOn ∧ 0 ≤ 6 ∧ railBad wOn.plat 0 700 = false) ∧
  (On wOn ∧ wOn.plat.lock = true ∧ wOn.bltq.length < 64 ∧ wOn.newSat 8393096 1 = false) ∧
  (On s12 ∧ tripLimit 223 ≤ signed12 2047 ∧ s12.bltq.length < 64 ∧ 223 ∈ s12.plat.tripAt ∧ s12.newSat 8393088 1 = false) ∧
  (On wOn ∧ tripLimit 223 ≤ signed12 2047 ∧ wOn.bltq.length < 64 ∧ 223 ∉ wOn.plat.tripAt ∧ 192 ≤ 223) ∧
  (s13.plat.power ≠ Power.islandReset ∧ s13.plat.lock = false) ∧
  (s14.plat.power ≠ Power.islandReset ∧ s14.plat.lock = false) ∧
  (On zRu ∧ zRu.ruledExists = true) ∧
  (On wOn ∧ wOn.ruledExists = false) ∧
  (s15.pending = [] ∧ s15.plat.tbRun = false) ∧
  (wOn.pending = [] ∧ wOn.plat.tbRun = true ∧ wOn.trim = 0 ∧ wOn.plat.trimAcc < 1000000000) ∧
  (s16.pending = [] ∧ s16.plat.tbRun = true ∧ s16.plat.trimAcc < 1000000000) ∧
  (s17.pending = [] ∧ s17.plat.tbRun = true ∧ s17.plat.trimAcc < 1000000000) ∧
  (s18.pending = [] ∧ s18.plat.tbRun = true ∧ s18.plat.trimAcc < 1000000000) ∧
  (s19.pending = [] ∧ s19.plat.tbRun = true ∧ s19.plat.trimAcc < 1000000000) := by (repeat' apply And.intro) <;> decide +kernel

theorem witness_PowerAndThermalLoops :
  (On s20) ∧
  (On wOn ∧ wOn.plat.vset ≤ 660 + 40) ∧
  (On zRu ∧ 659 + 40 < zRu.plat.vset ∧ zRu.plat.swallow = false) ∧
  (wOn.loopsRun = true) ∧
  (wOn.loopsRun = true ∧ wOn.plat.avserr = false ∧ wOn.ruledExists = false ∧ vA.toNat = wOn.plat.vAt wOn.plat.minDiv ∧
    6 ≤ wOn.plat.minDiv ∧ wOn.plat.minDiv ≤ 12 ∧ (vA + 10).toNat ≤ vA.toNat + 10 ∧ vA.toNat ≤ (vA + 10).toNat + 10) ∧
  (wOn.loopsRun = true ∧ wOn.plat.avserr = false ∧ wOn.ruledExists = false ∧ vA.toNat = wOn.plat.vAt wOn.plat.minDiv ∧
    6 ≤ wOn.plat.minDiv ∧ wOn.plat.minDiv ≤ 12 ∧
    (¬(true = true ∧ (vA + 11).toNat ≤ vA.toNat + 10 ∧ vA.toNat ≤ (vA + 11).toNat + 10)) ∧ wOn.plat.avsTry < 2) ∧
  (s21.loopsRun = true ∧ s21.plat.avserr = false ∧ s21.ruledExists = false ∧ vA.toNat = s21.plat.vAt s21.plat.minDiv ∧
    6 ≤ s21.plat.minDiv ∧ s21.plat.minDiv ≤ 12 ∧ (¬(false = true ∧ vA.toNat ≤ vA.toNat + 10 ∧ vA.toNat ≤ vA.toNat + 10)) ∧
    2 ≤ s21.plat.avsTry) ∧
  (zRu.loopsRun = true ∧ zRu.ruledExists = true) ∧
  (s22.loopsRun = true ∧ max 600 (min 1250 (bits (s22.rg 2097160) 0 11)) < 1001 ∧
    List.filter (fun n => decide (tgetD s22.plat.capDiv n 6 < 12)) (s22.onOf false) ≠ []) ∧
  (s23.loopsRun = true ∧ max 600 (min 1250 (bits (s23.rg 2097160) 0 11)) < 1001 ∧
    List.filter (fun n => decide (tgetD s23.plat.capDiv n 6 < 12)) (s23.onOf false) = [] ∧ s23.ruledExists = false ∧
    s23.plat.ndiv = 4) ∧
  (s24.loopsRun = true ∧ max 600 (min 1250 (bits (s24.rg 2097160) 0 11)) < 1001 ∧
    List.filter (fun n => decide (tgetD s24.plat.capDiv n 6 < 12)) (s24.onOf false) = [] ∧ s24.ruledExists = true ∧
    s24.plat.overCnt < 9) ∧
  (s22.loopsRun = true ∧ 1000 ≤ max 600 (min 1250 (bits (s22.rg 2097160) 0 11)) ∧
    max 600 (min 1250 (bits (s22.rg 2097160) 0 11)) - max 600 (min 1250 (bits (s22.rg 2097160) 0 11)) / 32 ≤ 1000) ∧
  (s22.loopsRun = true ∧ 969 ≤ max 600 (min 1250 (bits (s22.rg 2097160) 0 11)) ∧
    max 600 (min 1250 (bits (s22.rg 2097160) 0 11)) - max 600 (min 1250 (bits (s22.rg 2097160) 0 11)) / 32 ≤ 969) ∧
  (s25.loopsRun = true ∧
    968 < max 600 (min 1250 (bits (s25.rg 2097160) 0 11)) - max 600 (min 1250 (bits (s25.rg 2097160) 0 11)) / 32 ∧
    s25.plat.capSteps = [1] ∧ 1 % 8 = 1) ∧
  (zCn.loopsRun = true ∧
    968 < max 600 (min 1250 (bits (zCn.rg 2097160) 0 11)) - max 600 (min 1250 (bits (zCn.rg 2097160) 0 11)) / 32 ∧
    zCn.plat.capSteps = [2, 9] ∧ 15 < 16 ∧ (zCn.part 15).st ≠ PartState.free ∧ (zCn.part 15).ruled = true ∧ (zCn.part 15).nclk ≠ 4) ∧
  (s26.loopsRun = true ∧ s26.isRuledClu 63 = false ∧
    824 ≤ max (s26.plat.t (3 * 63)) (max (s26.plat.t (3 * 63 + 1)) (s26.plat.t (3 * 63 + 2))) ∧ tgetD s26.plat.thDiv 63 6 < 12) ∧
  (s27.loopsRun = true ∧ s27.isRuledClu 63 = false ∧
    max (s27.plat.t (3 * 63)) (max (s27.plat.t (3 * 63 + 1)) (s27.plat.t (3 * 63 + 2))) ≤ 784 ∧
    max 6 s27.plat.floorDiv < tgetD s27.plat.thDiv 63 6) ∧
  (On s28 ∧ 191 < 192 ∧ signed12 840 < 1000 ∧ signed12 840 ≤ 840) ∧
  (On s28 ∧ 191 < 192 ∧ signed12 879 < 1000 ∧ 840 < signed12 879 ∧ signed12 879 < 880) ∧
  (On s29 ∧ 191 < 192 ∧ signed12 880 < 1000 ∧ 880 ≤ signed12 880 ∧ s29.bltq.length < 64) ∧
  (On s30 ∧ 1 ∉ s30.plat.scribeDown ∧ 5 < 92 ∧ s30.domWanted 5 = false ∧ tgetD s30.plat.dom 5 0 ≠ 0) ∧
  (On s30 ∧ 1 ∉ s30.plat.scribeDown ∧ 63 < 92 ∧ s30.domWanted 63 = true ∧ tgetD s30.plat.dom 63 0 = 0 ∧
    (List.filter (fun e => e.2 == 1) s30.plat.dom).length < 8) ∧
  (On s31 ∧ 1 ∉ s31.plat.scribeDown ∧ 63 < 92 ∧ s31.domWanted 63 = true ∧
    8 ≤ (List.filter (fun e => e.2 == 1) s31.plat.dom).length) ∧
  (On s30 ∧ 1 ∉ s30.plat.scribeDown ∧ 62 < 92 ∧ tgetD s30.plat.dom 62 0 = 1) := by (repeat' apply And.intro) <;> decide +kernel

theorem witness_BootAndFirmware :
  (On s32 ∧ s32.plat.ready6 = false ∧ s32.plat.stage = 0) ∧
  (On s33 ∧ s33.plat.ready6 = false ∧ s33.plat.stage = 1) ∧
  (On s34 ∧ s34.plat.ready6 = false ∧ s34.plat.stage = 3) ∧
  (On s35 ∧ s35.plat.ready6 = false ∧ s35.plat.stage = 5 ∧ s35.plat.berr = 0 ∧ s35.link = PortState.up) ∧
  (On s36 ∧ s36.plat.ready6 = false ∧ s36.plat.stage = 5 ∧ s36.link ≠ PortState.up) ∧
  (On s37 ∧ s37.plat.ready6 = false ∧ s37.plat.stage = 6 ∧ s37.plat.recBoot = false ∧ s37.upsets = []) ∧
  (On s38 ∧ s38.plat.ready6 = false ∧ s38.plat.stage = 6 ∧ s38.plat.recBoot = false ∧ s38.upsets = []) ∧
  (On s39 ∧ s39.plat.ready6 = false ∧ s39.plat.stage = 6 ∧ s39.plat.recBoot = false ∧ s39.upsets = []) ∧
  (On s40 ∧ s40.plat.ready6 = false ∧ s40.plat.stage = 4) ∧
  (On s41 ∧ s41.plat.ready6 = false ∧ s41.plat.stage = 6 ∧ s41.plat.recBoot = true ∧ 0 ∉ s41.plat.scribeDown ∧
    s41.plat.warmBoot = true) ∧
  (On s42 ∧ s42.plat.stage = 7 ∧ 0 ∉ s42.plat.scribeDown) ∧
  (On s42 ∧ s42.plat.stage = 7) ∧
  (On s42 ∧ s42.plat.stage = 7 ∧ s42.plat.recSt = 1 ∧ s42.plat.recBytes + 8 < 2 ^ 23) ∧
  (On s42 ∧ s42.plat.stage = 7 ∧ s42.plat.recSt = 1) ∧
  (On s43 ∧ s43.plat.stage < 3 ∧ 0 ∉ s43.plat.scribeDown) ∧
  (On s44 ∧ 3 ≤ s44.plat.stage ∧ s44.plat.stage ≠ 7 ∧ s44.plat.updSt = 0) ∧
  (On s45 ∧ 3 ≤ s45.plat.stage ∧ s45.plat.stage ≠ 7 ∧ 1 ≤ s45.plat.updSt ∧ s45.plat.updSt ≤ 3) ∧
  (On s45 ∧ 1 ≤ s45.plat.updSt ∧ s45.plat.updSt ≤ 3 ∧ 0 ∉ s45.plat.scribeDown ∧ s45.link = PortState.up) ∧
  (imMAGIC 0 ≠ 5137843389089927757) ∧
  (8191 < 8192 + imBODYLEN 5137843389089927757) ∧
  (2 ≤ 2 ∧ s3.scribeUp 2 = false) ∧
  (1 ≤ 2 ∧ wOn.scribeUp 1 = true ∧ wOn.bltq.length < 62 ∧ wOn.cnt 8392960 < 2 ^ 48 - 1 ∧ wOn.cnt (4194568 + 16 * 1) < 2 ^ 48 - 1) := by (repeat' apply And.intro) <;> decide +kernel

theorem witness_TestAccess :
  (255 ∉ [0, 1, 2, 16]) ∧
  (wOn.plat.power ≠ Power.islandReset) ∧
  (On wOn ∧ 15 < 16 ∧ bit (wOn.rg (13631744 + 8 * 15)) 0 = false ∧ 6 ≠ 5 ∧ 6 ≠ 7) ∧
  (On s46 ∧ 15 < 16 ∧ bit (s46.rg (13631744 + 8 * 15)) 0 = true ∧ 6 ∈ [1, 2, 3, 4, 6]) ∧
  (On s47 ∧ 16 < 17 ∧ bits (s47.rg (34603008 + 32 * 16)) 0 3 = 1) ∧
  (On wOn ∧ wOn.plat.dbistBusy = false) ∧
  (On s48 ∧ s48.plat.dbistBusy = true) := by (repeat' apply And.intro) <;> decide +kernel

theorem witness_PlatformCommandsComplete :
  (On wOn ∧ 2 ≤ 2 ∧ 3 ≤ wOn.plat.stage ∧ wOn.plat.stage ≤ 6 ∧ 2 ∉ wOn.plat.scribeDown) ∧
  (On s32 ∧ s32.plat.ready6 = false ∧ s32.plat.stage < 4 ∧ s32.plat.stage ≠ 2) ∧
  (On s34 ∧ s34.plat.ready6 = false ∧ s34.plat.stage < 4 ∧ s34.plat.stage ≠ 2) ∧
  (On s49 ∧ s49.plat.ready6 = false ∧ s49.plat.stage = 2) ∧
  (On s40 ∧ s40.plat.ready6 = false ∧ s40.plat.stage = 4) ∧
  (On s35 ∧ s35.plat.ready6 = false ∧ s35.plat.stage = 5 ∧ s35.plat.berr = 0 ∧ s35.link = PortState.up) ∧
  (On s37 ∧ s37.plat.ready6 = false ∧ s37.plat.stage = 6) ∧
  (On s43 ∧ 0 ∉ s43.plat.scribeDown ∧ s43.plat.stage < 3) ∧
  (On s50 ∧ 0 ∉ s50.plat.scribeDown ∧ s50.plat.stage = 7) ∧
  (On s50 ∧ s50.plat.stage = 7 ∧ s50.plat.recSt = 1 ∧ s50.plat.recBytes + 8 < 2 ^ 23 ∧
    s50.plat.image < 2 ^ (8 * s50.plat.recBytes)) ∧
  (On s50 ∧ s50.plat.stage = 7 ∧ s50.plat.recSt = 1) ∧
  (On s50 ∧ s50.plat.stage = 7) ∧
  (On s51 ∧ 3 ≤ s51.plat.stage ∧ s51.plat.stage ≠ 7 ∧ s51.plat.updSt = 0) ∧
  (On s45 ∧ 1 ≤ s45.plat.updSt ∧ s45.plat.updSt ≤ 3 ∧ 0 ∉ s45.plat.scribeDown ∧ s45.link = PortState.up) ∧
  (On wOn ∧ wOn.plat.dbistBusy = false) ∧
  (On s48 ∧ s48.plat.dbistBusy = true) ∧
  (On wOn ∧ 16 ≤ 16 ∧ wOn.depthOk 16 1 = true) ∧
  (On wOn ∧ 0 ≤ 16 ∧ wOn.depthOk 0 1 = true) ∧
  (On wOn ∧ 16 ≤ 16) ∧
  (On wOn) ∧
  (On wOn ∧ 255 ∉ [0, 1, 2, 16]) := by (repeat' apply And.intro) <;> decide +kernel

theorem witness_StepRunsTheFrontCommand :
  wOn.pending = [] := by (repeat' apply And.intro) <;> decide +kernel

theorem witness_RegisterFrames :
  (63 ≠ 0) ∧
  (1 ≠ 63) ∧
  (Issues s9R c0 l0 8 ∧ aluCode 20 = true ∧ Readable (s9R.core l0) [63, 2] ∧ Writable (s9R.core l0) 63) ∧
  (Issues s9R c0 l0 8 ∧ aluCode 17 = true ∧ Readable (s9R.core l0) [63] ∧ Writable (s9R.core l0) 0) ∧
  (Issues s9R c0 l0 8 ∧ Readable (s9R.core l0) [63]) ∧
  (Issues s9R c0 l0 8 ∧ Writable (s9R.core l0) 63) := by (repeat' apply And.intro) <;> decide +kernel

theorem witness_StepKeepsVersionsAndQueue :
  EpochsLegal s52 := by (repeat' apply And.intro) <;> decide +kernel

end Wj

/-! Well-formedness: a command inside each bound, and the first one outside it, which the check refuses. -/

theorem test_wf_packet : Instr.wf (.regrd { wAns 9 0 0 with data := 2 ^ 2048 - 1 }) = true ∧
    Instr.wf (.regrd { wAns 9 0 0 with data := 2 ^ 2048 }) = false := by decide +kernel
theorem test_wf_chunk : Instr.wf (.chunkUp (wAns 9 0 0) [wAns 9 0 0]) = true ∧
    Instr.wf (.chunkUp (wAns 9 0 0) [wAns 9 0 0, { wAns 9 0 0 with data := 2 ^ 2048 }]) = false := by decide +kernel
theorem test_wf_class : Instr.wf (.poolEnable 15 22) = true ∧ Instr.wf (.poolEnable 15 23) = false := by decide
theorem test_wf_channel : Instr.wf (.dramRefresh 191) = true ∧ Instr.wf (.dramRefresh 192) = false := by decide
theorem test_wf_scribe : Instr.wf (.watchdogExpiry 2) = true ∧ Instr.wf (.watchdogExpiry 3) = false := by decide
theorem test_wf_domain : Instr.wf (.domainWake 91) = true ∧ Instr.wf (.domainWake 92) = false := by decide
theorem test_wf_loop : Instr.wf (.loopbackDepth 16 1) = true ∧ Instr.wf (.loopbackDepth 17 1) = false := by decide
theorem test_wf_rail : Instr.wf (.railFault 9 700) = true ∧ Instr.wf (.railFault 10 700) = false := by decide
theorem test_wf_slots : slotsWf (List.replicate 15 ⟨0, 0⟩) = true ∧ slotsWf (List.replicate 16 ⟨0, 0⟩) = false := by decide
theorem test_wf_bist : Instr.wf (.dbistDone [(191, 0, 0)]) = true ∧ Instr.wf (.dbistDone [(192, 0, 0)]) = false := by decide

/-! The spec's worked examples. -/

/-- 01 R18: quad 5 holds clusters 18, 19, 26 and 27. -/
theorem test_quad_5 : quadClus 5 = [18, 19, 26, 27] := by decide
/-- 02 R64: word c3 of logical node 37, cluster 5, core 12, stream 0. -/
theorem test_philox_c3 : philoxC3 37 5 12 0 = 0x002514C0 := by decide
/-- 03 R84: word 0 of the RST of x10, x11, x12. -/
theorem test_rst_word : FormR.w0 0x81 ⟨0, 10, 11, 12, 0, 0, 0⟩ = 0x30B28081 := by decide
/-- 05: a VUN over 1,000 BF16 elements. -/
theorem test_vun_word : FormV.w0 0x3A ⟨12, 8, 0, 0, 0x0B, 1, 0, 999, 0, 0⟩ = 0x007CE10B00020C3A := by decide
/-- 04 R125: the sum of a block is exact, and the blocks are added in order. -/
theorem test_block_order :
    accBlock false [(toNum 1 0x4580, toNum 1 0x4580), (toNum 1 0x3F80, toNum 1 0x3F80), (toNum 1 0x3F80, toNum 1 0x3F80)] 0 =
      0x4B800001 ∧
    accBlock false [(toNum 1 0x3F80, toNum 1 0x3F80)] (accBlock false [(toNum 1 0x4580, toNum 1 0x4580),
      (toNum 1 0x3F80, toNum 1 0x3F80)] 0) = 0x4B800000 := by decide +kernel
/-- 04 R134: an MXFP4 block of 13.7, 5.1, -0.6, 0.2 and zeros: its scale byte and codes. -/
theorem test_mxfp4_block : mxBlock 9 ([0x415B3333, 0x40A33333, 0xBF19999A, 0x3E4CCCCD].map (fun c => (toNum 0 c, Rnd.rne)) ++
    List.replicate 28 (.fin false 0 0 false, .rne)) = (0x80, [7, 5, 9, 0] ++ List.replicate 28 0) := by decide +kernel
/-- 04 R141: the block of the worked example keeps these indices and drops others. -/
theorem test_sparsify_block : sparsifyBlock (fun i => Num.ofInt ([90, -20, 70, 10, -80, 60, 5, 30, 40, -90, 20, -60, 10, 50, -70,
    30].getD i 0)) = ([0, 9, 4, 2, 14, 5, 11, 15], true) := by decide +kernel
/-- 04 R142: the metadata of the example's lines. -/
theorem test_sparsify_names : (groupNames [0, 1], groupNames [1, 2], groupNames [0, 3], groupNames [2, 3]) =
    (((0, true), 1, true), ((1, true), 2, true), ((0, true), 3, true), ((2, true), 3, true)) := by decide
/-- 05 R164: 0.3 into FP8 E4M3 with the words 0x80000000 and 0xC0000000. -/
theorem test_stochastic : ofNum 3 (.sto 0x80000000) (toNum 0 0x3E99999A) = 0x2A ∧ ofNum 3 (.sto 0xC0000000) (toNum 0 0x3E99999A) =
    0x29 := by decide +kernel
/-- 05 R167: a row with infinities. -/
theorem test_smax_inf : smax 0 [(.inf false, true), (toNum 0 0x40400000, true), (.inf false, true), (toNum 0 0x3F800000, true)] =
    ([0x3F000000, 0, 0x3F000000, 0], 0x7F800000, 0x40000000, 4) := by decide +kernel
/-- 07 R265: three lines in the SPREAD layout. -/
theorem test_dram_place : wOn.dramPlace 0x1234567940 = (160, 0x1845C840) ∧ dramDie 0x1845C840 = 3 ∧
    (wOn.dramPlace 0x1234567A00).1 = 161 ∧ (wOn.dramPlace 0x1234567B00).1 = 156 := by decide +kernel
/-- 11 R410: a COPY of 40 MiB to 0x40100000: 21 parts; parts 0, 14 and 20. -/
theorem test_copy_parts : let c : Cmd := ⟨1, 2, 0, 0, 2 + 2 * 2 ^ 190 + 0x40100000 * 2 ^ 192 + 0x2800000 * 2 ^ 256, 0, 0, [], 0, 0, 0, 0⟩
    c.nparts = 21 ∧ c.partBytes 0 = (0, 2 ^ 20) ∧ c.partBytes 14 = (0x41C00000 - 0x40100000, 0x41E00000 - 0x40100000) ∧
      c.partBytes 20 = (0x42800000 - 0x40100000, 0x42900000 - 0x40100000) := by decide +kernel
/-- 12 R446: the mean time after a failure 3,600 s after the previous one, and the intervals before and after. -/
theorem test_interval : mtbfNext 10800 3 (3600 * 1050000000) = 9900 ∧ ckSqrt 40 (2 * 900 * 10800000) 0 = 139427 ∧
    ckSqrt 40 (2 * 900 * 9900000) 0 = 133491 := by decide +kernel
/-- 15: the two addresses of the register index's example name registers. -/
theorem test_register_addresses : occupied 0x01B50228 = true ∧ occupied 0x00A108A8 = true ∧ occupied 0x00A108AC = false := by decide +kernel

/-! What `decide` alone does not find in the witnesses. -/

/-- HostReturns: no partition of the device checkpoints. -/
theorem witness_HostReturns_ckpt (p : Nat) : (Wi.s8.part p).ckpt = none := by
  have k : Wi.s8.part p = if p = 15 then wPartM else {} := by
    show tgetD [(15, wPartM)] p {} = _
    simp only [tgetD, tget]
    split <;> simp_all [eq_comm]
  rw [k]
  split <;> rfl
/-- PowerAndThermalLoops: the DRAM dies are cool. -/
theorem witness_PowerAndThermalLoops_dram (i : Nat) (_ : 192 ≤ i) (h : i < 224) : Wj.s27.plat.t i ≤ 704 := by
  have k : ∀ i < 224, Wj.s27.plat.t i ≤ 704 ∨ i < 192 := by decide +kernel
  rcases k i h with k | k
  · exact k
  · omega
/-- StepKeepsVersionsAndQueue: a state with a command in its queue, from which a step leads on. -/
theorem witness_StepKeepsVersionsAndQueue_step : EpochsLegal Wj.s52 ∧ ∃ t, step Wj.s52 = .next t := ⟨by decide +kernel, _, rfl⟩

end Sys2Proof.Tests
end

section
/-! Byte stores read back (00 R6, 03 R78): a read of a range depends on the bytes of that range alone, and a read of a
written range takes the little-endian digits of the value. -/

namespace Sys2Proof

open Sys2Proof.Machine

/-- Two stores that agree on the bytes of a range read alike there. -/
theorem mread_congr {m m' : Mem} {b k : Nat} (h : ∀ j, b ≤ j → j < b + k → mget m j = mget m' j) :
    mread m b k = mread m' b k := by
  induction k generalizing b with
  | zero => rfl
  | succ k ih =>
    have hfirst : mget m b = mget m' b := h b (by omega) (by omega)
    have hrest : mread m (b + 1) k = mread m' (b + 1) k := ih fun j hlo hhi => h j (by omega) (by omega)
    rw [mread, mread, hfirst, hrest]

/-- A write leaves every read of a range apart from its own as it was. -/
theorem mread_mwrite_disjoint (m : Mem) (a n v b k : Nat) (h : b + k ≤ a ∨ a + n ≤ b) :
    mread (mwrite m a n v) b k = mread m b k :=
  mread_congr fun j hlo hhi => mget_mwrite_out m a n v j (by omega)

/-- A read of the range just written gives the value modulo its width. -/
theorem mread_mwrite_self (m : Mem) (a n v : Nat) : mread (mwrite m a n v) a n = v % 2 ^ (8 * n) := by
  induction n generalizing m a v with
  | zero => simp [mread, Nat.mod_one]
  | succ n ih =>
    have hfirst : mget (mwrite m a (n + 1) v) a = BitVec.ofNat 8 v := by
      rw [mwrite, mget_mwrite_out _ _ _ _ _ (by omega), mget_mput_self]
    have hrest : mread (mwrite m a (n + 1) v) (a + 1) n = v / 256 % 2 ^ (8 * n) := ih _ _ _
    calc mread (mwrite m a (n + 1) v) a (n + 1)
        = v % 256 + 256 * (v / 256 % 2 ^ (8 * n)) := by rw [mread, hfirst, hrest, BitVec.toNat_ofNat]
      _ = v % (256 * 2 ^ (8 * n)) := Nat.mod_mul.symm
      _ = v % 2 ^ (8 * (n + 1)) := by rw [Nat.mul_succ, Nat.pow_add, Nat.mul_comm]

/-- Settles O26: reads by the bytes they cover, the canonical form by its laws for each write. -/
theorem memoryReadsBack : Obligations.MemoryReadsBack := by
  unfold Obligations.MemoryReadsBack
  intro m a n v
  exact ⟨mread_mwrite_self m a n v, mget_mwrite_out m a n v, mread_mwrite_disjoint m a n v,
    fun hwf => ⟨mwrite_wf hwf a n v, mclear_wf hwf a n⟩⟩

end Sys2Proof
end

section
/-! x0, and the frame of an instruction that writes one register (03 R73, R76-R79): the core's new state is the old one with a
register written and another program counter. -/

namespace Sys2Proof.Machine

@[simp] theorem getX_zero (cs : CoreSt) : cs.getX 0 = 0 := rfl

@[simp] theorem setX_zero (cs : CoreSt) (v : W64) : cs.setX 0 v = cs := rfl

theorem getX_setX_self (cs : CoreSt) {r : Nat} (hr : r ≠ 0) (v : W64) : (cs.setX r v).getX r = v := by
  simp [CoreSt.getX, CoreSt.setX, hr]

theorem getX_setX_ne (cs : CoreSt) {q r : Nat} (hq : q ≠ r) (v : W64) : (cs.setX r v).getX q = cs.getX q := by
  by_cases hr : r = 0
  · rw [hr, setX_zero]
  · simp [CoreSt.getX, CoreSt.setX, hr, tgetD_tput_ne _ _ _ hq]

/-- A register write and a jump leave every field but the program counter and the register file as it was. -/
theorem setX_goto_frame (cs : CoreSt) (r : Nat) (v : W64) (pc : Nat) :
    { (cs.setX r v).goto pc with pc := cs.pc, x := cs.x, xPoison := cs.xPoison } = cs := by
  by_cases hr : r = 0
  · rw [hr]; rfl
  · simp [CoreSt.setX, CoreSt.goto, hr]

/-- A command whose whole effect is on register `rd` and the program counter of the core at `l`. -/
def OnlyWrites (s : State) (l : Loc) (i : Instr) (rd : Nat) : Prop :=
  ∃ t : State, exec i s = .next t ∧ { t with cores := s.cores } = s ∧ (∀ m : Loc, m.key ≠ l.key → t.core m = s.core m) ∧
    (∀ r, r ≠ rd → (t.core l).getX r = (s.core l).getX r) ∧
    { t.core l with pc := (s.core l).pc, x := (s.core l).x, xPoison := (s.core l).xPoison } = s.core l

/-- The one shape of these instructions' results gives the whole frame. -/
theorem onlyWrites_of_setX_goto {s : State} {l : Loc} {i : Instr} {rd pc : Nat} {v : W64}
    (h : exec i s = .next (s.setCore l (((s.core l).setX rd v).goto pc))) : OnlyWrites s l i rd := by
  refine ⟨_, h, rfl, fun m hm => s.core_setCore_ne _ hm, fun r hr => ?_, ?_⟩
  · rw [s.core_setCore]
    exact getX_setX_ne (s.core l) hr v
  · rw [s.core_setCore]
    exact setX_goto_frame (s.core l) rd v pc

theorem illegalFn_alu {w : FormR} (h : aluCode w.fn8.toNat = true) : illegalFn (w.w0 0x02) = false := by
  simp only [aluCode, Bool.or_eq_true, Bool.and_eq_true, decide_eq_true_eq, beq_iff_eq] at h
  simp only [illegalFn, FormR.op_w0 (by decide : 0x02 < 256), FormR.fn8_w0 (by decide : 0x02 < 256)]
  simp
  omega

theorem illegalFn_alui {w : FormI} (h : aluCode w.fn12.toNat = true) : illegalFn (w.w0 0x03) = false := by
  simp only [aluCode, Bool.or_eq_true, Bool.and_eq_true, decide_eq_true_eq, beq_iff_eq] at h
  simp only [illegalFn, FormI.op_w0 (by decide : 0x03 < 256), FormI.fn12_w0 (by decide : 0x03 < 256)]
  simp
  omega

/-- The opcodes of form I whose function code must be 0. -/
theorem illegalFn_formI_zero {w : FormI} {op : Nat} (hop : op = 0x04 ∨ op = 0x11 ∨ op = 0x18) (hfn : w.fn12 = 0) :
    illegalFn (w.w0 op) = false := by
  have hlt : op < 256 := by omega
  have hfn' : w.fn12.toNat = 0 := by rw [hfn]; rfl
  simp only [illegalFn, FormI.op_w0 hlt, FormI.fn12_w0 hlt, hfn']
  rcases hop with rfl | rfl | rfl <;> rfl

/-! What each instruction writes when its checks pass. -/

section
variable {s : State} {c : CoreId} {l : Loc} (hi : Issues s c l 8)
include hi

theorem exec_alu_setX {w : FormR} (hcode : aluCode w.fn8.toNat = true) (hd : w.d = 0) (hfmt : w.fmt = 0) (hrsv : w.rsv = 0)
    (hr : Readable (s.core l) [w.b.toNat, w.c.toNat]) (hw : Writable (s.core l) w.a.toNat) :
    exec (.alu c w) s = .next (s.setCore l (((s.core l).setX w.a.toNat
      (aluFn w.fn8.toNat ((s.core l).getX w.b.toNat) ((s.core l).getX w.c.toNat))).adv 8)) := by
  refine congrArg Host.Outcome.next (issue_eff8 hi ?_)
  rw [if_neg (Bool.eq_false_iff.mp hw), checked_act hr.1 (hazard_nil s l) _ hr.2]
  simp [firstErr, illegalFn_alu hcode, FormR.tailRsv, hd, hfmt, hrsv]

theorem exec_alui_setX {w : FormI} (hcode : aluCode w.fn12.toNat = true) (hr : Readable (s.core l) [w.b.toNat])
    (hw : Writable (s.core l) w.a.toNat) :
    exec (.alui c w) s = .next (s.setCore l (((s.core l).setX w.a.toNat
      (aluFn w.fn12.toNat ((s.core l).getX w.b.toNat) (w.imm.signExtend 64))).adv 8)) := by
  refine congrArg Host.Outcome.next (issue_eff8 hi ?_)
  rw [if_neg (Bool.eq_false_iff.mp hw), checked_act hr.1 (hazard_nil s l) _ hr.2]
  simp [firstErr, illegalFn_alui hcode]

theorem exec_lih_setX {w : FormI} (hfn : w.fn12 = 0) (hb : w.b = 0) (hr : Readable (s.core l) [w.a.toNat]) :
    exec (.lih c w) s = .next (s.setCore l (((s.core l).setX w.a.toNat
      (w64 (w.imm.toNat * 2 ^ 32 + fld ((s.core l).getX w.a.toNat) 0 32))).adv 8)) := by
  refine congrArg Host.Outcome.next (issue_eff8 hi ?_)
  rw [checked_act hr.1 (hazard_nil s l) _ hr.2]
  simp [firstErr, illegalFn_formI_zero (w := w) (op := 0x04) (by decide) hfn, hb]

theorem exec_jal_setX {w : FormI} (hfn : w.fn12 = 0) (hb : w.b = 0) (hw : Writable (s.core l) w.a.toNat) :
    exec (.jal c w) s = .next (s.setCore l (((s.core l).setX w.a.toNat (w64 ((s.core l).pc + 8))).goto
      (brTarget (s.core l).pc w.imm))) := by
  refine congrArg Host.Outcome.next (issue_eff8 hi ?_)
  rw [if_neg (Bool.eq_false_iff.mp hw), checked_act (pendingAny_nil _) (hazard_nil s l) _ (dataUe_nil _)]
  simp [firstErr, illegalFn_formI_zero (w := w) (op := 0x11) (by decide) hfn, hb]

theorem exec_srd_setX {w : FormI} {v : Nat} (hfn : w.fn12 = 0) (hb : w.b = 0) (hv : s.readSw l w.imm.toNat = some v)
    (hw : Writable (s.core l) w.a.toNat) :
    exec (.srd c w) s = .next (s.setCore l (((s.core l).setX w.a.toNat (w64 v)).adv 8)) := by
  refine congrArg Host.Outcome.next (issue_eff8 hi ?_)
  rw [if_neg (Bool.eq_false_iff.mp hw), checked_act (pendingAny_nil _) (hazard_nil s l) _ (dataUe_nil _), hv]
  · rfl
  · simp [firstErr, illegalFn_formI_zero (w := w) (op := 0x18) (by decide) hfn, hb, hv]

end

/-- Settles O59: each listed instruction answers its core with one register written and another program counter. -/
theorem registerFrames : Obligations.RegisterFrames := by
  unfold Obligations.RegisterFrames
  refine ⟨fun cs r v => ⟨getX_zero _, getX_zero _, fun hr => getX_setX_self cs hr v, fun q hq => getX_setX_ne cs hq v⟩,
    fun s c l hi => ⟨?alu, ?alui, ?lih, ?jal, ?srd⟩⟩
  case alu =>
    exact fun w hcode hd hfmt hrsv hr hw => onlyWrites_of_setX_goto (exec_alu_setX hi hcode hd hfmt hrsv hr hw)
  case alui => exact fun w hcode hr hw => onlyWrites_of_setX_goto (exec_alui_setX hi hcode hr hw)
  case lih => exact fun w hfn hb hr => onlyWrites_of_setX_goto (exec_lih_setX hi hfn hb hr)
  case jal => exact fun w hfn hb hw => onlyWrites_of_setX_goto (exec_jal_setX hi hfn hb hw)
  case srd =>
    intro w hfn hb himm hw
    have hv : s.readSw l w.imm.toNat = some s.now := by rw [himm]; rfl
    exact onlyWrites_of_setX_goto (exec_srd_setX hi hfn hb hv hw)

end Sys2Proof.Machine
end

section
/-! What a packet's taking leaves of the device (02 R44, 08 R285): it touches the mesh with its queues, the fabric ports and
their credit, and the list of admitted requests; whatever reads none of these reads on as before. -/

namespace Sys2Proof.Machine

/-- The device without its packets in transit. -/
def State.sansTransit (s : State) : State := { s with mesh := [], mq := [], ports := [], owes := [], passed := [] }

theorem State.serveMesh_sansTransit (s : State) (n : Nat) : (s.serveMesh n).sansTransit = s.sansTransit := by
  unfold State.serveMesh
  dsimp only
  split <;> rfl

theorem unloadGo_sansTransit (n : Nat) (k : Packet) (i : Nat) (s : State) :
    (unloadGo n k i s).sansTransit = s.sansTransit := by
  induction i generalizing s with
  | zero => rfl
  | succ i ih =>
    rw [unloadGo]
    split
    · rw [ih, State.serveMesh_sansTransit]
    · rfl

theorem State.unload_sansTransit (s : State) (k : Packet) : (s.unload k).sansTransit = s.sansTransit := by
  unfold State.unload
  split
  · exact unloadGo_sansTransit _ _ _ _
  · rfl

theorem State.payCredit_sansTransit (s : State) (k : Packet) : (s.payCredit k).sansTransit = s.sansTransit := by
  unfold State.payCredit
  split <;> rfl

theorem State.take_sansTransit (s : State) (k : Packet) : (s.take k).sansTransit = s.sansTransit :=
  (State.payCredit_sansTransit (s.unload k) k).trans (State.unload_sansTransit s k)

/-- What does not depend on the packets in transit is the same once a packet has been taken. -/
theorem take_reads {α : Type} (f : State → α) (hf : ∀ t, f t.sansTransit = f t) (s : State) (k : Packet) :
    f (s.take k) = f s := by
  rw [← hf (s.take k), State.take_sansTransit, hf]

/-- What does not depend on the poison that packets carry is the same once a packet has handed its own over. -/
theorem uncarry_reads {α : Type} (f : State → α) (hf : ∀ t m, f { t with meshPoison := m } = f t) (s : State) (k : Packet) :
    f (s.uncarry k) = f s := by
  unfold State.uncarry
  split
  · exact hf s _
  · rfl

section
variable (s : State) (k : Packet)

@[simp] theorem State.take_dram : (s.take k).dram = s.dram := take_reads State.dram (fun _ => rfl) s k
@[simp] theorem State.take_cstore : (s.take k).cstore = s.cstore := take_reads State.cstore (fun _ => rfl) s k
@[simp] theorem State.take_cores : (s.take k).cores = s.cores := take_reads State.cores (fun _ => rfl) s k
@[simp] theorem State.take_upsets : (s.take k).upsets = s.upsets := take_reads State.upsets (fun _ => rfl) s k
@[simp] theorem State.take_aggs : (s.take k).aggs = s.aggs := take_reads State.aggs (fun _ => rfl) s k
@[simp] theorem State.take_core (l : Loc) : (s.take k).core l = s.core l := take_reads (·.core l) (fun _ => rfl) s k
@[simp] theorem State.take_homeOf (p off : Nat) : (s.take k).homeOf p off = s.homeOf p off :=
  take_reads (·.homeOf p off) (fun _ => rfl) s k
@[simp] theorem State.take_carries (j : Packet) : (s.take k).carries j = s.carries j :=
  take_reads (·.carries j) (fun _ => rfl) s k
@[simp] theorem State.take_hread (h : Home) (n : Nat) : (s.take k).hread h n = s.hread h n :=
  take_reads (·.hread h n) (fun _ => rfl) s k
@[simp] theorem State.take_hpoison (h : Home) (n : Nat) : (s.take k).hpoison h n = s.hpoison h n :=
  take_reads (·.hpoison h n) (fun _ => rfl) s k
@[simp] theorem State.take_treeOf (v t : Nat) : (s.take k).treeOf v t = s.treeOf v t :=
  take_reads (·.treeOf v t) (fun _ => rfl) s k

@[simp] theorem State.uncarry_dram : (s.uncarry k).dram = s.dram := uncarry_reads State.dram (fun _ _ => rfl) s k
@[simp] theorem State.uncarry_cstore : (s.uncarry k).cstore = s.cstore := uncarry_reads State.cstore (fun _ _ => rfl) s k
@[simp] theorem State.uncarry_cores : (s.uncarry k).cores = s.cores := uncarry_reads State.cores (fun _ _ => rfl) s k
@[simp] theorem State.uncarry_upsets : (s.uncarry k).upsets = s.upsets := uncarry_reads State.upsets (fun _ _ => rfl) s k
@[simp] theorem State.uncarry_core (l : Loc) : (s.uncarry k).core l = s.core l := uncarry_reads (·.core l) (fun _ _ => rfl) s k
@[simp] theorem State.uncarry_hread (h : Home) (n : Nat) : (s.uncarry k).hread h n = s.hread h n :=
  uncarry_reads (·.hread h n) (fun _ _ => rfl) s k
@[simp] theorem State.uncarry_hpoison (h : Home) (n : Nat) : (s.uncarry k).hpoison h n = s.hpoison h n :=
  uncarry_reads (·.hpoison h n) (fun _ _ => rfl) s k

end

end Sys2Proof.Machine
end

section
/-! Requests at their target (02 R37-R58; 08 R309, R311): what `serve` answers when every check passes and when one refuses,
and what `perform` does of each type of request in memory, in a scratchpad, on a counter, and for a home on the host. -/

namespace Sys2Proof.Machine

section
variable {s : State} {k : Packet}

theorem ptype_of_reaches {n : Nat} (h : s.reaches k [n] = true) : k.ptype = n := by
  simp only [State.reaches, Bool.and_eq_true, List.contains_iff_mem, List.mem_singleton] at h
  exact h.1.1.1

/-- A request that is admitted and waits for nothing is taken and performed. -/
theorem serve_of_admitted {types : List Nat} (h : Admitted s k types) :
    s.serve k types = (s.take k).perform k k.dpart k.dctx := by
  obtain ⟨hreach, hnum, hadm, hwait⟩ := h
  simp [State.serve, hreach, hnum, hadm, hwait]

/-- A request that a check refuses is taken and refused. -/
theorem serve_of_refused {types : List Nat} (hreach : s.reaches k types = true) (hnum : s.unnumbered k = false)
    (hadm : s.admitted k k.dpart k.dctx = false) : s.serve k types = ((s.take k).uncarry k).refuse k := by
  simp [State.serve, hreach, hnum, hadm]

theorem exec_rldRequest : exec (.rldRequest k) s = .next (s.serve k [1]) := rfl

theorem exec_rstRequest (hport : k.isPort = false) (hext : k.ext = false) :
    exec (.rstRequest k) s = .next (s.serve k [2]) :=
  congrArg Host.Outcome.next (by simp [hport, hext])

theorem exec_postedAtomicRequest : exec (.postedAtomicRequest k) s = .next (s.serve k [3]) := rfl

theorem exec_fetchAddRequest (hport : k.isPort = false) : exec (.fetchAddRequest k) s = .next (s.serve k [4]) :=
  congrArg Host.Outcome.next (by simp [hport])

theorem exec_casRequest : exec (.casRequest k) s = .next (s.serve k [5]) := rfl

/-! The answer to each type of request (02 R52: the notify counter first). -/

theorem performed_load (ht : k.ptype = 1) (old : Nat) (pz : Bool) :
    s.performed k old pz = (s.notify k).answer k 0x9 (if pz then cPOISON else 0) (k.size / 8) old := by
  simp [State.performed, ht]

theorem performed_posted (ht : k.ptype = 2 ∨ k.ptype = 3) (old : Nat) (pz : Bool) :
    s.performed k old pz = (s.notify k).answer k 0x8 0 0 0 := by
  rcases ht with ht | ht <;> simp [State.performed, ht]

theorem performed_fetchAdd (ht : k.ptype = 4) (old : Nat) (pz : Bool) :
    s.performed k old pz = (s.notify k).answer k 0x9 0 1 old := by
  simp [State.performed, ht]

theorem performed_cas (ht : k.ptype = 5) (old : Nat) (pz : Bool) :
    s.performed k old pz = (s.notify k).answer k 0x9 0 (k.size / 8) old := by
  simp [State.performed, ht]

/-! The bytes a request covers, and the value an atomic leaves (02 R43, 08 R312). -/

theorem span_eq_size (ht : k.ptype = 1 ∨ k.ptype = 2 ∨ k.ptype = 5) : k.span = k.size := by
  rcases ht with ht | ht | ht <;> simp [Packet.span, ht]

theorem span_eq_atomBytes (ht : k.ptype = 3 ∨ k.ptype = 4) : k.span = atomBytes k.atype := by
  rcases ht with ht | ht <;> simp [Packet.span, ht]

theorem operands_eq : k.operands =
    if k.comb = true ∧ 2 ≤ k.atype then splitN 64 (k.size / 8) k.data else [k.data % 2 ^ 64] := by
  simp [Packet.operands]

theorem newValue_posted (ht : k.ptype = 3) (old : Nat) :
    k.newValue old = k.operands.foldl (fun v x => atomFn k.aop k.atype v x) old := by
  simp [Packet.newValue, ht]

theorem newValue_fetchAdd (ht : k.ptype = 4) (old : Nat) :
    k.newValue old = k.operands.foldl (fun v x => atomFn 0 k.atype v x) old := by
  simp [Packet.newValue, ht]

theorem newValue_cas (ht : k.ptype = 5) (old : Nat) :
    k.newValue old = if old = k.data % 2 ^ (8 * k.size) then k.data / 2 ^ (8 * k.size) % 2 ^ (8 * k.size) else old := by
  simp [Packet.newValue, ht, bits, Nat.shiftRight_eq_div_pow]

/-! In memory on the device. -/

section
variable {p c a : Nat} {b : Bool} (hsp : k.space = 0) (hh : s.homeOf p k.offset = some (.mem b a))
include hsp hh

theorem perform_mem_store (ht : k.ptype = 2) : s.perform k p c =
    (let t := ((s.uncarry k).hwrite (.mem b a) k.span k.data).noteWrite p k.offset
     (if s.carries k then t.hmark (.mem b a) k.span else t).performed k 0 false) := by
  simp [State.perform, State.performHere, hsp, hh, ht]

variable (hu : s.upsets = [])
include hu

theorem perform_mem_load (ht : k.ptype = 1) : s.perform k p c =
    (s.uncarry k).performed k (s.hread (.mem b a) k.span) (s.hpoison (.mem b a) k.span) := by
  simp [State.perform, State.performHere, State.eccHome, hsp, hh, hu, ht]

theorem perform_mem_atomic (ht : k.ptype = 3 ∨ k.ptype = 4 ∨ k.ptype = 5) : s.perform k p c =
    if s.hpoison (.mem b a) k.span then (s.uncarry k).answer k 0xA cPOISON 0 0
    else (((s.uncarry k).hwrite (.mem b a) k.span (k.newValue (s.hread (.mem b a) k.span))).noteWrite p k.offset).performed k
      (s.hread (.mem b a) k.span) false := by
  by_cases hpz : s.hpoison (.mem b a) k.span = true
  · rcases ht with ht | ht | ht <;> simp [State.perform, State.performHere, State.eccHome, hsp, hh, hu, ht, hpz]
  · rcases ht with ht | ht | ht <;> simp [State.perform, State.performHere, State.eccHome, hsp, hh, hu, ht, hpz]

end

/-- A home on the host: the request goes there (11 R398). -/
theorem perform_host {p c a : Nat} (hsp : k.space = 0) (hh : s.homeOf p k.offset = some (.host a)) (hc : s.carries k = false) :
    s.perform k p c = (if k.writes then s.noteWrite p k.offset else s).hostAsk
      (if k.ptype = 1 then 0 else if k.ptype = 2 ∨ k.ptype = 6 then 1 else 2) a k.span k.data (.tier3 k) := by
  simp [State.perform, State.performHere, hsp, hh, hc]

/-! In a scratchpad. -/

section
variable {p c : Nat} (hsp : k.space = 1)
include hsp

theorem perform_spad_load (ht : k.ptype = 1) : s.perform k p c =
    (s.uncarry k).performed k (mread (s.core (offLoc p c k.offset)).spad (k.offset % 2 ^ 18) k.span)
      ((s.core (offLoc p c k.offset)).poisonIn (k.offset % 2 ^ 18) k.span).isSome := by
  simp [State.perform, State.performHere, hsp, ht]

theorem perform_spad_store (ht : k.ptype = 2) (hc : s.carries k = false) : s.perform k p c =
    ((s.uncarry k).spadWrite (offLoc p c k.offset) (k.offset % 2 ^ 18) k.span k.data).performed k 0 false := by
  simp [State.perform, State.performHere, hsp, ht, hc]

theorem perform_spad_atomic (ht : k.ptype = 3 ∨ k.ptype = 4 ∨ k.ptype = 5)
    (hclean : (s.core (offLoc p c k.offset)).poisonIn (k.offset % 2 ^ 18) k.span = none) : s.perform k p c =
    ((s.uncarry k).spadWrite (offLoc p c k.offset) (k.offset % 2 ^ 18) k.span
      (k.newValue (mread (s.core (offLoc p c k.offset)).spad (k.offset % 2 ^ 18) k.span))).performed k
        (mread (s.core (offLoc p c k.offset)).spad (k.offset % 2 ^ 18) k.span) false := by
  rcases ht with ht | ht | ht <;> simp [-Nat.reducePow, State.perform, State.performHere, hsp, ht, hclean]

end

/-- On a counter. -/
theorem perform_counter {p c : Nat} (hsp : k.space = 2) : s.perform k p c =
    ((s.uncarry k).addCounter (offLoc p c k.offset) (k.offset % 64) (BitVec.ofNat 32 k.data)).performed k
      ((s.core (offLoc p c k.offset)).getCnt (k.offset % 64)).toNat false := by
  simp [State.perform, State.performHere, hsp]

end

end Sys2Proof.Machine
end

section
/-! Requests performed in memory and at the host (02 R43, R44; 08 R285, R312; 11 R398), and the integer atomics (02 R43). -/

namespace Sys2Proof.Machine

/-- 08 R312, 11 R398: each type of request on memory, at each home. -/
theorem requestsInMemory_clauses : Claims.RequestsInMemory := by
  intro s k hsp hport hext s0 xs ab
  have hfetch := exec_fetchAddRequest (s := s) hport
  have hstore := exec_rstRequest (s := s) hport hext
  refine ⟨fun b a hh hu => ?mem, fun a hh hc => ?host⟩
  case mem =>
    have hh' : (s.take k).homeOf k.dpart k.offset = some (.mem b a) := by rw [State.take_homeOf, hh]
    have hu' : (s.take k).upsets = [] := by rw [State.take_upsets, hu]
    refine ⟨fun h => ?load, fun h => ?store, fun h => ?posted, fun h => ?fetchAdd, fun h => ?cas⟩
    case load =>
      have ht := ptype_of_reaches h.1
      rw [exec_rldRequest, serve_of_admitted h, perform_mem_load hsp hh' hu' ht, performed_load ht, span_eq_size (.inl ht),
        State.take_hread, State.take_hpoison]
    case store =>
      have ht := ptype_of_reaches h.1
      rw [hstore, serve_of_admitted h, perform_mem_store hsp hh' ht, performed_posted (.inl ht),
        span_eq_size (.inr (.inl ht)), State.take_carries]
    case posted =>
      have ht := ptype_of_reaches h.1
      rw [exec_postedAtomicRequest, serve_of_admitted h, perform_mem_atomic hsp hh' hu' (.inl ht), performed_posted (.inr ht),
        newValue_posted ht, operands_eq, span_eq_atomBytes (.inl ht), State.take_hread, State.take_hpoison]
    case fetchAdd =>
      have ht := ptype_of_reaches h.1
      rw [hfetch, serve_of_admitted h, perform_mem_atomic hsp hh' hu' (.inr (.inl ht)), performed_fetchAdd ht,
        newValue_fetchAdd ht, operands_eq, span_eq_atomBytes (.inr ht), State.take_hread, State.take_hpoison]
    case cas =>
      have ht := ptype_of_reaches h.1
      rw [exec_casRequest, serve_of_admitted h, perform_mem_atomic hsp hh' hu' (.inr (.inr ht)), performed_cas ht,
        newValue_cas ht, span_eq_size (.inr (.inr ht)), State.take_hread, State.take_hpoison]
  case host =>
    have hh' : (s.take k).homeOf k.dpart k.offset = some (.host a) := by rw [State.take_homeOf, hh]
    have hc' : (s.take k).carries k = false := by rw [State.take_carries, hc]
    have hsend {types : List Nat} (h : Admitted s k types) :=
      (serve_of_admitted h).trans (perform_host hsp hh' hc')
    refine ⟨fun h => ?load, fun h => ?store, fun h => ?posted, fun h => ?fetchAdd, fun h => ?cas⟩
    case load =>
      have ht := ptype_of_reaches h.1
      rw [exec_rldRequest, hsend h, span_eq_size (.inl ht)]
      simp [Packet.writes, ht]
    case store =>
      have ht := ptype_of_reaches h.1
      rw [hstore, hsend h, span_eq_size (.inr (.inl ht))]
      simp [Packet.writes, ht]
    case posted =>
      have ht := ptype_of_reaches h.1
      rw [exec_postedAtomicRequest, hsend h, span_eq_atomBytes (.inl ht)]
      simp [Packet.writes, ht, ab]
    case fetchAdd =>
      have ht := ptype_of_reaches h.1
      rw [hfetch, hsend h, span_eq_atomBytes (.inr ht)]
      simp [Packet.writes, ht, ab]
    case cas =>
      have ht := ptype_of_reaches h.1
      rw [exec_casRequest, hsend h, span_eq_size (.inr (.inr ht))]
      simp [Packet.writes, ht]

theorem atomFn_add_int32 (old x : Nat) : atomFn 0 0 old x = (old + x) % 2 ^ 32 := rfl

theorem atomFn_add_int64 (old x : Nat) : atomFn 0 1 old x = (old + x) % 2 ^ 64 := rfl

/-- MIN on INT64 leaves the smaller of the two signed values. -/
theorem sgn_atomFn_min_int64 (old x : Nat) :
    sgn (atomFn 1 1 old x) 64 = min (sgn old 64) (sgn (x % 2 ^ 64) 64) := by
  have hdef : atomFn 1 1 old x = if sgn (x % 2 ^ 64) 64 < sgn old 64 then x % 2 ^ 64 else old := rfl
  rw [hdef]
  split
  · rw [min_eq_right (by omega)]
  · rw [min_eq_left (by omega)]

/-- MAX on INT64 leaves the larger of the two signed values. -/
theorem sgn_atomFn_max_int64 (old x : Nat) :
    sgn (atomFn 2 1 old x) 64 = max (sgn old 64) (sgn (x % 2 ^ 64) 64) := by
  have hdef : atomFn 2 1 old x = if sgn old 64 < sgn (x % 2 ^ 64) 64 then x % 2 ^ 64 else old := rfl
  rw [hdef]
  split
  · rw [max_eq_right (by omega)]
  · rw [max_eq_left (by omega)]

/-- Settles O29: the clauses by type of request and home, and the integer atomics by their definition. -/
theorem requestsInMemory : Obligations.RequestsInMemory :=
  ⟨requestsInMemory_clauses, fun old x _ =>
    ⟨atomFn_add_int64 old x, atomFn_add_int32 old x, sgn_atomFn_min_int64 old x, sgn_atomFn_max_int64 old x⟩⟩

end Sys2Proof.Machine
end

section
/-! What a remote store leaves of the core it reaches (02 R41, R52), and what counting an event leaves of memory (12 R422). -/

namespace Sys2Proof.Machine

@[simp] theorem CoreSt.setArr_spad (cs : CoreSt) (i : Nat) (ar : ArrSt) : (cs.setArr i ar).spad = cs.spad := by
  unfold CoreSt.setArr
  split <;> rfl

@[simp] theorem CoreSt.setArr_x (cs : CoreSt) (i : Nat) (ar : ArrSt) : (cs.setArr i ar).x = cs.x := by
  unfold CoreSt.setArr
  split <;> rfl

@[simp] theorem CoreSt.refill_spad (cs : CoreSt) (a n : Nat) : (cs.refill a n).spad = cs.spad := by
  simp [CoreSt.refill, List.range_succ]

@[simp] theorem CoreSt.refill_x (cs : CoreSt) (a n : Nat) : (cs.refill a n).x = cs.x := by
  simp [CoreSt.refill, List.range_succ]

/-- A write that stays below the scratchpad's end does not wrap. -/
theorem swrite_eq_mwrite (m : Mem) {a n : Nat} (h : a + n ≤ 2 ^ 18) (v : Nat) : swrite m a n v = mwrite m a n v := by
  induction n generalizing m a v with
  | zero => rfl
  | succ n ih =>
    have ha : a % spadSize = a := Nat.mod_eq_of_lt (by simp only [spadSize]; omega)
    rw [swrite, mwrite, ha, ih _ (by omega)]

@[simp] theorem CoreSt.take_spad (cs : CoreSt) (a n v : Nat) : (cs.take a n v).spad = swrite cs.spad a n v :=
  CoreSt.refill_spad _ a n

@[simp] theorem CoreSt.take_x (cs : CoreSt) (a n v : Nat) : (cs.take a n v).x = cs.x := CoreSt.refill_x _ a n

/-- A counter's arrival changes neither the scratchpad nor the registers of any core. -/
theorem State.addCounter_spad_x (s : State) (l m : Loc) (i : Nat) (v : W32) :
    ((s.addCounter m i v).core l).spad = (s.core l).spad ∧ ((s.addCounter m i v).core l).x = (s.core l).x := by
  have hwake (cs : CoreSt) : cs.wakeWait.spad = cs.spad ∧ cs.wakeWait.x = cs.x := by
    unfold CoreSt.wakeWait
    split
    · split <;> exact ⟨rfl, rfl⟩
    · exact ⟨rfl, rfl⟩
  by_cases hl : l.key = m.key
  · have hcore (t : State) : t.core l = t.core m := by rw [State.core, State.core, hl]
    rw [hcore, hcore, State.addCounter, State.core_setCore]
    exact hwake _
  · rw [State.addCounter, State.core_setCore_ne _ _ hl]
    exact ⟨rfl, rfl⟩

theorem State.notify_spad_x (s : State) (k : Packet) (l : Loc) :
    ((s.notify k).core l).spad = (s.core l).spad ∧ ((s.notify k).core l).x = (s.core l).x := by
  unfold State.notify
  split
  · exact State.addCounter_spad_x s l _ _ _
  · exact ⟨rfl, rfl⟩

@[simp] theorem State.notify_dram (s : State) (k : Packet) : (s.notify k).dram = s.dram := by
  unfold State.notify
  split <;> rfl

@[simp] theorem State.notify_cstore (s : State) (k : Packet) : (s.notify k).cstore = s.cstore := by
  unfold State.notify
  split <;> rfl

/-- A store to a scratchpad that does not wrap: its bytes at the core it names, no other memory, no register. -/
theorem spadStore_notify_frame (s : State) (k : Packet) (l : Loc) {a n : Nat} (h : a + n ≤ 2 ^ 18) (v : Nat) :
    let t := (s.spadWrite l a n v).notify k
    t.dram = s.dram ∧ t.cstore = s.cstore ∧ (t.core l).spad = mwrite (s.core l).spad a n v ∧ (t.core l).x = (s.core l).x := by
  obtain ⟨hspad, hx⟩ := State.notify_spad_x (s.spadWrite l a n v) k l
  refine ⟨State.notify_dram _ k, State.notify_cstore _ k, ?_, ?_⟩
  · rw [hspad, State.spadWrite, State.core_setCore, CoreSt.take_spad, swrite_eq_mwrite _ h]
  · rw [hx, State.spadWrite, State.core_setCore, CoreSt.take_x]

/-- Counting an event touches the counters and the log's queue alone. -/
theorem logEvent_eq_counters (s : State) (e : Event) : ∃ c q, s.logEvent e = { s with ctr := c, bltq := q } := by
  unfold State.logEvent
  split
  · exact ⟨_, _, rfl⟩
  · split <;> exact ⟨_, _, rfl⟩

theorem count_eq_counters (s : State) (code : Nat) : ∃ c q, s.count code = { s with ctr := c, bltq := q } := by
  unfold State.count State.countAt
  split
  · dsimp only
    split
    · exact ⟨_, _, rfl⟩
    · obtain ⟨c, q, h⟩ := logEvent_eq_counters (((s.rawCount (cntOff code) 1)).rawCount (cntOff 0x0810) 1)
        ((s.rawCount (cntOff code) 1).event 0x0810 5 0 0 (cntOff code) code 0)
      exact ⟨c, q, h⟩
  · exact ⟨_, _, rfl⟩

theorem count_memory (s : State) (code : Nat) :
    (s.count code).dram = s.dram ∧ (s.count code).cstore = s.cstore ∧ (s.count code).cores = s.cores := by
  obtain ⟨c, q, h⟩ := count_eq_counters s code
  rw [h]
  exact ⟨rfl, rfl, rfl⟩

end Sys2Proof.Machine
end

section
/-! Requests to scratchpads and counters (02 R37, R43, R51, R56), and requests that a check refuses (02 R57; 08 R309). -/

namespace Sys2Proof.Machine

/-- A request that holds no list of combined operands has one. -/
theorem operands_of_not_comb {k : Packet} (hcomb : k.comb = false) : k.operands = [k.data % 2 ^ 64] := by
  rw [operands_eq, if_neg (by simp [hcomb])]

/-- 02 R37, R43, R51, R56: each type of request on a scratchpad or a counter. -/
theorem requestsOnChip_clauses : Claims.RequestsOnChip := by
  intro s k hport hext s0 l a old ab clean
  have hfetch := exec_fetchAddRequest (s := s) hport
  have hstore := exec_rstRequest (s := s) hport hext
  refine ⟨fun hsp h => ?load, fun hsp h hc hfit => ?store, fun hsp h hcomb hclean => ?posted,
    fun hsp h hcomb hclean => ?fetchAdd, fun hsp h hclean => ?cas, fun hsp h => ?counterPosted, fun hsp h => ?counterFetch⟩
  case load =>
    have ht := ptype_of_reaches h.1
    rw [exec_rldRequest, serve_of_admitted h, perform_spad_load hsp ht, performed_load ht, span_eq_size (.inl ht),
      State.take_core]
  case store =>
    have ht := ptype_of_reaches h.1
    have hc' : (s.take k).carries k = false := by rw [State.take_carries, hc]
    obtain ⟨hdram, hcstore, hspad, hx⟩ := spadStore_notify_frame s0 k l hfit k.data
    have hcore : s0.core l = s.core l := by rw [State.uncarry_core, State.take_core]
    refine ⟨(s0.spadWrite l a k.size k.data).notify k, ?_, ?_, ?_, ?_, ?_⟩
    · rw [hstore, serve_of_admitted h, perform_spad_store hsp ht hc', performed_posted (.inl ht), span_eq_size (.inr (.inl ht))]
    · rw [hdram, State.uncarry_dram, State.take_dram]
    · rw [hcstore, State.uncarry_cstore, State.take_cstore]
    · rw [hspad, hcore]
    · rw [hx, hcore]
  case posted =>
    have ht := ptype_of_reaches h.1
    have hspan := span_eq_atomBytes (.inl ht)
    rw [exec_postedAtomicRequest, serve_of_admitted h,
      perform_spad_atomic hsp (.inl ht) (by rw [State.take_core, hspan]; exact hclean), performed_posted (.inr ht),
      newValue_posted ht, operands_of_not_comb hcomb, hspan, State.take_core]
    rfl
  case fetchAdd =>
    have ht := ptype_of_reaches h.1
    have hspan := span_eq_atomBytes (.inr ht)
    rw [hfetch, serve_of_admitted h,
      perform_spad_atomic hsp (.inr (.inl ht)) (by rw [State.take_core, hspan]; exact hclean), performed_fetchAdd ht,
      newValue_fetchAdd ht, operands_of_not_comb hcomb, hspan, State.take_core]
    rfl
  case cas =>
    have ht := ptype_of_reaches h.1
    have hspan := span_eq_size (.inr (.inr ht))
    rw [exec_casRequest, serve_of_admitted h,
      perform_spad_atomic hsp (.inr (.inr ht)) (by rw [State.take_core, hspan]; exact hclean), performed_cas ht, newValue_cas ht,
      hspan, State.take_core]
  case counterPosted =>
    rw [exec_postedAtomicRequest, serve_of_admitted h, perform_counter hsp, performed_posted (.inr (ptype_of_reaches h.1))]
  case counterFetch =>
    rw [hfetch, serve_of_admitted h, perform_counter hsp, performed_fetchAdd (ptype_of_reaches h.1), State.take_core]

/-- 02 R57, 08 R309, R323: the refusal is the same for every type, and memory stays. -/
theorem requestsRefused_clauses : Claims.RequestsRefused := by
  intro s k hreach hnum hadm hport hext t
  have hserve {n : Nat} (ht : k.ptype = n) : s.serve k [n] = t := serve_of_refused (ht ▸ hreach) hnum hadm
  obtain ⟨hdram, hcstore, hcores⟩ := count_memory ((s.take k).uncarry k) 0x0417
  refine ⟨fun ht => ?load, fun ht => ?store, fun ht => ?posted, fun ht => ?fetchAdd, fun ht => ?cas, ?dram, ?cstore, ?cores⟩
  case load => rw [exec_rldRequest, hserve ht]
  case store => rw [exec_rstRequest hport hext, hserve ht]
  case posted => rw [exec_postedAtomicRequest, hserve ht]
  case fetchAdd => rw [exec_fetchAddRequest hport, hserve ht]
  case cas => rw [exec_casRequest, hserve ht]
  case dram => exact hdram.trans (by rw [State.uncarry_dram, State.take_dram])
  case cstore => exact hcstore.trans (by rw [State.uncarry_cstore, State.take_cstore])
  case cores => exact hcores.trans (by rw [State.uncarry_cores, State.take_cores])

/-- Settles O30: the clauses by space and type, and the refusals by the one branch of `serve` that refuses. -/
theorem requestsOnChipOrRefused : Obligations.RequestsOnChipOrRefused := ⟨requestsOnChip_clauses, requestsRefused_clauses⟩

end Sys2Proof.Machine
end

section
/-! Responses at their source (02 R57, 03 R87, 08 R317) and multicast with its acknowledgements (08 R297-R299). -/

namespace Sys2Proof.Machine

section
variable {s : State} {k : Packet}

/-- A response that names an operation frees its slot, does what it means to the issuer, and a waiting operation is sent. -/
theorem response_of_answered {o : Op} (hnum : s.unnumbered k = false) (ha : s.answered k = some o)
    (hn : o.owner.isNotice = false) (act : State → Op → State) : s.response k act = (act (s.release_ k) o).sendWaiting := by
  simp [State.response, hnum, ha, hn]

/-- A response that names no operation is taken and counted. -/
theorem response_of_stale (hnum : s.unnumbered k = false) (ha : s.answered k = none) (act : State → Op → State) :
    s.response k act = (s.take k).count 0x041A := by
  simp [State.response, hnum, ha]

theorem exec_ackResponse (hreach : s.reaches k [8] = true) :
    exec (.ackResponse k) s = .next (s.response k (fun s o => s.succeed o 0 false false)) :=
  congrArg Host.Outcome.next (by simp [hreach])

theorem exec_nakResponse (hreach : s.reaches k [0xA] = true) :
    exec (.nakResponse k) s = .next (s.response k (fun s o => s.failOp o k.status)) :=
  congrArg Host.Outcome.next (by simp [hreach])

/-- Data for a core wait for no line of the host. -/
theorem respHeld_of_core {o : Op} {l : Loc} {pc : Nat} (ha : s.answered k = some o) (ho : o.owner = .core l pc) :
    s.respHeld k = none := by
  simp [State.respHeld, ha, ho]

theorem exec_dataResponse (hreach : s.reaches k [9] = true) (hheld : s.respHeld k = none) :
    exec (.dataResponse k) s = .next (s.response k (fun s o => s.succeed o k.data true (k.status == cPOISON))) :=
  congrArg Host.Outcome.next (by simp [hreach, hheld])

theorem succeed_core_done {o : Op} {l : Loc} {pc : Nat} (ho : o.owner = .core l pc) (hd : o.dest = .none) (t : State) (v : Nat)
    (pz : Bool) : t.succeed o v false pz = t.fenceCheck l := by
  simp [State.succeed, State.undeliver, ho, hd]

/-- Clean data reach their register, which no longer waits. -/
theorem succeed_core_reg {o : Op} {l : Loc} {pc x : Nat} (ho : o.owner = .core l pc) (hd : o.dest = .reg l x) (t : State)
    (v : Nat) : t.succeed o v true false =
      ((t.setCore l (({ t.core l with xPend := (t.core l).xPend.filter (· != x) } : CoreSt).setX x (w64 v))).undeliver
        (.reg l x)).fenceCheck l := by
  simp [State.succeed, State.deliver, ho, hd]

theorem failOp_core {o : Op} {l : Loc} {pc : Nat} (ho : o.owner = .core l pc) (hd : o.dest = .none) (t : State) (code : Nat) :
    t.failOp o code = ((t.countFail code).fenceCheck l).asyncFail l code (o.lnode + o.space * 2 ^ 16) o.off pc := by
  simp [State.failOp, State.undeliver, ho, hd]

end

/-- 02 R57, 03 R87, 08 R317: each type of response to an operation of a core, and stale ones. -/
theorem responses_clauses : Claims.Responses := by
  intro s k o l pc hnum ha ho s1
  have hn : o.owner.isNotice = false := by rw [ho]; rfl
  refine ⟨fun hreach hd => ?ack, fun x hreach hd hst => ?data, fun hreach hd => ?nak,
    fun k2 types ha2 hnum2 hreach2 => ?stale⟩
  case ack =>
    rw [exec_ackResponse hreach, response_of_answered hnum ha hn, succeed_core_done ho hd]
    rfl
  case data =>
    have hclean : (k.status == cPOISON) = false := by rw [hst]; rfl
    have hcore : (s.release_ k).core l = s.core l := State.take_core s k l
    rw [exec_dataResponse hreach (respHeld_of_core ha ho), response_of_answered hnum ha hn, hclean, succeed_core_reg ho hd, hcore]
    rfl
  case nak =>
    rw [exec_nakResponse hreach, response_of_answered hnum ha hn, failOp_core ho hd]
    rfl
  case stale =>
    refine ⟨fun hty => ?_, fun hty => ?_⟩
    · rw [exec_ackResponse (hty ▸ hreach2), response_of_stale hnum2 ha2]
    · rw [exec_nakResponse (hty ▸ hreach2), response_of_stale hnum2 ha2]

/-! Multicast. -/

/-- The ports of a tree entry's mask. -/
def treePorts (e : BitVec 128) : List Nat := (List.range 16).filter (fun i => bit (trMASK e) i)

/-- A router that has sent a multicast to the ports of its entry and waits for `n` answers. -/
def State.fannedOut (s : State) (k : Packet) (e : BitVec 128) (n : Nat) : State :=
  let t := (treePorts e).foldl (fun t i => t.enqueuePort i k.hop (s.inputOf k) none) (s.take k)
  { t with aggs := t.aggs ++ [{ ver := k.epoch, tree := k.tree, left := n, status := 0, pkt := k }] }

/-- A multicast that no check stops is sent to its entry's ports, with the local copy where the entry has one; an entry without
members answers at once. -/
theorem multicast_of_valid {s : State} {k : Packet} {e : BitVec 128} (he : s.treeOf k.epoch k.tree = e)
    (hmay : s.mayTake k = true) (hty : k.ptype = 6) (hbad : k.bad = false) (hnum : s.unnumbered k = false) (hver : (s.version k.epoch).st ≠ 0)
    (hvalid : trVALID e = true)
    (hown : k.snode = s.pnode → trROOT e = true ∧ (treePorts e = [] ∨ s.ruledOp k = false ∧ s.nodeValid = true))
    (hhops : k.hops + 1 < 64) (haggs : s.aggs.length < 4096) (hslots : s.slotsFull = false) :
    s.multicast k =
      if (treePorts e).length + b2n (trLOCAL e) = 0 then (s.take k).sendMack k e 0
      else
        let t := s.fannedOut k e ((treePorts e).length + b2n (trLOCAL e))
        if trLOCAL e then t.localCopy k e else t := by
  have hroot : ¬(k.snode == s.pnode && ((s.version k.epoch).st == 0 || !trVALID e || !trROOT e)) = true := by
    by_cases h : k.snode = s.pnode
    · simp [hver, hvalid, (hown h).1]
    · simp [h]
  have hsends (x : Bool) (hx : k.snode = s.pnode → treePorts e = [] ∨ x = false) :
      ¬(k.snode == s.pnode && !(treePorts e).isEmpty && x) = true := by
    by_cases h : k.snode = s.pnode
    · rcases hx h with hports | hx
      · simp [hports]
      · simp [hx]
    · simp [h]
  have hruled := hsends (s.ruledOp k) fun h => (hown h).2.imp_right And.left
  have hnode := hsends (!s.nodeValid) fun h => (hown h).2.imp_right fun hfree => by rw [hfree.2]; rfl
  rw [treePorts] at hruled hnode
  unfold State.multicast
  simp only [he]
  rw [if_neg (by simp [hmay, hty, hbad]), if_neg (by simp [hnum]), if_neg hroot, if_neg hruled, if_neg hnode,
    if_neg (by simp [hver]), if_neg (by simp [hvalid]), if_neg (by omega), if_neg (by simp [hslots, haggs])]
  rfl

/-- An answer that leaves others due is merged into its entry. -/
theorem aggMerge_others_due {s : State} {a : Agg} {m : Packet → Bool} (ha : s.aggs = [a]) (hm : m a.pkt = true)
    (hleft : 2 ≤ a.left) (status : Nat) :
    s.aggMerge m status = { s with aggs := [{ a with left := a.left - 1, status := mergeStatus a.status status }] } := by
  have hdue : a.left - 1 ≠ 0 := by omega
  simp [State.aggMerge, ha, hm, hdue]

/-- The last answer sends the merged MACK on. -/
theorem aggMerge_last {s : State} {a : Agg} {m : Packet → Bool} (ha : s.aggs = [a]) (hm : m a.pkt = true) (hleft : a.left = 1)
    (status : Nat) :
    s.aggMerge m status =
      ({ s with aggs := [] } : State).sendMack a.pkt (s.treeOf a.ver a.tree) (mergeStatus a.status status) := by
  simp [State.aggMerge, ha, hm, hleft]

/-- Whether a packet is the multicast that a MACK answers. -/
def answersTo (k j : Packet) : Bool := j.snode == k.dnode && j.slot == k.rslot && j.use == k.ruse

/-- A MACK from another node is merged at the router it reaches. -/
theorem exec_mackResponse {s : State} {k : Packet} (hty : k.ptype = 0xB) (hmay : s.mayTake k = true) (hbad : k.bad = false)
    (hsrc : k.snode ≠ s.pnode) (hnum : s.unnumbered k = false) :
    exec (.mackResponse k) s = .next ((s.take k).aggMerge (answersTo k) k.status) :=
  congrArg Host.Outcome.next (by simp [hty, hmay, hbad, hsrc, hnum]; rfl)

/-- 08 R297-R299: a multicast at a valid entry, and the answers to it. -/
theorem multicast_clauses : Claims.Multicast := by
  intro s k e
  refine ⟨?fanOut, ?answers⟩
  case fanOut =>
    intro hmay hty hbad hnum hver hvalid ports n hown hhops haggs hslots t1 t
    have hall := multicast_of_valid rfl hmay hty hbad hnum hver hvalid hown hhops haggs hslots
    refine ⟨fun hn => congrArg Host.Outcome.next ?_, fun hn => congrArg Host.Outcome.next ?_⟩
    · exact hall.trans (if_neg hn)
    · exact hall.trans (if_pos hn)
  case answers =>
    intro a hty hmay hbad hsrc hnum haggs hnode hslot huse
    have ha : (s.take k).aggs = [a] := by rw [State.take_aggs, haggs]
    have hm : answersTo k a.pkt = true := by simp [answersTo, hnode, hslot, huse]
    refine ⟨fun hleft => ?_, fun hleft => ?_⟩
    · rw [exec_mackResponse hty hmay hbad hsrc hnum, aggMerge_others_due ha hm hleft]
    · rw [exec_mackResponse hty hmay hbad hsrc hnum, aggMerge_last ha hm hleft, State.take_treeOf]

/-- Settles O32: responses by the operation they name, multicast by its entry's checks and the merging of answers. -/
theorem responsesAndMulticast : Obligations.ResponsesAndMulticast := ⟨responses_clauses, multicast_clauses⟩

end Sys2Proof.Machine
end

section
/-! Instructions that fail a check or raise an exception by themselves, and the function codes that each opcode accepts
(03 R71, R74, R96, R97). -/

namespace Sys2Proof.Machine

theorem issue_exc {s : State} {c : CoreId} {l : Loc} {n : Nat} {ext : Bool} (h : Issues s c l n)
    (hn : n = if ext then 16 else 8) {w0 code e0 e1 : Nat} {body : Loc → CoreSt → Iss}
    (hb : body l (s.core l) = .exc code e0 e1) : s.issue c w0 ext body = s.syncExc l code e0 e1 w0 := by
  rw [issue_eq h hn, hb]

theorem issue_exc8 {s : State} {c : CoreId} {l : Loc} (h : Issues s c l 8) {w0 code e0 e1 : Nat}
    {body : Loc → CoreSt → Iss} (hb : body l (s.core l) = .exc code e0 e1) :
    s.issue c w0 false body = s.syncExc l code e0 e1 w0 :=
  issue_exc h rfl hb

/-! Function codes. -/

/-- The opcodes of form I whose only function code is 0. -/
theorem illegalFn_formI_fn12_zero {w : FormI} {op : Nat}
    (hop : op ∈ [0x04, 0x11, 0x12, 0x18, 0x19, 0x1C, 0x20, 0x21, 0x22, 0x23]) (hfn : w.fn12 = 0) :
    illegalFn (w.w0 op) = false := by
  have hlt : op < 256 := by simp only [List.mem_cons, List.not_mem_nil, or_false] at hop; omega
  have hfn' : w.fn12.toNat = 0 := by rw [hfn]; rfl
  simp only [illegalFn, FormI.op_w0 hlt, FormI.fn12_w0 hlt, hfn']
  fin_cases hop <;> rfl

theorem firstErr_formI {w : FormI} {op : Nat}
    (hop : op ∈ [0x04, 0x11, 0x12, 0x18, 0x19, 0x1C, 0x20, 0x21, 0x22, 0x23]) (hfn : w.fn12 = 0) :
    firstErr [(illegalFn (w.w0 op), cILLEGAL)] = none := by
  rw [firstErr, illegalFn_formI_fn12_zero hop hfn]
  rfl

/-- The opcodes of form R, short and long, that have a function code 0. -/
theorem illegalFn_formR_fn8_zero {w : FormR} {op : Nat}
    (hop : op ∈ [0x01, 0x1A, 0x1B, 0x1D, 0x28, 0x29, 0x80, 0x81, 0x83, 0x84, 0x85, 0xA0]) (hfn : w.fn8 = 0) :
    illegalFn (w.w0 op) = false := by
  have hlt : op < 256 := by simp only [List.mem_cons, List.not_mem_nil, or_false] at hop; omega
  have hfn' : w.fn8.toNat = 0 := by rw [hfn]; rfl
  simp only [illegalFn, FormR.op_w0 hlt, FormR.fn8_w0 hlt, hfn']
  fin_cases hop <;> rfl

theorem illegalFn_ratom {w : FormR} (hfn : w.fn8.toNat ≤ 2) : illegalFn (w.w0 0x82) = false := by
  simpa [illegalFn, FormR.op_w0 (by decide : 0x82 < 256), FormR.fn8_w0 (by decide : 0x82 < 256)] using hfn

theorem illegalFn_tdma {w : FormR} (hfn : w.fn8.toNat ≤ 1) : illegalFn (w.w0 0x88) = false := by
  simpa [illegalFn, FormR.op_w0 (by decide : 0x88 < 256), FormR.fn8_w0 (by decide : 0x88 < 256)] using hfn

theorem illegalFn_ld {w : FormI} (hfn : w.fn12.toNat < 8) : illegalFn (w.w0 0x08) = false := by
  simpa [illegalFn, FormI.op_w0 (by decide : 0x08 < 256), FormI.fn12_w0 (by decide : 0x08 < 256)] using hfn

theorem illegalFn_st {w : FormI} (hfn : w.fn12.toNat < 4) : illegalFn (w.w0 0x09) = false := by
  simpa [illegalFn, FormI.op_w0 (by decide : 0x09 < 256), FormI.fn12_w0 (by decide : 0x09 < 256)] using hfn

theorem illegalFn_alu_of_unassigned {w : FormR} (h : aluCode w.fn8.toNat = false) : illegalFn (w.w0 0x02) = true := by
  simp only [aluCode, Bool.or_eq_false_iff, Bool.and_eq_false_iff, decide_eq_false_iff_not, beq_eq_false_iff_ne] at h
  simp only [illegalFn, FormR.op_w0 (by decide : 0x02 < 256), FormR.fn8_w0 (by decide : 0x02 < 256)]
  simp
  omega

theorem illegalFn_alui_of_unassigned {w : FormI} (h : aluCode w.fn12.toNat = false) : illegalFn (w.w0 0x03) = true := by
  simp only [aluCode, Bool.or_eq_false_iff, Bool.and_eq_false_iff, decide_eq_false_iff_not, beq_eq_false_iff_ne] at h
  simp only [illegalFn, FormI.op_w0 (by decide : 0x03 < 256), FormI.fn12_w0 (by decide : 0x03 < 256)]
  simp
  omega

end Sys2Proof.Machine
end

section
/-! The ALU's table in integers (03 R76). -/

namespace Sys2Proof.Machine

/-- An integer wrapped to 64 bits is its residue class. -/
theorem w64_wrap (z : Int) : w64 (wrap z 64) = BitVec.ofInt 64 z := by
  apply BitVec.eq_of_toNat_eq
  simp [w64, wrap]
  omega

section
variable (a b : W64)

theorem add_eq_ofInt : a + b = BitVec.ofInt 64 (a.toInt + b.toInt) := by
  rw [BitVec.ofInt_add, BitVec.ofInt_toInt, BitVec.ofInt_toInt]

theorem sub_eq_ofInt : a - b = BitVec.ofInt 64 (a.toInt - b.toInt) := by
  rw [Int.sub_eq_add_neg, BitVec.ofInt_add, BitVec.ofInt_neg, BitVec.ofInt_toInt, BitVec.ofInt_toInt, BitVec.sub_eq_add_neg]

theorem mul_eq_ofInt : a * b = BitVec.ofInt 64 (a.toInt * b.toInt) := by
  rw [BitVec.ofInt_mul, BitVec.ofInt_toInt, BitVec.ofInt_toInt]

theorem shiftLeft_eq_ofInt (n : Nat) : a <<< n = BitVec.ofInt 64 (a.toInt * 2 ^ n) := by
  have hpow : BitVec.ofInt 64 (2 ^ n) = BitVec.twoPow 64 n := by
    apply BitVec.eq_of_toNat_eq
    rw [BitVec.toNat_twoPow, ← BitVec.toNat_ofNat, ← BitVec.ofInt_natCast, Nat.cast_pow, Nat.cast_ofNat]
  rw [BitVec.ofInt_mul, BitVec.ofInt_toInt, BitVec.shiftLeft_eq_mul_twoPow, hpow]

theorem ushiftRight_eq_ofInt (n : Nat) : a >>> n = BitVec.ofInt 64 (a.toNat / 2 ^ n : Nat) := by
  rw [BitVec.ofInt_natCast, ← Nat.shiftRight_eq_div_pow, ← BitVec.toNat_ushiftRight, BitVec.ofNat_toNat, BitVec.setWidth_eq]

theorem sshiftRight_eq_ofInt (n : Nat) : a.sshiftRight n = BitVec.ofInt 64 (a.toInt / 2 ^ n) := by
  rw [BitVec.sshiftRight, Int.shiftRight_eq_div_pow]
  norm_cast

theorem min_eq_ofInt : (if b.slt a then b else a) = BitVec.ofInt 64 (min a.toInt b.toInt) := by
  simp only [BitVec.slt_iff_toInt_lt]
  split
  · rw [min_eq_right (by omega), BitVec.ofInt_toInt]
  · rw [min_eq_left (by omega), BitVec.ofInt_toInt]

theorem max_eq_ofInt : (if a.slt b then b else a) = BitVec.ofInt 64 (max a.toInt b.toInt) := by
  simp only [BitVec.slt_iff_toInt_lt]
  split
  · rw [max_eq_right (by omega), BitVec.ofInt_toInt]
  · rw [max_eq_left (by omega), BitVec.ofInt_toInt]

theorem umin_eq_ofInt : (if b.ult a then b else a) = BitVec.ofInt 64 (min a.toNat b.toNat : Nat) := by
  simp only [BitVec.ult_iff_toNat_lt]
  split
  · rw [min_eq_right (by omega), BitVec.ofInt_natCast, BitVec.ofNat_toNat, BitVec.setWidth_eq]
  · rw [min_eq_left (by omega), BitVec.ofInt_natCast, BitVec.ofNat_toNat, BitVec.setWidth_eq]

theorem umax_eq_ofInt : (if a.ult b then b else a) = BitVec.ofInt 64 (max a.toNat b.toNat : Nat) := by
  simp only [BitVec.ult_iff_toNat_lt]
  split
  · rw [max_eq_right (by omega), BitVec.ofInt_natCast, BitVec.ofNat_toNat, BitVec.setWidth_eq]
  · rw [max_eq_left (by omega), BitVec.ofInt_natCast, BitVec.ofNat_toNat, BitVec.setWidth_eq]

end

/-- Each assigned code gives the table's result; the cases stand in the order of the codes. -/
theorem aluFn_eq_aluTable {code : Nat} (h : aluCode code = true) (a b : W64) : aluFn code a b = aluTable code a b := by
  have hcode : code ∈ [0x00, 0x01, 0x02, 0x03, 0x04, 0x05, 0x06, 0x07, 0x08, 0x09, 0x0A, 0x0B, 0x0C, 0x0D, 0x10, 0x11, 0x12,
      0x14, 0x15, 0x16, 0x17] := by
    simp only [aluCode, Bool.or_eq_true, Bool.and_eq_true, decide_eq_true_eq, beq_iff_eq] at h
    simp only [List.mem_cons, List.not_mem_nil, or_false]
    omega
  fin_cases hcode
  · exact add_eq_ofInt a b
  · exact sub_eq_ofInt a b
  · rfl
  · rfl
  · rfl
  · exact shiftLeft_eq_ofInt a (b.toNat % 2 ^ 6)
  · exact ushiftRight_eq_ofInt a (b.toNat % 2 ^ 6)
  · exact sshiftRight_eq_ofInt a (b.toNat % 2 ^ 6)
  · exact if_congr BitVec.slt_iff_toInt_lt rfl rfl
  · exact if_congr BitVec.ult_iff_toNat_lt rfl rfl
  · exact min_eq_ofInt a b
  · exact max_eq_ofInt a b
  · exact umin_eq_ofInt a b
  · exact umax_eq_ofInt a b
  · exact mul_eq_ofInt a b
  · exact w64_wrap _
  · exact (BitVec.ofInt_natCast 64 _).symm
  · exact if_congr Iff.rfl rfl (w64_wrap _)
  · exact if_congr Iff.rfl rfl (BitVec.ofInt_natCast 64 _).symm
  · exact if_congr Iff.rfl rfl (w64_wrap _)
  · exact if_congr Iff.rfl rfl (BitVec.ofInt_natCast 64 _).symm

end Sys2Proof.Machine
end

section
/-! Scalar arithmetic: what ALU, ALUI, LIH, NOP and IFENCE answer (03 R73, R76, R77, R80). -/

namespace Sys2Proof.Machine

section
variable {s : State} {c : CoreId} {l : Loc} (hi : Issues s c l 8)
include hi

theorem exec_alu_illegal {w : FormR} (hcode : aluCode w.fn8.toNat = false)
    (hp : (s.core l).pendingAny [w.b.toNat, w.c.toNat] = false) (hw : Writable (s.core l) w.a.toNat) :
    exec (.alu c w) s = .next (s.syncExc l 0x0101 0 0 (w.w0 0x02)) := by
  refine congrArg Host.Outcome.next (issue_exc8 hi ?_)
  rw [if_neg (Bool.eq_false_iff.mp hw)]
  exact checked_exc hp (hazard_nil s l) (by simp [firstErr, illegalFn_alu_of_unassigned hcode, cILLEGAL])

theorem exec_alui_illegal {w : FormI} (hcode : aluCode w.fn12.toNat = false)
    (hp : (s.core l).pendingAny [w.b.toNat] = false) (hw : Writable (s.core l) w.a.toNat) :
    exec (.alui c w) s = .next (s.syncExc l 0x0101 0 0 (w.w0 0x03)) := by
  refine congrArg Host.Outcome.next (issue_exc8 hi ?_)
  rw [if_neg (Bool.eq_false_iff.mp hw)]
  exact checked_exc hp (hazard_nil s l) (by simp [firstErr, illegalFn_alui_of_unassigned hcode, cILLEGAL])

end

/-- A form R instruction without fields passes its checks where its word has none set. -/
theorem firstErr_bare {op : Nat} (hop : op ∈ [0x01, 0x1A, 0x1B, 0x1D, 0x28, 0x29]) :
    firstErr (bareErrs op ⟨0, 0, 0, 0, 0, 0, 0⟩) = none := by
  fin_cases hop <;> decide

/-- 03 R76: the table's result, or CORE_ILLEGAL. -/
theorem scalarArithmetic_table : Claims.ScalarArithmeticFollowsTable := by
  intro s c l hi
  refine ⟨fun w hcode hd hfmt hrsv hr hw => ?alu, fun w hcode hr hw => ?alui,
    fun w hcode hp hw => exec_alu_illegal hi hcode hp hw, fun w hcode hp hw => exec_alui_illegal hi hcode hp hw⟩
  case alu => rw [exec_alu_setX hi hcode hd hfmt hrsv hr hw, aluFn_eq_aluTable hcode]
  case alui => rw [exec_alui_setX hi hcode hr hw, aluFn_eq_aluTable hcode]

/-- LIH's result: the immediate above the low half of the register. -/
theorem lih_value (imm : BitVec 32) (x : W64) :
    w64 (imm.toNat * 2 ^ 32 + fld x 0 32) = imm ++ x.extractLsb' 0 32 := by
  apply BitVec.eq_of_toNat_eq
  rw [BitVec.toNat_append, BitVec.extractLsb'_toNat, ← Nat.shiftLeft_add_eq_or_of_lt (Nat.mod_lt _ (by decide))]
  simp [w64, fld, bits, Nat.shiftLeft_eq]
  omega

/-- 03 R73, R77, R80: LIH's one register, and the two instructions that only go on. -/
theorem lihNopIfence_clauses : Claims.LihNopIfence := by
  intro s c l hi
  refine ⟨fun w hfn hb hr => ?lih, ?nop, ?ifence⟩
  case lih => rw [exec_lih_setX hi hfn hb hr, lih_value]
  case nop =>
    exact congrArg Host.Outcome.next (issue_eff8 hi
      (checked_act (pendingAny_nil _) (hazard_nil s l) (firstErr_bare (by decide)) (dataUe_nil _)))
  case ifence =>
    exact congrArg Host.Outcome.next (issue_eff8 hi
      (checked_act (pendingAny_nil _) (hazard_nil s l) (firstErr_bare (by decide)) (dataUe_nil _)))

/-- Settles O1: the assigned codes by the table of results in integers, the others by the check of the function code. -/
theorem scalarArithmetic : Obligations.ScalarArithmetic := ⟨scalarArithmetic_table, lihNopIfence_clauses⟩

end Sys2Proof.Machine
end

section
/-! Scratchpad accesses, branches and jumps (03 R78, R79). -/

namespace Sys2Proof.Machine

/-! Loads and stores. -/

theorem accSize_of_code {fn k : Nat} (hk : k < 4) (hfn : fn = k ∨ fn = k + 4) : accSize fn = 2 ^ k := by
  have hmod : fn % 4 = k := by omega
  rw [accSize, hmod]

/-- A field read as a two's complement number is the field sign-extended. -/
theorem w64_wrap_sgn (v n : Nat) : w64 (wrap (sgn v n) 64) = (BitVec.ofNat n v).signExtend 64 := by
  rw [w64_wrap, BitVec.signExtend, BitVec.toInt_eq_toNat_cond, BitVec.toNat_ofNat]
  rfl

/-- The value that LD gives: zero-extended for the codes below 4, sign-extended for the others. -/
theorem ldValue_of_code {fn k : Nat} (hk : k < 4) (hfn : fn = k ∨ fn = k + 4) (v : Nat) :
    ldValue fn v = if fn = k then w64 v else (BitVec.ofNat (8 * 2 ^ k) v).signExtend 64 := by
  rw [ldValue, accSize_of_code hk hfn]
  rcases hfn with rfl | rfl
  · have hbit : bit fn 2 = false := Nat.testBit_lt_two_pow hk
    rw [hbit, if_neg (by decide), if_pos rfl]
  · have hbit : bit (k + 4) 2 = true := by
      rw [bit, Nat.add_comm, Nat.testBit_two_pow_add_eq k 2, Nat.testBit_lt_two_pow hk]
      rfl
    rw [hbit, if_pos rfl, if_neg (by omega), w64_wrap_sgn]

section
variable {s : State} {c : CoreId} {l : Loc} (hi : Issues s c l 8)
include hi

theorem exec_ld_setX {w : FormI} {sz ad : Nat} (hfn : w.fn12.toNat < 8) (hsz : accSize w.fn12.toNat = sz)
    (had : accAddr ((s.core l).getX w.b.toNat) w.imm sz = ad) (hw : Writable (s.core l) w.a.toNat)
    (hr : Readable (s.core l) [w.b.toNat] [(ad, sz)]) (hh : s.hazard l [.now ad sz false] = false) :
    exec (.ld c w) s = .next (s.setCore l (((s.core l).setX w.a.toNat
      (ldValue w.fn12.toNat (sread (s.core l).spad ad sz))).adv 8)) := by
  subst hsz had
  refine congrArg Host.Outcome.next (issue_eff8 hi ?_)
  dsimp only
  rw [if_neg (Bool.eq_false_iff.mp hw), checked_act hr.1 hh _ hr.2]
  simp [firstErr, illegalFn_ld hfn]

theorem exec_st_swrite {w : FormI} {sz ad : Nat} (hfn : w.fn12.toNat < 4) (hsz : accSize w.fn12.toNat = sz)
    (had : accAddr ((s.core l).getX w.b.toNat) w.imm sz = ad) (hr : Readable (s.core l) [w.a.toNat, w.b.toNat])
    (hh : s.hazard l [.now ad sz true] = false) :
    exec (.st c w) s = .next (s.setCore l ((({ s.core l with
      spad := swrite (s.core l).spad ad sz ((s.core l).getX w.a.toNat).toNat } : CoreSt).unpoison ad sz).adv 8)) := by
  subst hsz had
  refine congrArg Host.Outcome.next (issue_eff8 hi ?_)
  dsimp only
  rw [checked_act hr.1 hh _ hr.2]
  simp [firstErr, illegalFn_st hfn]

end

/-- An address rounded down to a multiple of a power of two keeps its access below the scratchpad's end. -/
theorem roundDown_add_le {x k n : Nat} (hk : k ≤ n) : x % 2 ^ n / 2 ^ k * 2 ^ k + 2 ^ k ≤ 2 ^ n := by
  have hlt : x % 2 ^ n / 2 ^ k < 2 ^ (n - k) := by
    rw [Nat.div_lt_iff_lt_mul (by positivity), ← Nat.pow_add, Nat.sub_add_cancel hk]
    exact Nat.mod_lt _ (by positivity)
  calc x % 2 ^ n / 2 ^ k * 2 ^ k + 2 ^ k = (x % 2 ^ n / 2 ^ k + 1) * 2 ^ k := by rw [Nat.add_mul, Nat.one_mul]
    _ ≤ 2 ^ (n - k) * 2 ^ k := Nat.mul_le_mul_right _ hlt
    _ = 2 ^ n := by rw [← Nat.pow_add, Nat.sub_add_cancel hk]

/-- A write that does not wrap leaves every byte outside it as it was. -/
theorem mget_swrite_out (m : Mem) {a n j : Nat} (hfit : a + n ≤ 2 ^ 18) (v : Nat) (h : j < a ∨ a + n ≤ j) :
    mget (swrite m a n v) j = mget m j := by
  rw [swrite_eq_mwrite m hfit, mget_mwrite_out m a n v j h]

/-- Settles O2: the access size by the function code, the frame of ST by the rounded address, whose range does not wrap. -/
theorem loadsAndStores : Obligations.LoadsAndStores := by
  unfold Obligations.LoadsAndStores
  intro s c l w k hi hk cs a
  refine ⟨fun hfn hw hr hh => ?load, fun hfn hr hh => ?store⟩
  case load =>
    rw [exec_ld_setX (ad := a) hi (by omega) (accSize_of_code hk hfn) rfl hw hr hh, ldValue_of_code hk hfn]
  case store =>
    have hfit : a + 2 ^ k ≤ 2 ^ 18 := roundDown_add_le (by omega)
    refine ⟨_, exec_st_swrite hi (by omega) (accSize_of_code hk (.inl hfn)) rfl hr hh, rfl, rfl, fun j _ hj => ?_⟩
    exact mget_swrite_out cs.spad hfit _ hj

/-! Branches and jumps. -/

theorem not_slt_iff (a b : W64) : a.slt b = false ↔ b.toInt ≤ a.toInt := by
  rw [← Bool.not_eq_true, BitVec.slt_iff_toInt_lt, not_lt]

theorem not_ult_iff (a b : W64) : a.ult b = false ↔ b.toNat ≤ a.toNat := by
  rw [← Bool.not_eq_true, BitVec.ult_iff_toNat_lt, not_lt]

/-- The condition of BR, by the table. -/
theorem brHolds_iff_brTable {cond : Nat} (h : cond ≤ 5) (a b : W64) : brHolds cond a b = true ↔ brTable cond a b := by
  interval_cases cond
  · simp [brHolds, brTable]
  · simp [brHolds, brTable]
  · simp [brHolds, brTable, BitVec.slt_iff_toInt_lt]
  · simp [brHolds, brTable, not_slt_iff]
  · simp [brHolds, brTable, BitVec.ult_iff_toNat_lt]
  · simp [brHolds, brTable, not_ult_iff]

section
variable {s : State} {c : CoreId} {l : Loc} (hi : Issues s c l 8)
include hi

theorem exec_br_goto {w : FormB} (hd : w.d = 0) (hcond : w.cond.toNat ≤ 5) (hr : Readable (s.core l) [w.a.toNat, w.b.toNat]) :
    exec (.br c w) s = .next (s.setCore l
      (if brHolds w.cond.toNat ((s.core l).getX w.a.toNat) ((s.core l).getX w.b.toNat)
        then (s.core l).goto (brTarget (s.core l).pc w.off) else (s.core l).adv 8)) := by
  refine congrArg Host.Outcome.next (issue_eff8 hi ?_)
  exact checked_act hr.1 (hazard_nil s l) (by simp [firstErr, hd, hcond]) hr.2

theorem exec_jalr_goto {w : FormI} (hfn : w.fn12 = 0)
    (hal : immAdd ((s.core l).getX w.b.toNat) w.imm % spadSize % 8 = 0)
    (hw : Writable (s.core l) w.a.toNat) (hr : Readable (s.core l) [w.b.toNat]) :
    exec (.jalr c w) s = .next (s.setCore l (((s.core l).setX w.a.toNat (w64 ((s.core l).pc + 8))).goto
      (immAdd ((s.core l).getX w.b.toNat) w.imm % spadSize))) := by
  refine congrArg Host.Outcome.next (issue_eff8 hi ?_)
  dsimp only
  rw [if_neg (Bool.eq_false_iff.mp hw)]
  exact checked_act hr.1 (hazard_nil s l)
    (by simp [firstErr, illegalFn_formI_fn12_zero (w := w) (op := 0x12) (by decide) hfn, hal]) hr.2

theorem exec_jalr_misaligned {w : FormI} (hfn : w.fn12 = 0)
    (hal : immAdd ((s.core l).getX w.b.toNat) w.imm % spadSize % 8 ≠ 0)
    (hw : Writable (s.core l) w.a.toNat) (hp : (s.core l).pendingAny [w.b.toNat] = false) :
    exec (.jalr c w) s = .next (s.syncExc l 0x0105 0 0 (w.w0 0x12)) := by
  refine congrArg Host.Outcome.next (issue_exc8 hi ?_)
  dsimp only
  rw [if_neg (Bool.eq_false_iff.mp hw)]
  exact checked_exc hp (hazard_nil s l)
    (by simp [firstErr, illegalFn_formI_fn12_zero (w := w) (op := 0x12) (by decide) hfn, hal, cALIGN])

end

/-- A jump's target lies below the scratchpad's end already. -/
theorem goto_brTarget (cs : CoreSt) (pc : Nat) (off : BitVec 32) :
    cs.goto (brTarget pc off) = { cs with pc := (((pc : Int) + 8 * off.toInt) % 2 ^ 18).toNat } := by
  have hlt : brTarget pc off < spadSize := by
    simp only [brTarget, wrap, spadSize]
    omega
  rw [CoreSt.goto, Nat.mod_eq_of_lt hlt, brTarget, wrap]
  norm_cast

/-- Settles O3: a branch by its condition, jumps by their targets, and JALR's check of alignment. -/
theorem branchesAndJumps : Obligations.BranchesAndJumps := by
  unfold Obligations.BranchesAndJumps
  intro s c l hi cs
  refine ⟨fun w hd hcond hr => ⟨fun hholds => ?taken, fun hholds => ?untaken⟩, fun w hfn hb hw => ?jal,
    fun w hfn hw hr hal => ?jalr, fun w hfn hw hp hal => exec_jalr_misaligned hi hfn hal hw hp⟩
  case taken =>
    rw [exec_br_goto hi hd hcond hr, if_pos ((brHolds_iff_brTable hcond _ _).mpr hholds), goto_brTarget]
  case untaken =>
    rw [exec_br_goto hi hd hcond hr, if_neg (fun h => hholds ((brHolds_iff_brTable hcond _ _).mp h))]
    rfl
  case jal => rw [exec_jal_setX hi hfn hb hw, goto_brTarget]
  case jalr =>
    rw [exec_jalr_goto hi hfn hal hw hr, CoreSt.goto, Nat.mod_mod]
    rfl

end Sys2Proof.Machine
end

section
/-! State words (03 R75): the words that SRD reads, those that SWR writes with their bits, and every other index. -/

namespace Sys2Proof.Machine

/-- A field kept in its place is the word masked. -/
theorem w64_fld_eq_and (x : W64) (lo n : Nat) :
    w64 (fld x lo n * 2 ^ lo) = x &&& BitVec.ofNat 64 ((2 ^ n - 1) * 2 ^ lo) := by
  apply BitVec.eq_of_getLsbD_eq
  intro i hi
  simp only [w64, fld, bits, BitVec.getLsbD_and, BitVec.getLsbD_ofNat, hi, decide_true, Bool.true_and,
    Nat.testBit_mul_two_pow, Nat.testBit_mod_two_pow, Nat.testBit_shiftRight, Nat.testBit_two_pow_sub_one]
  by_cases hlo : lo ≤ i
  · simp [hlo, Bool.and_comm, BitVec.getLsbD]
  · simp [hlo]

/-- SW_ESTAT by its fields. -/
theorem estat_eq (cs : CoreSt) :
    estat cs = (if cs.inh then 1 else 0) + (if cs.asyncB then 2 else 0) + 4 * min cs.more 255 := by
  rw [estat, b2n, b2n, mul_ite, Nat.mul_one, Nat.mul_zero]

theorem readSw_unlisted (s : State) (l : Loc) {i : Nat}
    (h : i ∉ [0, 1, 2, 3, 4, 5, 6, 0x10, 0x11, 0x12, 0x13, 0x14, 0x15, 0x16, 0x17, 0x20]) : s.readSw l i = none := by
  unfold State.readSw
  split <;> simp_all

theorem writeSw_not_rw (cs : CoreSt) (v : W64) {i : Nat} (h : i ∉ [0x10, 0x11, 0x17, 0x20]) : cs.writeSw i v = none := by
  unfold CoreSt.writeSw
  split <;> simp_all

section
variable {s : State} {c : CoreId} {l : Loc} (hi : Issues s c l 8)
include hi

theorem exec_srd_unlisted {w : FormI} (hv : s.readSw l w.imm.toNat = none) (hw : Writable (s.core l) w.a.toNat) :
    exec (.srd c w) s = .next (s.syncExc l 0x0101 0 0 (w.w0 0x18)) := by
  refine congrArg Host.Outcome.next (issue_exc8 hi ?_)
  dsimp only
  rw [if_neg (Bool.eq_false_iff.mp hw)]
  exact checked_exc (pendingAny_nil _) (hazard_nil s l) (by simp [firstErr, hv, cILLEGAL])

theorem exec_swr_writeSw {w : FormI} {d : CoreSt} (hfn : w.fn12 = 0) (hb : w.b = 0)
    (hd : (s.core l).writeSw w.imm.toNat ((s.core l).getX w.a.toNat) = some d) (hr : Readable (s.core l) [w.a.toNat]) :
    exec (.swr c w) s = .next (s.setCore l (d.adv 8)) := by
  refine congrArg Host.Outcome.next (issue_eff8 hi ?_)
  dsimp only
  rw [checked_act hr.1 (hazard_nil s l) _ hr.2, hd]
  · rfl
  · simp [firstErr, illegalFn_formI_fn12_zero (w := w) (op := 0x19) (by decide) hfn, hb, hd]

theorem exec_swr_not_rw {w : FormI} (hd : (s.core l).writeSw w.imm.toNat ((s.core l).getX w.a.toNat) = none)
    (hr : Readable (s.core l) [w.a.toNat]) : exec (.swr c w) s = .next (s.syncExc l 0x0101 0 0 (w.w0 0x19)) := by
  refine congrArg Host.Outcome.next (issue_exc8 hi ?_)
  exact checked_exc hr.1 (hazard_nil s l) (by simp [firstErr, hd, cILLEGAL])

end

/-- 03 R75: each listed word read, each RW word written. -/
theorem stateWords_clauses : Claims.StateWords := by
  intro s c l w hi hfn hb cs rd x
  refine ⟨fun hw => ?read, fun hr => ?write⟩
  case read =>
    have read {v : Nat} {i : BitVec 32} (hv : s.readSw l i.toNat = some v) (himm : w.imm = i) : rd v :=
      exec_srd_setX hi hfn hb (himm ▸ hv) hw
    exact ⟨read rfl, read rfl, read rfl, read rfl, read rfl, read rfl,
      read (congrArg some (congrArg (s.coreOps l + ·) (Nat.mul_comm _ _))), read rfl, read rfl, read rfl, read rfl, read rfl,
      read rfl, read (congrArg some (estat_eq cs)), read rfl, read rfl⟩
  case write =>
    have write {d : CoreSt} {i : BitVec 32} (hd : cs.writeSw i.toNat x = some d) (himm : w.imm = i) :
        exec (.swr c w) s = .next (s.setCore l (d.adv 8)) :=
      exec_swr_writeSw hi hfn hb (himm ▸ hd) hr
    have hevec : w64 (fld x 3 15 * 8) = x &&& 0x3FFF8 := w64_fld_eq_and x 3 15
    have hepc : w64 (fld x 0 18) = x &&& 0x3FFFF := by simpa using w64_fld_eq_and x 0 18
    exact ⟨write (by rw [← hevec]; rfl), write (by rw [← hepc]; rfl), write rfl,
      write (by simp [CoreSt.writeSw, fld, bits])⟩

/-- 03 R75: CORE_ILLEGAL for every other index. -/
theorem unlistedStateWord_illegal : Claims.UnlistedStateWordIsIllegal := by
  intro s c l w hi _ _
  exact ⟨fun hw hidx => exec_srd_unlisted hi (readSw_unlisted s l hidx) hw,
    fun hr hidx => exec_swr_not_rw hi (writeSw_not_rw _ _ hidx) hr⟩

/-- Settles O4: reads and writes by the state words' table, and CORE_ILLEGAL where it has no entry. -/
theorem stateWordAccess : Obligations.StateWordAccess := ⟨stateWords_clauses, unlistedStateWord_illegal⟩

end Sys2Proof.Machine
end

section
/-! Tables and cores written twice. -/

namespace Sys2Proof.Machine

/-- The later of two entries under one key stands. -/
@[simp] theorem tput_tput_self {V : Type} (t : Tbl V) (k : Nat) (v w : V) : tput (tput t k v) k w = tput t k w := by
  induction t with
  | nil => simp [tput]
  | cons e t ih =>
    obtain ⟨j, u⟩ := e
    by_cases hlt : k < j
    · simp [tput, hlt]
    · by_cases heq : k = j
      · simp [tput, heq]
      · simp [tput, hlt, heq, ih]

@[simp] theorem State.setCore_setCore (s : State) (l : Loc) (v w : CoreSt) : (s.setCore l v).setCore l w = s.setCore l w := by
  simp [State.setCore]

end Sys2Proof.Machine
end

section
/-! Exceptions (03 R81, R96-R101; 10 R374): how a failure is taken, what raises one, and what returns from one. -/

namespace Sys2Proof.Machine

theorem stopsCore_iff (code : Nat) : stopsCore code = true ↔ code ∈ [0x010C, 0x0401, 0x0402, 0x0502, 0x0805] := by
  simp only [stopsCore, List.contains_iff_mem, List.mem_cons, List.not_mem_nil, or_false, cDATAUE, cFABDEAD, cFABTIMEOUT,
    cLIGRESIDUE, cPOISON]
  omega

/-! Taking a failure. -/

section
variable {s : State} {l : Loc} {f : Fail} {async : Bool}

/-- A failure that does not stop the core enters its handler. -/
theorem takeFail_handled (hcode : stopsCore f.code = false) (hinh : (s.core l).inh = false) (hevec : (s.core l).evec ≠ 0) :
    s.takeFail l f async = s.setCore l ((s.core l).enter f async) := by
  have hne : (s.core l).evec.toNat ≠ 0 := fun h => hevec (BitVec.eq_of_toNat_eq h)
  simp [State.takeFail, CoreSt.handles, hcode, hinh, hne]

/-- A failure that stops the core does so whatever handler there is. -/
theorem takeFail_stopping (hcode : stopsCore f.code = true) : s.takeFail l f async = s.coreStop l f := by
  have htrap : f.code ≠ cTRAP := by
    intro h
    rw [h] at hcode
    exact absurd hcode (by decide)
  simp [State.takeFail, CoreSt.handles, hcode, htrap]

/-- TRAP 0 without a handler ends the core's part of the run. -/
theorem takeFail_trap_zero (hcode : f.code = cTRAP) (he0 : f.e0 = 0) (hevec : (s.core l).evec = 0) :
    s.takeFail l f async = s.coreEnd l := by
  simp [State.takeFail, CoreSt.handles, hcode, he0, hevec]

/-- A synchronous exception is raised once what was issued earlier has completed locally. -/
theorem syncExc_of_drained (hue : (drainLocal (s.env l) (s.core l)).ue = none) (code e0 e1 e2 : Nat) :
    s.syncExc l code e0 e1 e2 =
      (s.engOut l (drainLocal (s.env l) (s.core l))).takeFail l ⟨code, w64 e0, w64 e1, w64 e2, false⟩ false := by
  simp [State.syncExc, hue]

end

/-! What raises and what returns. -/

section
variable {s : State} {c : CoreId} {l : Loc}

theorem exec_brk (hi : Issues s c l 8) :
    exec (.brk c ⟨0, 0, 0, 0, 0, 0, 0⟩) s = .next (s.syncExc l 0x0109 0 0 0x1B) :=
  congrArg Host.Outcome.next (issue_exc8 hi
    (checked_act (pendingAny_nil _) (hazard_nil s l) (firstErr_bare (by decide)) (dataUe_nil _)))

theorem exec_trap (hi : Issues s c l 8) {w : FormI} (hfn : w.fn12 = 0) (ha : w.a = 0) (hb : w.b = 0)
    (himm : w.imm.toNat < 2 ^ 16) : exec (.trap c w) s = .next (s.syncExc l 0x010A w.imm.toNat 0 (w.w0 0x1C)) := by
  have hlow : fld w.imm 0 16 = w.imm.toNat := Nat.mod_eq_of_lt himm
  have hhigh : fld w.imm 16 16 = 0 := by
    rw [fld, bits, Nat.shiftRight_eq_div_pow, Nat.div_eq_of_lt himm, Nat.zero_mod]
  refine congrArg Host.Outcome.next (issue_exc8 hi ?_)
  rw [checked_act (pendingAny_nil _) (hazard_nil s l) _ (dataUe_nil _), hlow]
  · rfl
  · simp [firstErr, illegalFn_formI_fn12_zero (w := w) (op := 0x1C) (by decide) hfn, ha, hb, hhigh]

theorem exec_illegalInstruction {w0 w1 : W64} (hi : Issues s c l (if w0.getLsbD 7 then 16 else 8))
    (hw : illegalWord w0.toNat = true) :
    exec (.illegalInstruction c w0 w1) s = .next (s.syncExc l 0x0101 0 0 w0.toNat) := by
  have hbit : w0.getLsbD 7 = w0.toNat.testBit 7 := rfl
  rw [hbit] at hi
  have hissue : s.issue c w0.toNat (w0.toNat.testBit 7)
      (fun _ _ => if illegalWord w0.toNat then .exc cILLEGAL 0 0 else .stall) = s.syncExc l cILLEGAL 0 0 w0.toNat :=
    issue_exc hi rfl (by simp [hw])
  exact congrArg Host.Outcome.next hissue

theorem exec_eret (hi : Issues s c l 8) (hinh : (s.core l).inh = true) :
    exec (.eret c ⟨0, 0, 0, 0, 0, 0, 0⟩) s = .next (s.setCore l (s.core l).leave) := by
  refine congrArg Host.Outcome.next (issue_eff8 hi ?_)
  have hcode : illegalFn (FormR.w0 0x1A ⟨0, 0, 0, 0, 0, 0, 0⟩) = false := illegalFn_formR_fn8_zero (by decide) rfl
  exact checked_act (pendingAny_nil _) (hazard_nil s l) (by rw [hcode, hinh]; decide) (dataUe_nil _)

theorem exec_br_reserved (hi : Issues s c l 8) {w : FormB} (hcond : 5 < w.cond.toNat)
    (hp : (s.core l).pendingAny [w.a.toNat, w.b.toNat] = false) :
    exec (.br c w) s = .next (s.syncExc l 0x0102 0 0 (w.w0 0x10)) :=
  congrArg Host.Outcome.next (issue_exc8 hi
    (checked_exc hp (hazard_nil s l) (by simp [firstErr, hcond, cRESFIELD])))

/-- The failure that is taken at a boundary, with its place in the queue left. -/
theorem exec_asyncExceptionTake (hon : On s) (hloc : s.locate c = some l) (hrun : (s.core l).run = .running) {f : Fail}
    (hf : (s.core l).taken = some f) : exec (.asyncExceptionTake c) s = .next
      ((s.setCore l { s.core l with pend := (s.core l).pend.erase f, stall := none }).takeFail l { f with late := false } true) :=
  congrArg Host.Outcome.next (by simp [hloc, hf, hrun, show s.plat.power = .running from hon])

end

/-- A failure that stops the core is taken before any other. -/
theorem taken_of_stopping {cs : CoreSt} {before rest : List Fail} {f : Fail} (hpend : cs.pend = before ++ f :: rest)
    (hbefore : ∀ g ∈ before, stopsCore g.code = false) (hf : stopsCore f.code = true) : cs.taken = some f := by
  have hnone : before.find? (fun g => stopsCore g.code) = none := List.find?_eq_none.mpr fun g hg => by simp [hbefore g hg]
  simp [CoreSt.taken, hpend, hnone, hf]

/-- Otherwise the first one is, where no handler runs. -/
theorem taken_of_first {cs : CoreSt} {rest : List Fail} {f : Fail} (hpend : cs.pend = f :: rest) (hinh : cs.inh = false)
    (hnone : ∀ g ∈ f :: rest, stopsCore g.code = false) : cs.taken = some f := by
  have hfind : cs.pend.find? (fun g => stopsCore g.code) = none :=
    List.find?_eq_none.mpr fun g hg => by simp [hnone g (hpend ▸ hg)]
  rw [CoreSt.taken, hfind, hinh, hpend]
  rfl

/-- 03 R97, R99, R101: each of the three enters the handler with its own code and detail words. -/
theorem synchronousException_entry : Claims.SynchronousExceptionEntry := by
  intro s c l s1 d into hue hinh hevec
  have enters (code e0 w0 : Nat) (hcode : stopsCore code = false) : s.syncExc l code e0 0 w0 = into code e0 w0 := by
    rw [syncExc_of_drained hue, takeFail_handled hcode hinh hevec]
    rfl
  refine ⟨fun hi => ?brk, fun w hi hfn ha hb himm => ?trap, fun w0 w1 hi hw => ?illegal⟩
  case brk => rw [exec_brk hi, enters _ _ _ (by decide)]
  case trap => rw [exec_trap hi hfn ha hb himm, enters _ _ _ (by decide)]
  case illegal => rw [exec_illegalInstruction hi hw, enters _ _ _ (by decide)]

/-- 03 R81, 10 R374: ERET, and TRAP 0 without a handler. -/
theorem returnAndEnd_clauses : Claims.ReturnAndEnd := by
  intro s c l hi
  refine ⟨fun hinh => exec_eret hi hinh, fun hue hevec => ?_⟩
  rw [exec_trap hi rfl rfl rfl (by decide), syncExc_of_drained hue, takeFail_trap_zero rfl rfl hevec]
  rfl

/-- 03 R96, R98-R100: a stopping failure wherever it waits, else the first that waits. -/
theorem asynchronousException_entry : Claims.AsynchronousExceptionEntry := by
  intro s c l f rest hon hloc hrun stops
  have hstops (g : Fail) : stops g ↔ stopsCore g.code = true := (stopsCore_iff g.code).symm
  refine ⟨fun before hpend hbefore hf => ?stops, fun hpend hinh hevec hnone => ?enters⟩
  case stops =>
    have hf' : stopsCore f.code = true := (hstops f).mp hf
    have hbefore' : ∀ g ∈ before, stopsCore g.code = false := fun g hg =>
      Bool.eq_false_iff.mpr fun h => hbefore g hg ((hstops g).mpr h)
    have herase : (s.core l).pend.erase f = before ++ rest := by
      rw [hpend, List.erase_append_right _ (fun h => hbefore f h hf), List.erase_cons_head]
    rw [exec_asyncExceptionTake hon hloc hrun (taken_of_stopping hpend hbefore' hf'),
      takeFail_stopping (f := { f with late := false }) hf', herase]
  case enters =>
    have hnone' : ∀ g ∈ f :: rest, stopsCore g.code = false := fun g hg =>
      Bool.eq_false_iff.mpr fun h => hnone g hg ((hstops g).mpr h)
    have herase : (s.core l).pend.erase f = rest := by rw [hpend, List.erase_cons_head]
    rw [exec_asyncExceptionTake hon hloc hrun (taken_of_first hpend hinh hnone'),
      takeFail_handled (f := { f with late := false }) (hnone' f List.mem_cons_self) (by rw [State.core_setCore]; exact hinh)
        (by rw [State.core_setCore]; exact hevec), herase, State.core_setCore, State.setCore_setCore]
    rfl

/-- Settles O5: every entry by how a failure is taken, ERET and TRAP by what they answer. -/
theorem exceptionsAndReturn : Obligations.ExceptionsAndReturn :=
  ⟨synchronousException_entry, returnAndEnd_clauses, asynchronousException_entry,
    fun _ _ _ _ hi hcond hp => exec_br_reserved hi hcond hp⟩

end Sys2Proof.Machine
end

section
/-! Arrival counters, the fence, and the wait for a counter (02 R47, R51-R53; 03 R82, R83, R88, R96). -/

namespace Sys2Proof.Machine

/-! Poisoned counters. -/

theorem readsCnt_poisoned {cs : CoreSt} {i : Nat} (h : i ∈ cs.cntPoison) (act : Iss) :
    cs.readsCnt i act = .exc cDATAUE (2 ^ 63 + i) 0 :=
  if_pos (List.contains_iff_mem.mpr h)

theorem readsCnt_clean {cs : CoreSt} {i : Nat} (h : i ∉ cs.cntPoison) (act : Iss) : cs.readsCnt i act = act :=
  if_neg (fun hc => h (List.contains_iff_mem.mp hc))

section
variable {s : State} {c : CoreId} {l : Loc}

theorem exec_cset (hi : Issues s c l 8) {w : FormI} (hfn : w.fn12 = 0) (hr : Readable (s.core l) [w.b.toNat]) :
    exec (.cset c w) s = .next (s.setCore l (({ s.core l with
      cnt := tput (s.core l).cnt w.a.toNat (((s.core l).getX w.b.toNat).setWidth 32)
      cntPoison := (s.core l).cntPoison.filter (· != w.a.toNat) } : CoreSt).adv 8)) :=
  congrArg Host.Outcome.next (issue_eff8 hi (checked_act hr.1 (hazard_nil s l) (firstErr_formI (by decide) hfn) hr.2))

/-! CADD, CRD and CWAIT: on a poisoned counter, and on a clean one. -/

theorem exec_cadd_poisoned (hi : Issues s c l 8) {w : FormI} (hfn : w.fn12 = 0) (hr : Readable (s.core l) [w.b.toNat])
    (hp : w.a.toNat ∈ (s.core l).cntPoison) :
    exec (.cadd c w) s = .next (s.syncExc l 0x010C (2 ^ 63 + w.a.toNat) 0 (w.w0 0x21)) := by
  refine congrArg Host.Outcome.next (issue_exc8 hi ?_)
  rw [checked_act hr.1 (hazard_nil s l) (firstErr_formI (by decide) hfn) hr.2, readsCnt_poisoned hp]
  rfl

theorem exec_cadd (hi : Issues s c l 8) {w : FormI} (hfn : w.fn12 = 0) (hr : Readable (s.core l) [w.b.toNat])
    (hp : w.a.toNat ∉ (s.core l).cntPoison) :
    exec (.cadd c w) s = .next (s.setCore l
      (((s.core l).addCnt w.a.toNat (((s.core l).getX w.b.toNat).setWidth 32 + w.imm)).adv 8)) := by
  refine congrArg Host.Outcome.next (issue_eff8 hi ?_)
  rw [checked_act hr.1 (hazard_nil s l) (firstErr_formI (by decide) hfn) hr.2, readsCnt_clean hp]

theorem exec_crd_poisoned (hi : Issues s c l 8) {w : FormI} (hfn : w.fn12 = 0) (hw : Writable (s.core l) w.b.toNat)
    (hp : w.a.toNat ∈ (s.core l).cntPoison) :
    exec (.crd c w) s = .next (s.syncExc l 0x010C (2 ^ 63 + w.a.toNat) 0 (w.w0 0x22)) := by
  refine congrArg Host.Outcome.next (issue_exc8 hi ?_)
  rw [if_neg (Bool.eq_false_iff.mp hw),
    checked_act (pendingAny_nil _) (hazard_nil s l) (firstErr_formI (by decide) hfn) (dataUe_nil _), readsCnt_poisoned hp]
  rfl

theorem exec_crd (hi : Issues s c l 8) {w : FormI} (hfn : w.fn12 = 0) (hw : Writable (s.core l) w.b.toNat)
    (hp : w.a.toNat ∉ (s.core l).cntPoison) :
    exec (.crd c w) s = .next (s.setCore l
      (((s.core l).setX w.b.toNat (((s.core l).getCnt w.a.toNat).setWidth 64)).adv 8)) := by
  refine congrArg Host.Outcome.next (issue_eff8 hi ?_)
  rw [if_neg (Bool.eq_false_iff.mp hw),
    checked_act (pendingAny_nil _) (hazard_nil s l) (firstErr_formI (by decide) hfn) (dataUe_nil _), readsCnt_clean hp]

theorem exec_cwait_poisoned (hi : Issues s c l 8) {w : FormI} (hfn : w.fn12 = 0) (hr : Readable (s.core l) [w.b.toNat])
    (hp : w.a.toNat ∈ (s.core l).cntPoison) :
    exec (.cwait c w) s = .next (s.syncExc l 0x010C (2 ^ 63 + w.a.toNat) 0 (w.w0 0x23)) := by
  refine congrArg Host.Outcome.next (issue_exc8 hi ?_)
  rw [checked_act hr.1 (hazard_nil s l) (firstErr_formI (by decide) hfn) hr.2, readsCnt_poisoned hp]
  rfl

/-- The stall that CWAIT begins. -/
def State.cwaitStall (s : State) (l : Loc) (w : FormI) : CStall :=
  { cnt := w.a.toNat, v := ((s.core l).getX w.b.toNat).setWidth 32, start := s.now, tmo := w.imm.toNat, w0 := w64 (w.w0 0x23) }

theorem exec_cwait (hi : Issues s c l 8) {w : FormI} (hfn : w.fn12 = 0) (hr : Readable (s.core l) [w.b.toNat])
    (hp : w.a.toNat ∉ (s.core l).cntPoison) :
    exec (.cwait c w) s = .next (
      if waitHolds ((s.core l).getCnt w.a.toNat) (((s.core l).getX w.b.toNat).setWidth 32) then s.setCore l ((s.core l).adv 8)
      else s.setCore l { s.core l with stall := some (s.cwaitStall l w) }) := by
  have herr : firstErr [(illegalFn (w.w0 0x23), cILLEGAL)] = none := firstErr_formI (by decide) hfn
  refine congrArg Host.Outcome.next ?_
  by_cases hholds : waitHolds ((s.core l).getCnt w.a.toNat) (((s.core l).getX w.b.toNat).setWidth 32) = true
  · rw [if_pos hholds]
    refine issue_eff8 hi ?_
    rw [checked_act hr.1 (hazard_nil s l) herr hr.2, readsCnt_clean hp, if_pos hholds]
  · rw [if_neg hholds]
    refine issue_eff8 hi ?_
    rw [checked_act hr.1 (hazard_nil s l) herr hr.2, readsCnt_clean hp, if_neg hholds]
    rfl

theorem exec_rfence (hi : Issues s c l 8) :
    exec (.rfence c ⟨0, 0, 0, 0, 0, 0, 0⟩) s =
      .next ((s.setCore l (({ s.core l with fence := true } : CoreSt).adv 8)).fenceCheck l) :=
  congrArg Host.Outcome.next (issue_eff8 hi
    (checked_act (pendingAny_nil _) (hazard_nil s l) (firstErr_bare (by decide)) (dataUe_nil _)))

theorem exec_coreWaitTimeout {st : CStall} (hon : On s) (hloc : s.locate c = some l) (hrun : (s.core l).run = .running)
    (htake : (s.core l).mustTake = false) (hst : (s.core l).stall = some st) (htmo : st.tmo ≠ 0) :
    exec (.coreWaitTimeout c) s = .next ((s.reach (st.start + st.tmo)).syncExc l 0x010B st.cnt
      ((s.core l).getCnt st.cnt).toNat st.w0.toNat) :=
  congrArg Host.Outcome.next (by simp [hloc, hst, hrun, htake, htmo, show s.plat.power = .running from hon, cWAIT])

end

@[simp] theorem State.setCore_coreOps (s : State) (l m : Loc) (v : CoreSt) : (s.setCore l v).coreOps m = s.coreOps m := rfl

/-- The fence just raised falls at once where nothing of the core is in flight. -/
theorem fenceCheck_raised (s : State) (l : Loc) {cs : CoreSt} (hf : cs.fence = true) :
    (s.setCore l cs).fenceCheck l = s.setCore l { cs with fence := !(s.coreOps l == 0 && cs.dmas.isEmpty) } := by
  by_cases hidle : (s.coreOps l == 0 && cs.dmas.isEmpty) = true
  · simp only [State.fenceCheck, State.core_setCore, State.setCore_coreOps, hf, hidle, Bool.true_and, if_true,
      State.setCore_setCore, Bool.not_true]
  · have hbusy : (s.coreOps l == 0 && cs.dmas.isEmpty) = false := Bool.eq_false_iff.mpr hidle
    simp only [State.fenceCheck, State.core_setCore, State.setCore_coreOps, hf, hbusy, Bool.true_and, Bool.not_false,
      Bool.false_eq_true, if_false]
    rw [← hf]

/-- 02 R47, 03 R82, R88, R96. -/
theorem countersAndFence_clauses : Claims.CountersAndFence := by
  intro s c l hi cs
  refine ⟨fun w hfn hr => ⟨?cset, fun hp => ⟨exec_cadd_poisoned hi hfn hr hp, exec_cwait_poisoned hi hfn hr hp⟩,
    fun hp => ?cadd⟩, fun w hfn hw => ⟨fun hp => exec_crd_poisoned hi hfn hw hp, fun hp => ?crd⟩, ?rfence⟩
  case cset =>
    rw [exec_cset hi hfn hr, ← BitVec.ofNat_toNat]
  case cadd =>
    rw [exec_cadd hi hfn hr hp, CoreSt.addCnt, ← BitVec.add_assoc, ← BitVec.ofNat_toNat]
    rfl
  case crd =>
    rw [exec_crd hi hfn hw hp, ← BitVec.ofNat_toNat]
    rfl
  case rfence =>
    rw [exec_rfence hi, fenceCheck_raised s l rfl]
    rfl

/-! The wait. -/

theorem waitHolds_iff (cs : CoreSt) (i : Nat) (v : W32) :
    waitHolds (cs.getCnt i) v = true ↔ (tgetD cs.cnt i 0 - v).toNat < 2 ^ 31 :=
  decide_eq_true_iff

/-- An arrival ends a stall whose condition it makes hold. -/
theorem wakeWait_of_holds {cs : CoreSt} {st : CStall} (hst : cs.stall = some st)
    (hholds : waitHolds (cs.getCnt st.cnt) st.v = true) (htake : cs.mustTake = false) :
    cs.wakeWait = { cs with stall := none, pc := (cs.pc + 8) % spadSize } := by
  simp [CoreSt.wakeWait, hst, hholds, htake]

theorem wakeWait_of_not {cs : CoreSt} {st : CStall} (hst : cs.stall = some st)
    (h : waitHolds (cs.getCnt st.cnt) st.v = false ∨ cs.mustTake = true) : cs.wakeWait = cs := by
  rcases h with h | h <;> simp [CoreSt.wakeWait, hst, h]

/-- 02 R53, 03 R83, R98. -/
theorem waitForCounter_clauses : Claims.WaitForCounter := by
  intro s c l
  refine ⟨fun w hi hfn hr hp => ?issue,
    fun st hon hloc hrun htake hst htmo => exec_coreWaitTimeout hon hloc hrun htake hst htmo,
    fun st n v hst => ⟨fun hlt htake => ?wakes, fun h => ?waits⟩⟩
  case issue =>
    intro cs v
    have hv : v = ((s.core l).getX w.b.toNat).setWidth 32 := BitVec.ofNat_toNat 32 _
    rw [exec_cwait hi hfn hr hp, ← hv]
    refine ⟨fun hlt => ?_, fun hge => ?_⟩
    · rw [if_pos ((waitHolds_iff ..).mpr hlt)]
    · rw [if_neg (fun h => Nat.not_lt.mpr hge ((waitHolds_iff ..).mp h)), State.cwaitStall, ← hv]
  case wakes =>
    exact congrArg (s.setCore l) (wakeWait_of_holds (cs := (s.core l).addCnt n v) hst (decide_eq_true hlt) htake)
  case waits =>
    exact congrArg (s.setCore l) (wakeWait_of_not (cs := (s.core l).addCnt n v) hst
      (h.imp_left fun hge => decide_eq_false (Nat.not_lt.mpr hge)))

/-- Settles O6: the counter instructions by the poison of their counter, the fence and the wait by what ends them. -/
theorem counterInstructions : Obligations.CounterInstructions := ⟨countersAndFence_clauses, waitForCounter_clauses⟩

end Sys2Proof.Machine
end

section
/-! Remote instructions (02 R41, 03 R84-R87): one lemma for the issue that all of them share, and the form that each takes
with its register operand and with its scratchpad operand. -/

namespace Sys2Proof.Machine

/-- A core with a register that waits for a remote operation's data (03 R87). -/
def CoreSt.awaits (cs : CoreSt) (r : Nat) : CoreSt := if r = 0 then cs else { cs with xPend := addOnce cs.xPend r }

/-- The logical node that a remote instruction names, and its offset. -/
def CoreSt.remoteNode (cs : CoreSt) (w : FormX) : Nat := fld (cs.getX w.r.b.toNat) 0 16

def CoreSt.remoteOff (cs : CoreSt) (w : FormX) : Nat := (cs.getX w.r.c.toNat).toNat

/-- A remote instruction waits for nothing of its own, names a live node, and has a legal offset and no reserved field of those
that all of them share (03 R84, R86). -/
structure RemoteReady (s : State) (l : Loc) (w : FormX) : Prop where
  free : s.remoteStall l (s.core l) ((s.core l).remoteNode w) (rSPACE w.w1) ((s.core l).remoteOff w) = false
  live : lnLive (s.lnt l.p ((s.core l).remoteNode w)) = true
  offset : offsetBad (rSPACE w.w1) ((s.core l).remoteOff w) = false
  fields : FormR.tailRsv w.r = false
  fields1 : w1Rsv w.w1 = false
  cluster : s.ownClusterBad (s.lnt l.p ((s.core l).remoteNode w)) (rSPACE w.w1) ((s.core l).remoteOff w)
    (rNT w.w1) (rNCLU w.w1) = false

theorem checkedDead_act_of_live {s : State} {l : Loc} {cs : CoreSt} {errs : List (Bool × Nat)} {dead : Option Iss}
    {rs : List Nat} {ranges : List (Nat × Nat)} {track : List Rng} {act : Unit → Iss} (hdead : dead = none)
    (hr : Readable cs rs ranges) (hh : s.hazard l track = false) (he : firstErr errs = none) :
    s.checkedDead l cs errs dead rs ranges track act = act () := by
  rw [hdead, checkedDead_act hr.1 hh he hr.2]

/-- A remote instruction that passes its checks sends its request and is over; its destination register, if it has one, waits. -/
theorem remote_sends {s : State} {c : CoreId} {l : Loc} {w : FormX} (hi : Issues s c l 16) (hready : RemoteReady s l w) {op : Nat}
    {rsv : Bool} {alignBad : Nat → Bool} {srcs : List Nat} {ranges : CoreSt → List (Nat × Nat)} {track : CoreSt → List Rng}
    {dst : Option Nat} {mk : Loc → CoreSt → Nat → RReq} {dest : Loc → CoreSt → Dest} (hfn : illegalFn (w.r.w0 op) = false)
    (hrsv : rsv = false) (halign : alignBad ((s.core l).remoteOff w) = false)
    (hr : Readable (s.core l) (w.r.b.toNat :: w.r.c.toNat :: srcs) (ranges (s.core l)))
    (hh : s.hazard l (track (s.core l)) = false) (hdst : ∀ r ∈ dst, Writable (s.core l) r) :
    s.remote c op w rsv alignBad srcs ranges track dst mk dest =
      (s.setCore l ((dst.elim (s.core l) (s.core l).awaits).adv 16)).sendOn l.p (.core l (s.core l).pc) (dest l (s.core l))
        ((s.core l).remoteNode w) (mk l (s.core l) ((s.core l).remoteOff w)) := by
  obtain ⟨hfree, hlive, hoff, hfields, hfields1, hclu⟩ := hready
  have herr : firstErr [(illegalFn (w.r.w0 op), cILLEGAL), (rsv || FormR.tailRsv w.r || w1Rsv w.w1, cRESFIELD),
      (offsetBad (rSPACE w.w1) ((s.core l).remoteOff w) || (op != 0x85 && s.ownClusterBad (s.lnt l.p ((s.core l).remoteNode w))
        (rSPACE w.w1) ((s.core l).remoteOff w) (rNT w.w1) (rNCLU w.w1)), cADDR),
      (alignBad ((s.core l).remoteOff w), cALIGN)] = none := by
    simp [firstErr, hfn, hrsv, hfields, hfields1, hoff, hclu, halign]
  rw [State.remote]
  refine issue_eff16 hi ?_
  refine (if_neg ?wait).trans ((checkedDead_act_of_live (if_pos ?live) hr hh herr).trans ?act)
  case wait =>
    change ¬(s.remoteStall l (s.core l) ((s.core l).remoteNode w) (rSPACE w.w1) ((s.core l).remoteOff w) || _) = true
    rw [hfree]
    cases dst with
    | none => exact Bool.false_ne_true
    | some r => exact Bool.eq_false_iff.mp (hdst r rfl)
  case live => exact (Bool.or_eq_true _ _).mpr (.inr hlive)
  case act => cases dst <;> rfl

/-! The forms: RLD, RST, RCAS and RMCST with a register operand and with a scratchpad operand. -/

/-- The scratchpad address in x[D]. -/
def CoreSt.spadAt (cs : CoreSt) (w : FormX) : Nat := (cs.getX w.r.d.toNat).toNat % spadSize

section
variable {s : State} {c : CoreId} {w : FormX}

theorem exec_rld_reg (hreg : rREG w.w1 = true) : exec (.rld c w) s = .next (s.remote c 0x80 w (ldstRsv w true)
    (fun off => blockBad off (szBytes w.w1)) [] (fun _ => []) (fun _ => []) (some w.r.a.toNat) (fun _ _ off => w1Req w.w1 1 off)
    (fun l _ => .reg l w.r.a.toNat)) :=
  congrArg Host.Outcome.next (by simp [hreg])

theorem exec_rld_spad (hreg : rREG w.w1 = false) : exec (.rld c w) s = .next (s.remote c 0x80 w (ldstRsv w true)
    (fun off => blockBad off (szBytes w.w1)) [w.r.d.toNat] (fun _ => []) (fun cs => [.wr (cs.spadAt w) (szBytes w.w1)]) none
    (fun _ _ off => w1Req w.w1 1 off) (fun l cs => .spad l (cs.spadAt w) (szBytes w.w1))) :=
  congrArg Host.Outcome.next (by simp [hreg, CoreSt.spadAt])

theorem exec_rst_reg (hreg : rREG w.w1 = true) : exec (.rst c w) s = .next (s.remote c 0x81 w (ldstRsv w false)
    (fun off => blockBad off (szBytes w.w1)) [w.r.d.toNat] (fun _ => []) (fun _ => []) none
    (fun _ cs off => { w1Req w.w1 2 off with data := (cs.getX w.r.d.toNat).toNat, words := rSZ w.w1 + 1 }) (fun _ _ => .none)) :=
  congrArg Host.Outcome.next (by simp [hreg, storeReq])

theorem exec_rst_spad (hreg : rREG w.w1 = false) : exec (.rst c w) s = .next (s.remote c 0x81 w (ldstRsv w false)
    (fun off => blockBad off (szBytes w.w1)) [w.r.d.toNat] (fun cs => [(cs.spadAt w, szBytes w.w1)])
    (fun cs => [.now (cs.spadAt w) (szBytes w.w1) false]) none
    (fun _ cs off => { w1Req w.w1 2 off with
      data := sread cs.spad (cs.getX w.r.d.toNat).toNat (szBytes w.w1), words := rSZ w.w1 + 1 }) (fun _ _ => .none)) :=
  congrArg Host.Outcome.next (by simp [hreg, storeReq, CoreSt.spadAt])

theorem exec_rcas_reg (hreg : rREG w.w1 = true) (hsz : rSZ w.w1 = 0) (hnt : rNT w.w1 = false) (hat : rATYPE w.w1 = 0) :
    exec (.rcas c w) s = .next (s.remote c 0x84 w false (fun off => rSPACE w.w1 != 2 && off % 8 != 0)
      [w.r.a.toNat, w.r.d.toNat] (fun _ => []) (fun _ => []) (some w.r.a.toNat)
      (fun _ cs off => { w1Req w.w1 5 off with
        data := (cs.getX w.r.a.toNat).toNat + (cs.getX w.r.d.toNat).toNat * 2 ^ 64, words := 2 })
      (fun l _ => .reg l w.r.a.toNat)) :=
  congrArg Host.Outcome.next (by simp [hreg, hsz, hnt, hat, szBytes])

theorem exec_rcas_spad (hreg : rREG w.w1 = false) (hsz : rSZ w.w1 ≤ 1) (ha : w.r.a = 0) (hnt : rNT w.w1 = false)
    (hat : rATYPE w.w1 = 0) :
    exec (.rcas c w) s = .next (s.remote c 0x84 w false (fun off => rSPACE w.w1 != 2 && off % szBytes w.w1 != 0)
      [w.r.d.toNat] (fun cs => [(cs.spadAt w, 2 * szBytes w.w1)])
      (fun cs => [.wr (cs.spadAt w) (szBytes w.w1), .now (cs.spadAt w + szBytes w.w1) (szBytes w.w1) false]) none
      (fun _ cs off => { w1Req w.w1 5 off with
        data := sread cs.spad (cs.spadAt w) (2 * szBytes w.w1), words := 2 * (rSZ w.w1 + 1) })
      (fun l cs => .spad l (cs.spadAt w) (szBytes w.w1))) :=
  congrArg Host.Outcome.next (by simp [hreg, Nat.not_lt.mpr hsz, ha, hnt, hat, CoreSt.spadAt])

theorem exec_rmcst_reg (hreg : rREG w.w1 = true) : exec (.rmcst c w) s = .next (s.remote c 0x85 w (ldstRsv w false)
    (fun off => blockBad off (szBytes w.w1)) [w.r.d.toNat] (fun _ => []) (fun _ => []) none
    (fun _ cs off => { w1Req w.w1 6 off with
      data := (cs.getX w.r.d.toNat).toNat, words := rSZ w.w1 + 1, tree := fld (cs.getX w.r.b.toNat) 0 10 })
    (fun _ _ => .none)) :=
  congrArg Host.Outcome.next (by simp [hreg, storeReq])

theorem exec_rmcst_spad (hreg : rREG w.w1 = false) : exec (.rmcst c w) s = .next (s.remote c 0x85 w (ldstRsv w false)
    (fun off => blockBad off (szBytes w.w1)) [w.r.d.toNat] (fun cs => [(cs.spadAt w, szBytes w.w1)])
    (fun cs => [.now (cs.spadAt w) (szBytes w.w1) false]) none
    (fun _ cs off => { w1Req w.w1 6 off with
      data := sread cs.spad (cs.getX w.r.d.toNat).toNat (szBytes w.w1), words := rSZ w.w1 + 1
      tree := fld (cs.getX w.r.b.toNat) 0 10 }) (fun _ _ => .none)) :=
  congrArg Host.Outcome.next (by simp [hreg, storeReq, CoreSt.spadAt])

end

/-- The alignment that R42 and R43 ask for outside the counters' space. -/
theorem not_misaligned {space off n : Nat} (h : space = 2 ∨ off % n = 0) : (space != 2 && off % n != 0) = false := by
  rcases h with h | h <;> simp [h]

/-- Settles O7: each form by the one issue that all remote instructions share. -/
theorem remoteInstructionsSend : Obligations.RemoteInstructionsSend := by
  unfold Obligations.RemoteInstructionsSend
  intro s c l w hi cs node off sp n x sent wait hfree hlive hoff hfmt hrsv hrsv1 hclu
  have hready : RemoteReady s l w := ⟨hfree, hlive, hoff, by simp [FormR.tailRsv, hfmt, hrsv], hrsv1, hclu⟩
  have hnone : ∀ r ∈ (none : Option Nat), Writable cs r := fun _ h => nomatch h
  have hsome {r : Nat} (hw : Writable cs r) : ∀ q ∈ some r, Writable cs q := fun q h => Option.some.inj h ▸ hw
  have hno : s.hazard l [] = false := hazard_nil s l
  refine ⟨fun hfn hf hreg hal hr hw => ?rldReg, fun hfn hf hreg hal hr hh => ?rldSpad, fun hfn hf hreg hal hr => ?rstReg,
    fun hfn hf hreg hal hr hh => ?rstSpad, fun hfn hreg hsz ha hal hr => ?ratom, fun hfn hreg hsz hal hr hw => ?ratomF,
    fun hfn hreg hsz hnt hat hal hr hw => ?rcasReg, fun hfn hreg hsz ha hnt hat hal hr hh => ?rcasSpad,
    fun hfn hf hreg hal hr => ?rmcstReg, fun hfn hf hreg hal hr hh => ?rmcstSpad⟩
  case rldReg =>
    rw [exec_rld_reg hreg, remote_sends hi hready (illegalFn_formR_fn8_zero (by decide) hfn) hf hal hr hno (hsome hw)]
    rfl
  case rldSpad =>
    rw [exec_rld_spad hreg, remote_sends hi hready (illegalFn_formR_fn8_zero (by decide) hfn) hf hal hr hh hnone]
    rfl
  case rstReg =>
    rw [exec_rst_reg hreg, remote_sends hi hready (illegalFn_formR_fn8_zero (by decide) hfn) hf hal hr hno hnone]
    rfl
  case rstSpad =>
    rw [exec_rst_spad hreg, remote_sends hi hready (illegalFn_formR_fn8_zero (by decide) hfn) hf hal hr hh hnone]
    rfl
  case ratom =>
    exact congrArg Host.Outcome.next
      (remote_sends hi hready (illegalFn_ratom hfn) (by simp [hreg, hsz, ha]) hal hr hno hnone)
  case ratomF =>
    exact congrArg Host.Outcome.next
      (remote_sends hi hready (illegalFn_formR_fn8_zero (by decide) hfn) (by simp [hreg, hsz]) hal hr hno (hsome hw))
  case rcasReg =>
    rw [exec_rcas_reg hreg hsz hnt hat,
      remote_sends hi hready (illegalFn_formR_fn8_zero (by decide) hfn) rfl (not_misaligned hal) hr hno (hsome hw)]
    rfl
  case rcasSpad =>
    rw [exec_rcas_spad hreg hsz ha hnt hat,
      remote_sends hi hready (illegalFn_formR_fn8_zero (by decide) hfn) rfl (not_misaligned hal) hr hh hnone]
    rfl
  case rmcstReg =>
    rw [exec_rmcst_reg hreg, remote_sends hi hready (illegalFn_formR_fn8_zero (by decide) hfn) hf hal hr hno hnone]
    rfl
  case rmcstSpad =>
    rw [exec_rmcst_spad hreg, remote_sends hi hready (illegalFn_formR_fn8_zero (by decide) hfn) hf hal hr hh hnone]
    rfl

end Sys2Proof.Machine
end

section
/-! The tile DMA (03 R89-R91): a transfer at its issue, a piece at its, and how pieces follow each other. -/

namespace Sys2Proof.Machine

/-- The serial number that a new transfer takes lies above those of all that the core has. -/
theorem id_lt_foldl_max (dmas : List Dma) (m : Nat) :
    m ≤ dmas.foldl (fun m x => max m (x.id + 1)) m ∧ ∀ y ∈ dmas, y.id < dmas.foldl (fun m x => max m (x.id + 1)) m := by
  induction dmas generalizing m with
  | nil => exact ⟨Nat.le_refl m, fun _ h => nomatch h⟩
  | cons x dmas ih =>
    obtain ⟨hle, hlt⟩ := ih (max m (x.id + 1))
    refine ⟨(Nat.le_max_left ..).trans hle, fun y hy => ?_⟩
    rcases List.mem_cons.mp hy with rfl | hy
    · exact (Nat.le_max_right ..).trans hle
    · exact hlt y hy

/-- The serial number of the next transfer. -/
def CoreSt.nextDma (cs : CoreSt) : Nat := cs.dmas.foldl (fun m x => max m (x.id + 1)) 0

/-- The transfer that a TDMA with descriptor `d` begins. -/
def CoreSt.newDma (cs : CoreSt) (w : FormX) (d : Nat) : Dma :=
  { desc := d, store := (w.r.fn8 = 1 : Bool), w1 := w.w1, cnt := w.r.a.toNat, pcAt := cs.pc, row := 0, byte := 0, out := 0
    failed := false, id := cs.nextDma }

/-- A TDMA that passes its checks hands its transfer to the DMA unit. -/
theorem exec_tdma {s : State} {c : CoreId} {l : Loc} {w : FormX} {ad d : Nat} {e : W64} (hi : Issues s c l 16)
    (had : ((s.core l).getX w.r.b.toNat).toNat % spadSize = ad) (hd : sread (s.core l).spad ad 32 = d)
    (he : s.lnt l.p (dmaNode d) = e) (hfence : (s.core l).fence = false) (hunit : (s.core l).dmas.any Dma.left = false)
    (hlive : lnLive e = true)
    (herr : firstErr [(illegalFn (w.r.w0 0x88), cILLEGAL), (tdmaRsv w, cRESFIELD), (dmaDescBad d, cDESC),
      (dmaRangeBad d || s.ownClusterBad e (dmaSpace d) (dmaRoff d) (rNT w.w1) (rNCLU w.w1)
        || s.ownClusterBad e (dmaSpace d) (dmaLast d) false 0, cADDR)] = none)
    (hr : Readable (s.core l) [w.r.b.toNat] [(ad, 32)]) (hh : s.hazard l [.now ad 32 false, dmaRng d (w.r.fn8 = 1)] = false) :
    exec (.tdma c w) s =
      .next (s.setCore l (({ s.core l with dmas := (s.core l).dmas ++ [(s.core l).newDma w d] } : CoreSt).adv 16)) := by
  subst had hd he
  refine congrArg Host.Outcome.next (issue_eff16 hi ?_)
  refine (if_neg ?wait).trans (checkedDead_act_of_live (if_pos hlive) hr hh herr)
  case wait => simp [hfence, hunit]

/-- The request of a transfer's next piece. -/
def Dma.pieceReq (x : Dma) (spad : Mem) : RReq :=
  { w1Req x.w1 (if x.store then 2 else 1) x.piece.1 with
    size := x.piece.2.2 / 8 - 1, space := dmaSpace x.desc
    data := if x.store then sread spad x.piece.2.1 x.piece.2.2 else 0
    words := if x.store then x.piece.2.2 / 8 else 0 }

/-- The next piece is sent, and the transfer goes on behind it. -/
theorem exec_tdmaPieceIssue {s : State} {c : CoreId} {l : Loc} {x : Dma} (hon : On s) (hloc : s.locate c = some l)
    (hx : (s.core l).dmas.find? Dma.left = some x) (hslots : s.slotsFull = false) (hops : s.dmaOps l < 256)
    (hlive : lnLive (s.lnt l.p (dmaNode x.desc)) = true)
    (hflip : s.flipWait l (dmaNode x.desc) (dmaSpace x.desc) x.piece.1 = false)
    (hclean : x.store = true → (s.core l).poisonIn x.piece.2.1 x.piece.2.2 = none) :
    exec (.tdmaPieceIssue c) s = .next ((s.setCore l { s.core l with
        dmas := replaceDma (x.next x.piece.2.2) (s.core l).dmas }).sendOn l.p (.dma l x.pcAt x.id)
      (if x.store then .none else .spad l x.piece.2.1 x.piece.2.2) (dmaNode x.desc) (x.pieceReq (s.core l).spad)) := by
  have hpz : (x.store && ((s.core l).poisonIn x.piece.2.1 x.piece.2.2).isSome) = false := by
    cases hst : x.store with
    | false => rfl
    | true => rw [hclean hst]; rfl
  refine congrArg Host.Outcome.next ?_
  simp only [hloc, hx, hpz, hflip, hlive, hslots, show s.plat.power = .running from hon, decide_eq_false (Nat.not_le.mpr hops),
    ge_iff_le]
  rfl

/-- 03 R89-R91. -/
theorem tileDma_clauses : Claims.TileDma := by
  intro s c l
  refine ⟨?issue, ?piece⟩
  case issue =>
    intro w hi cs ad d e hfence hunit hfn hrsv hdesc hrange hclu hclu2 hlive hr hh
    refine ⟨cs.nextDma, (id_lt_foldl_max cs.dmas 0).2, exec_tdma (e := e) hi rfl rfl rfl hfence hunit hlive ?_ hr hh⟩
    simp [firstErr, illegalFn_tdma hfn, hrsv, hdesc, hrange, hclu, hclu2]
  case piece =>
    intro x hon hloc hx hslots hops hlive p hflip hclean
    exact exec_tdmaPieceIssue hon hloc hx hslots hops hlive hflip hclean

/-- 03 R91: a piece ends with its row or with its 256 B block, whichever comes first. -/
theorem dmaPieces_coverRows : Claims.DmaPiecesCoverRows := by
  intro x hx p
  have hlen : p.2.2 = min (dmaRbytes x.desc - x.byte) (256 - p.1 % 256) := rfl
  refine ⟨by omega, by omega, by omega, by omega, rfl, fun hlt => ?inRow, fun heq => ?nextRow⟩
  case inRow => simp [Dma.next, Nat.not_le.mpr hlt]
  case nextRow => simp [Dma.next, heq]

/-- Settles O9: TDMA and its pieces by their checks, the pieces' succession by their length. -/
theorem tileDmaTransfers : Obligations.TileDmaTransfers := ⟨tileDma_clauses, dmaPieces_coverRows⟩

end Sys2Proof.Machine
end

section
/-! The decode batcher (03 R103, R104). -/

namespace Sys2Proof.Machine

/-! Groups that issue. -/

@[simp] theorem CoreSt.arr_withBatch (cs : CoreSt) (b : List BGroup) (i : Nat) :
    ({ cs with batch := b } : CoreSt).arr i = cs.arr i := by
  unfold CoreSt.arr
  split <;> rfl

/-- A group enters its queue whatever else is open. -/
theorem issueGroup_withBatch (cs : CoreSt) (b b' : List BGroup) (g : BGroup) :
    { ({ cs with batch := b } : CoreSt).issueGroup g with batch := b' } = { cs.issueGroup g with batch := b' } := by
  simp only [CoreSt.issueGroup, CoreSt.arr_withBatch]
  unfold CoreSt.setArr
  split <;> rfl

/-- What is read apart is read together. -/
theorem readable_append {cs : CoreSt} {rs qs : List Nat} {ranges : List (Nat × Nat)} (hr : Readable cs rs)
    (hq : Readable cs qs ranges) : Readable cs (rs ++ qs) ranges := by
  obtain ⟨hpr, hur⟩ := hr
  obtain ⟨hpq, huq⟩ := hq
  have hreg : cs.poisonReg rs = none := by
    cases h : cs.poisonReg rs with
    | none => rfl
    | some r => simp [CoreSt.dataUe, h] at hur
  refine ⟨?_, ?_⟩
  · rw [CoreSt.pendingAny, List.any_append, Bool.or_eq_false_iff]
    exact ⟨hpr, hpq⟩
  · have happ : cs.poisonReg (rs ++ qs) = cs.poisonReg qs := by
      rw [CoreSt.poisonReg, List.find?_append, ← CoreSt.poisonReg, hreg, Option.none_or, CoreSt.poisonReg]
    rw [CoreSt.dataUe, happ]
    exact huq

/-! A request put into a group. -/

/-- The request of a BPUT. -/
def CoreSt.bputReq (cs : CoreSt) (w : FormX) : BReq :=
  { row := (cs.getX w.r.b.toNat).toNat % spadSize, out := (cs.getX w.r.c.toNat).toNat % spadSize, cnt := w.r.a.toNat }

/-- Whether a group issues with its first request (03 R104). -/
def State.noBatWait (s : State) (l : Loc) : Bool := !(s.part l.p).ruled && batLimit (s.core l) == 0

theorem noBatWait_of_waits {s : State} {l : Loc} (h : (s.part l.p).ruled = true ∨ 0 < (s.core l).batwait) :
    s.noBatWait l = false := by
  rcases h with h | h
  · simp [State.noBatWait, h]
  · have hlim : batLimit (s.core l) ≠ 0 := by
      rw [batLimit]
      omega
    simp [State.noBatWait, hlim]

/-- What a BPUT comes to when the batcher holds the group of its request alone. -/
def State.putAlone (s : State) (l : Loc) (g : BGroup) : Iss :=
  if g.goes g.tmpl (s.noBatWait l) && !(s.core l).room g.arr then .stall
  else .eff (s.setCore l ((({ s.core l with batch := [g] } : CoreSt).issueReady g.tmpl (s.noBatWait l)).adv 16))

/-- A group that is not full yet waits. -/
theorem putAlone_waits {s : State} {l : Loc} {g : BGroup} (hlen : g.reqs.length < 8) (hwait : s.noBatWait l = false) :
    s.putAlone l g = .eff (s.setCore l (({ s.core l with batch := [g] } : CoreSt).adv 16)) := by
  have hgoes : g.goes g.tmpl (s.noBatWait l) = false := by simp [BGroup.goes, hwait, hlen]
  simp [State.putAlone, hgoes, CoreSt.issueReady]

/-- The eighth request makes its group issue. -/
theorem putAlone_issues {s : State} {l : Loc} {g : BGroup} (hlen : 8 ≤ g.reqs.length) (hroom : (s.core l).room g.arr = true) :
    s.putAlone l g = .eff (s.setCore l (({ (s.core l).issueGroup g with batch := [] } : CoreSt).adv 16)) := by
  have hgoes : g.goes g.tmpl (s.noBatWait l) = true := by simp [BGroup.goes, hlen]
  simp [State.putAlone, hgoes, hroom, CoreSt.issueReady, issueGroup_withBatch]

/-- The group that the template `tm` at `ta` opens. -/
def State.newGroup (s : State) (l : Loc) (ta tm : Nat) : BGroup :=
  let wgt := ((s.core l).getX (bits tm 20 6)).toNat % spadSize
  { tmpl := ta, t0 := w64 (bits tm 0 64), t1 := w64 (bits tm 64 64), wgt, hdr := sread (s.core l).spad wgt 16, reqs := []
    opened := s.now }

/-- The ranges that the opening of a group with template `tm` reads at once: its template and its weights. -/
def BGroup.openRngs (g : BGroup) (tm : Nat) : List Rng :=
  .now g.tmpl 32 false :: (wgtRanges g.hdr g.wgt (32 * (bits tm 64 7 + 1))).map (fun r => .now r.1 r.2 false)

/-- The template `tm` of a group is readable, and its MMA.F passes the checks of 04 R112, R113, R118, R120 and R121. -/
structure BGroup.Checked (g : BGroup) (cs : CoreSt) (tm : Nat) : Prop where
  readable : Readable cs [bits tm 20 6] [(g.tmpl, 32)]
  template : templateBad tm = false
  format : hdrFmt g.hdr ≤ 12
  pair : pairBad (bits tm 40 4) (hdrFmt g.hdr) = false
  header : hdrBad g.hdr (32 * (bits tm 64 7 + 1)) = false
  glyph : bit tm 35 = true → (cs.drainGlyph (bits tm 32 2)).isSome = true
  aligned : g.wgt % 16 = 0

section
variable {s : State} {c : CoreId} {l : Loc} {w : FormX} (hi : Issues s c l 16) (hfn : w.r.fn8 = 0)
  (hrsv : FormR.tailRsv w.r = false) (hw1 : w.w1 = 0) (hal : ((s.core l).bputReq w).out % 8 = 0)
include hi hfn hrsv hw1 hal

/-- A request whose template has the one open group joins it. -/
theorem exec_bput_joins {g : BGroup} {t : State} (hr : Readable (s.core l) [w.r.b.toNat, w.r.c.toNat, w.r.d.toNat])
    (hbatch : (s.core l).batch = [g]) (htmpl : g.tmpl = (s.core l).spadAt w)
    (hout : s.outBusy l (s.core l) g ((s.core l).bputReq w) = false)
    (hh : s.hazard l (g.rowRng ((s.core l).bputReq w)) = false)
    (hput : s.putAlone l { g with reqs := g.reqs ++ [(s.core l).bputReq w] } = .eff t) :
    exec (.bput c w) s = .next t := by
  have hold : (s.core l).batch.find? (fun h => h.tmpl == (s.core l).spadAt w) = some g := by simp [hbatch, htmpl]
  have hcode : illegalFn (w.r.w0 0xA0) = false := illegalFn_formR_fn8_zero (by decide) hfn
  refine congrArg Host.Outcome.next (issue_eff16 hi ?_)
  simp only [CoreSt.spadAt] at hold
  dsimp only
  rw [hold]
  simp only [Option.isSome_some, Option.getD_some]
  refine (if_neg ?free).trans ((checked_act hr.1 ?hazard ?errs hr.2).trans ?act)
  case free =>
    rw [CoreSt.bputReq] at hout
    rw [hout, Bool.and_false]
    decide
  case hazard => exact (congrArg (s.hazard l) (List.append_nil _)).trans hh
  case errs =>
    rw [CoreSt.bputReq] at hal
    simpa [firstErr, hcode, hrsv, hw1] using hal
  case act =>
    rw [CoreSt.spadAt] at htmpl
    rw [← hput]
    simp [State.putAlone, hbatch, joinGroup, htmpl, State.noBatWait, CoreSt.bputReq]

/-- A request whose template passes the checks of its MMA.F opens a group. -/
theorem exec_bput_opens {g : BGroup} {tm : Nat} {t : State}
    (hr : Readable (s.core l) [w.r.b.toNat, w.r.c.toNat, w.r.d.toNat]) (hbatch : (s.core l).batch = [])
    (htm : sread (s.core l).spad ((s.core l).spadAt w) 32 = tm) (hg : s.newGroup l ((s.core l).spadAt w) tm = g)
    (hok : g.Checked (s.core l) tm) (hout : s.outBusy l (s.core l) g ((s.core l).bputReq w) = false)
    (hh : s.hazard l (g.rowRng ((s.core l).bputReq w) ++ g.openRngs tm) = false)
    (hput : s.putAlone l { g with reqs := [(s.core l).bputReq w] } = .eff t) : exec (.bput c w) s = .next t := by
  have hold : (s.core l).batch.find? (fun h => h.tmpl == (s.core l).spadAt w) = none := by simp [hbatch]
  have hcode : illegalFn (w.r.w0 0xA0) = false := illegalFn_formR_fn8_zero (by decide) hfn
  subst htm hg
  obtain ⟨htr, htmpl, hfmt, hpair, hhdr, hglyph, hwgt⟩ := hok
  have hread := readable_append hr htr
  refine congrArg Host.Outcome.next (issue_eff16 hi ?_)
  simp only [CoreSt.spadAt] at hold
  dsimp only
  rw [hold]
  simp only [Option.isSome_none, Option.getD_none]
  refine (if_neg ?free).trans ((checked_act hread.1 hh ?errs hread.2).trans ?act)
  case free =>
    refine fun hbusy => Bool.false_ne_true (hout.symm.trans ?_)
    exact (Bool.and_eq_true _ _ ▸ hbusy).2
  case errs =>
    simp only [State.newGroup, CoreSt.spadAt, CoreSt.bputReq] at htmpl hfmt hpair hhdr hglyph hwgt hal
    have hfmt' := Nat.not_lt.mpr hfmt
    cases hatt : bit (sread (s.core l).spad (((s.core l).getX w.r.d.toNat).toNat % spadSize) 32) 35 with
    | false => simp [firstErr, hcode, hrsv, hw1, htmpl, hfmt', hpair, hhdr, hwgt, hal]
    | true =>
      obtain ⟨img, himg⟩ := Option.isSome_iff_exists.mp (hglyph hatt)
      simp [firstErr, hcode, hrsv, hw1, htmpl, hfmt', hpair, hhdr, hwgt, hal, himg]
  case act =>
    rw [← hput]
    simp [State.putAlone, hbatch, joinGroup, State.noBatWait, CoreSt.bputReq, State.newGroup, CoreSt.spadAt]

end

/-! BFLUSH, and the expiry of the wait. -/

section
variable {s : State} {c : CoreId} {l : Loc}

/-- BFLUSH goes on once no group is left, and otherwise stays at its place. -/
theorem exec_bflush (hi : Issues s c l 8) : exec (.bflush c ⟨0, 0, 0, 0, 0, 0, 0⟩) s = .next (s.setCore l
    (if ((s.core l).flushRoom (s.core l).batch.length).batch.isEmpty
      then ((s.core l).flushRoom (s.core l).batch.length).adv 8 else (s.core l).flushRoom (s.core l).batch.length)) :=
  congrArg Host.Outcome.next (issue_eff8 hi
    (checked_act (pendingAny_nil _) (hazard_nil s l) (firstErr_bare (by decide)) (dataUe_nil _)))

theorem flushRoom_none {cs : CoreSt} (h : cs.batch = []) : cs.flushRoom cs.batch.length = cs := by
  rw [h]
  rfl

theorem flushRoom_one {cs : CoreSt} {g : BGroup} (h : cs.batch = [g]) (hroom : cs.room g.arr = true) :
    cs.flushRoom cs.batch.length = { cs.issueGroup g with batch := [] } := by
  simp [h, CoreSt.flushRoom, hroom]

/-- The earliest group whose array has room leaves the others in their order. -/
theorem takeRoom_append {cs : CoreSt} {full rest : List BGroup} {g : BGroup} (hfull : ∀ x ∈ full, cs.room x.arr = false)
    (hroom : cs.room g.arr = true) : cs.takeRoom (full ++ g :: rest) = some (g, full ++ rest) := by
  induction full with
  | nil => simp [CoreSt.takeRoom, hroom]
  | cons x full ih =>
    have hx := hfull x List.mem_cons_self
    have hrest := ih fun y hy => hfull y (List.mem_cons_of_mem x hy)
    simp [CoreSt.takeRoom, hx, hrest]

theorem exec_batchWaitExpiry {g : BGroup} {rest : List BGroup} (hon : On s) (hloc : s.locate c = some l)
    (htake : (s.core l).takeRoom (s.core l).batch = some (g, rest)) (hruled : (s.part l.p).ruled = false) :
    exec (.batchWaitExpiry c) s = .next ((s.reach (g.opened + batLimit (s.core l))).setCore l
      { (s.core l).issueGroup g with batch := rest }) :=
  congrArg Host.Outcome.next (by simp [hloc, htake, hruled, show s.plat.power = .running from hon])

end

/-- Settles O10: a request by whether its template has a group, BFLUSH and the expiry by the room of the arrays. -/
theorem decodeBatcher : Obligations.DecodeBatcher := by
  unfold Obligations.DecodeBatcher
  intro s c l
  refine ⟨?put, fun hi hbatch => ?flushNone, fun g hi hbatch hroom => ?flushOne,
    fun g full r hon hloc hbatch hruled hfull hroom => ?expiry⟩
  case put =>
    intro w g hi hfn hfmt hrsv hw1 cs x q waits hr hal
    have htail : FormR.tailRsv w.r = false := by simp [FormR.tailRsv, hfmt, hrsv]
    refine ⟨fun hbatch htmpl hout hh => ⟨fun hlen hwait => ?joins, fun hlen hroom => ?fills⟩, ?opens⟩
    case joins =>
      exact exec_bput_joins hi hfn htail hw1 hal hr hbatch htmpl hout hh
        (putAlone_waits (by simpa using Nat.succ_lt_succ hlen) (noBatWait_of_waits hwait))
    case fills =>
      exact exec_bput_joins hi hfn htail hw1 hal hr hbatch htmpl hout hh (putAlone_issues (by simp [hlen]) hroom)
    case opens =>
      intro t wr kk h hbatch hg htr htmpl hform hpair hhdr hglyph hwgt hout hh hwait
      have ht : sread (s.core l).spad ((s.core l).spadAt w) 32 = t := rfl
      have hhdr' : sread (s.core l).spad g.wgt 16 = h := rfl
      clear_value t h
      have hgw : g.wgt = (cs.getX wr).toNat % 2 ^ 18 := congrArg BGroup.wgt hg
      have hgh : g.hdr = h := congrArg BGroup.hdr hg
      have hgt : g.tmpl = x w.r.d := congrArg BGroup.tmpl hg
      have hnew : s.newGroup l (cs.spadAt w) t = g := by
        rw [hg, ← hhdr', hgw]
        rfl
      subst hgh
      have hok : g.Checked cs t := ⟨hgt ▸ htr, htmpl, hform, hpair, hhdr, hglyph, hwgt⟩
      rw [← hgt] at hh
      exact exec_bput_opens hi hfn htail hw1 hal hr hbatch ht hnew hok hout hh
        (putAlone_waits (by simp) (noBatWait_of_waits hwait))
  case flushNone =>
    rw [exec_bflush hi, flushRoom_none hbatch, hbatch]
    rfl
  case flushOne =>
    rw [exec_bflush hi, flushRoom_one hbatch hroom]
    rfl
  case expiry =>
    exact exec_batchWaitExpiry hon hloc (hbatch ▸ takeRoom_append hfull hroom) hruled

end Sys2Proof.Machine
end

section
/-! Matrix arrays: issue, streaming and completion (04 R110-R112, R123, R127, R144, R145). -/

namespace Sys2Proof.Machine

/-! An array's state among the rest of its core's. -/

section
variable (cs : CoreSt) (i : Nat) (ar : ArrSt)

@[simp] theorem CoreSt.arr_setArr_same : (cs.setArr i ar).arr i = ar := by
  unfold CoreSt.setArr
  split <;> simp_all [CoreSt.arr]

@[simp] theorem CoreSt.setArr_cnt : (cs.setArr i ar).cnt = cs.cnt := by
  unfold CoreSt.setArr
  split <;> rfl

@[simp] theorem CoreSt.setArr_pc : (cs.setArr i ar).pc = cs.pc := by
  unfold CoreSt.setArr
  split <;> rfl

@[simp] theorem CoreSt.setArr_vr : (cs.setArr i ar).vr = cs.vr := by
  unfold CoreSt.setArr
  split <;> rfl

theorem CoreSt.arr_withXPend (p : List Nat) : ({ cs with xPend := p } : CoreSt).arr i = cs.arr i := by
  unfold CoreSt.arr
  split <;> rfl

theorem CoreSt.arr_withSpad (m : Mem) : ({ cs with spad := m } : CoreSt).arr i = cs.arr i := by
  unfold CoreSt.arr
  split <;> rfl

@[simp] theorem CoreSt.arr_clean (rs : List (Nat × Nat)) : (cs.clean rs).arr i = cs.arr i := by
  unfold CoreSt.arr
  split <;> rfl

end

/-! Issue (04 R110-R112). -/

/-- A core whose array `i` has the operation behind the others in its queue. -/
def CoreSt.queued (cs : CoreSt) (i : Nat) (o : MOp) : CoreSt := cs.setArr i { cs.arr i with q := (cs.arr i).q ++ [o] }

theorem enqueue_of_room {cs : CoreSt} {i : Nat} (hroom : cs.room i = true) (s : State) (l : Loc) (o : MOp) :
    s.enqueue l cs i o = .eff (s.setCore l ((cs.queued i o).adv 16)) :=
  if_pos hroom

/-- The core while its register `r` waits for an overflow count; x0 waits for none. -/
def CoreSt.awaiting (cs : CoreSt) (r : Nat) : CoreSt := if r = 0 then cs else { cs with xPend := addOnce cs.xPend r }

@[simp] theorem CoreSt.arr_awaiting (cs : CoreSt) (r i : Nat) : (cs.awaiting r).arr i = cs.arr i := by
  unfold CoreSt.awaiting
  split
  · rfl
  · exact cs.arr_withXPend i _

@[simp] theorem CoreSt.room_awaiting (cs : CoreSt) (r i : Nat) : (cs.awaiting r).room i = cs.room i := by
  simp [CoreSt.room]

/-- The scratchpad ranges that an instruction with the tracked ranges `rg` reads. -/
def readRanges (rg : List Rng) : List (Nat × Nat) := (rg.filter (fun r => !r.w)).map (fun r => (r.a, r.n))

section
variable {s : State} {c : CoreId} {l : Loc} {w : FormX} {op : Nat} {k : MKind} {o : MOp} (hi : Issues s c l 16)
  (ho : mmaOp k (s.core l) w (w.r.w0 op) = o) (hroom : (s.core l).room (w.r.fn8.toNat % 4) = true)
include hi ho hroom

/-- A multiply that passes its checks enters its array's queue. -/
theorem mma_queued {rg : List Rng} (hrg : o.rngs ((s.core l).drainGlyph (w.r.fn8.toNat % 4)) = rg)
    (herr : firstErr (mmaErrs k (s.core l) w) = none)
    (hr : Readable (s.core l) ([w.r.a.toNat, w.r.b.toNat, w.r.c.toNat]
      ++ (if k = .mmaS ∨ o.acc.isSome = true then [w.r.d.toNat] else [])) (readRanges rg))
    (hh : s.hazard l rg = false) :
    s.mma c op k w = s.setCore l (((s.core l).queued (w.r.fn8.toNat % 4) o).adv 16) := by
  subst ho hrg
  exact issue_eff16 hi ((checked_act hr.1 hh herr hr.2).trans (enqueue_of_room hroom _ _ _))

/-- A SPARSIFY that passes its checks enters its array's queue, and the register of its overflow count waits. -/
theorem sparsifyIssue_queued (hfn : bits w.r.fn8.toNat 2 6 = 0) (hd : w.r.d = 0) (hrsv : FormR.tailRsv w.r = false)
    (hw1 : fld w.w1 7 57 = 0) (hfmt : hdrFmt o.hdr ≤ 12) (hdense : hdrSparse o.hdr = false)
    (hhdr : hdrBad o.hdr o.depth = false) (hrow : o.row % 16 = 0) (hout : o.out % 16 = 0) (hdst : Writable (s.core l) o.dst)
    (hr : Readable (s.core l) [w.r.a.toNat, w.r.b.toNat] (readRanges (o.rngs none)))
    (hh : s.hazard l (o.rngs none) = false) :
    s.sparsifyIssue c op k w =
      s.setCore l ((((s.core l).awaiting o.dst).queued (w.r.fn8.toNat % 4) o).adv 16) := by
  subst ho
  have hroom' := ((s.core l).room_awaiting (mmaOp k (s.core l) w (w.r.w0 op)).dst _).trans hroom
  refine issue_eff16 hi ((if_neg (Bool.eq_false_iff.mp hdst)).trans ((checked_act hr.1 hh ?errs hr.2).trans ?act))
  case errs => simp [firstErr, hfn, hd, hrsv, hw1, Nat.not_lt.mpr hfmt, hdense, hhdr, hrow, hout]
  case act => exact enqueue_of_room hroom' _ _ _

end

/-- The header of a SPARSIFY's operand is read at the operand's address (04 R117, R139). -/
theorem mmaOp_hdr_of_sparsify {k : MKind} (hk : k = .sparsify ∨ k = .sparsifyT) (cs : CoreSt) (w : FormX) (w0 : Nat) :
    (mmaOp k cs w w0).hdr = sread cs.spad (mmaOp k cs w w0).row 16 := by
  rcases hk with rfl | rfl <;> rfl

/-- 04 R110-R112. -/
theorem matrixIssue_clauses : Claims.MatrixIssue := by
  intro s c l w hi cs i a op queued rng reads hroom
  refine ⟨?multiply, ?sparsify⟩
  case multiply =>
    rintro k (rfl | rfl) herr hr hh
    · exact congrArg Host.Outcome.next (mma_queued hi rfl hroom rfl herr hr hh)
    · exact congrArg Host.Outcome.next (mma_queued hi rfl hroom rfl herr hr hh)
  case sparsify =>
    intro k hk o h hfn hd hfmt hrsv hw1 hform hdense hhdr hrow hout hdst hr hh
    have htail : FormR.tailRsv w.r = false := by simp [FormR.tailRsv, hfmt, hrsv]
    have hh' : o.hdr = h := mmaOp_hdr_of_sparsify hk cs w _
    rw [← hh'] at hform hdense hhdr
    have hq : queued k (cs.awaiting o.dst) =
        .next (s.setCore l (((cs.awaiting o.dst).queued i o).adv 16)) := by
      rw [CoreSt.queued, CoreSt.arr_awaiting]
    refine Eq.trans ?_ hq.symm
    rcases hk with rfl | rfl
    · exact congrArg Host.Outcome.next
        (sparsifyIssue_queued hi rfl hroom hfn hd htail hw1 hform hdense hhdr hrow hout hdst hr hh)
    · exact congrArg Host.Outcome.next
        (sparsifyIssue_queued hi rfl hroom hfn hd htail hw1 hform hdense hhdr hrow hout hdst hr hh)

/-! Streaming and completion (04 R110, R123, R127, R144, R145). -/

/-- The queue's head takes a free set with its products formed. -/
theorem startHead_of_queue {cs : CoreSt} {i : Nat} {o : MOp} {rest : List MOp} (hq : (cs.arr i).q = o :: rest)
    (hbad : (cs.arr i).bad = false) :
    startHead cs i = cs.setArr i { cs.arr i with q := rest, act := (cs.arr i).act ++ [o.start cs] } := by
  simp [startHead, hq, hbad]

section
variable {cs : CoreSt} {i : Nat} {m : MAct} {rest : List MAct} (hact : (cs.arr i).act = m :: rest)
include hact

/-- A multiply whose feeders read a poisoned word of the scratchpad leaves its set and does nothing else (04 R145). -/
theorem completeHead_of_poison (v : Env) {x : Nat} (hkind : m.op.isSparsify = false) (hbad : m.bad = some x) (hx : x < spadSize) :
    completeHead v cs i = ⟨cs.setArr i { cs.arr i with act := rest }, 0, 0, some (x, m.op.w0)⟩ := by
  simp only [completeHead, hact, hkind, hbad, hx, Nat.not_le.mpr hx, decide_false, b2n, if_true, Bool.not_false, Bool.or_true,
    List.filter_true, Bool.false_eq_true, if_false]

/-- What an MMA.F without a glyph writes as it completes: its eight rows, whose words lose their poison (04 R123). -/
theorem completeHead_mmaF (v : Env) (hkind : m.op.kind = .mmaF) (hgly : m.op.gly = false) (hreqs : m.op.breqs = none)
    (hbad : m.bad = none) :
    (completeHead v cs i).c =
      ({ cs.setArr i { cs.arr i with act := rest } with
        spad := writeRows (fun r => plainRow m r v.free) (m.op.rowAt m.op.ofmt) (fmtBits m.op.ofmt / 8) 8 0 cs.spad } :
        CoreSt).clean (m.op.outRanges m.op.ofmt 0 8) := by
  simp [completeHead, hact, MOp.isSparsify, MOp.nrows, hkind, hgly, hreqs, hbad]

end

/-- What an engine does on a core that is there, with the clocks running. -/
theorem onEngine_of_located {s : State} {c : CoreId} {l : Loc} (hon : On s) (hloc : s.locate c = some l) (f : Loc → State) :
    s.onEngine c f = f l := by
  simp [State.onEngine, hloc, show s.plat.power = .running from hon]

section
variable {s : State} {c : CoreId} {l : Loc} {arr : BitVec 2} (hon : On s) (hloc : s.locate c = some l)
include hon hloc

theorem exec_matrixStreamStart (hset : ((s.core l).arr arr.toNat).act.length < 2)
    (hfree : ((s.core l).arr arr.toNat).act.any (fun x => x.op.isSparsify) = false) :
    exec (.matrixStreamStart c arr) s = .next (s.setCore l (startHead (s.core l) arr.toNat)) := by
  refine congrArg Host.Outcome.next ((onEngine_of_located hon hloc _).trans (if_neg ?_))
  simp [hfree, hset]

section
variable {m : MAct} {rest : List MAct} (hact : ((s.core l).arr arr.toNat).act = m :: rest)
include hact

theorem exec_matrixComplete (hkind : m.op.isSparsify = false) (hready : m.ready = true) :
    exec (.matrixComplete c arr) s =
      .next ((s.engOut l (completeHead (s.env l) (s.core l) arr.toNat)).wake l) := by
  refine congrArg Host.Outcome.next ((onEngine_of_located hon hloc _).trans ?_)
  simp [hact, hkind, hready]

theorem exec_sparsifyComplete (hkind : m.op.isSparsify = true) :
    exec (.sparsifyComplete c arr) s = .next (s.engOut l (completeHead (s.env l) (s.core l) arr.toNat)) := by
  refine congrArg Host.Outcome.next ((onEngine_of_located hon hloc _).trans ?_)
  simp [hact, hkind]

end
end

/-- 04 R110, R123, R127, R144, R145. -/
theorem matrixStreamAndComplete_clauses : Claims.MatrixStreamAndComplete := by
  intro s c l arr hon hloc cs a
  refine ⟨fun o rest hq hset hfree hbad => ?start, fun m rest hact => ⟨fun hkind hready => ?complete,
    fun hkind => ?sparsify, fun x hkind hbad hx => ?poison, fun hkind hgly hreqs hbad => ?rows⟩⟩
  case start => rw [exec_matrixStreamStart hon hloc hset hfree, startHead_of_queue hq hbad]
  case complete => exact exec_matrixComplete hon hloc hact hkind hready
  case sparsify => exact exec_sparsifyComplete hon hloc hact hkind
  case poison =>
    have hready : m.ready = true := by simp [MAct.ready, hbad]
    rw [exec_matrixComplete hon hloc hact hkind hready, completeHead_of_poison hact _ hkind hbad hx]
    rfl
  case rows =>
    dsimp only
    rw [completeHead_mmaF hact _ hkind hgly hreqs hbad, CoreSt.arr_clean]
    refine ⟨rfl, cs.setArr_cnt _ _, cs.setArr_x _ _, cs.setArr_pc _ _, cs.setArr_vr _ _, ?_⟩
    rw [CoreSt.arr_withSpad (cs.setArr _ _), CoreSt.arr_setArr_same]

/-- Settles O11: issue by the checks that pass, streaming and completion by the oldest operation of the array. -/
theorem matrixArrays : Obligations.MatrixArrays := ⟨matrixIssue_clauses, matrixStreamAndComplete_clauses⟩

end Sys2Proof.Machine
end

section
/-! Vector instructions (05 R155-R172, R185): what the issue that all of them share answers, at once on an idle engine and behind
others in the engine's queue. -/

namespace Sys2Proof.Machine

/-- Where a vector instruction goes once its checks have passed: to the idle engine, or into its queue of four (05 R185). -/
def State.vplace (s : State) (l : Loc) (o : VOp) : Iss :=
  if !(s.core l).vBusy && (s.core l).vq.isEmpty then
    .eff (s.setCore l (({ vexec (s.env l) (s.core l) o with vBusy := true } : CoreSt).adv 8))
  else if (s.core l).vq.length ≥ 4 then .stall
  else .eff (s.setCore l (({ s.core l with vq := (s.core l).vq ++ [o] } : CoreSt).adv 8))

section
variable {s : State} {c : CoreId} {l : Loc} {op : Nat} {w : FormV} {xs : List Nat}

/-- A vector instruction whose checks pass goes to its place. -/
theorem vissue_of_place (h : VIssues s c l op w xs) {t : State} (ht : s.vplace l (vop (s.core l) op w) = .eff t) :
    s.vissue c op w = t := by
  obtain ⟨hi, rfl, herr, ⟨hpend, hclean⟩, hh, hgroups⟩ := h
  have hok : (firstErr (vErrs op (s.core l) w)).isNone = true := by rw [herr]; rfl
  refine issue_eff8 hi ((checked_act hpend ?track herr ?ranges).trans ?act)
  case track => rw [if_pos hok]; exact hh
  case ranges => rw [if_pos hok]; exact hclean
  case act => rw [hgroups]; exact ht

/-- On an idle engine a vector instruction has its effect as it issues. -/
theorem vissue_starts (h : VStarts s c l op w xs) {d : CoreSt}
    (hd : vexec (s.env l) (s.core l) (vop (s.core l) op w) = d) :
    Host.Outcome.next (s.vissue c op w) = vnext s l d := by
  obtain ⟨hi, hidle, hempty⟩ := h
  subst hd
  exact congrArg Host.Outcome.next (vissue_of_place hi (if_pos (by simp [hidle, hempty])))

/-- Behind others a vector instruction waits in the engine's queue of four. -/
theorem vissue_waits (h : VIssues s c l op w xs) (hbusy : (s.core l).vBusy = true ∨ (s.core l).vq ≠ [])
    (hroom : (s.core l).vq.length < 4) :
    s.vissue c op w =
      s.setCore l (({ s.core l with vq := (s.core l).vq ++ [vop (s.core l) op w] } : CoreSt).adv 8) := by
  refine vissue_of_place h ((if_neg ?_).trans (if_neg (Nat.not_le.mpr hroom)))
  rcases hbusy with hbusy | hbusy <;> simp [hbusy]

/-- Every vector instruction issues with the code that its row gives. -/
theorem exec_vectorRow {e : (CoreId → FormV → Instr) × Nat} (he : e ∈ vectorRows) :
    exec (e.1 c w) s = .next (s.vissue c e.2 w) := by
  fin_cases he <;> rfl

/-- The engine goes on with the head of its queue once the instruction in progress has finished. -/
theorem exec_vectorQueueStart (hon : On s) (hloc : s.locate c = some l) :
    exec (.vectorQueueStart c) s = .next (s.setCore l (vstart (s.env l) (s.core l))) :=
  congrArg Host.Outcome.next (onEngine_of_located hon hloc _)

end

/-- With nothing waiting the engine is idle again. -/
theorem vstart_nil {v : Env} {cs : CoreSt} (hq : cs.vq = []) : vstart v cs = { cs with vBusy := false } := by
  simp [vstart, hq]

/-- The head of the queue has its effect, and the engine stays busy. -/
theorem vstart_cons {v : Env} {cs : CoreSt} {o : VOp} {r : List VOp} (hq : cs.vq = o :: r) :
    vstart v cs = { vexec v { cs with vq := r } o with vBusy := true } := by
  simp [vstart, hq]

/-- 05 R155, R156, R161: each instruction's row of `vexec` is its clause. -/
theorem vectorMemoryAndMoves_clauses : Claims.VectorMemoryAndMoves := by
  intro s c l w xs cs f n sz x base at_
  exact ⟨fun hld => vissue_starts hld rfl, fun hst => vissue_starts hst rfl, fun hldx => vissue_starts hldx rfl,
    fun hstx => vissue_starts hstx rfl, fun hmovx => vissue_starts hmovx rfl, fun hiota => vissue_starts hiota rfl⟩

/-- 05 R185. -/
theorem vectorQueue_clauses : Claims.VectorQueue := by
  intro s c l
  refine ⟨fun e he w xs h hbusy hroom => ?waits, fun hon hloc => ⟨fun hq => ?ends, fun o r hq => ?starts⟩⟩
  case waits => rw [exec_vectorRow he, vissue_waits h hbusy hroom]
  case ends => rw [exec_vectorQueueStart hon hloc, vstart_nil hq]
  case starts => rw [exec_vectorQueueStart hon hloc, vstart_cons hq]

/-- Settles O12: the memory and move instructions on an idle engine, and the queue by whether the engine is idle. -/
theorem vectorMemoryAndQueue : Obligations.VectorMemoryAndQueue := ⟨vectorMemoryAndMoves_clauses, vectorQueue_clauses⟩

end Sys2Proof.Machine
end

section
/-! Element-wise vector functions (05 R158-R164). -/

namespace Sys2Proof.Machine

/-- A core whose place in stream 0 moves only where random words were drawn (05 R164). -/
theorem ite_withSeq0 {p : Prop} [Decidable p] (d : CoreSt) {q : Nat} :
    (if p then { d with seq0 := q } else d) = { d with seq0 := if p then q else d.seq0 } := by
  split <;> rfl

/-- How element i rounds: to nearest even, or with its word of stream 0 (05 R164). -/
theorem rnd_eq_rndOf (p : Prop) [Decidable p] (u : Nat → Nat) :
    (fun i => if p then Rnd.sto (u i) else .rne) = fun i => rndOf (decide p) (u i) := by
  simp [rndOf]

/-- Settles O13: each function's row of `vexec` is its clause, VCVT and VCVTM by whether they draw random words. -/
theorem vectorElementwise : Obligations.VectorElementwise := by
  unfold Obligations.VectorElementwise
  intro s c l w xs cs f fn n a b d rnd seq0 vd
  have hrnd : rnd = fun i => rndOf (decide (w.sr = 1)) ((s.env l).word 0 cs.seq0 i) := rnd_eq_rndOf _ _
  clear_value rnd
  subst hrnd
  refine ⟨fun hfp => vissue_starts hfp rfl, fun hfma => vissue_starts hfma rfl, fun hun => vissue_starts hun rfl,
    fun hint => vissue_starts hint rfl, fun hcmp => vissue_starts hcmp rfl, fun hsel => vissue_starts hsel rfl,
    fun hcvt => vissue_starts hcvt (ite_withSeq0 _), fun hcvtm => ?blocks⟩
  case blocks =>
    intro ew p sc
    refine ⟨fun hodd => ?fromBlocks, fun heven => ?toBlocks⟩
    case fromBlocks =>
      have hne : fn % 2 ≠ 0 := by omega
      exact vissue_starts hcvtm (if_neg hne)
    case toBlocks => exact vissue_starts hcvtm ((if_pos heven).trans (ite_withSeq0 _))

end Sys2Proof.Machine
end

section
/-! Vector functions across the elements (05 R165-R172). -/

namespace Sys2Proof.Machine

/-- The running sums of SCAN are the sums of the inputs so far, each as R165 adds them up. -/
theorem prefixSums_eq_map_foldl (a : Num) (xs : List Num) :
    prefixSums a xs = (List.range xs.length).map (fun i => (xs.take (i + 1)).foldl Num.add a) := by
  induction xs generalizing a with
  | nil => rfl
  | cons x xs ih => simp [prefixSums, ih, List.range_succ_eq_map, Function.comp_def]

theorem sgnMag_natCast (k : Nat) : sgnMag (decide ((k : Int) < 0)) k = k := by
  simp [sgnMag, Int.not_lt.mpr (Int.natCast_nonneg k)]

/-- Exact sums of integers are integers. -/
theorem Num.ofInt_add_ofInt (a b : Nat) : (Num.ofInt a).add (.ofInt b) = .ofInt (a + b : Nat) := by
  have habs : ((a : Int) + b).natAbs = a + b := by omega
  by_cases hzero : a = 0 ∧ b = 0
  · simp [Num.ofInt, Num.add, hzero]
  · simp [Num.ofInt, Num.add, hzero, sgnMag_natCast, habs]

theorem foldl_add_ofInt (l : List Nat) (k : Nat) :
    (l.map (fun (i : Nat) => Num.ofInt (i : Int))).foldl Num.add (.ofInt k) = .ofInt (l.foldl (· + ·) k : Nat) := by
  induction l generalizing k with
  | nil => rfl
  | cons x l ih => simp only [List.map_cons, List.foldl_cons, Num.ofInt_add_ofInt, ih]

/-- An integer sum modulo 2^32, as SCAN writes it for INT32 (05 R166). -/
def Num.int32 (p : Num) : Nat :=
  match p with
  | .fin _ m e _ => (m <<< e.toNat) % 2 ^ 32
  | _ => 0

theorem Num.int32_ofInt (k : Nat) : (Num.ofInt k).int32 = k % 2 ^ 32 := by
  simp [Num.ofInt, Num.int32]

/-- The inclusive sums that SCAN forms of the elements `a` of format `f`. -/
def scanSums (f : Nat) (a : List Nat) : List Nat :=
  (if f = 12 then prefixSums (.ofInt 0) (a.map (fun (i : Nat) => Num.ofInt (i : Int)))
    else prefixSums (.fin true 0 0 false) (nums f a)).map (fun p => if f = 12 then p.int32 else ofNum f .rne p)

/-- Sum i is the sum of the elements 0 to i, rounded once or modulo 2^32. -/
theorem scanSums_eq_map (f : Nat) (a : List Nat) :
    scanSums f a = (List.range a.length).map (fun i => if f = 12 then listSum (a.take (i + 1)) % 2 ^ 32
      else ofNum f .rne (Num.sum (nums f (a.take (i + 1))))) := by
  by_cases hf : f = 12
  · have hsum (i : Nat) : ((a.map (fun (i : Nat) => Num.ofInt (i : Int))).take (i + 1)).foldl Num.add (.ofInt 0) =
        .ofInt (listSum (a.take (i + 1)) : Nat) := by
      rw [← List.map_take]
      exact foldl_add_ofInt _ 0
    simp only [scanSums, hf, if_true, prefixSums_eq_map_foldl, List.length_map, List.map_map, Function.comp_def, hsum,
      Num.int32_ofInt]
  · simp only [scanSums, hf, if_false, prefixSums_eq_map_foldl, nums, List.length_map, List.map_map, Function.comp_def,
      Num.sum, List.map_take]

theorem length_elems (m : Mem) (sz n a : Nat) : (elems m sz n a).length = n := by
  induction n generalizing a with
  | zero => rfl
  | succ n ih => simp [elems, ih]

theorem length_vget (cs : CoreSt) (r fmt n : Nat) : (vget cs r fmt n).length = n := length_elems ..

/-- Settles O14: SCAN by its running sums, VRED by its function; the others' rows of `vexec` are their clauses. -/
theorem vectorAcrossElements : Obligations.VectorAcrossElements := by
  unfold Obligations.VectorAcrossElements
  intro s c l w xs cs f fn n a
  refine ⟨fun hred => vissue_starts hred ?reduce, fun hscan => ?scan, fun hsmax => vissue_starts hsmax rfl,
    fun htopk => vissue_starts htopk rfl, fun hsortk => vissue_starts hsortk rfl, fun hhist => vissue_starts hhist rfl,
    fun hrand => vissue_starts hrand ?random⟩
  case reduce =>
    simp only [vexec]
    congr 2
    split
    next hsum => exact (if_pos hsum).symm
    next hmax => exact ((if_neg (hmax.trans_ne Nat.one_ne_zero)).trans (if_pos hmax)).symm
    next hsum hmax => exact ((if_neg hsum).trans (if_neg hmax)).symm
  case scan =>
    intro sums
    have hsums : scanSums f a = sums := by rw [scanSums_eq_map, length_vget]
    exact vissue_starts hscan
      (congrArg (fun out => vput cs w.a.toNat f (if fn % 2 = 0 then out else 0 :: out.take (n - 1))) hsums)
  case random =>
    exact congrArg (fun us => ({ vput cs w.a.toNat f us with seq2 := cs.seq2 + (n + 3) / 4 } : CoreSt)) List.map_map

end Sys2Proof.Machine
end

section
/-! Glyph slots (05 R184): a gating slot's image takes effect when no Ductus instruction of its context needs the slot. -/

namespace Sys2Proof.Machine

/-- The earliest gating glyph load takes effect, or waits for an instruction that uses its slot, be it running or queued. -/
theorem exec_gatingGlyphLoad {s : State} {clu : BitVec 6} {g : GateLoad} {rest : List GateLoad} (hon : On s)
    (hloads : (s.ductus clu.toNat).loads = g :: rest) :
    exec (.gatingGlyphLoad clu) s = .next (if (s.ductus clu.toNat).gateBusy g.s g.slot then s
      else (s.setDuctus clu.toNat { s.ductus clu.toNat with loads := rest }).setCtx g.p g.s
        { s.ctx g.p g.s with gates := tput (s.ctx g.p g.s).gates (4 * g.l + g.slot) g.image }) := by
  refine congrArg Host.Outcome.next ?_
  simp only [hloads, show s.plat.power = .running from hon]
  rfl

/-- A GLOAD of an image for gating slot 0 of context 7, on its way. -/
def gateLoad : GateLoad := { p := 15, s := 7, l := 0, slot := 0, image := 0 }

/-- A DSCORE of the same context whose descriptor names gating slot 0. -/
def gateUser : DOp := { loc := ⟨15, 7, 0, 0⟩, op := 0xB0, fn8 := 0, cnt := 0, w1 := 0, desc := 0, xc := 0, xd := 0, rc := 0, pcAt := 0 }

/-- The load has reached cluster 0's engine behind the DSCORE, which waits in an idle unit's queue. -/
def gateWaits : State :=
  { State.reset with
    plat := { power := .running }
    duc := [(0, { q := [(0, [gateUser])], loads := [gateLoad] })] }

/-- Refutes O15: the load's clause asks only that no Ductus instruction runs, and in `gateWaits` a queued one still needs the slot,
so the load stays where it is. -/
theorem not_glyphSlots : ¬ Obligations.GlyphSlots := by
  unfold Obligations.GlyphSlots
  intro h
  obtain ⟨-, -, -, -, -, hload⟩ := h gateWaits ⟨0, 0⟩ ⟨15, 7, 0, 0⟩
  have htakes := hload 0 gateLoad [] rfl rfl rfl
  have hbusy : (gateWaits.ductus 0).gateBusy gateLoad.s gateLoad.slot = true := by decide
  have hwaits : exec (.gatingGlyphLoad 0) gateWaits = .next gateWaits :=
    (exec_gatingGlyphLoad rfl rfl).trans (congrArg Host.Outcome.next (if_pos hbusy))
  have hstates := Host.Outcome.next.inj (hwaits.symm.trans htakes)
  have hloads : [gateLoad] = [] := congrArg (fun t => (t.ductus 0).loads) hstates
  exact List.cons_ne_nil _ _ hloads

end Sys2Proof.Machine
end

section
/-! The issue of a Ductus instruction (06 R188, R192, R194), said once: what one that passes its checks leaves behind it, and how it
starts in an idle unit whose tables it may use. -/

namespace Sys2Proof.Machine

/-! Function codes: of the Ductus opcodes DNORM alone has unassigned ones. -/

theorem illegalFn_ductus {w : FormR} {op : Nat} (hop : op ∈ [0xB0, 0xB1, 0xB3, 0xB4, 0xB5, 0xB6, 0xB8, 0xB9, 0xBA]) :
    illegalFn (w.w0 op) = false := by
  have hlt : op < 256 := by simp only [List.mem_cons, List.not_mem_nil, or_false] at hop; omega
  simp only [illegalFn, FormR.op_w0 hlt]
  fin_cases hop <;> rfl

theorem illegalFn_dnorm {w : FormR} (hfn : w.fn8.toNat < 2) : illegalFn (w.w0 0xB2) = false := by
  simp only [illegalFn, FormR.op_w0 (by decide : 0xB2 < 256), FormR.fn8_w0 (by decide : 0xB2 < 256), ge_iff_le,
    decide_eq_false_iff_not]
  omega

/-! At issue. -/

/-- Where a Ductus instruction's descriptor of `al`-byte alignment lies, and the descriptor: x[B] itself where it has no bytes. -/
def CoreSt.ductusAddr (cs : CoreSt) (w : FormX) (al : Nat) : Nat := roundDown ((cs.getX w.r.b.toNat).toNat % spadSize) al

def CoreSt.ductusDesc (cs : CoreSt) (w : FormX) (size al : Nat) : Nat :=
  if size = 0 then (cs.getX w.r.b.toNat).toNat else sread cs.spad (cs.ductusAddr w al) size

/-- A descriptor of some bytes stands in the scratchpad. -/
theorem ductusDesc_of_bytes {size : Nat} (hsize : size ≠ 0) (cs : CoreSt) (w : FormX) (al : Nat) :
    cs.ductusDesc w size al = sread cs.spad (cs.ductusAddr w al) size := if_neg hsize

theorem firstErr_append_of_none {xs : List (Bool × Nat)} (h : firstErr xs = none) (ys : List (Bool × Nat)) :
    firstErr (xs ++ ys) = firstErr ys := by
  induction xs with
  | nil => rfl
  | cons x xs ih =>
    obtain ⟨b, code⟩ := x
    cases b
    · exact ih h
    · exact absurd h (Option.some_ne_none code)

section
variable {s : State} {c : CoreId} {l : Loc} {w : FormX} {op unit size al : Nat} {regs : List Nat} {dst : Option Nat} {rsv : Bool}
  {errs : Loc → CoreSt → Nat → List (Bool × Nat)} {opening : State → Loc → Nat → Nat → State}

/-- A Ductus instruction that passes its checks leaves its core, its destination waiting, and enters its unit. -/
theorem ductusIssue_enters {d : Nat} (hd : (s.core l).ductusDesc w size al = d)
    (h : DReads s c l unit regs ((s.core l).ductusAddr w al) size) (hfn : illegalFn (w.r.w0 op) = false) (hrsv : rsv = false)
    (hdst : ∀ r ∈ dst, Writable (s.core l) r) (herrs : firstErr (errs l (s.core l) d) = none) :
    s.ductusIssue c op unit w rsv size al regs dst errs opening =
      (opening (s.setCore l ((dst.elim (s.core l) (s.core l).awaits).adv 16)) l (s.phys l.p l.l) d).ductusEnter
        (s.phys l.p l.l) unit (ductusOp (s.core l) l op w d) := by
  subst hd
  obtain ⟨hi, hroom, hheld, hloads, hr, hh⟩ := h
  have hchecks : firstErr ([(illegalFn (w.r.w0 op), cILLEGAL), (rsv, cRESFIELD)]
      ++ errs l (s.core l) ((s.core l).ductusDesc w size al)) = none := by
    rw [firstErr_append_of_none (by simp [firstErr, hfn, hrsv])]
    exact herrs
  rw [State.ductusIssue]
  refine issue_eff16 hi ((if_neg ?stall).trans ((checked_act hr.1 hh hchecks hr.2).trans ?act))
  case stall =>
    have hfull : ¬(if (tget (s.ductus (s.phys l.p l.l)).run unit).isSome then 16 else 17)
        ≤ (tgetD (s.ductus (s.phys l.p l.l)).q unit []).length := by
      split <;> omega
    have hpend : dst.any (s.core l).xPend.contains = false := by
      cases dst with
      | none => rfl
      | some r => exact hdst r rfl
    simp only [hloads, List.any_nil, Bool.and_false, Bool.or_false, hpend, Bool.or_eq_true, decide_eq_true_eq, ge_iff_le]
    omega
  case act => cases dst <;> rfl

end

/-! In its unit. -/

/-- The context of a core that runs is on its cores. -/
theorem resident_of_located {s : State} {c : CoreId} {l : Loc} (hloc : s.locate c = some l) :
    (s.part l.p).resident = some l.s ∧ (s.ctx l.p l.s).st = .running := by
  simp only [State.locate] at hloc
  split at hloc
  next => exact nomatch hloc
  next p _ =>
    split at hloc
    next x _ hres _ =>
      split at hloc
      next hrun =>
        obtain rfl := Option.some.inj hloc
        exact ⟨hres, hrun.1⟩
      next => exact nomatch hloc
    next => exact nomatch hloc

theorem ductusLive_of_located {s : State} {c : CoreId} {l : Loc} (hloc : s.locate c = some l) {o : DOp} (ho : o.loc = l) :
    s.ductusLive o = true := by
  obtain ⟨hres, hrun⟩ := resident_of_located hloc
  simp [State.ductusLive, ho, hres, hrun]

@[simp] theorem State.setDuctus_setDuctus (s : State) (n : Nat) (v w : Ductus) :
    (s.setDuctus n v).setDuctus n w = s.setDuctus n w := by
  simp [State.setDuctus]

/-- A unit with instructions in its queue takes another one behind them. -/
theorem ductusEnter_queues {s : State} {n unit : Nat} {o : DOp} (hq : tgetD (s.ductus n).q unit [] ≠ []) :
    s.ductusEnter n unit o = s.ductusQueued n unit o :=
  if_neg (by simpa using hq)

/-- An idle unit starts the one instruction in its queue. -/
theorem ductusKick_starts {s : State} {n unit : Nat} {o : DOp} (hrun : tget (s.ductus n).run unit = none)
    (hq : tgetD (s.ductus n).q unit [] = [o]) (hlive : s.ductusLive o = true) {t : State}
    (ht : (s.setDuctus n { s.ductus n with q := tput (s.ductus n).q unit [] }).startDuctus n unit o = .went t) :
    s.ductusKick n unit = t := by
  simp only [State.ductusKick, hrun, hq, List.find?_cons_of_pos (l := []) hlive, dropOp, if_true, ht]

/-- An idle unit with nothing before it starts a live instruction at once. -/
theorem ductusEnter_starts {s : State} {n unit : Nat} {o : DOp} (hq : tgetD (s.ductus n).q unit [] = [])
    (hrun : tget (s.ductus n).run unit = none) (hlive : s.ductusLive o = true) {t : State}
    (ht : (s.ductusTaken n unit o).startDuctus n unit o = .went t) : s.ductusEnter n unit o = t := by
  simp only [State.ductusEnter, hq, List.isEmpty_nil, if_true, List.nil_append]
  refine ductusKick_starts (o := o) ?run ?queue ?live ?start
  case run =>
    rw [State.ductus_setDuctus]
    exact hrun
  case queue => rw [State.ductus_setDuctus, tgetD_tput_self]
  case live => exact hlive
  case start =>
    rw [State.ductus_setDuctus, State.setDuctus_setDuctus]
    exact ht

/-! Over its tables. -/

theorem eccTbl_of_clean {s : State} (hclean : s.upsets = []) (p a i n : Nat) : s.eccTbl p a i n = s := by
  simp [State.eccTbl, hclean]

/-- An instruction whose tables may be used, in a device without errors, goes on over them. -/
theorem overTables_ok {s : State} {o : DOp} {rs : List (Nat × Nat × Nat × Bool)} (hclean : s.upsets = []) (hok : s.tblCheck o rs = .ok)
    (f : State → Start) : s.overTables o rs f = f s := by
  have hecc : rs.foldl (fun (t : State) r => t.eccTbl o.loc.p r.1 r.2.1 r.2.2.1) s = s :=
    List.foldl_fixed' (fun r => eccTbl_of_clean hclean ..) rs
  rw [State.overTables, hok]
  exact congrArg f hecc

end Sys2Proof.Machine
end

section
/-! Selection and counts (06 R199-R204): each instruction, started over tables it may use, writes what its rule says. -/

namespace Sys2Proof.Machine

section
variable {s : State} {c : CoreId} {l : Loc} {w : FormX} {op unit : Nat} {fnRsv : Bool} {more : Loc → Nat → List (Bool × Nat)}

/-- An instruction over a layer descriptor, in an idle unit, passes its checks and starts. -/
theorem layerIssue_starts {d : Nat} (hd : (s.core l).ductusDesc w 128 16 = d)
    (h : DReads s c l unit [w.r.b.toNat] ((s.core l).ductusAddr w 16) 128) (hidle : DIdle s (s.phys l.p l.l) unit)
    (hlayer : firstErr (layerErrs d) = none) (hmore : firstErr (more l d) = none) (hfn : illegalFn (w.r.w0 op) = false)
    (hfnRsv : fnRsv = false) (hrsv : ductusRsv w true false false false = false) {t : State}
    (ht : ((s.setCore l ((s.core l).adv 16)).ductusTaken (s.phys l.p l.l) unit (ductusOp (s.core l) l op w d)).startDuctus
      (s.phys l.p l.l) unit (ductusOp (s.core l) l op w d) = .went t) :
    s.layerIssue c op unit w fnRsv more = t := by
  obtain ⟨⟨-, hloc, -⟩, -⟩ := id h
  obtain ⟨hq, hrun, -⟩ := hidle
  have herrs : firstErr (layerErrs d ++ more l d) = none := (firstErr_append_of_none hlayer _).trans hmore
  have hres : (fnRsv || ductusRsv w true false false false) = false := by rw [hfnRsv, hrsv]; rfl
  rw [State.layerIssue, ductusIssue_enters hd h hfn hres (by simp) herrs]
  exact ductusEnter_starts (s := s.setCore l ((s.core l).adv 16)) hq hrun
    (ductusLive_of_located (o := ductusOp (s.core l) l op w d) hloc rfl) ht

end

/-! Fields of a table of numbers. -/

/-- A row of a table of n rows of e numbers is the e numbers that follow its place. -/
theorem take_drop_splitN {w n e i : Nat} (hi : i < n) (v : Nat) :
    ((splitN w (n * e) v).drop (i * e)).take e = splitN w e (v >>> (w * (i * e))) := by
  have hrow : (i + 1) * e ≤ n * e := Nat.mul_le_mul_right e hi
  rw [Nat.succ_mul] at hrow
  refine List.ext_getElem (by simp [splitN]; omega) fun j hj hj' => ?_
  simp only [splitN, List.getElem_take, List.getElem_drop, List.getElem_map, List.getElem_range, bits]
  rw [← Nat.shiftRight_add, Nat.mul_add]

theorem length_splitN (w n v : Nat) : (splitN w n v).length = n := by simp [splitN]

/-! DSCAN's running sums (06 R204). -/

theorem listSum_eq_sum (xs : List Nat) : listSum xs = xs.sum := by rw [listSum, List.sum_eq_foldl]

theorem length_halfOf (h : Nat) (xs : List Nat) : (halfOf h xs).length = xs.length / 2 := by simp [halfOf]

/-- The sum that stands before each element. -/
theorem prefSums_eq_map (a : Nat) (xs : List Nat) :
    prefSums a xs = (List.range xs.length).map (fun i => (a + listSum (xs.take i)) % 2 ^ 32) := by
  induction xs generalizing a with
  | nil => rfl
  | cons x xs ih =>
    rw [prefSums, ih, List.length_cons, List.range_succ_eq_map]
    simp [listSum_eq_sum, Nat.add_assoc]

theorem weave_map {α : Type} (xs : List α) (f g : α → Nat) :
    weave (xs.map f) (xs.map g) = (xs.map (fun x => [f x, g x])).flatten := by
  induction xs with
  | nil => rfl
  | cons x xs ih => simp [weave, ih]

/-- The exclusive running sums of both halves, expert by expert. -/
theorem weave_prefSums {cnts : List Nat} {e : Nat} (hlen : cnts.length = 2 * e) :
    weave (prefSums 0 (halfOf 0 cnts)) (prefSums 0 (halfOf 1 cnts)) =
      ((List.range e).map (fun x => [listSum ((List.range x).map (fun y => cnts.getD (2 * y + 0) 0)) % 2 ^ 32,
        listSum ((List.range x).map (fun y => cnts.getD (2 * y + 1) 0)) % 2 ^ 32])).flatten := by
  have hhalf : ∀ h, prefSums 0 (halfOf h cnts) =
      (List.range e).map (fun x => listSum ((List.range x).map (fun y => cnts.getD (2 * y + h) 0)) % 2 ^ 32) := by
    intro h
    have he : cnts.length / 2 = e := by omega
    rw [prefSums_eq_map, length_halfOf, he]
    refine List.map_congr_left fun x hx => ?_
    rw [halfOf, he, ← List.map_take, List.take_range, Nat.min_eq_left (List.mem_range.mp hx).le, Nat.zero_add]
  rw [hhalf, hhalf, weave_map]

/-! What each opcode starts. -/

section
variable (s : State) (clu unit : Nat) {o : DOp}

theorem startDuctus_dscore (h : o.op = 0xB0) : s.startDuctus clu unit o = s.runDscore o := by simp only [State.startDuctus, h]

theorem startDuctus_dtopk (h : o.op = 0xB1) : s.startDuctus clu unit o = s.runDtopk o := by simp only [State.startDuctus, h]

theorem startDuctus_dnorm (h : o.op = 0xB2) : s.startDuctus clu unit o = s.runDnorm o := by simp only [State.startDuctus, h]

theorem startDuctus_dhist (h : o.op = 0xB3) : s.startDuctus clu unit o = s.runDhist clu o := by simp only [State.startDuctus, h]

theorem startDuctus_dscan (h : o.op = 0xB4) : s.startDuctus clu unit o = s.runDscan o := by simp only [State.startDuctus, h]

end

/-! What they write over tables that they may use, in a device without errors. -/

section
variable {s : State} {o : DOp} (hclean : s.upsets = [])
include hclean

/-- DTOPK without the gating glyph: from row i of the scores the k best, in their order, into record i k and those that follow. -/
theorem runDtopk_plain (hplain : bit o.fn8 0 = false) {rs : List (Nat × Nat × Nat × Bool)}
    (hrs : rs = [(lySCORES o.desc, 0, 4 * (lyN o.desc * lyE o.desc), false), (lySEL o.desc, 0, 16 * lyN o.desc * lyK o.desc, true)])
    (hok : s.tblCheck o rs = .ok) :
    s.runDtopk o = .went ((((List.range (lyN o.desc)).foldl (fun (t : State) i =>
      let row := splitN 32 (lyE o.desc) (s.rdT o (lySCORES o.desc) 0 (4 * (lyN o.desc * lyE o.desc)) >>> (32 * (i * lyE o.desc)))
      (((keyOrder false (nums 0 row)).take (lyK o.desc)).zip (List.range (lyK o.desc))).foldl (fun (t : State) x =>
        t.wrT o (lySEL o.desc) (16 * (i * lyK o.desc + x.2)) 8 (x.1 + row.getD x.1 0 * 2 ^ 32) (s.tblsPoison o rs)) t) s).tblEnd
      o.who).ductusDone o) := by
  subst hrs
  rw [State.runDtopk, overTables_ok hclean hok]
  simp only [hplain, Bool.false_eq_true, if_false]
  refine congrArg (fun t : State => Start.went ((t.tblEnd o.who).ductusDone o)) (List.foldl_ext _ _ _ fun t i hi => ?_)
  rw [take_drop_splitN (List.mem_range.mp hi)]

/-- DNORM by sums: each weight of a token divided by the token's sum. -/
theorem runDnorm_sum (hmode : o.fn8 = 1) {rs : List (Nat × Nat × Nat × Bool)}
    (hrs : rs = [(lySEL o.desc, 0, 16 * lyN o.desc * lyK o.desc, false), (lySEL o.desc, 0, 16 * lyN o.desc * lyK o.desc, true)])
    (hok : s.tblCheck o rs = .ok) :
    s.runDnorm o =
      let recs := splitN 128 (lyN o.desc * lyK o.desc) (s.rdT o (lySEL o.desc) 0 (16 * lyN o.desc * lyK o.desc))
      .went (((s.wrT o (lySEL o.desc) 0 (16 * lyN o.desc * lyK o.desc) (packElems 128 ((List.range (lyN o.desc)).map (fun t =>
        let row := (recs.drop (t * lyK o.desc)).take (lyK o.desc)
        let ws := nums 0 (row.map (fun r => bits r 32 32))
        let sum := f32 (toF32 (Num.sum ws))
        (row.zip ws).map (fun x => setBits (setBits x.1 32 32 (toF32 (x.2.div sum))) 98 3 0))).flatten)
          (s.tblsPoison o rs)).tblEnd o.who).ductusDone o) := by
  subst hrs
  rw [State.runDnorm, overTables_ok hclean hok]
  simp only [hmode, normWeights, Nat.reduceMod, Nat.one_ne_zero, if_false, List.zip_map_right, List.map_map]
  rfl

/-- DSCAN: the exclusive running sums of each half. -/
theorem runDscan_sums {rs : List (Nat × Nat × Nat × Bool)}
    (hrs : rs = [(lyCNT o.desc, 0, 8 * lyE o.desc, false), (lyOFFS o.desc, 0, 8 * lyE o.desc, true)]) (hok : s.tblCheck o rs = .ok) :
    s.runDscan o =
      let cnts := splitN 32 (2 * lyE o.desc) (s.rdT o (lyCNT o.desc) 0 (8 * lyE o.desc))
      .went (((s.wrT o (lyOFFS o.desc) 0 (8 * lyE o.desc) (packElems 32 ((List.range (lyE o.desc)).map (fun x =>
        [listSum ((List.range x).map (fun y => cnts.getD (2 * y + 0) 0)) % 2 ^ 32,
          listSum ((List.range x).map (fun y => cnts.getD (2 * y + 1) 0)) % 2 ^ 32])).flatten) (s.tblsPoison o rs)).tblEnd
        o.who).ductusDone o) := by
  subst hrs
  rw [State.runDscan, overTables_ok hclean hok]
  dsimp only
  rw [weave_prefSums (length_splitN 32 (2 * lyE o.desc) _)]

end

/-- Settles O17: each instruction enters its idle unit and starts there, and over tables it may use it writes what its opcode's lemma says. -/
theorem ductusSelectsAndCounts : Obligations.DuctusSelectsAndCounts := by
  unfold Obligations.DuctusSelectsAndCounts
  intro s c l w cs u ad d n e k starts
  have hd : (s.core l).ductusDesc w 128 16 = d := ductusDesc_of_bytes (by decide) ..
  clear_value d
  refine ⟨?dscore, ?dtopk, ?dnorm, ?dhist, ?dscan⟩
  case dscore =>
    intro hfn hgate hreads hidle hlayer hrsv o s1 hok
    obtain ⟨-, -, hclean⟩ := id hidle
    refine congrArg Host.Outcome.next (layerIssue_starts hd hreads hidle hlayer (by simp [firstErr, hgate])
      (illegalFn_ductus (by decide)) (by simp [hfn]) hrsv ((startDuctus_dscore _ _ _ rfl).trans ?_))
    rw [State.runDscore]
    exact (overTables_ok (s := s1) hclean hok _).trans rfl
  case dtopk =>
    intro hfn hreads hidle hlayer hrsv o s1 hok
    obtain ⟨-, -, hclean⟩ := id hidle
    have hplain : bit w.r.fn8.toNat 0 = false := by rw [hfn]; rfl
    refine congrArg Host.Outcome.next (layerIssue_starts hd hreads hidle hlayer (by simp [firstErr, hplain])
      (illegalFn_ductus (by decide)) (by rw [hfn]; rfl) hrsv ((startDuctus_dtopk _ _ _ rfl).trans ?_))
    exact runDtopk_plain (s := s1) hclean hplain rfl hok
  case dnorm =>
    intro hfn hreads hidle hlayer hrsv o s1 hok
    obtain ⟨-, -, hclean⟩ := id hidle
    refine congrArg Host.Outcome.next (layerIssue_starts hd hreads hidle hlayer rfl
      (illegalFn_dnorm (by rw [hfn]; decide)) (by rw [hfn]; rfl) hrsv ((startDuctus_dnorm _ _ _ rfl).trans ?_))
    exact runDnorm_sum (s := s1) hclean (congrArg BitVec.toNat hfn) rfl hok
  case dhist =>
    intro hfn hreads hidle hlayer hrsv o s1 hok
    obtain ⟨-, -, hclean⟩ := id hidle
    refine congrArg Host.Outcome.next (layerIssue_starts hd hreads hidle hlayer rfl (illegalFn_ductus (by decide)) (by simp [hfn]) hrsv
      ((startDuctus_dhist _ _ _ rfl).trans ?_))
    rw [State.runDhist]
    exact (overTables_ok (s := s1) hclean hok _).trans rfl
  case dscan =>
    intro hfn hreads hidle hlayer hrsv o s1 hok
    obtain ⟨-, -, hclean⟩ := id hidle
    refine congrArg Host.Outcome.next (layerIssue_starts hd hreads hidle hlayer rfl (illegalFn_ductus (by decide)) (by simp [hfn]) hrsv
      ((startDuctus_dscan _ _ _ rfl).trans ?_))
    exact runDscan_sums (s := s1) hclean rfl hok

end Sys2Proof.Machine
end

section
/-! DCOMBINE over one half (06 R224). -/

namespace Sys2Proof.Machine

/-- A DCOMBINE over one half starts over its entry once that is complete. -/
theorem startDuctus_dcombineGate {s : State} {clu unit i : Nat} {o : DOp} (hop : o.op = 0xB8) (hgate : bit o.fn8 0 = false)
    (hfind : (s.ductus clu).find o.loc.s (keyOf o.xc.toNat).1 (keyOf o.xc.toNat).2.1 (keyOf o.xc.toNat).2.2 = some i)
    (hst : ((s.ductus clu).entry i).st = 2) :
    s.startDuctus clu unit o =
      s.runCombine o (fun t => if bit o.fn8 2 then t.closeEntry o.loc.p o.loc.s clu i else t) := by
  simp only [State.startDuctus, hop, hgate, Bool.false_eq_true, if_false, hfind, hst, if_true]

/-- Settles O22: the entry that the key names is complete, so the combine starts in its idle unit, writes the sums and closes the entry
where FREE says so. -/
theorem ductusCombines : Obligations.DuctusCombines := by
  unfold Obligations.DuctusCombines
  intro s c l w i cs n ad d k o s1 hreads hidle hlayer hrsv hfn heven hfind hst recs cnts offs m osz toks at_ rs0 rs1 hok0 hok1 s2
  obtain ⟨⟨-, hloc, -⟩, -⟩ := id hreads
  obtain ⟨hquiet, hunit, hclean⟩ := hidle
  have hd : (s.core l).ductusDesc w 128 16 = d := ductusDesc_of_bytes (by decide) ..
  clear_value d
  have hgate : bit w.r.fn8.toNat 0 = false := by simp [bit, heven]
  have hhigh : bits w.r.fn8.toNat 3 5 = 0 := by simp only [bits, Nat.shiftRight_eq_div_pow]; omega
  have hduc : s1.ductus n = { s.ductus n with q := tput (tput (s.ductus n).q 3 [o]) 3 [] } := State.ductus_setDuctus ..
  have hstart : s1.startDuctus n 3 o =
      .went (((if bit w.r.fn8.toNat 2 then s2.closeEntry l.p l.s n i else s2).tblEnd o.who).ductusDone o) := by
    rw [startDuctus_dcombineGate (i := i) rfl hgate (by rw [hduc]; exact hfind) (by rw [hduc]; exact hst), State.runCombine]
    refine (overTables_ok (s := s1) hclean hok0 _).trans ?_
    exact (overTables_ok (s := s1) hclean hok1 _).trans rfl
  refine congrArg Host.Outcome.next ?_
  rw [hgate, if_neg Bool.false_ne_true, State.issueGate, ductusIssue_enters hd hreads (illegalFn_ductus (by decide))]
  · exact ductusEnter_starts (s := s.setCore l ((s.core l).adv 16)) hquiet hunit (ductusLive_of_located (o := o) hloc rfl) hstart
  · rw [hhigh, hrsv]
    rfl
  · exact fun r hr => nomatch hr
  · exact (firstErr_append_of_none hlayer _).trans (if_neg (Bool.eq_false_iff.mp (congrArg Option.isNone hfind)))

end Sys2Proof.Machine
end

section
/-! DSPLIT (06 R216-R219): the records' items, and what the unit writes of them. -/

namespace Sys2Proof.Machine

theorem startDuctus_dsplit (s : State) (clu unit : Nat) {o : DOp} (h : o.op = 0xBA) : s.startDuctus clu unit o = s.runDsplit clu o := by
  simp only [State.startDuctus, h]

/-- Elements that take their shares off a list one after another: each gets what follows the shares of those before it. -/
theorem foldl_shares {α β : Type} (len : α → Nat) (f : α → List Nat → β) (xs : List α) (cs : List Nat) (acc : List β) :
    (xs.foldl (fun (st : List Nat × List β) x => (st.1.drop (len x), st.2 ++ [f x (st.1.take (len x))])) (cs, acc)).2 =
      acc ++ (xs.zip (List.range xs.length)).map (fun y => f y.1 ((cs.drop (listSum ((xs.take y.2).map len))).take (len y.1))) := by
  induction xs generalizing cs acc with
  | nil => simp
  | cons x xs ih =>
    rw [List.foldl_cons, ih, List.length_cons, List.range_succ_eq_map]
    simp [List.zip_map_right, Function.comp_def, listSum_eq_sum]

/-- The items of a valid record, given the costs of its rows. -/
def recordItems (d : Nat) (r : Nat × Nat) (costs : List Nat) : Nat × List Item :=
  (r.1, if spNnz d then itemsNnz r.1 (spBUDGET d) (rcCOUNT r.2) 0 costs else itemsDense r.1 (rcCOUNT r.2))

/-- The items of the valid records, each taking the costs of its rows off the list. -/
def builtItems (d : Nat) (good : List (Nat × Nat)) (costs : List Nat) : List (Nat × List Item) :=
  (good.foldl (fun (st : List Nat × List (Nat × List Item)) r =>
    (st.1.drop (rcCOUNT r.2), st.2 ++ [recordItems d r (st.1.take (rcCOUNT r.2))])) (costs, [])).2

theorem builtItems_eq_map (d : Nat) (good : List (Nat × Nat)) (costs : List Nat) :
    builtItems d good (if spNnz d then costs else []) = (good.zip (List.range good.length)).map (fun y =>
      recordItems d y.1 ((costs.drop (listSum ((good.take y.2).map (fun r => rcCOUNT r.2)))).take (rcCOUNT y.1.2))) := by
  rw [builtItems, foldl_shares (fun r => rcCOUNT r.2) (recordItems d), List.nil_append]
  refine List.map_congr_left fun y _ => ?_
  cases h : spNnz d
  · simp [recordItems, h]
  · rfl

/-- What DSPLIT writes once it has built the items: REMAIN of their records, what it consumes, and the cores' lists. -/
def State.splitWrites (s : State) (clu : Nat) (o : DOp) (ibs : List (Nat × Nat)) (bad : Nat) (good : List (Nat × Nat)) (pz : Bool)
    (items : List (Nat × List Item)) : Start :=
  let d := o.desc
  let dealt := deal (spNnz d) (items.map Prod.snd).flatten (List.replicate (spNCORE d) 0)
  let lists := (List.range (spNCORE d)).map (fun k =>
    (k, workList (spNnz d) (spSTRIDE d) ((dealt.filter (fun x => x.1 == k)).map Prod.snd)))
  s.overTables o (lists.map (fun x => (spWL d, x.1 * spSTRIDE d, x.2.2.1, true))) (fun s =>
    let s1 := items.foldl (fun (t : State) b => t.wrT o b.1 40 4 b.2.length pz) s
    let s2 := if spConsume d then
        ibs.foldl (fun (t : State) b => t.wrT o b.1 0 8 0 pz)
          (good.foldl (fun (t : State) r => t.wrT o r.1 28 1 (bits r.2 224 7) pz) s1)
      else s1
    let s3 := lists.foldl (fun (t : State) x =>
      (t.wrT o (spWL d) (x.1 * spSTRIDE d) x.2.2.1 x.2.1 pz).ducCount clu 0x0302 x.2.2.2) s2
    .went (((s3.ducCount clu 0x0302 bad).tblEnd o.who).ductusDone o))

/-- DSPLIT over tables that it may use. -/
theorem ductusSplits : Claims.DuctusSplits := by
  unfold Claims.DuctusSplits
  intro s c l w cs u ad d o s1 ibs addrs good rows rs0 rs1 rs2 rs3 pz costs items dealt lists hreads hidle hsplit hrsv hfn hok0 hok1 hok2 hok3 hok4
    s2 s3 s4 s5
  obtain ⟨⟨-, hloc, -⟩, -⟩ := id hreads
  obtain ⟨hq, hrun, hclean⟩ := hidle
  have hd : (s.core l).ductusDesc w 64 16 = d := ductusDesc_of_bytes (by decide) ..
  clear_value d
  have hstart : s1.startDuctus u 1 o =
      .went (((s5.ducCount u 0x0302 (addrs.length - good.length)).tblEnd o.who).ductusDone o) := by
    have hbuilt : s1.runDsplit u o = s1.splitWrites u o ibs ((addrs.map (fun a => (a, s1.rdT o a 0 64))).length - good.length) good pz
        (builtItems d good (if spNnz d then costs else [])) := by
      rw [State.runDsplit]
      refine (overTables_ok (s := s1) hclean hok0 _).trans ?_
      refine (overTables_ok (s := s1) hclean hok1 _).trans ?_
      refine (overTables_ok (s := s1) hclean hok2 _).trans ?_
      exact (overTables_ok (s := s1) hclean hok3 _).trans rfl
    rw [startDuctus_dsplit _ _ _ rfl, hbuilt, builtItems_eq_map, List.length_map, State.splitWrites]
    have hcleared : (if spConsume d then ibs.foldl (fun (t : State) b => t.wrT o b.1 0 8 0 pz)
        (good.foldl (fun (t : State) r => t.wrT o r.1 28 1 (bits r.2 224 7) pz) s2) else s2) = s4 := by
      cases h : spConsume d <;> simp [s3, s4, h]
    exact (overTables_ok (s := s1) hclean hok4 _).trans (congrArg (fun t : State =>
      Start.went ((((lists.foldl (fun (t : State) x => (t.wrT o (spWL d) (x.1 * spSTRIDE d) x.2.2.1 x.2.1 pz).ducCount u 0x0302 x.2.2.2)
        t).ducCount u 0x0302 (addrs.length - good.length)).tblEnd o.who).ductusDone o)) hcleared)
  refine congrArg Host.Outcome.next ?_
  rw [ductusIssue_enters hd hreads (illegalFn_ductus (by decide))]
  · exact ductusEnter_starts (s := s.setCore l ((s.core l).adv 16)) hq hrun (ductusLive_of_located (o := o) hloc rfl) hstart
  · rw [hfn, hrsv]
    rfl
  · exact fun r hr => nomatch hr
  · rw [hsplit]
    rfl

end Sys2Proof.Machine
end

section
/-! Fields of a number (00 R6): a replaced field reads as it was written, the others as they were. -/

namespace Sys2Proof.Machine

theorem testBit_bits (v lo n i : Nat) : (bits v lo n).testBit i = (decide (i < n) && v.testBit (lo + i)) := by
  rw [bits, Nat.testBit_mod_two_pow, Nat.testBit_shiftRight]

theorem testBit_setBits (v lo n x i : Nat) :
    (setBits v lo n x).testBit i = if lo ≤ i ∧ i < lo + n then x.testBit (i - lo) else v.testBit i := by
  have hlow : v % 2 ^ lo < 2 ^ lo := Nat.mod_lt _ (Nat.two_pow_pos lo)
  have hmid : x % 2 ^ n < 2 ^ n := Nat.mod_lt _ (Nat.two_pow_pos n)
  have hcut : setBits v lo n x = 2 ^ lo * (2 ^ n * (v / 2 ^ lo / 2 ^ n) + x % 2 ^ n) + v % 2 ^ lo := by
    have hv := Nat.div_add_mod v (2 ^ lo)
    have hq := Nat.div_add_mod (v / 2 ^ lo) (2 ^ n)
    rw [setBits, bits, Nat.shiftRight_eq_div_pow]
    nth_rewrite 1 [← hv, ← hq]
    rw [Nat.mul_add, Nat.mul_add, Nat.mul_comm (v / 2 ^ lo % 2 ^ n), Nat.mul_comm (x % 2 ^ n)]
    omega
  rw [hcut, Nat.testBit_two_pow_mul_add _ hlow, Nat.testBit_two_pow_mul_add _ hmid,
    Nat.testBit_mod_two_pow, Nat.testBit_mod_two_pow, Nat.testBit_div_two_pow, Nat.testBit_div_two_pow]
  by_cases hbelow : i < lo
  · rw [if_pos hbelow, if_neg (by omega), decide_eq_true hbelow, Bool.true_and]
  · rw [if_neg hbelow]
    by_cases hin : i - lo < n
    · rw [if_pos hin, if_pos (by omega), decide_eq_true hin, Bool.true_and]
    · rw [if_neg hin, if_neg (by omega)]
      congr 1
      omega

theorem bits_setBits_same (v lo n x : Nat) : bits (setBits v lo n x) lo n = x % 2 ^ n := by
  refine Nat.eq_of_testBit_eq fun i => ?_
  rw [testBit_bits, testBit_setBits, Nat.testBit_mod_two_pow]
  by_cases hi : i < n <;> simp [hi]

theorem bits_setBits_apart {lo n lo' n' : Nat} (h : lo' + n' ≤ lo ∨ lo + n ≤ lo') (v x : Nat) :
    bits (setBits v lo n x) lo' n' = bits v lo' n' := by
  refine Nat.eq_of_testBit_eq fun i => ?_
  rw [testBit_bits, testBit_setBits, testBit_bits]
  by_cases hi : i < n'
  · rw [if_neg (by omega)]
  · simp [hi]

end Sys2Proof.Machine
end

section
/-! DHIST's ranks and counts (06 R203), by the records visited so far. -/

namespace Sys2Proof.Machine

/-- How many of the visited records name an expert and a half. -/
def pairCount (ys : List (Nat × Nat)) (ex h : Nat) : Nat := (ys.filter (fun y => bits y.1 0 32 == ex && y.2 == h)).length

/-- A record as DHIST leaves it, with c records of its expert and half before it. -/
def histRecord (e c : Nat) (x : Nat × Nat) : Nat :=
  if e ≤ bits x.1 0 32 then setBits (setBits x.1 96 1 0) 97 1 1 else setBits (setBits (setBits x.1 96 1 0) 97 1 0) 64 32 c

/-- The fold over the records of a table, from its start. -/
def histFold (e : Nat) (xs : List (Nat × Nat)) : Tbl Nat × List Nat × Nat := xs.foldl (histStep e) ([], [], 0)

theorem pairCount_append_singleton (xs : List (Nat × Nat)) (x : Nat × Nat) (ex h : Nat) :
    pairCount (xs ++ [x]) ex h = pairCount xs ex h + if bits x.1 0 32 = ex ∧ x.2 = h then 1 else 0 := by
  by_cases hx : bits x.1 0 32 = ex ∧ x.2 = h <;> simp [pairCount, List.filter_append, hx]

theorem histFold_append_singleton (e : Nat) (xs : List (Nat × Nat)) (x : Nat × Nat) :
    histFold e (xs ++ [x]) = histStep e (histFold e xs) x := by
  rw [histFold, List.foldl_append]
  rfl

theorem histStep_unknown {e : Nat} {x : Nat × Nat} (h : e ≤ bits x.1 0 32) (st : Tbl Nat × List Nat × Nat) (c : Nat) :
    histStep e st x = (st.1, histRecord e c x :: st.2.1, st.2.2 + 1) := by
  rw [histStep, histRecord, if_pos h, if_pos h]

theorem histStep_known {e : Nat} {x : Nat × Nat} (h : bits x.1 0 32 < e) (st : Tbl Nat × List Nat × Nat) :
    histStep e st x = (tput st.1 (2 * bits x.1 0 32 + x.2) (tgetD st.1 (2 * bits x.1 0 32 + x.2) 0 + 1),
      histRecord e (tgetD st.1 (2 * bits x.1 0 32 + x.2) 0) x :: st.2.1, st.2.2) := by
  rw [histStep, histRecord, if_neg (by omega), if_neg (by omega)]

theorem histFold_unknown (e : Nat) (xs : List (Nat × Nat)) :
    (histFold e xs).2.2 = (xs.filter (fun x => decide (e ≤ bits x.1 0 32))).length := by
  induction xs using List.reverseRecOn with
  | nil => rfl
  | append_singleton xs x ih =>
    rw [histFold_append_singleton, List.filter_append, List.length_append]
    by_cases hx : e ≤ bits x.1 0 32
    · rw [histStep_unknown hx _ 0, ih]
      simp [hx]
    · rw [histStep_known (by omega), ih]
      simp [hx]

theorem histFold_counts {e : Nat} {xs : List (Nat × Nat)} (hhalf : ∀ x ∈ xs, x.2 < 2) {ex h : Nat} (hex : ex < e) (hh : h < 2) :
    tgetD (histFold e xs).1 (2 * ex + h) 0 = pairCount xs ex h := by
  induction xs using List.reverseRecOn with
  | nil => rfl
  | append_singleton xs x ih =>
    have ih := ih fun y hy => hhalf y (List.mem_append_left _ hy)
    have hx2 : x.2 < 2 := hhalf x (by simp)
    rw [histFold_append_singleton, pairCount_append_singleton]
    by_cases hx : e ≤ bits x.1 0 32
    · rw [histStep_unknown hx _ 0, if_neg (by omega)]
      exact ih
    · rw [histStep_known (by omega)]
      by_cases hsame : bits x.1 0 32 = ex ∧ x.2 = h
      · rw [if_pos hsame, hsame.1, hsame.2, tgetD_tput_self, ih]
      · rw [if_neg hsame, tgetD_tput_ne _ _ _ (by omega)]
        exact ih

/-- Each record is marked by what those before it name. -/
theorem histFold_records_append {e : Nat} {xs : List (Nat × Nat)} {x : Nat × Nat} (hhalf : ∀ y ∈ xs ++ [x], y.2 < 2) :
    (histFold e (xs ++ [x])).2.1 = histRecord e (pairCount xs (bits x.1 0 32) x.2) x :: (histFold e xs).2.1 := by
  rw [histFold_append_singleton]
  by_cases hx : e ≤ bits x.1 0 32
  · rw [histStep_unknown hx]
  · rw [histStep_known (by omega),
      histFold_counts (fun y hy => hhalf y (List.mem_append_left _ hy)) (by omega) (hhalf x (by simp))]

theorem length_histFold_records {e : Nat} {xs : List (Nat × Nat)} (hhalf : ∀ x ∈ xs, x.2 < 2) :
    (histFold e xs).2.1.length = xs.length := by
  induction xs using List.reverseRecOn with
  | nil => rfl
  | append_singleton xs x ih =>
    rw [histFold_records_append hhalf, List.length_cons, ih fun y hy => hhalf y (List.mem_append_left _ hy), List.length_append]
    rfl

theorem getElem?_histFold_records {e : Nat} {xs : List (Nat × Nat)} (hhalf : ∀ x ∈ xs, x.2 < 2) {i : Nat} {x : Nat × Nat}
    (hi : xs[i]? = some x) :
    (histFold e xs).2.1.reverse[i]? = some (histRecord e (pairCount (xs.take i) (bits x.1 0 32) x.2) x) := by
  induction xs using List.reverseRecOn with
  | nil => exact nomatch hi
  | append_singleton xs y ih =>
    have hxs : ∀ z ∈ xs, z.2 < 2 := fun z hz => hhalf z (List.mem_append_left _ hz)
    have hlen : (histFold e xs).2.1.reverse.length = xs.length := by rw [List.length_reverse, length_histFold_records hxs]
    rw [histFold_records_append hhalf, List.reverse_cons]
    by_cases hlt : i < xs.length
    · rw [List.getElem?_append_left (by omega), List.take_append_of_le_length hlt.le]
      exact ih hxs (by rwa [List.getElem?_append_left hlt] at hi)
    · have hlast : i = xs.length := by
        have := (List.getElem?_eq_some_iff.mp hi).1
        simp at this
        omega
      subst hlast
      obtain rfl : y = x := by simpa using hi
      rw [← hlen, List.getElem?_concat_length, hlen, List.take_left]

/-! The fields of a record. -/

section
variable (e c : Nat) (x : Nat × Nat)

theorem bits_histRecord_kept {lo n : Nat} (h : lo + n ≤ 64) : bits (histRecord e c x) lo n = bits x.1 lo n := by
  rw [histRecord]
  split
  · rw [bits_setBits_apart (by omega), bits_setBits_apart (by omega)]
  · rw [bits_setBits_apart (by omega), bits_setBits_apart (by omega), bits_setBits_apart (by omega)]

theorem bits_histRecord_drop : bits (histRecord e c x) 96 1 = 0 := by
  rw [histRecord]
  split
  · rw [bits_setBits_apart (by omega), bits_setBits_same, Nat.zero_mod]
  · rw [bits_setBits_apart (by omega), bits_setBits_apart (by omega), bits_setBits_same, Nat.zero_mod]

theorem bits_histRecord_bad : bits (histRecord e c x) 97 1 = if e ≤ bits x.1 0 32 then 1 else 0 := by
  rw [histRecord]
  split
  · exact bits_setBits_same ..
  · rw [bits_setBits_apart (by omega)]
    exact bits_setBits_same ..

theorem bits_histRecord_rank (h : bits x.1 0 32 < e) : bits (histRecord e c x) 64 32 = c % 2 ^ 32 := by
  rw [histRecord, if_neg (by omega), bits_setBits_same]

end

/-- The part of O18 on DHIST. -/
theorem histRanksAndCounts : Claims.HistRanksAndCounts := by
  intro e xs hxs r same
  have hhalf : ∀ x ∈ xs, x.2 < 2 := fun x hx => (hxs x hx).2
  refine ⟨length_histFold_records hhalf, histFold_unknown e xs, fun ex h hex hh => histFold_counts hhalf hex hh, fun i x hi => ?_⟩
  exact ⟨_, getElem?_histFold_records hhalf hi, bits_histRecord_kept e _ x (by omega), bits_histRecord_kept e _ x (by omega),
    bits_histRecord_drop e _ x, bits_histRecord_bad e _ x, bits_histRecord_rank e _ x⟩

end Sys2Proof.Machine
end

section
/-! DSPLIT's items and their balance (06 R217, R218). -/

namespace Sys2Proof.Machine

/-- The steps of a rising sequence add up to its rise. -/
theorem listSum_steps {f : Nat → Nat} (hf : ∀ i, f i ≤ f (i + 1)) (n : Nat) :
    listSum ((List.range n).map (fun i => f (i + 1) - f i)) = f n - f 0 := by
  have h0 : ∀ n, f 0 ≤ f n := fun n => Nat.rec le_rfl (fun n ih => ih.trans (hf n)) n
  rw [listSum_eq_sum]
  induction n with
  | zero => simp
  | succ n ih =>
    rw [List.range_succ, List.map_append, List.sum_append, ih]
    have := hf n
    have := h0 n
    simp only [List.map_cons, List.map_nil, List.sum_cons, List.sum_nil]
    omega

/-! Dense items: cut i is the row where item i begins, or all the rows. -/

section
variable (count : Nat)

def denseGroups : Nat := (count + 7) / 8

def denseItems : Nat := (denseGroups count + 63) / 64

def denseCut (i : Nat) : Nat := min (8 * (i * denseGroups count / denseItems count)) count

variable {count}

theorem denseItems_pos (h : 0 < count) : 0 < denseItems count := by
  unfold denseItems denseGroups
  omega

theorem denseCut_le_succ (i : Nat) : denseCut count i ≤ denseCut count (i + 1) := by
  have hle : i * denseGroups count / denseItems count ≤ (i + 1) * denseGroups count / denseItems count :=
    Nat.div_le_div_right (Nat.mul_le_mul_right _ i.le_succ)
  unfold denseCut
  omega

theorem denseCut_zero : denseCut count 0 = 0 := by simp [denseCut]

theorem denseCut_end : denseCut count (denseItems count) = count := by
  rcases Nat.eq_zero_or_pos count with h | h
  · subst h
    exact Nat.min_zero _
  · rw [denseCut, Nat.mul_div_cancel_left _ (denseItems_pos h), denseGroups]
    omega

/-- An item of the rows begins at its group boundary, inside the rows. -/
theorem denseCut_of_lt {i : Nat} (hi : i < denseItems count) :
    denseCut count i = 8 * (i * denseGroups count / denseItems count) ∧ denseCut count i < count := by
  have hcount : 0 < count := by
    unfold denseItems denseGroups at hi
    omega
  have hg : 0 < denseGroups count := by
    unfold denseGroups
    omega
  have hlt : i * denseGroups count / denseItems count < denseGroups count :=
    Nat.div_lt_of_lt_mul (Nat.mul_lt_mul_of_pos_right hi hg)
  have hrows : 8 * (denseGroups count - 1) < count := by
    unfold denseGroups
    omega
  unfold denseCut
  omega

/-- An item has between 1 and 512 rows. -/
theorem denseCut_succ_sub {i : Nat} (hi : i < denseItems count) :
    1 ≤ denseCut count (i + 1) - denseCut count i ∧ denseCut count (i + 1) - denseCut count i ≤ 512 := by
  have hpos : 0 < denseItems count := by omega
  have hmin : i * denseGroups count / denseItems count + 1 ≤ (i + 1) * denseGroups count / denseItems count := by
    rw [← Nat.add_div_right _ hpos, Nat.succ_mul]
    refine Nat.div_le_div_right (Nat.add_le_add_left ?_ _)
    unfold denseItems
    omega
  have hmax : (i + 1) * denseGroups count / denseItems count ≤ i * denseGroups count / denseItems count + 64 := by
    rw [← Nat.add_mul_div_right _ _ hpos, Nat.succ_mul]
    refine Nat.div_le_div_right (Nat.add_le_add_left ?_ _)
    unfold denseItems
    omega
  obtain ⟨hcut, hlt⟩ := denseCut_of_lt hi
  rw [hcut] at hlt ⊢
  unfold denseCut
  omega

theorem itemsDense_eq_map (rec_ count : Nat) : itemsDense rec_ count = (List.range (denseItems count)).map (fun i =>
    { at_ := rec_, first := denseCut count i, rows := denseCut count (i + 1) - denseCut count i }) := by
  refine List.map_congr_left fun i hi => ?_
  obtain ⟨hcut, -⟩ := denseCut_of_lt (List.mem_range.mp hi)
  rw [hcut]
  rfl

/-- The rows of the first k items. -/
theorem sum_itemsDense_take {rec_ k : Nat} (hk : k ≤ denseItems count) :
    listSum (((itemsDense rec_ count).take k).map (fun t => t.rows)) = denseCut count k := by
  rw [itemsDense_eq_map, ← List.map_take, List.take_range, Nat.min_eq_left hk, List.map_map]
  refine (listSum_steps denseCut_le_succ k).trans ?_
  rw [denseCut_zero, Nat.sub_zero]

theorem sum_itemsDense (rec_ count : Nat) : listSum ((itemsDense rec_ count).map (fun t => t.rows)) = count := by
  have h := sum_itemsDense_take (rec_ := rec_) (le_refl (denseItems count))
  rwa [List.take_of_length_le (by simp [itemsDense_eq_map]), denseCut_end] at h

end

/-! Items by non-zeros. -/

/-- The rows that fit one item and what they hold. -/
theorem fitRows_spec (b n : Nat) (xs : List Nat) (s : Nat) :
    (fitRows b n xs s).2 = s + listSum (xs.take (fitRows b n xs s).1) ∧ (s ≤ b → (fitRows b n xs s).2 ≤ b) := by
  induction n generalizing xs s with
  | zero => simp [fitRows, listSum]
  | succ n ih =>
    cases xs with
    | nil => simp [fitRows, listSum]
    | cons x xs =>
      rw [fitRows]
      split
      · obtain ⟨hsum, hle⟩ := ih xs (s + x)
        refine ⟨?_, fun _ => hle ‹_›⟩
        dsimp only
        rw [hsum, List.take_succ_cons, listSum_eq_sum, listSum_eq_sum, List.sum_cons, Nat.add_assoc]
      · simp [listSum]

theorem fitRows_pos {b x : Nat} (h : x ≤ b) (n : Nat) (xs : List Nat) : 0 < (fitRows b (n + 1) (x :: xs) 0).1 := by
  rw [fitRows, if_pos (by omega)]
  exact Nat.succ_pos _

/-- The segments of a row that is over the budget. -/
def rowSegments (rec_ b i x : Nat) : List Item :=
  (List.range ((x + b - 1) / b)).map (fun s =>
    { at_ := rec_, first := i, rows := 1, nzf := s * x / ((x + b - 1) / b),
      nzc := (s + 1) * x / ((x + b - 1) / b) - s * x / ((x + b - 1) / b), seg := s, segs := (x + b - 1) / b })

theorem sum_rowSegments {b x : Nat} (hb : 0 < b) (hx : b < x) (rec_ i : Nat) :
    listSum ((rowSegments rec_ b i x).map (fun t => t.nzc)) = x := by
  have hpos : 0 < (x + b - 1) / b := Nat.div_pos (by omega) hb
  rw [rowSegments, List.map_map]
  refine (listSum_steps (f := fun s => s * x / ((x + b - 1) / b)) (fun s => ?_) _).trans ?_
  · exact Nat.div_le_div_right (Nat.mul_le_mul_right _ s.le_succ)
  · rw [Nat.mul_div_cancel_left _ hpos, Nat.zero_mul, Nat.zero_div, Nat.sub_zero]

theorem rowSegments_bounds {b x : Nat} (hb : 0 < b) (hx : b < x) {rec_ i : Nat} {t : Item} (ht : t ∈ rowSegments rec_ b i x) :
    t.nzc ≤ b ∧ t.seg < t.segs := by
  have hpos : 0 < (x + b - 1) / b := Nat.div_pos (by omega) hb
  have hcover : x ≤ (x + b - 1) / b * b := by
    have := Nat.div_add_mod (x + b - 1) b
    have := Nat.mod_lt (x + b - 1) hb
    rw [Nat.mul_comm]
    omega
  obtain ⟨s, hs, rfl⟩ := List.mem_map.mp ht
  have hstep : (s + 1) * x / ((x + b - 1) / b) ≤ s * x / ((x + b - 1) / b) + b := by
    rw [← Nat.add_mul_div_left _ _ hpos, Nat.succ_mul]
    exact Nat.div_le_div_right (Nat.add_le_add_left hcover _)
  exact ⟨by dsimp only; omega, List.mem_range.mp hs⟩

/-- The items of the rows hold all their non-zeros, each at most the budget. -/
theorem itemsNnz_spec {b : Nat} (hb : 0 < b) (rec_ : Nat) {f : Nat} {nz : List Nat} (hf : nz.length ≤ f) (i : Nat) :
    listSum ((itemsNnz rec_ b f i nz).map (fun t => t.nzc)) = listSum nz ∧ ∀ t ∈ itemsNnz rec_ b f i nz, t.nzc ≤ b ∧ t.seg < t.segs := by
  induction f generalizing nz i with
  | zero =>
    obtain rfl := List.length_eq_zero_iff.mp (Nat.le_zero.mp hf)
    exact ⟨rfl, fun t ht => nomatch ht⟩
  | succ f ih =>
    cases nz with
    | nil => exact ⟨rfl, fun t ht => nomatch ht⟩
    | cons x xs =>
      have hxs : xs.length ≤ f := Nat.le_of_succ_le_succ hf
      by_cases hx : b < x
      · obtain ⟨hsum, hall⟩ := ih hxs (i + 1)
        have heq : itemsNnz rec_ b (f + 1) i (x :: xs) = rowSegments rec_ b i x ++ itemsNnz rec_ b f (i + 1) xs := if_pos hx
        rw [heq, List.map_append]
        constructor
        · rw [listSum_eq_sum, List.sum_append, ← listSum_eq_sum, sum_rowSegments hb hx, ← listSum_eq_sum, hsum,
            listSum_eq_sum, listSum_eq_sum, List.sum_cons]
        · intro t ht
          exact (List.mem_append.mp ht).elim (rowSegments_bounds hb hx) (hall t)
      · have hpos : 0 < (fitRows b 512 (x :: xs) 0).1 := fitRows_pos (by omega) 511 xs
        obtain ⟨hfit, hle⟩ := fitRows_spec b 512 (x :: xs) 0
        have hdrop : ((x :: xs).drop (fitRows b 512 (x :: xs) 0).1).length ≤ f := by
          rw [List.length_drop, List.length_cons]
          omega
        obtain ⟨hsum, hall⟩ := ih hdrop (i + (fitRows b 512 (x :: xs) 0).1)
        have heq : itemsNnz rec_ b (f + 1) i (x :: xs) =
            { at_ := rec_, first := i, rows := (fitRows b 512 (x :: xs) 0).1, nzc := (fitRows b 512 (x :: xs) 0).2 } ::
              itemsNnz rec_ b f (i + (fitRows b 512 (x :: xs) 0).1) ((x :: xs).drop (fitRows b 512 (x :: xs) 0).1) := if_neg hx
        rw [heq]
        constructor
        · rw [List.map_cons, listSum_eq_sum, List.sum_cons, ← listSum_eq_sum, hsum]
          dsimp only
          rw [hfit, Nat.zero_add, listSum_eq_sum, listSum_eq_sum, List.sum_take_add_sum_drop, listSum_eq_sum]
        · intro t ht
          rcases List.mem_cons.mp ht with rfl | ht
          · exact ⟨hle (Nat.zero_le b), Nat.zero_lt_one⟩
          · exact hall t ht

/-! The core of least cost. -/

/-- One cost compared with the least so far. -/
def lesser (b x : Nat × Nat) : Nat × Nat := if x.1 < b.1 then x else b

/-- The least of some costs and its place. -/
def leastCost (c : Nat) (cs : List Nat) : Nat × Nat := (cs.zip (List.range' 1 cs.length)).foldl lesser (c, 0)

theorem leastOf_cons (c : Nat) (cs : List Nat) : leastOf (c :: cs) = (leastCost c cs).2 := rfl

theorem leastCost_append_singleton (c : Nat) (cs : List Nat) (y : Nat) :
    leastCost c (cs ++ [y]) = lesser (leastCost c cs) (y, cs.length + 1) := by
  rw [leastCost, List.length_append, List.length_singleton, List.range'_concat, List.zip_append (by simp), List.foldl_append,
    ← leastCost, Nat.one_mul, Nat.add_comm]
  rfl

/-- The least cost stands at its place, no cost is below it, and those before it are above it. -/
theorem leastCost_spec (c : Nat) (cs : List Nat) :
    (c :: cs)[(leastCost c cs).2]? = some (leastCost c cs).1 ∧
      ∀ i x, (c :: cs)[i]? = some x → (leastCost c cs).1 ≤ x ∧ (i < (leastCost c cs).2 → (leastCost c cs).1 < x) := by
  induction cs using List.reverseRecOn with
  | nil =>
    refine ⟨rfl, fun i x hi => ?_⟩
    obtain ⟨rfl, rfl⟩ : i = 0 ∧ c = x := by simpa [List.getElem?_singleton] using hi
    exact ⟨le_rfl, fun h => absurd h (lt_irrefl _)⟩
  | append_singleton cs y ih =>
    obtain ⟨hat, hleast⟩ := ih
    have hplace : (leastCost c cs).2 < (c :: cs).length := (List.getElem?_eq_some_iff.mp hat).1
    have hsplit : ∀ i x, (c :: (cs ++ [y]))[i]? = some x → (c :: cs)[i]? = some x ∨ i = (c :: cs).length ∧ x = y := by
      intro i x hi
      rcases lt_trichotomy i (c :: cs).length with hlt | rfl | hgt
      · exact .inl ((List.getElem?_append_left (l₂ := [y]) hlt).symm.trans hi)
      · exact .inr ⟨rfl, (Option.some.inj (List.getElem?_concat_length.symm.trans hi)).symm⟩
      · exact absurd (List.getElem?_eq_some_iff.mp hi).1 (by simpa using hgt)
    rw [leastCost_append_singleton, lesser]
    split
    next hy =>
      refine ⟨List.getElem?_concat_length (l := c :: cs), fun i x hi => ?_⟩
      rcases hsplit i x hi with hold | ⟨rfl, rfl⟩
      · have hx := (hleast i x hold).1
        exact ⟨(hy.trans_le hx).le, fun _ => hy.trans_le hx⟩
      · exact ⟨le_rfl, fun h => absurd h (lt_irrefl _)⟩
    next hy =>
      refine ⟨(List.getElem?_append_left (l₂ := [y]) hplace).trans hat, fun i x hi => ?_⟩
      rcases hsplit i x hi with hold | ⟨rfl, rfl⟩
      · exact hleast i x hold
      · exact ⟨not_lt.mp hy, fun h => absurd (h.trans hplace) (lt_irrefl _)⟩

/-- The part of O18 on DSPLIT's items and how they are dealt. -/
theorem splitCoversAndBalances : Claims.SplitCoversAndBalances := by
  refine ⟨fun rec_ count => ?dense, fun rec_ b nz hb => itemsNnz_spec hb rec_ le_rfl 0, fun cs hcs => ?least⟩
  case dense =>
    refine ⟨sum_itemsDense rec_ count, fun i t ht => ?_⟩
    rw [itemsDense_eq_map, List.getElem?_map] at ht
    obtain ⟨j, hj, rfl⟩ := Option.map_eq_some_iff.mp ht
    obtain ⟨hi, hji⟩ := List.getElem?_eq_some_iff.mp hj
    rw [List.length_range] at hi
    rw [List.getElem_range] at hji
    subst hji
    obtain ⟨hcut, -⟩ := denseCut_of_lt hi
    obtain ⟨hmin, hmax⟩ := denseCut_succ_sub hi
    exact ⟨(sum_itemsDense_take hi.le).symm, by dsimp only; omega, hmin, hmax, rfl, rfl, rfl⟩
  case least =>
    obtain ⟨c, cs, rfl⟩ := List.exists_cons_of_ne_nil hcs
    obtain ⟨hat, hleast⟩ := leastCost_spec c cs
    have hget : (c :: cs).getD (leastCost c cs).2 0 = (leastCost c cs).1 := by rw [List.getD_eq_getElem?_getD, hat]; rfl
    rw [leastOf_cons, hget]
    exact ⟨(List.getElem?_eq_some_iff.mp hat).1, hleast⟩

end Sys2Proof.Machine
end

section
/-! DHIST and DSPLIT together (06 R203, R216-R219). -/

namespace Sys2Proof.Machine

/-- Settles O18, by its three parts: DHIST, the items and their balance, and what DSPLIT writes of them. -/
theorem ductusHistAndSplit : Obligations.DuctusHistAndSplit := ⟨histRanksAndCounts, splitCoversAndBalances, ductusSplits⟩

end Sys2Proof.Machine
end

section
/-! DALLOC's ladder (06 R207, R208). -/

namespace Sys2Proof.Machine

theorem ladderCode_iff (code : Nat) : ladderCode code = true ↔ code ∈ [0x0201, 0x0202, 0x0207] := by
  simp [ladderCode, cINKEMPTY, cINKQUOTA, cINKSIZE, or_assoc]

/-! An attempt for `a` rows: half 0 takes what it can of them. -/

section
variable (x : Ladder) (o : DOp)

theorem Ladder.attempt_zero : x.attempt o 0 = ({ x with a := 0, a0 := 0, a1 := 0, buf0 := 0, buf1 := 0, phase := 4 }, []) := by
  simp [Ladder.attempt]

variable {x} {a : Nat}

theorem Ladder.attempt_low (ha : 0 < a) (hle : a ≤ x.c0) :
    x.attempt o a = ({ x with a, a0 := a, a1 := 0, buf0 := 0, buf1 := 0, phase := 1 }, [allocReq o x a]) := by
  simp [Ladder.attempt, Nat.min_eq_left hle, ha, ha.ne']

theorem Ladder.attempt_both (hlt : x.c0 < a) (hc0 : 0 < x.c0) :
    x.attempt o a = ({ x with a, a0 := x.c0, a1 := a - x.c0, buf0 := 0, buf1 := 0, phase := 1 }, [allocReq o x x.c0]) := by
  simp [Ladder.attempt, Nat.min_eq_right hlt.le, hc0, (hc0.trans hlt).ne']

theorem Ladder.attempt_high (ha : 0 < a) (hc0 : x.c0 = 0) :
    x.attempt o a = ({ x with a, a0 := 0, a1 := a, buf0 := 0, buf1 := 0, phase := 2 }, [allocReq o x a]) := by
  simp [Ladder.attempt, hc0, ha.ne']

end

theorem allocationLadder_clauses : Claims.AllocationLadder := by
  intro x o
  refine ⟨fun a ha hle => Ladder.attempt_low o ha hle, fun a hlt hc0 => Ladder.attempt_both o hlt hc0,
    fun a ha hc0 => Ladder.attempt_high o ha hc0, Ladder.attempt_zero x o, ?ladder, ?other, ?first, ?second, ?full⟩
  case ladder =>
    intro v hphase hrefused hcode
    simp only [Ladder.reply, hphase, if_true, hrefused, (ladderCode_iff _).mpr hcode]
  case other =>
    intro v hphase hrefused hcode
    simp only [Ladder.reply, hphase, if_true, hrefused, Bool.eq_false_iff.mpr (mt (ladderCode_iff _).mp hcode), Bool.false_eq_true, if_false]
  case first =>
    intro v hphase hgranted ha1
    simp only [Ladder.reply, hphase, if_true, hgranted, Bool.false_eq_true, if_false, ha1, gt_iff_lt]
  case second =>
    intro v hphase hrefused ha0
    simp [Ladder.reply, hphase, hrefused, ha0]
  case full =>
    intro v hc0 hcap
    simp [Ladder.reply, hc0, hcap]

/-- A reply to an allocation frees the slot of its operation and reaches the ladder. -/
theorem ductusReplies_clauses : Claims.DuctusReplies := by
  intro p s e clu unit id tag l pc r hreach hnum hop howner huse hrun hdalloc htag
  have hans : s.answered p = some e := by simp [State.answered, hop, huse]
  have hmoves : ((tget (s.ductus clu).run unit).any isDalloc && decide (tag % 8 ≥ 2)) = true := by
    simp [hrun, hdalloc, htag]
  refine congrArg Host.Outcome.next ?_
  rw [hans]
  simp only [Option.map_some, howner, hreach, hnum, hmoves, Bool.not_true, Bool.false_eq_true, if_false]
  rfl

/-- Settles O20: the ladder moves by what an attempt for some rows does, and a reply finds its ladder by the operation it names. -/
theorem ductusAllocation : Obligations.DuctusAllocation := ⟨allocationLadder_clauses, ductusReplies_clauses⟩

end Sys2Proof.Machine
end

section
/-! What counting, recording and the errors met leave of the engines, the fabric ports and the registers (12 R419, R422). -/

namespace Sys2Proof.Machine

/-- The Ductus engines, the fabric ports and the stored registers. -/
def State.fixtures (s : State) : Tbl Ductus × Tbl Port × Tbl W64 := (s.duc, s.ports, s.reg)

theorem foldl_fixtures {α : Type} {f : State → α → State} (h : ∀ s x, (f s x).fixtures = s.fixtures) (xs : List α) (s : State) :
    (xs.foldl f s).fixtures = s.fixtures := by
  induction xs generalizing s with
  | nil => rfl
  | cons x xs ih => exact (ih _).trans (h s x)

section
variable (s : State)

@[simp] theorem State.logEvent_fixtures (e : Event) : (s.logEvent e).fixtures = s.fixtures := by
  unfold State.logEvent
  repeat' split
  all_goals rfl

@[simp] theorem State.countAt_fixtures (off code n : Nat) : (s.countAt off code n).fixtures = s.fixtures := by
  unfold State.countAt
  split
  · dsimp only
    split
    · rfl
    · exact State.logEvent_fixtures ..
  · rfl

@[simp] theorem State.count_fixtures (code : Nat) : (s.count code).fixtures = s.fixtures := State.countAt_fixtures ..

@[simp] theorem State.found_fixtures (u : Upset) (ce ue srck srcid addr : Nat) :
    (s.found u ce ue srck srcid addr).fixtures = s.fixtures := by
  unfold State.found
  generalize (if u.hard then ue else ce) = code
  dsimp only
  split
  · rfl
  · exact (State.logEvent_fixtures ..).trans (State.count_fixtures ..)

@[simp] theorem State.eccEntry_fixtures (x : ErrAt) (unit : Nat) : (s.eccEntry x unit).1.fixtures = s.fixtures :=
  foldl_fixtures (fun _ _ => State.found_fixtures ..) _ _

@[simp] theorem State.eccAt_fixtures (x : ErrAt) : (s.eccAt x).fixtures = s.fixtures := by
  unfold State.eccAt
  split
  · rfl
  · dsimp only
    split
    · exact State.eccEntry_fixtures ..
    · split <;> exact State.eccEntry_fixtures ..

@[simp] theorem State.eccMeta_fixtures (p c : Nat) : (s.eccMeta p c).fixtures = s.fixtures := by
  unfold State.eccMeta
  split
  · rfl
  · dsimp only
    split <;> exact State.eccEntry_fixtures ..

@[simp] theorem State.throttleCtx_fixtures (p : Nat) : (s.throttleCtx p).fixtures = s.fixtures := by
  unfold State.throttleCtx
  split
  · rfl
  · dsimp only
    split <;> rfl

@[simp] theorem State.throttled_fixtures (srck srcid : Nat) (ps : List Nat) : (s.throttled srck srcid ps).fixtures = s.fixtures := by
  refine (foldl_fixtures (fun _ _ => State.throttleCtx_fixtures ..) _ _).trans ?_
  rw [State.logEvent_fixtures, State.count_fixtures]

@[simp] theorem State.portThrottle_fixtures (n : Nat) : (s.portThrottle n).fixtures = s.fixtures := by
  unfold State.portThrottle
  split
  · rfl
  · exact State.throttled_fixtures ..

/-! A FREE of an engine (07 R249). -/

theorem State.freeRefused_fixtures (p node off code cls : Nat) : (s.freeRefused p node off code cls).fixtures = s.fixtures :=
  (State.logEvent_fixtures ..).trans (State.count_fixtures ..)

theorem State.eccFree_fixtures (p off : Nat) : (s.eccFree p off).fixtures = s.fixtures := by
  unfold State.eccFree
  split
  · exact State.eccMeta_fixtures ..
  · rfl

variable {s} in
theorem inkFreeAt_done_fixtures {p off : Nat} {t : State} (h : s.inkFreeAt p off = .done t) : t.fixtures = s.fixtures := by
  unfold State.inkFreeAt at h
  dsimp only at h
  repeat' split at h
  all_goals simp only [Freed.done.injEq, reduceCtorEq] at h
  all_goals
    subst h
    rfl

@[simp] theorem State.giveBack_fixtures (p node off : Nat) : (s.giveBack p node off).fixtures = s.fixtures := by
  unfold State.giveBack
  dsimp only
  split
  next t ht => exact (inkFreeAt_done_fixtures ht).trans (State.eccFree_fixtures ..)
  next => exact (State.freeRefused_fixtures ..).trans (State.eccFree_fixtures ..)
  next => exact State.eccFree_fixtures ..

end

end Sys2Proof.Machine
end

section
/-! The collect table as entries close (06 R224, R227): a closed entry is gone, another keeps all but that it may come to owe a
return region. -/

namespace Sys2Proof.Machine

/-- A place of the table keeps its entry, which may come to owe its return region. -/
def KeepsEntry (before after : Option CtEntry) : Prop :=
  ∃ o : Bool, after = before.map (fun x => { x with owed := o }) ∧ ((before.getD {}).owed = true → o = true)

theorem KeepsEntry.refl (e : Option CtEntry) : KeepsEntry e e := by
  cases e with
  | none => exact ⟨true, rfl, fun _ => rfl⟩
  | some x => exact ⟨x.owed, rfl, id⟩

theorem KeepsEntry.trans {a b c : Option CtEntry} (hab : KeepsEntry a b) (hbc : KeepsEntry b c) : KeepsEntry a c := by
  obtain ⟨o, rfl, ho⟩ := hab
  obtain ⟨q, rfl, hq⟩ := hbc
  cases a with
  | none => exact ⟨true, rfl, fun _ => rfl⟩
  | some x => exact ⟨q, rfl, fun h => hq (ho h)⟩

/-- An empty place stays empty. -/
theorem KeepsEntry.eq_none {a b : Option CtEntry} (h : KeepsEntry a b) (ha : a = none) : b = none := by
  obtain ⟨o, rfl, -⟩ := h
  rw [ha]
  rfl

/-- Tables of entries: the floors are as they were, the places of L are empty, and every other place keeps its entry. -/
structure ClosesOnly (L : List Nat) (a b : Ductus) : Prop where
  floor : b.floor = a.floor
  closed : ∀ i ∈ L, tget b.ct i = none
  kept : ∀ i ∉ L, KeepsEntry (tget a.ct i) (tget b.ct i)

theorem ClosesOnly.trans {L M : List Nat} {a b c : Ductus} (hab : ClosesOnly L a b) (hbc : ClosesOnly M b c) :
    ClosesOnly (L ++ M) a c where
  floor := hbc.floor.trans hab.floor
  closed i hi := by
    by_cases hM : i ∈ M
    · exact hbc.closed i hM
    · exact (hbc.kept i hM).eq_none (hab.closed i ((List.mem_append.mp hi).resolve_right hM))
  kept i hi := by
    rw [List.mem_append, not_or] at hi
    exact (hab.kept i hi.1).trans (hbc.kept i hi.2)

/-- A table whose values change with their keys reads so. -/
theorem tget_map_snd {V W : Type} (f : Nat → V → W) (t : Tbl V) (k : Nat) :
    tget (t.map (fun e => (e.1, f e.1 e.2))) k = (tget t k).map (f k) := by
  induction t with
  | nil => rfl
  | cons e t ih =>
    obtain ⟨j, w⟩ := e
    by_cases hj : j = k
    · subst hj
      simp [tget]
    · simp [tget, hj, ih]

/-- An entry that owes a region which it names, and an engine of such entries. -/
def CtEntry.owing (c r i : Nat) (e : CtEntry) : CtEntry := { e with owed := e.names i c r || e.owed }

def Ductus.owing (d : Ductus) (c r : Nat) : Ductus := { d with ct := d.ct.map (fun x => (x.1, x.2.owing c r x.1)) }

theorem ductus_oweRegion (s : State) (p c r n : Nat) :
    (s.oweRegion p c r).ductus n = if (s.part p).clus.contains n then (s.ductus n).owing c r else s.ductus n := by
  have hentry : (fun x : Nat × CtEntry => if x.2.names x.1 c r then (x.1, { x.2 with owed := true }) else x) =
      fun x => (x.1, x.2.owing c r x.1) := by
    funext x
    by_cases h : x.2.names x.1 c r = true <;> simp [CtEntry.owing, h]
  have hengine : (s.oweRegion p c r).duc = s.duc.map (fun e =>
      (e.1, if (s.part p).clus.contains e.1 then e.2.owing c r else e.2)) := by
    simp only [State.oweRegion, hentry]
    refine List.map_congr_left fun e _ => ?_
    split <;> rfl
  rw [State.ductus, hengine, tgetD, tget_map_snd (fun n d => if (s.part p).clus.contains n then Ductus.owing d c r else d),
    State.ductus, tgetD]
  cases tget s.duc n with
  | none =>
    split <;> rfl
  | some d => rfl

theorem closesOnly_owing (d : Ductus) (c r : Nat) : ClosesOnly [] d (d.owing c r) where
  floor := rfl
  closed _ hi := nomatch hi
  kept i _ := by
    have hread : tget (d.owing c r).ct i = (tget d.ct i).map (CtEntry.owing c r i) := tget_map_snd (CtEntry.owing c r) d.ct i
    rw [hread]
    cases tget d.ct i with
    | none => exact KeepsEntry.refl none
    | some x => exact ⟨x.names i c r || x.owed, rfl, fun h => Bool.or_eq_true_iff.mpr (.inr h)⟩

theorem ClosesOnly.refl (d : Ductus) : ClosesOnly [] d d where
  floor := rfl
  closed _ hi := nomatch hi
  kept _ _ := KeepsEntry.refl _

theorem closesOnly_tdel (d : Ductus) (i : Nat) : ClosesOnly [i] d { d with ct := tdel d.ct i } where
  floor := rfl
  closed j hj := by
    rw [List.mem_singleton.mp hj]
    exact tget_tdel_self ..
  kept j hj := by
    have hread : tget (tdel d.ct i) j = tget d.ct j := tget_tdel_ne _ (by simpa using hj)
    rw [hread]
    exact KeepsEntry.refl _

/-- An entry closes on its engine. -/
theorem closeEntry_closesOnly (s : State) (p c clu i : Nat) :
    ClosesOnly [i] (s.ductus clu) ((s.closeEntry p c clu i).ductus clu) := by
  have hdel : (s.setDuctus clu { s.ductus clu with ct := tdel (s.ductus clu).ct i }).ductus clu =
      { s.ductus clu with ct := tdel (s.ductus clu).ct i } := State.ductus_setDuctus ..
  unfold State.closeEntry
  dsimp only
  split
  · rw [hdel]
    exact closesOnly_tdel ..
  · split
    · rw [ductus_oweRegion, hdel]
      split
      · exact (closesOnly_tdel ..).trans (closesOnly_owing ..)
      · exact closesOnly_tdel ..
    · generalize hs1 : s.setDuctus clu { s.ductus clu with ct := tdel (s.ductus clu).ct i } = s1 at hdel ⊢
      have hduc : ∀ l r, (s1.giveBack p l r).ductus clu = s1.ductus clu := fun l r => by
        have hrow : (s1.giveBack p l r).duc = s1.duc := congrArg Prod.fst (State.giveBack_fixtures s1 p l r)
        simp only [State.ductus, hrow]
      rw [hduc, hdel]
      exact closesOnly_tdel ..

theorem closeEntries_closesOnly (p c clu : Nat) (L : List Nat) (s : State) :
    ClosesOnly L (s.ductus clu) ((L.foldl (fun (t : State) i => t.closeEntry p c clu i) s).ductus clu) := by
  induction L generalizing s with
  | nil => exact ClosesOnly.refl _
  | cons i L ih => exact (closeEntry_closesOnly s p c clu i).trans (ih _)

/-! The instructions on the collect table. -/

@[simp] theorem CoreSt.refill_pc (cs : CoreSt) (a n : Nat) : (cs.refill a n).pc = cs.pc := by
  simp [CoreSt.refill, List.range_succ]

@[simp] theorem CoreSt.take_pc (cs : CoreSt) (a n v : Nat) : (cs.take a n v).pc = cs.pc := CoreSt.refill_pc _ a n

/-- A combine of partial rows writes their sums, and leaves of its core's program counter and registers what was there. -/
theorem startDuctus_dcombineSeg {s : State} {clu unit : Nat} {o : DOp} {l : Loc} {cs : CoreSt} (hop : o.op = 0xB8)
    (hseg : bit o.fn8 0 = true) (hl : o.loc = l) (hcore : s.core l = cs) :
    ∃ t : State, s.startDuctus clu unit o = .went (t.addCounter l o.cnt 1) ∧ (t.core l).pc = cs.pc ∧ (t.core l).x = cs.x ∧
      (t.core l).spad = swrite cs.spad (o.xd.toNat % spadSize) (4 * fld o.xc 32 32)
        (packElems 32 (segSum (fld o.xc 32 32) cs.spad (o.desc % spadSize) (fld o.xc 0 16))) := by
  subst hl hcore
  simp only [State.startDuctus, hop, hseg, if_true]
  refine ⟨_, rfl, ?_⟩
  simp

theorem startDuctus_dcancel {s : State} {clu unit : Nat} {o : DOp} (hop : o.op = 0xB9) (hone : bit o.fn8 0 = false) :
    s.startDuctus clu unit o =
      .went ((s.cancelOn o.loc.p o.loc.s (keyOf o.xc.toNat).1 (keyOf o.xc.toNat).2.1 clu).addCounter o.loc o.cnt 1) := by
  simp only [State.startDuctus, hop, hone, Bool.false_eq_true, if_false]

/-- The generation below which an engine has retired a context's entries, after a cancellation; and the entries that this retires. -/
def Ductus.retireTo (d : Ductus) (ctx g : Nat) : Nat := if genLive g (d.floorOf ctx) then g else d.floorOf ctx

def Ductus.retired (d : Ductus) (ctx b g : Nat) : List Nat :=
  (List.range' (16 * ctx) 16).filter fun i =>
    (d.entry i).st != 0 && (d.entry i).batch == b && !genLive (d.entry i).gen (d.retireTo ctx g)

/-- A cancellation on an engine sets the floor, closes the entries it retires, and closes no other. -/
theorem cancelOn_closesOnly (s : State) (p ctx b g clu : Nat) :
    ClosesOnly ((s.ductus clu).retired ctx b g)
      { s.ductus clu with floor := tput (s.ductus clu).floor ctx ((s.ductus clu).retireTo ctx g) }
      ((s.cancelOn p ctx b g clu).ductus clu) := by
  have hfloor := State.ductus_setDuctus s clu
    { s.ductus clu with floor := tput (s.ductus clu).floor ctx ((s.ductus clu).retireTo ctx g) }
  rw [← hfloor]
  exact closeEntries_closesOnly ..

/-- Settles O21: DCOLLECT acts at issue, the other two in their idle unit, and a cancellation closes entries one after another,
of which each closing leaves every other entry but for what it owes. -/
theorem ductusCollectsAndCancels : Obligations.DuctusCollectsAndCancels := by
  unfold Obligations.DuctusCollectsAndCancels
  intro s c l w cs n k
  refine ⟨?collect, ?combine, ?cancel, ?keeps⟩
  case collect =>
    intro i hi hfn hrsv hr hfind e
    have hchecks : firstErr [(w.r.fn8 != 0 || ductusRsv w false true false false, cRESFIELD),
        (((s.ductus n).find l.s k.1 k.2.1 k.2.2).isNone, cDUCENTRY)] = none := by
      simp [firstErr, hfn, hrsv, hfind]
    have hact : exec (.dcollect c w) s = .next (if e.st = 2 then (s.setCore l (cs.adv 16)).addCounter l w.r.a.toNat 1
        else (s.setCore l (cs.adv 16)).setDuctus n { s.ductus n with
          ct := tput (s.ductus n).ct i { e with armed := some (l, w.r.a.toNat) } }) := by
      refine congrArg Host.Outcome.next (issue_eff16 hi ((checked_act hr.1 (hazard_nil s l) hchecks hr.2).trans ?_))
      have hentry : ((s.ductus n).find l.s k.1 k.2.1 k.2.2).getD 0 = i := by rw [hfind]; rfl
      dsimp only [cs, n, k] at hentry
      simp only [hentry]
      split <;> rfl
    exact ⟨fun hst => by rw [hact, if_pos hst], fun hst => by rw [hact, if_neg hst]⟩
  case combine =>
    intro hreads hidle hfn hrsv hshape o m
    obtain ⟨hquiet, hfree, -⟩ := hidle
    obtain ⟨⟨-, hloc, -⟩, -⟩ := id hreads
    have hseg : bit w.r.fn8.toNat 0 = true := by rw [hfn]; rfl
    have hhigh : bits w.r.fn8.toNat 1 7 = 0 := by rw [hfn]; rfl
    obtain ⟨t, hstart, hpc, hx, hspad⟩ := startDuctus_dcombineSeg (s := (s.setCore l (cs.adv 16)).ductusTaken n 3 o)
      (clu := n) (unit := 3) (o := o) (l := l) rfl hseg rfl (State.core_setCore ..)
    refine ⟨t, congrArg Host.Outcome.next ?_, hpc, hx, hspad⟩
    rw [hseg, if_pos rfl, State.issueSeg, ductusIssue_enters (size := 0) rfl hreads (illegalFn_ductus (by decide))]
    · exact ductusEnter_starts (s := s.setCore l (cs.adv 16)) hquiet hfree (ductusLive_of_located (o := o) hloc rfl) hstart
    · rw [hhigh, hrsv]
      rfl
    · exact fun r hr => nomatch hr
    · exact if_neg (Bool.eq_false_iff.mp hshape)
  case cancel =>
    intro hreads hidle hfn hrsv o s1
    obtain ⟨hquiet, hfree, -⟩ := hidle
    obtain ⟨⟨-, hloc, -⟩, -⟩ := id hreads
    have hone : bit w.r.fn8.toNat 0 = false := by rw [hfn]; rfl
    have hhigh : bits w.r.fn8.toNat 1 7 = 0 := by rw [hfn]; rfl
    refine congrArg Host.Outcome.next ?_
    rw [ductusIssue_enters (size := 0) rfl hreads (illegalFn_ductus (by decide))]
    · exact ductusEnter_starts (s := s.setCore l (cs.adv 16)) hquiet hfree (ductusLive_of_located (o := o) hloc rfl)
        (startDuctus_dcancel (o := o) rfl hone)
    · rw [hhigh, hrsv]
      rfl
    · exact fun r hr => nomatch hr
    · rfl
  case keeps =>
    intro s p ctx b g clu f t
    have hcloses := cancelOn_closesOnly s p ctx b g clu
    have hfloor : (t.ductus clu).floorOf ctx = if genLive g f then g else f := by
      rw [Ductus.floorOf, hcloses.floor, tgetD_tput_self]
      rfl
    refine ⟨fun hg => by rw [hfloor, if_pos hg], fun hg => by rw [hfloor, hg]; rfl, fun i hlo hhi => ?_⟩
    have hretired : i ∈ (s.ductus clu).retired ctx b g ↔ (((s.ductus clu).entry i).st ≠ 0 ∧ ((s.ductus clu).entry i).batch = b) ∧
        genLive ((s.ductus clu).entry i).gen (if genLive g f then g else f) = false := by
      rw [Ductus.retired, List.mem_filter, and_iff_right (List.mem_range'_1.mpr ⟨hlo, hhi⟩)]
      simp [Ductus.retireTo, f]
    refine ⟨fun hst hb hdead => hcloses.closed i (hretired.mpr ⟨⟨hst, hb⟩, hdead⟩), fun hother => hcloses.kept i fun hmem => ?_⟩
    obtain ⟨⟨-, hb⟩, hdead⟩ := hretired.mp hmem
    obtain hb' | hlive := hother
    · exact hb' hb
    · exact Bool.false_ne_true (hdead.symm.trans hlive)

end Sys2Proof.Machine
end

section
/-! DSEND of a dispatch over a return table in the scratchpad (06 R195, R222): the entry it opens keeps the two bits of the table
address RET that name its space, and the entry of the statements keeps the offset alone. -/

namespace Sys2Proof.Machine

/-- A DSEND of a dispatch with its descriptor at x1. -/
def sendWord : FormX := { r := { a := 0, b := 1, c := 0, d := 0, fn8 := 0, fmt := 0, rsv := 0 }, w1 := 0 }

/-- A layer descriptor of one token and one expert, whose tables, RET among them, lie at offset 0 of the scratchpad (space 1). -/
def sendDesc : Nat :=
  listSum ([0, 64, 128, 192, 256, 320, 384, 448, 512, 784].map fun field => 2 ^ 48 * 2 ^ field) + 128 * 2 ^ 672 + 8 * 2 ^ 704

def sendLoc : Loc := ⟨15, 7, 0, 0⟩

def sendCore : CoreSt := { run := .running, x := [(1, 0x1000)], spad := swrite [] 0x1000 128 sendDesc }

/-- The DSEND in its unit. -/
def sendOp : DOp := ductusOp sendCore sendLoc 0xB6 sendWord sendDesc

/-- Core 0 of a running context at that DSEND, with what its engine's units hold. -/
def sendState (q : Tbl (List DOp)) : State :=
  { State.reset with
    plat := { power := .running }
    parts := [(15, { clus := [0], resident := some 7, ctxs := [(7, { st := .running, started := [0] })] })]
    cores := [(sendLoc.key, sendCore)]
    duc := [(0, { q })] }

/-- The region of entry 112, the first of context slot 7, after an instruction. -/
def regionLeft : Host.Outcome State Fault Refusal → Nat
  | .next t => ((t.ductus 0).entry 112).region
  | _ => 0

/-- The DSEND leaves a region in the scratchpad, whether it waits behind another one or starts. -/
theorem regionLeft_send :
    regionLeft (exec (.dsendDispatch ⟨0, 0⟩ sendWord) (sendState [(2, [sendOp])])) = 2 ^ 48 ∧
    regionLeft (exec (.dsendDispatch ⟨0, 0⟩ sendWord) (sendState [])) = 2 ^ 48 := by
  decide +kernel

/-- Refutes O16: for a DSEND that joins a queue the clause opens an entry with the 48 bits of the region's offset, and the model's entry
keeps its space as well, here the scratchpad's 1. -/
theorem not_ductusIssue : ¬ Obligations.DuctusIssue := by
  unfold Obligations.DuctusIssue Claims.DuctusQueues
  intro h
  obtain ⟨-, -, -, -, hsend, -⟩ := h.1 (sendState [(2, [sendOp])]) ⟨0, 0⟩ sendLoc sendWord
  have hopens := hsend 112 ⟨by decide +kernel, by decide +kernel⟩ (by decide +kernel) (by decide +kernel) (by decide +kernel)
    (by decide +kernel) (by decide +kernel) (by decide +kernel)
  have hregion := regionLeft_send.1.symm.trans (congrArg regionLeft hopens)
  exact absurd hregion (by decide +kernel)

/-- Refutes O19: a DSEND that starts at once opens its entry in the same way, and has nothing to send over these empty tables. -/
theorem not_ductusExchange : ¬ Obligations.DuctusExchange := by
  unfold Obligations.DuctusExchange Claims.DuctusExchangeStarts
  intro h
  obtain ⟨-, hsend⟩ := h.1 (sendState []) ⟨0, 0⟩ sendLoc sendWord (by decide +kernel) (by decide +kernel)
  have hopens := hsend 112 (by decide +kernel) (by decide +kernel) (by decide +kernel) (by decide +kernel) (by decide +kernel)
    (by decide +kernel) (by decide +kernel) (by decide +kernel)
  have hregion := regionLeft_send.2.symm.trans (congrArg regionLeft hopens)
  exact absurd hregion (by decide +kernel)

end Sys2Proof.Machine
end

section
/-! The states of the fabric ports (08 R272, R273): packets that a port loses find another queue and change the state of no port. -/

namespace Sys2Proof.Machine

/-- After an operation every port is in the state it was in, and the stored registers are as they were. -/
structure KeepsPorts (s t : State) : Prop where
  st : ∀ n, (t.port n).st = (s.port n).st
  reg : t.reg = s.reg

namespace KeepsPorts

theorem refl (s : State) : KeepsPorts s s := ⟨fun _ => rfl, rfl⟩

theorem trans {s t u : State} (h : KeepsPorts s t) (h' : KeepsPorts t u) : KeepsPorts s u :=
  ⟨fun n => (h'.st n).trans (h.st n), h'.reg.trans h.reg⟩

theorem of_fixtures {s t : State} (h : t.fixtures = s.fixtures) : KeepsPorts s t := by
  have hports : t.ports = s.ports := congrArg (fun x => x.2.1) h
  exact ⟨fun n => by simp only [State.port, hports], congrArg (fun x => x.2.2) h⟩

/-! One lemma for each operation: what kept the ports before it keeps them after it. -/

section
variable {s t : State} (h : KeepsPorts s t)
include h

theorem count (code : Nat) : KeepsPorts s (t.count code) := h.trans (of_fixtures (State.count_fixtures ..))

theorem portThrottle (n : Nat) : KeepsPorts s (t.portThrottle n) := h.trans (of_fixtures (State.portThrottle_fixtures ..))

theorem logEvent_unless (b : Bool) (e : Event) : KeepsPorts s (if b then t else t.logEvent e) := by
  cases b
  · exact h.trans (of_fixtures (State.logEvent_fixtures ..))
  · exact h

/-- A port that is written with its own state. -/
theorem setPort {n : Nat} {v : Port} (hv : v.st = (t.port n).st) : KeepsPorts s (t.setPort n v) where
  st m := by
    rw [← h.st m]
    by_cases hm : m = n
    · rw [hm, State.port_setPort, hv]
    · simp [State.port, State.setPort, tgetD_tput_ne _ _ _ hm]
  reg := h.reg

theorem foldl {α : Type} {f : State → α → State} (hf : ∀ s t x, KeepsPorts s t → KeepsPorts s (f t x)) (xs : List α) :
    KeepsPorts s (xs.foldl f t) := by
  induction xs generalizing t with
  | nil => exact h
  | cons x xs ih => exact ih (hf s t x h)

theorem setMeshQ (n : Nat) (q : MeshPort) : KeepsPorts s (t.setMeshQ n q) := ⟨h.st, h.reg⟩

theorem enqueuePort (n : Nat) (k : Packet) (inp : Nat) (circ : Option Nat) : KeepsPorts s (t.enqueuePort n k inp circ) := by
  unfold State.enqueuePort
  dsimp only
  split
  · exact h.setMeshQ ..
  · split
    · exact h.setPort rfl
    · split
      · exact h.setPort rfl
      · refine portThrottle ?_ n
        refine logEvent_unless ?_ _ _
        refine count ?_ _
        exact h.setPort rfl

theorem setOutQueue (n : Nat) (q : List QEnt) : KeepsPorts s (t.setOutQueue n q) := by
  unfold State.setOutQueue
  split
  · exact h.setPort rfl
  · exact h.setMeshQ ..

theorem joinAt (n : Nat) (q : QEnt) (k : Packet) : KeepsPorts s (t.joinAt n q k) := by
  unfold State.joinAt
  dsimp only
  refine count (setOutQueue ?_ ..) _
  exact ⟨h.st, h.reg⟩

theorem enterQueue (n : Nat) (k : Packet) (inp : Nat) : KeepsPorts s (t.enterQueue n k inp) := by
  unfold State.enterQueue
  split
  · exact h.joinAt ..
  · exact h.enqueuePort ..

theorem noRoute (k : Packet) : KeepsPorts s (t.noRoute k) := count (h.trans (of_fixtures (State.eccAt_fixtures ..))) _

theorem requeue (q : QEnt) : KeepsPorts s (t.requeue q) := by
  unfold State.requeue
  split
  · exact h.count _
  · split
    · exact h.count _
    · split
      · exact h.enterQueue ..
      · exact h.noRoute _

theorem requeueAll (qs : List QEnt) : KeepsPorts s (qs.foldl (fun (t : State) q => t.requeue q) t) :=
  h.foldl (fun _ _ q h => h.requeue q) qs

end

end KeepsPorts

/-- A link that is lost, once that is counted and logged. -/
def State.linkLost (s : State) (n cause : Nat) : State :=
  let s1 : State := (({ s.setPort n ((s.port n).cut .down s.now) with owes := s.owes.filter (fun o => o.port != n) } : State).count 0x0411)
  (s1.logEvent (s1.event 0x0411 5 3 n cause 0 0)).portThrottle n

theorem portDown_eq (s : State) (n cause : Nat) :
    s.portDown n cause = (s.port n).outq.foldl (fun (t : State) q => t.requeue q) (s.linkLost n cause) := rfl

theorem linkLost_fixtures (s : State) (n cause : Nat) :
    (s.linkLost n cause).fixtures = (s.setPort n ((s.port n).cut .down s.now)).fixtures := by
  unfold State.linkLost
  dsimp only
  rw [State.portThrottle_fixtures, State.logEvent_fixtures, State.count_fixtures]
  rfl

/-- A link that is lost, and what its packets do after that. -/
theorem portDown_keeps (s : State) (n cause : Nat) :
    KeepsPorts (s.setPort n ((s.port n).cut .down s.now)) (s.portDown n cause) := by
  rw [portDown_eq]
  exact (KeepsPorts.of_fixtures (linkLost_fixtures ..)).requeueAll _

theorem portDown_down (s : State) (n cause : Nat) : ((s.portDown n cause).port n).st = .down := by
  rw [(portDown_keeps ..).st, State.port_setPort]
  rfl

/-- A port without packets in its queue keeps nothing to send again. -/
theorem portDown_retry {s : State} {n : Nat} (hq : (s.port n).outq = []) (cause : Nat) : ((s.portDown n cause).port n).retry = [] := by
  have hports : (s.linkLost n cause).ports = (s.setPort n ((s.port n).cut .down s.now)).ports :=
    congrArg (fun x => x.2.1) (linkLost_fixtures ..)
  rw [portDown_eq, hq, List.foldl_nil, State.port, hports]
  exact congrArg Port.retry (State.port_setPort ..)

/-- A port is DISABLED with 0 in its control register, whatever its packets do. -/
theorem portDisable_disabled (s : State) (n : Nat) :
    ((s.portDisable n).port n).st = .disabled ∧ (s.portDisable n).rg (oPortCtl n) = 0 := by
  unfold State.portDisable
  dsimp only
  generalize hs0 : ({ s.setRg (oPortCtl n) 0 with plat := s.plat.domsOff [64 + n] } : State) = s0
  have hreg : (if (s.port n).st = .up then s0.portDown n 4 else s0).reg = (s.setRg (oPortCtl n) 0).reg := by
    rw [← hs0]
    split
    · exact (portDown_keeps ..).reg
    · rfl
  generalize (if (s.port n).st = .up then s0.portDown n 4 else s0) = s1 at hreg
  have hkeeps := (KeepsPorts.refl (s1.setPort n ((s1.port n).cut .disabled s1.now))).requeueAll (s1.port n).outq
  refine ⟨?_, ?_⟩
  · rw [hkeeps.st, State.port_setPort]
    rfl
  · have hread := State.rg_setRg s (oPortCtl n) 0
    rw [State.rg] at hread ⊢
    rw [hkeeps.reg]
    exact (congrArg (fun r => ((tget r (oPortCtl n)).getD (w64 (regReset (oPortCtl n)))).toNat) hreg).trans hread

theorem State.port_toState (s : State) (n : Nat) (v : Port) (st : PortState) :
    ((s.setPort n v).toState n st).port n = { v with st, since := s.now } := by
  rw [State.toState, State.port_setPort, State.port_setPort]
  rfl

theorem State.port_reach (s : State) (t n : Nat) : (s.reach t).port n = s.port n := by
  unfold State.reach
  split <;> rfl

theorem State.toState_reach (s : State) (t n : Nat) (st : PortState) :
    (s.reach t).toState n st = (s.reach t).setPort n { s.port n with st, since := (s.reach t).now } := by
  rw [State.toState, State.port_reach]

theorem upFails_of_up {s : State} {n : Nat} (hpower : s.plat.power = .running) (hst : (s.port n).st = .up) (cause : Nat) :
    s.upFails n cause = s.portDown n cause :=
  if_pos (by simp [hpower, hst])

theorem portStates_clauses : Claims.PortStates := by
  unfold Claims.PortStates
  intro s port hon n p goes hloop
  have hloop' : s.looping port.toNat = false := hloop
  have hpower : s.plat.power = .running := hon
  have hin : ∀ {st : PortState}, p.st = st → (s.plat.power == .running && (s.port port.toNat).st == st) = true := fun hst => by
    simpa [hpower, p, n] using hst
  refine ⟨?enable, ?disable, ?trained, ?untrained, ?aligned, ?unaligned, ?retried, ?lost⟩
  case enable =>
    intro hst
    have henable : exec (.portEnable port) s = .next (s.portEnable n) := congrArg Host.Outcome.next (if_neg (by simp [hpower, hloop']))
    rw [henable, State.portEnable, if_pos hst]
    rfl
  case disable =>
    have hdisable : exec (.portDisable port) s = .next (s.portDisable n) := congrArg Host.Outcome.next (if_neg (by simp [hpower, hloop']))
    obtain ⟨hst, hrg⟩ := portDisable_disabled s n
    exact ⟨_, hdisable, hst, hrg⟩
  case trained =>
    intro rev hdom hst
    have htrains : (s.plat.power == .running && s.plat.domOn (64 + port.toNat) &&
        ((s.port port.toNat).st == .training || (s.port port.toNat).st == .down)) = true := by
      simpa [hpower, p, n] using ⟨hdom, hst⟩
    refine ⟨_, congrArg Host.Outcome.next (if_pos htrains), ?_⟩
    exact State.port_toState ..
  case aligned =>
    intro hst
    refine ⟨_, congrArg Host.Outcome.next (if_pos (hin hst)), ?_⟩
    exact State.port_toState ..
  case untrained | unaligned | retried =>
    intro hst
    exact congrArg Host.Outcome.next ((if_pos (hin hst)).trans (State.toState_reach ..))
  case lost =>
    intro hst
    have hfails : ∀ cause, s.upFails port.toNat cause = s.portDown n cause := upFails_of_up hpower hst
    exact ⟨congrArg Host.Outcome.next ((if_neg (by simp [hloop'])).trans (hfails 4)), congrArg Host.Outcome.next (hfails 0),
      congrArg Host.Outcome.next (hfails 1), congrArg Host.Outcome.next (hfails 3),
      fun hq cause => ⟨portDown_down .., portDown_retry hq cause⟩⟩

end Sys2Proof.Machine
end

section
/-! The device's request ports (06 R222; 07 R241, R258; 08 R311). -/

namespace Sys2Proof.Machine

section
variable (s : State) (k : Packet)

@[simp] theorem State.take_part (p : Nat) : (s.take k).part p = s.part p := take_reads (·.part p) (fun _ => rfl) s k
@[simp] theorem State.take_mover (n : Nat) : (s.take k).mover n = s.mover n := take_reads (·.mover n) (fun _ => rfl) s k
@[simp] theorem State.take_front (n : Nat) : (s.take k).front n = s.front n := take_reads (·.front n) (fun _ => rfl) s k
@[simp] theorem State.take_phys (p l : Nat) : (s.take k).phys p l = s.phys p l := take_reads (·.phys p l) (fun _ => rfl) s k
@[simp] theorem State.take_nclu (p : Nat) : (s.take k).nclu p = s.nclu p := take_reads (·.nclu p) (fun _ => rfl) s k
@[simp] theorem State.take_pnode : (s.take k).pnode = s.pnode := take_reads (·.pnode) (fun _ => rfl) s k
@[simp] theorem State.take_inkq : (s.take k).inkq = s.inkq := take_reads (·.inkq) (fun _ => rfl) s k
@[simp] theorem State.take_ductus (n : Nat) : (s.take k).ductus n = s.ductus n := take_reads (·.ductus n) (fun _ => rfl) s k

end

/-- A field of the low 64 bits. -/
theorem bits_mod64 {lo n : Nat} (h : lo + n ≤ 64) (v : Nat) : bits (v % 2 ^ 64) lo n = bits v lo n := by
  refine Nat.eq_of_testBit_eq fun i => ?_
  rw [testBit_bits, testBit_bits, Nat.testBit_mod_two_pow]
  by_cases hi : i < n
  · rw [decide_eq_true (show lo + i < 64 by omega), Bool.true_and]
  · rw [decide_eq_false hi, Bool.false_and, Bool.false_and]

/-- A store enters a queue that no store waits for and that has room. -/
theorem tmvStore_enters {s : State} {n : Nat} (hwait : (s.mover n).wait = []) (hroom : (s.mover n).q.length < 64) (k : Packet) :
    s.tmvStore n k = (((s.setMover n { s.mover n with
      q := (s.mover n).q ++ [{ p := k.dpart, s := k.dctx, desc := k.data % 2 ^ 512 }] }).notify k).answer k 0x8 0 0 0) := by
  simp only [State.tmvStore, State.tmvPull, State.mover_setMover, hwait, List.nil_append, List.foldl_cons, List.foldl_nil]
  rw [if_neg (by simpa using hroom)]
  simp only [State.setMover, tput_tput_self, List.drop_succ_cons, List.drop_zero]

/-- What an engine does with an answer store of some fate (06 R222). -/
def State.answerStore (s : State) (clu : Nat) (k : Packet) (fate : Nat × Nat) : State :=
  let d := s.ductus clu
  let e := d.entry fate.2
  if fate.1 = 2 then
    ((s.setDuctus clu { d with ct := tput d.ct fate.2 { e with got := e.got + k.size } }).perform k k.dpart k.dctx).ctCheck clu fate.2
  else (((s.uncarry k).ducCount clu (0x0301 + fate.1) 1).notify k).answer k 0x8 0 0 0

/-- An admitted answer store is taken, and its fate decides. -/
theorem returnStoreArrival_fate {s : State} {k : Packet} (hext : k.ext = true) (hadm : Admitted s k [2])
    (hclu : fld k.x1 0 6 < s.nclu k.dpart) :
    exec (.returnStoreArrival k) s = .next ((s.take k).answerStore (s.phys k.dpart (fld k.x1 0 6)) k
      ((s.take k).returnFate (s.phys k.dpart (fld k.x1 0 6)) k.dctx k)) := by
  obtain ⟨hreach, hnum, hok, hwait⟩ := hadm
  have hin : ¬ fld k.x1 0 6 ≥ s.nclu k.dpart := Nat.not_le.mpr hclu
  refine congrArg Host.Outcome.next ?_
  simp only [hext, hreach, hnum, hok, hwait, hin, decide_false, Bool.not_true, Bool.or_false, Bool.false_eq_true, if_false]
  generalize (s.take k).returnFate (s.phys k.dpart (fld k.x1 0 6)) k.dctx k = fate
  obtain ⟨f, i⟩ := fate
  by_cases hf : f = 2
  · subst hf
    rfl
  · rw [State.answerStore, if_neg hf]
    split
    next heq => exact absurd (congrArg Prod.fst heq) hf
    next heq => cases heq; rfl

theorem ports_clauses : Claims.Ports := by
  unfold Claims.Ports
  intro s k s1
  refine ⟨?mover, ?permission, ?inkwell, ?answer⟩
  case mover =>
    intro q hreach hnum hspace hquad hok n m hcopy hwait hroom
    have hport : exec (.tmvPortStore k) s = .next (s.portStore k) := congrArg Host.Outcome.next (if_pos (by simp [hquad, hspace]))
    have hstore : s.portStore k = s1.tmvStore n k := by
      simp [State.portStore, hreach, hcopy, hnum, hquad, hok, s1, n]
    rw [hport, hstore, tmvStore_enters (by simpa [s1] using hwait) (by simpa [s1] using hroom)]
    simp only [s1, State.take_mover]
    rfl
  case permission =>
    intro hreach hnum hext hisPort hoff hcopy hok
    have hquad : portQuad k.offset = none := by rw [hoff]; rfl
    have hlig : ligBlock k.offset = false := by rw [hoff]; rfl
    have hport : exec (.rstRequest k) s = .next (s.portStore k) := congrArg Host.Outcome.next (by simp [hext, hisPort, hlig])
    have hrule : s.portOk k (k.offset == permPort && s.permOk k) = true := by simpa [hoff] using hok
    rw [hport]
    simp only [State.portStore, hreach, hcopy, hnum, hquad, hrule, if_true, Bool.not_true, Bool.false_eq_true, if_false]
    rw [performed_posted (.inl (ptype_of_reaches hreach)), bits_mod64 (by decide), bits_mod64 (by decide), bits_mod64 (by decide)]
  case inkwell =>
    intro hreach hnum hisPort hok v n
    have hink : exec (.fetchAddRequest k) s = .next (s1.inkEnter k) :=
      congrArg Host.Outcome.next (by simp [hreach, hnum, hisPort, hok, s1])
    rw [hink]
    refine ⟨fun hfree => congrArg Host.Outcome.next ?_, fun halloc hgood hown hclu hruled => congrArg Host.Outcome.next ?_⟩
    · rw [State.inkEnter, if_neg (fun ⟨_, _, halloc, _⟩ => absurd (hfree.symm.trans halloc) (by decide))]
      simp only [s1, State.take_inkq]
    · rw [State.inkEnter, if_pos (by simpa [s1, v] using ⟨hown, hgood, halloc, hclu, hruled⟩)]
      simp only [s1, State.take_front, State.take_phys]
      rfl
  case answer =>
    intro hext hadm hclu clu e
    have hduc : s1.ductus clu = s.ductus clu := State.take_ductus ..
    rw [returnStoreArrival_fate hext hadm hclu]
    refine ⟨fun hfate => congrArg Host.Outcome.next ?_, fun hfate => congrArg Host.Outcome.next (if_neg hfate)⟩
    rw [State.answerStore, if_pos hfate, hduc]

/-- Settles O31: the request ports by the checks each makes before it acts, and the states of a fabric port, which nothing that its packets
do on other ports changes. -/
theorem portsOfTheDevice : Obligations.PortsOfTheDevice := ⟨ports_clauses, portStates_clauses⟩

end Sys2Proof.Machine
end

section
/-! Pools (07 R234-R238, R266): classes and stacks, and how the shared operations leave a pool. -/

namespace Sys2Proof.Machine

/-! Classes (07 R234). -/

theorem classOf_le (n : Nat) : classOf n ≤ 23 := by
  unfold classOf
  cases h : (List.range 23).find? (fun c => decide (n ≤ classSize c)) with
  | none => exact le_rfl
  | some c => exact (List.mem_range.mp (List.mem_of_find?_eq_some h)).le

/-- The class of a size that some class holds is the smallest of them. -/
theorem classOf_spec {n : Nat} (hn : n ≤ 2 ^ 30) :
    classOf n ≤ 22 ∧ n ≤ classSize (classOf n) ∧ ∀ c, c < classOf n → classSize c < n := by
  unfold classOf
  cases h : (List.range 23).find? (fun c => decide (n ≤ classSize c)) with
  | none =>
    have hlast := List.find?_eq_none.mp h 22 (by decide)
    exact absurd (decide_eq_true (show n ≤ classSize 22 from hn)) hlast
  | some c =>
    obtain ⟨hfits, hc, hleast⟩ := List.find?_range_eq_some.mp h
    refine ⟨Nat.le_of_lt_succ (List.mem_range.mp hc), of_decide_eq_true hfits, fun d hd => ?_⟩
    simpa using hleast d hd

/-! Stacks (07 R236). -/

theorem Pool.pop_free {p : Pool} (hfresh : p.fresh ≤ p.total) (hfree : 0 < p.free) : p.pop.2.free + 1 = p.free := by
  unfold Pool.free at hfree
  unfold Pool.pop
  split
  case h_1 i t htop =>
    simp only [Pool.free, htop, List.length_cons]
    omega
  case h_2 htop =>
    simp only [Pool.free, htop, List.length_nil] at hfree ⊢
    omega

@[simp] theorem Pool.pop_base (p : Pool) : p.pop.2.base = p.base := by
  unfold Pool.pop
  split <;> rfl

theorem classesAndStacks_clauses : Claims.ClassesAndStacks := by
  refine ⟨fun n hn => classOf_spec hn, fun p i => ⟨rfl, rfl, rfl, tget_tdel_self ..⟩, fun p i r htop => ?freed, fun p htop => ?fresh,
    fun p => Pool.pop_free⟩
  case freed | fresh => simp only [Pool.pop, htop]

/-! What the shared operations leave of the pools. -/

/-- What every step of a fold leaves, the fold leaves. -/
theorem foldl_reads {α β : Type} (f : State → β) {g : State → α → State} (h : ∀ s x, f (g s x) = f s) (xs : List α) (s : State) :
    f (xs.foldl g s) = f s :=
  List.foldlRecOn (motive := fun t => f t = f s) xs g rfl fun t ht x _ => (h t x).trans ht

section
variable (s : State)

@[simp] theorem State.count_pools (code : Nat) : (s.count code).pools = s.pools := by
  obtain ⟨c, q, h⟩ := count_eq_counters s code
  rw [h]

@[simp] theorem State.logEvent_pools (e : Event) : (s.logEvent e).pools = s.pools := by
  obtain ⟨c, q, h⟩ := logEvent_eq_counters s e
  rw [h]

@[simp] theorem State.found_pools (u : Upset) (ce ue srck srcid addr : Nat) : (s.found u ce ue srck srcid addr).pools = s.pools := by
  unfold State.found
  generalize (if u.hard then ue else ce) = code
  dsimp only
  split
  · rfl
  · exact (State.logEvent_pools ..).trans (State.count_pools ..)

@[simp] theorem State.eccEntry_pools (x : ErrAt) (unit : Nat) : (s.eccEntry x unit).1.pools = s.pools :=
  foldl_reads State.pools (fun _ _ => State.found_pools ..) _ _

@[simp] theorem State.disown_pools (p c : Nat) : (s.disown p c).pools = s.pools :=
  foldl_reads State.pools (g := fun t r => t.use_ r 0 (classSize c)) (fun _ _ => rfl) _ _

@[simp] theorem State.disown_metaUsed (p c : Nat) : (s.disown p c).metaUsed = s.metaUsed :=
  foldl_reads State.metaUsed (g := fun t r => t.use_ r 0 (classSize c)) (fun _ _ => rfl) _ _

/-- A pool whose cached buffers come back is in the state it was in. -/
theorem State.recallCaches_pool_st (p c : Nat) : ((s.recallCaches p c).pool (poolKey p c)).st = (s.pool (poolKey p c)).st := by
  unfold State.recallCaches
  rw [State.pool_setPool]
  exact List.foldrRecOn (motive := fun q : Pool => q.st = (s.pool (poolKey p c)).st) _ _ rfl fun _ h _ _ => h

end

/-! Metadata (07 R237, R266). -/

theorem eccMeta_of_clean {s : State} (hclean : s.upsets = []) (p c : Nat) : s.eccMeta p c = s := by
  simp [State.eccMeta, hclean]

/-- Metadata with an error that cannot be corrected are read. -/
theorem eccMeta_of_hard {s : State} {u : Upset} {p c : Nat} (hu : u ∈ s.upsets) (hat : u.at_ = .metadata (poolKey p c))
    (hhard : u.hard = true) (hst : (s.pool (poolKey p c)).st = .active) : ((s.eccMeta p c).pool (poolKey p c)).st = .failed := by
  have hsome : s.upsets.isEmpty = false := by
    cases h : s.upsets with
    | nil => simp [h] at hu
    | cons _ _ => rfl
  have hbad : (s.eccEntry (.metadata (poolKey p c)) 1).2 = true :=
    List.any_eq_true.mpr ⟨u, List.mem_filter.mpr ⟨hu, by simp [hat]⟩, hhard⟩
  have hpool : (s.eccEntry (.metadata (poolKey p c)) 1).1.pool (poolKey p c) = s.pool (poolKey p c) := by
    rw [State.pool, State.eccEntry_pools, State.pool]
  unfold State.eccMeta
  simp only [hsome, hbad, hpool, hst, Bool.false_eq_true, if_false, beq_self_eq_true, Bool.and_self, if_true]
  rw [State.pool_setPool]

end Sys2Proof.Machine
end

section
/-! The pool commands (07 R235, R237, R238, R266). -/

namespace Sys2Proof.Machine

section
variable {s : State} {p c : Nat}

/-- A DISABLED pool is enabled when its configuration meets R235, and else its error is set (07 R235, R237). -/
theorem poolEnable_of_disabled (hclean : s.upsets = []) (hc : c ≤ 22) (hst : (s.pool (poolKey p c)).st = .disabled) :
    let q := s.pool (poolKey p c)
    let n := q.ngran * granSize / classSize c
    s.poolEnable p c = if s.poolOk p c then { s.setPool (poolKey p c) { st := .enabling, base := q.base, ngran := q.ngran, total := n } with
        metaUsed := s.metaUsed + metaUnits n }
      else (s.setPool (poolKey p c) { q with err := true }).count 0x0211 := by
  unfold State.poolEnable
  rw [eccMeta_of_clean hclean]
  exact if_neg (by simp [hst, Nat.not_lt.mpr hc])

/-- A pool with buffers allocated drains (07 R237). -/
theorem poolDrain_of_allocated (hclean : s.upsets = []) (hst : (s.pool (poolKey p c)).st = .active)
    (hback : (s.recallCaches p c).pool (poolKey p c) = s.pool (poolKey p c)) (halloc : (s.pool (poolKey p c)).allocated = true) :
    s.poolDrain p c = (s.recallCaches p c).setPool (poolKey p c) { s.pool (poolKey p c) with st := .draining } := by
  unfold State.poolDrain
  rw [eccMeta_of_clean hclean]
  simp [hst, hback, halloc]

/-- A pool that is in use forgets its buffers, and its metadata are released (07 R237). -/
theorem poolDisable_of_used (hclean : s.upsets = []) (hdis : (s.pool (poolKey p c)).st ≠ .disabled)
    (hen : (s.pool (poolKey p c)).st ≠ .enabling) :
    let q := s.pool (poolKey p c)
    (s.poolDisable p c).pool (poolKey p c) = { base := q.base, ngran := q.ngran, err := q.err } ∧
      (s.poolDisable p c).metaUsed = s.metaUsed - metaUnits q.total := by
  unfold State.poolDisable
  simp only [eccMeta_of_clean hclean, hdis, hen, or_self, if_false]
  exact ⟨State.pool_setPool .., congrArg (· - _) (State.disown_metaUsed ..)⟩

/-- Every buffer of an ACTIVE pool is free at once (07 R238). -/
theorem poolReclaim_of_active (hclean : s.upsets = []) (hst : (s.pool (poolKey p c)).st = .active) :
    ∃ q : Pool, (s.poolReclaim p c).pool (poolKey p c) = { q with top := [], fresh := 0, md := [], reclaim := true } ∧ q.st = .active := by
  have hkept : (((s.recallCaches p c).disown p c).pool (poolKey p c)).st = .active := by
    rw [State.pool, State.disown_pools, ← hst]
    exact State.recallCaches_pool_st ..
  unfold State.poolReclaim
  simp only [eccMeta_of_clean hclean, hst, ne_eq, not_true_eq_false, false_and, if_false]
  exact ⟨_, State.pool_setPool .., hkept⟩

/-- The RECLAIM of an ACTIVE pool is complete (07 R238). -/
theorem poolReclaimDone_of_active (hst : (s.pool (poolKey p c)).st = .active) (hreclaim : (s.pool (poolKey p c)).reclaim = true) :
    s.poolReclaimDone p c = (s.setPool (poolKey p c) { s.pool (poolKey p c) with reclaim := false }).wakeInk := by
  unfold State.poolReclaimDone
  simp [hst, hreclaim]

end

theorem poolLifecycle_clauses : Claims.PoolLifecycle := by
  intro s p cls hon hcls k q n
  have hrun {t : State} : (if s.plat.power ≠ .running then s else t) = t := if_neg (fun h => h hon)
  refine ⟨fun u hu hat hhard hst => eccMeta_of_hard hu hat hhard hst, fun hclean => ?_⟩
  refine ⟨fun hst hok => congrArg Host.Outcome.next (hrun.trans ?enable), fun hst hbad => congrArg Host.Outcome.next (hrun.trans ?illegal),
    fun hst => congrArg Host.Outcome.next ?enabled, fun hst hback halloc => congrArg Host.Outcome.next (hrun.trans ?drain),
    fun hst => ⟨_, congrArg Host.Outcome.next hrun, ?disable⟩, fun hst => ⟨_, congrArg Host.Outcome.next hrun, ?reclaim⟩,
    fun hst hreclaim => congrArg Host.Outcome.next (hrun.trans ?reclaimed)⟩
  case enable => exact (poolEnable_of_disabled hclean hcls hst).trans (if_pos hok)
  case illegal => exact (poolEnable_of_disabled hclean hcls hst).trans (if_neg (by simp [hbad]))
  case enabled =>
    exact (if_neg (not_or.mpr ⟨fun hpower => hpower hon, fun hpool => hpool hst⟩)).trans
      (eccMeta_of_clean (s := s.setPool k { q with st := .active }) hclean _ _)
  case drain => exact poolDrain_of_allocated hclean hst hback halloc
  case disable =>
    have hused : q.st ≠ .disabled ∧ q.st ≠ .enabling := by rcases hst with h | h | h <;> simp [h]
    exact poolDisable_of_used hclean hused.1 hused.2
  case reclaim =>
    obtain ⟨r, hpool, hact⟩ := poolReclaim_of_active hclean hst
    rw [hpool]
    exact ⟨rfl, rfl, rfl, rfl, hact⟩
  case reclaimed => exact poolReclaimDone_of_active hst hreclaim

/-- Settles O23: classes by the first that holds a size, stacks by their ends, and the pool commands by the pool's state. -/
theorem inkwellPools : Obligations.InkwellPools := ⟨classesAndStacks_clauses, poolLifecycle_clauses⟩

end Sys2Proof.Machine
end

section
/-! The central Inkwell's ALLOC (07 R242-R245, R251). -/

namespace Sys2Proof.Machine

/-! The checks of a request, in their order. -/

theorem firstErr_mem {l : List (Bool × Nat)} {code : Nat} (h : firstErr l = some code) : code ∈ l.map Prod.snd := by
  induction l with
  | nil => exact absurd h (by simp [firstErr])
  | cons e l ih =>
    obtain ⟨b, c⟩ := e
    cases b with
    | true => simp_all [firstErr]
    | false => exact List.mem_cons_of_mem _ (ih h)

theorem firstErr_none {l : List (Bool × Nat)} (h : firstErr l = none) : ∀ e ∈ l, e.1 = false := by
  induction l with
  | nil => simp
  | cons e l ih =>
    obtain ⟨b, c⟩ := e
    cases b with
    | true => simp [firstErr] at h
    | false => exact List.forall_mem_cons.mpr ⟨rfl, ih h⟩

theorem allocBad_lt {s : State} {k : Packet} {v code : Nat} (h : s.allocBad k v = some code) : code < 2 ^ 63 := by
  have hmem : code ∈ [cINKOP, cINKSIZE, cINKOP, cINKREQ] := firstErr_mem h
  have hall : ∀ c ∈ [cINKOP, cINKSIZE, cINKOP, cINKREQ], c < 2 ^ 63 := by decide
  exact hall code hmem

/-- A request that passes asks for a size of some class. -/
theorem classOf_of_allocOk {s : State} {k : Packet} {v : Nat} (h : s.allocBad k v = none) : classOf (inkSize v) ≤ 22 := by
  have hsize : (inkSize v == 0 || decide (inkSize v > 2 ^ 30)) = false :=
    firstErr_none h (inkSize v == 0 || decide (inkSize v > 2 ^ 30), cINKSIZE) (by simp)
  obtain ⟨-, hmax⟩ := Bool.or_eq_false_iff.mp hsize
  exact (classOf_spec (Nat.le_of_not_gt (of_decide_eq_false hmax))).1

/-! Replies (07 R243, R251). -/

section
variable (s : State) (k : Packet)

/-- A failure is counted under its code. -/
theorem inkReply_failed {code : Nat} (h : code < 2 ^ 63) :
    s.inkReply k (inkFail code) = ((s.count (code % 2 ^ 16)).notify k).answer k 0x9 0 1 (2 ^ 63 + code) := by
  have hbit : bit (inkFail code) 63 = true := by
    rw [bit, inkFail, Nat.testBit_two_pow_add_eq, Nat.testBit_lt_two_pow h]
    rfl
  have hcode : bits (inkFail code) 0 16 = code % 2 ^ 16 := by
    rw [bits, inkFail, Nat.shiftRight_zero]
    omega
  simp only [State.inkReply, hbit, hcode, if_true]
  rfl

theorem inkReply_served {v : Nat} (h : v < 2 ^ 63) : s.inkReply k v = (s.notify k).answer k 0x9 0 1 v := by
  simp only [State.inkReply, bit, Nat.testBit_lt_two_pow h, Bool.false_eq_true, if_false]

end

/-! The ladder at the request's own class (07 R245). -/

section
variable {s : State} {p r c : Nat} (hclean : s.upsets = []) (hc : c ≤ 22)
include hclean hc

theorem inkLadder_reclaim (hreclaim : (s.pool (poolKey p c)).reclaim = true) : s.inkLadder p r c [0] = .waits 0 s := by
  unfold State.inkLadder
  simp [eccMeta_of_clean hclean, hreclaim, Nat.not_lt.mpr hc]

theorem inkLadder_inactive (hreclaim : (s.pool (poolKey p c)).reclaim = false) (hst : (s.pool (poolKey p c)).st ≠ .active) :
    s.inkLadder p r c [0] = .reply (inkFail cINKEMPTY) s := by
  unfold State.inkLadder
  simp [eccMeta_of_clean hclean, hreclaim, hst, Nat.not_lt.mpr hc, State.inkLadder]

variable (hreclaim : (s.pool (poolKey p c)).reclaim = false) (hst : (s.pool (poolKey p c)).st = .active)
  (hfree : (s.pool (poolKey p c)).free ≠ 0)
include hreclaim hst hfree

theorem inkLadder_allocates (hquota : (s.reqr r).inuse + classSize c ≤ (s.reqr r).quota) :
    let b := (s.pool (poolKey p c)).pop
    s.inkLadder p r c [0] = .reply ((s.pool (poolKey p c)).offset c b.1 + c * 2 ^ 48)
      ((s.setPool (poolKey p c) { b.2 with md := tput b.2.md b.1 (256 + r) }).use_ r (classSize c) 0) := by
  unfold State.inkLadder
  simp [eccMeta_of_clean hclean, hreclaim, hst, hfree, Nat.not_lt.mpr hc, Nat.not_lt.mpr hquota, Pool.offset]

/-- A requester without credit at any front end is refused over its quota (07 R240, R244). -/
theorem inkLadder_overQuota (hfe : s.fe = []) (hquota : (s.reqr r).quota < (s.reqr r).inuse + classSize c) :
    s.inkLadder p r c [0] = .reply (inkFail cINKQUOTA) (s.recallCredit r) := by
  have hcredit : s.creditOf r = 0 := by rw [State.creditOf, hfe]; rfl
  have hreqr : ((s.recallCredit r).reqr r).inuse = (s.reqr r).inuse ∧ ((s.recallCredit r).reqr r).quota = (s.reqr r).quota := by
    unfold State.recallCredit State.use_
    simp only [hcredit, State.reqr_setReqr]
    exact ⟨rfl, rfl⟩
  unfold State.inkLadder
  simp [eccMeta_of_clean hclean, hreclaim, hst, hfree, Nat.not_lt.mpr hc, hquota, hreqr]

end

/-! INK_ALLOC at the head of the requests. -/

/-- The state after an ALLOC whose search ended with `r`. -/
def InkReq.served (q : InkReq) (r : Served) : State :=
  match r with
  | .waits i t => { t with inkWait := t.inkWait ++ [{ q with step := i }] }
  | .reply v t => t.inkReply q.pkt v

section
variable {s : State} {q : InkReq} {rest : List InkReq} (hon : On s) (hq : s.inkq = q :: rest) (hop : inkOp q.operand ≠ 2)
include hon hq hop

theorem exec_inkAlloc_refused {code : Nat} (hbad : ({ s with inkq := rest } : State).allocBad q.pkt q.operand = some code) :
    exec .inkAlloc s = .next (({ s with inkq := rest } : State).inkReply q.pkt (inkFail code)) := by
  refine congrArg Host.Outcome.next ?_
  simp only [hq]
  rw [if_neg (by simp [hon, hop]), hbad]

/-- A request that passes and may not fall back searches its own class alone. -/
theorem exec_inkAlloc_searches (hok : ({ s with inkq := rest } : State).allocBad q.pkt q.operand = none)
    (hown : inkNofb q.operand = true) (hstep : q.step = 0) {r : Served} (h : ({ s with inkq := rest } : State).inkLadder q.pkt.dpart
      (inkReqId q.operand) (classOf (inkSize q.operand)) [0] = r) : exec .inkAlloc s = .next (q.served r) := by
  refine congrArg Host.Outcome.next ?_
  simp only [hq]
  rw [if_neg (by simp [hon, hop]), hok, ← h]
  simp only [hown, hstep, if_true, Nat.zero_add, Nat.sub_zero, List.range'_one]
  rfl

end

theorem inkwellAllocates_clauses : Claims.InkwellAllocates := by
  intro s q rest hon hclean hq hop s0 v c k pool r reply
  have hclean0 : s0.upsets = [] := hclean
  refine ⟨fun code hbad => ?refused, fun hok hown hstep hst hreclaim hfree hquota hfits => ?allocated,
    fun hok hown hstep hst hreclaim hfree _ hfe hquota => ?overQuota, fun hok hown hstep hst hreclaim => ?empty,
    fun hok hown hstep hreclaim => ?waits⟩
  case refused => exact (exec_inkAlloc_refused hon hq hop hbad).trans (congrArg _ (inkReply_failed _ _ (allocBad_lt hbad)))
  case allocated =>
    have hc := classOf_of_allocOk hok
    have hladder := inkLadder_allocates (s := s0) (r := r) hclean0 hc hreclaim hst hfree hquota
    have hlt : pool.offset c pool.pop.1 + c * 2 ^ 48 < 2 ^ 63 := by
      have hoff : pool.offset c pool.pop.1 < 2 ^ 48 := hfits
      have hcls : c ≤ 22 := hc
      omega
    exact (exec_inkAlloc_searches hon hq hop hok hown hstep hladder).trans (congrArg _ (inkReply_served _ _ hlt))
  case overQuota =>
    have hladder := inkLadder_overQuota (s := s0) (r := r) hclean0 (classOf_of_allocOk hok) hreclaim hst hfree hfe hquota
    refine ⟨s0.recallCredit r, ?_, rfl⟩
    exact (exec_inkAlloc_searches hon hq hop hok hown hstep hladder).trans (congrArg _ (inkReply_failed _ _ (by decide)))
  case empty =>
    have hinactive : pool.st ≠ .active := fun h => nomatch hst.symm.trans h
    have hladder := inkLadder_inactive (s := s0) (r := r) hclean0 (classOf_of_allocOk hok) hreclaim hinactive
    exact (exec_inkAlloc_searches hon hq hop hok hown hstep hladder).trans (congrArg _ (inkReply_failed _ _ (by decide)))
  case waits =>
    have hladder := inkLadder_reclaim (s := s0) (r := r) hclean0 (classOf_of_allocOk hok) hreclaim
    have hsame : ({ q with step := 0 } : InkReq) = q := by rw [← hstep]
    exact (exec_inkAlloc_searches hon hq hop hok hown hstep hladder).trans (by rw [InkReq.served, hsame])

end Sys2Proof.Machine
end

section
/-! The central Inkwell's FREE (07 R249; 06 R220, R224). -/

namespace Sys2Proof.Machine

/-! A FREE is a request's or an engine's own: its offset, whose it is in a record, the form in which it waits, and how it ends. -/

def InkReq.offFreed (q : InkReq) : Nat :=
  match q.own with
  | some x => x.2.2
  | none => inkOff q.operand

def InkReq.freer (q : InkReq) (s : State) : Nat :=
  match q.own with
  | some x => x.2.1
  | none => s.nodeOf q.part q.pkt

def InkReq.waiting (q : InkReq) : InkReq :=
  match q.own with
  | some x => { pkt := ⟨0, 0, 0, 0, 0, 0, 0⟩, step := 0, own := some x }
  | none => q

def InkReq.ends (q : InkReq) (t : State) (v : Nat) : State :=
  match q.own with
  | some _ => t
  | none => (t.notify q.pkt).answer q.pkt 0x9 0 1 v

/-- The state after a FREE that met `f` in `s`. -/
def InkReq.settles (q : InkReq) (s : State) (f : Freed) : State :=
  match f with
  | .waits => { s with freeWait := s.freeWait ++ [q.waiting] }
  | .refused code cls => q.ends (s.freeRefused q.part (q.freer s) q.offFreed code cls) (inkFail code)
  | .done t => q.ends t 0

/-- The FREE at the head of the requests, whoever asked for it. -/
theorem exec_inkFree {s : State} {q : InkReq} {rest : List InkReq} (hon : On s) (hclean : s.upsets = []) (hq : s.inkq = q :: rest)
    (hop : inkOp q.operand = 2) (hgood : inkBad q.operand = false) :
    let s0 : State := { s with inkq := rest }
    exec .inkFree s = .next (q.settles s0 (s0.inkFreeAt q.part q.offFreed)) := by
  intro s0
  have hecc (p off : Nat) : s0.eccFree p off = s0 := by
    unfold State.eccFree
    split
    · exact eccMeta_of_clean (s := s0) hclean _ _
    · rfl
  refine congrArg Host.Outcome.next ?_
  simp only [hq]
  rw [if_neg (by simp [hon, hop]), hecc]
  cases hown : q.own with
  | some x =>
    have hpart : q.part = x.1 := by rw [InkReq.part, hown]
    have hoff : q.offFreed = x.2.2 := by rw [InkReq.offFreed, hown]
    simp only [State.giveBack, hecc, hpart, hoff]
    cases s0.inkFreeAt x.1 x.2.2 <;> simp only [InkReq.settles, InkReq.waiting, InkReq.ends, InkReq.freer, hown, hpart, hoff]
  | none =>
    have hpart : q.part = q.pkt.dpart := by rw [InkReq.part, hown]
    have hoff : q.offFreed = inkOff q.operand := by rw [InkReq.offFreed, hown]
    simp only [hgood, Bool.false_eq_true, if_false, hpart, hoff]
    cases s0.inkFreeAt q.pkt.dpart (inkOff q.operand) <;>
      simp only [InkReq.settles, InkReq.waiting, InkReq.ends, InkReq.freer, hown, hpart, hoff]

/-! What a FREE of an offset meets. -/

section
variable {s : State} {p off : Nat}

theorem inkFreeAt_unpooled (h : s.poolOf p off = none) : s.inkFreeAt p off = .refused cINKRANGE 0 := by rw [State.inkFreeAt, h]

variable {c : Nat} (h : s.poolOf p off = some c)
include h

theorem inkFreeAt_reclaim (hreclaim : (s.pool (poolKey p c)).reclaim = true) : s.inkFreeAt p off = .waits := by
  simp [State.inkFreeAt, h, hreclaim]

variable (hreclaim : (s.pool (poolKey p c)).reclaim = false)
include hreclaim

theorem inkFreeAt_failed (hst : (s.pool (poolKey p c)).st = .failed) : s.inkFreeAt p off = .refused cINKMETAUE c := by
  simp [State.inkFreeAt, h, hreclaim, hst]

theorem inkFreeAt_misaligned (hst : (s.pool (poolKey p c)).st ≠ .failed) (hoff : off % classSize c ≠ 0) :
    s.inkFreeAt p off = .refused cINKALIGN c := by
  simp [State.inkFreeAt, h, hreclaim, hst, hoff]

section
variable (hoff : off % classSize c = 0)
  (hcached : mdCached (tgetD (s.pool (poolKey p c)).md ((off - (s.pool (poolKey p c)).base * granSize) / classSize c) 0) = false)
include hoff hcached

theorem inkFreeAt_unallocated (hst : (s.pool (poolKey p c)).st ≠ .failed)
    (hmd : mdAllocated (tgetD (s.pool (poolKey p c)).md ((off - (s.pool (poolKey p c)).base * granSize) / classSize c) 0) = false) :
    s.inkFreeAt p off = .refused cINKDOUBLE c := by
  simp [State.inkFreeAt, h, hreclaim, hst, hoff, hcached, hmd]

theorem inkFreeAt_allocated (hst : (s.pool (poolKey p c)).st = .active)
    (hmd : mdAllocated (tgetD (s.pool (poolKey p c)).md ((off - (s.pool (poolKey p c)).base * granSize) / classSize c) 0) = true) :
    let i := (off - (s.pool (poolKey p c)).base * granSize) / classSize c
    s.inkFreeAt p off = .done ((s.setPool (poolKey p c) ((s.pool (poolKey p c)).push i)).use_
      (mdOwner (tgetD (s.pool (poolKey p c)).md i 0)) 0 (classSize c)) := by
  intro i
  have hst' : (((s.setPool (poolKey p c) ((s.pool (poolKey p c)).push i)).use_ (mdOwner (tgetD (s.pool (poolKey p c)).md i 0)) 0
      (classSize c)).pool (poolKey p c)).st = .active := (congrArg Pool.st (State.pool_setPool ..)).trans hst
  simp [State.inkFreeAt, h, hreclaim, hst, hoff, hcached, hmd, hst', i]

end
end

theorem inkwellFrees_clauses : Claims.InkwellFrees := by
  intro s q rest hon hclean hq hop hgood s0 p off node ends
  have hfree := exec_inkFree hon hclean hq hop hgood
  have hmeets {f : Freed} (h : s0.inkFreeAt p off = f) : exec .inkFree s = .next (q.settles s0 f) := h ▸ hfree
  refine ⟨fun c hpool => ?pooled, fun hpool => ?unpooled⟩
  case unpooled => exact hmeets (inkFreeAt_unpooled (s := s0) hpool)
  intro pool i m
  refine ⟨fun hst hreclaim hoff hmd hcached => ?allocated, fun hreclaim => ?waits, fun code hreclaim hcase => ?refused⟩
  case allocated => exact hmeets (inkFreeAt_allocated (s := s0) hpool hreclaim hoff hcached hst hmd)
  case waits => exact hmeets (inkFreeAt_reclaim (s := s0) hpool hreclaim)
  case refused =>
    rcases hcase with ⟨rfl, hst⟩ | ⟨rfl, hst, hoff⟩ | ⟨rfl, hst, hoff, hcached, hmd⟩
    · exact hmeets (inkFreeAt_failed (s := s0) hpool hreclaim hst)
    · exact hmeets (inkFreeAt_misaligned (s := s0) hpool hreclaim hst hoff)
    · exact hmeets (inkFreeAt_unallocated (s := s0) hpool hreclaim hoff hcached hst hmd)
/-- Settles O24: an ALLOC by what its own class's pool has and its requester may take, a FREE by what its offset names. -/
theorem inkwellService : Obligations.InkwellService := ⟨inkwellAllocates_clauses, inkwellFrees_clauses⟩

end Sys2Proof.Machine
end

section
/-! Front ends (07 R247). -/

namespace Sys2Proof.Machine

@[simp] theorem State.setFront_setFront (s : State) (n : Nat) (v w : FrontEnd) : (s.setFront n v).setFront n w = s.setFront n w := by
  simp only [State.setFront, tput_tput_self]

/-! What a front end does with a request: from its cache, or with a grant of credit once it has passed the request on. -/

section
variable {s : State} {n : Nat} {q : InkReq} {f : FrontEnd} {c r : Nat} (hf : s.front n = f) (hc : classOf (inkSize q.operand) = c)
  (hr : inkReqId q.operand = r)
include hf hc

theorem feServe_uncached (h : tgetD f.cache c [] = []) : s.feServe n q = none := by
  simp only [State.feServe, hf, hc, h]

include hr

theorem feServe_uncovered (h : tgetD f.credit r 0 < classSize c) : s.feServe n q = none := by
  unfold State.feServe
  simp only [hf, hc, hr]
  split
  · rfl
  · exact if_pos (by simp [h])

theorem feServe_cached {p i : Nat} {more : List Nat} (hp : q.pkt.dpart = p) (hcache : tgetD f.cache c [] = i :: more)
    (hmine : s.feMine n q = true) (hst : (s.pool (poolKey p c)).st = .active) (hreclaim : (s.pool (poolKey p c)).reclaim = false)
    (hcredit : classSize c ≤ tgetD f.credit r 0) (hquota : (s.reqr r).inuse ≤ (s.reqr r).quota) :
    s.feServe n q = some ((s.setFront n { f with
      cache := tput f.cache c more, credit := tput f.credit r (tgetD f.credit r 0 - classSize c)
      grants := f.grants ++ [{ p, cls := c, idx := i, req := r }] }).inkReply q.pkt ((s.pool (poolKey p c)).offset c i + c * 2 ^ 48)) := by
  unfold State.feServe
  simp only [hf, hc, hr, hp, hcache]
  exact if_neg (by simp [hmine, hst, hreclaim, hcredit, hquota])

theorem feCredit_covered (h : classSize c ≤ tgetD f.credit r 0) : s.feCredit n q = s :=
  if_neg (by simp [hf, hc, hr, h])

theorem feCredit_granted (hmine : s.feMine n q = true) (hcredit : tgetD f.credit r 0 < classSize c) (hgot : 0 < s.creditGrant r) :
    s.feCredit n q = (s.setFront n { f with credit := tput f.credit r (tgetD f.credit r 0 + s.creditGrant r) }).use_ r
      (s.creditGrant r) 0 := by
  unfold State.feCredit
  simp only [hf, hc, hr]
  exact if_pos (by simp [hmine, hcredit, hgot])

omit hf hc in
theorem feCredit_ungranted (h : s.feMine n q = false ∨ s.creditGrant r = 0) : s.feCredit n q = s :=
  if_neg (by rcases h with h | h <;> simp [hr, h])

end

/-! FE_ALLOC. -/

section
variable {s : State} {clu : BitVec 6} {q : InkReq} {rest : List InkReq} (hon : On s) (hq : (s.front clu.toNat).q = q :: rest)
include hon hq

theorem exec_feAlloc_served {t : State}
    (h : (s.setFront clu.toNat { s.front clu.toNat with q := rest }).feServe clu.toNat q = some t) :
    exec (.feAlloc clu) s = .next t := by
  refine congrArg Host.Outcome.next ?_
  simp only [hq]
  rw [if_neg (fun hpower => hpower hon), h]

theorem exec_feAlloc_passed {t : State}
    (h : (s.setFront clu.toNat { s.front clu.toNat with q := rest }).feServe clu.toNat q = none)
    (ht : ({ s.setFront clu.toNat { s.front clu.toNat with q := rest } with inkq := s.inkq ++ [q] } : State).feCredit clu.toNat q = t) :
    exec (.feAlloc clu) s = .next t := by
  refine congrArg Host.Outcome.next ?_
  simp only [hq]
  rw [if_neg (fun hpower => hpower hon), h]
  exact ht

end

/-- Settles O25: a request by the cache and the credit of its front end; the other commands by what they find there. -/
theorem frontEnds : Obligations.FrontEnds := by
  intro s clu hon n f
  have hrun {t : State} : (if s.plat.power ≠ .running then s else t) = t := if_neg (fun h => h hon)
  refine ⟨fun q rest hq => ?alloc, fun cls p hp hcls => ?refill, fun req hheld => ?creditReturn, fun g rest hgrants => ?grant⟩
  case alloc =>
    intro p c r have_ got passed
    have hfront : (s.setFront n { f with q := rest }).front n = { f with q := rest } := State.front_setFront ..
    have hpassed : (passed { f with q := rest }).front n = { f with q := rest } := hfront
    refine ⟨fun hcache hcredit => ?uncached, fun hcredit hmine hgot => ?granted, fun hcredit hnone => ?ungranted,
      fun i more hcache hmine hst hreclaim hcredit hquota hfits => ?served⟩
    case uncached => exact exec_feAlloc_passed hon hq (feServe_uncached hfront rfl hcache) (feCredit_covered hpassed rfl rfl hcredit)
    case granted =>
      refine exec_feAlloc_passed hon hq (feServe_uncovered hfront rfl rfl hcredit)
        ((feCredit_granted hpassed rfl rfl hmine hcredit hgot).trans ?_)
      exact congrArg (fun t : State => ({ t with inkq := s.inkq ++ [q] } : State).use_ r got 0) (State.setFront_setFront ..)
    case ungranted => exact exec_feAlloc_passed hon hq (feServe_uncovered hfront rfl rfl hcredit) (feCredit_ungranted rfl hnone)
    case served =>
      have hlt : (s.pool (poolKey p c)).offset c i + c * 2 ^ 48 < 2 ^ 63 := by
        have hoff : (s.pool (poolKey p c)).offset c i < 2 ^ 48 := hfits
        have hcls : c ≤ 23 := classOf_le _
        omega
      refine (exec_feAlloc_served hon hq
        (feServe_cached hfront rfl rfl rfl hcache hmine hst hreclaim hcredit hquota)).trans (congrArg _ ?_)
      rw [State.setFront_setFront]
      exact inkReply_served _ _ hlt
  case refill =>
    intro pool d keep back r hst hreclaim
    refine congrArg Host.Outcome.next ?_
    have hfills : ¬(s.plat.power ≠ .running ∨ cls.toNat > 22 ∨ (s.pool (poolKey p cls.toNat)).st ≠ .active ∨
        (s.pool (poolKey p cls.toNat)).reclaim = true) := by
      rintro (hpower | hbig | hinactive | hbusy)
      · exact hpower hon
      · exact absurd hcls (Nat.not_le.mpr hbig)
      · exact hinactive hst
      · exact nomatch hreclaim.symm.trans hbusy
    have hpart : s.fePart clu.toNat = some p := hp
    simp only [hpart]
    exact if_neg hfills
  case creditReturn => exact congrArg Host.Outcome.next (if_neg (not_or.mpr ⟨fun hpower => hpower hon, hheld⟩))
  case grant =>
    have hgrants' : (s.front clu.toNat).grants = g :: rest := hgrants
    refine congrArg Host.Outcome.next ?_
    simp only [hgrants']
    exact hrun

end Sys2Proof.Machine
end

section
/-! The Tier Movers' operations and their status (07 R258-R261). -/

namespace Sys2Proof.Machine

/-! What the shared operations leave of a mover. -/

section
variable {s : State} {n : Nat}

/-- No store waits: none enters. -/
theorem tmvPull_of_nothing (h : (s.mover n).wait = []) : s.tmvPull n = s := by
  rw [State.tmvPull, h, List.foldl_nil]

/-- The head of the queue leaves it and runs; no store waits to enter behind it. -/
theorem tmvTake_head {o : TmOp} {rest : List TmOp} (hq : (s.mover n).q = o :: rest) (hwait : (s.mover n).wait = []) (r : TmRun) :
    s.tmvTake n r = s.setMover n { s.mover n with q := rest, run := some r } := by
  rw [State.tmvTake, tmvPull_of_nothing (by rw [State.mover_setMover]; exact hwait), hq, List.drop_one, List.tail_cons]

end

/-! TMV_MOVE and TMV_GLYPH_LOAD at the head of a mover's queue. -/

section
variable {s : State} {quad : BitVec 4} {o : TmOp} {rest : List TmOp} (hon : On s) (hq : (s.mover quad.toNat).q = o :: rest)
  (hrun : (s.mover quad.toNat).run = none)
include hon hq hrun

theorem exec_tmvMove_badDesc (hop : tmOP o.desc = 0) (hbad : tmBad o.desc = true) :
    exec (.tmvMove quad) s = .next (s.tmvTake quad.toNat { op := o, status := cTMVDESC, drops := 0, out := 0, done := true }) := by
  refine congrArg Host.Outcome.next ?_
  simp only [hq, hrun]
  rw [if_neg (by simp [hon, hop]), if_pos hbad]

theorem exec_tmvMove_badGlyph (hop : tmOP o.desc = 0) (hgood : tmBad o.desc = false) (hglyph : s.moveGlyphBad quad.toNat o = true) :
    exec (.tmvMove quad) s = .next (s.tmvTake quad.toNat { op := o, status := cTMVGLYPH, drops := 0, out := 0, done := true }) := by
  refine congrArg Host.Outcome.next ?_
  simp only [hq, hrun]
  rw [if_neg (by simp [hon, hop]), if_neg (by simp [hgood]), if_pos hglyph]

/-- A move that lacks nothing goes through its rows, and the zero lines of its last group. -/
theorem exec_tmvMove_rows (hop : tmOP o.desc = 0) (hgood : tmBad o.desc = false) (hglyph : s.moveGlyphBad quad.toNat o = false)
    (hheld : s.moveHeld quad.toNat o = []) {r : State × Moving}
    (hr : (List.range ((tmNROWS o.desc + 7) / 8 * 8)).foldl (fun (x : State × Moving) j => x.1.moveRow quad.toNat o x.2 j)
      (s, ⟨0, 0, 0⟩) = r) :
    exec (.tmvMove quad) s = .next (((if tmGLY o.desc then r.1.spend9 quad.toNat o (r.2.drawn * tmK o.desc) else r.1).tblEnd
      (.mover quad.toNat)).tmvTake quad.toNat { op := o, status := r.2.status, drops := r.2.drops, out := 0, done := true }) := by
  have hround : roundUp (tmNROWS o.desc) 8 = (tmNROWS o.desc + 7) / 8 * 8 := rfl
  refine congrArg Host.Outcome.next ?_
  simp only [hq, hrun]
  rw [if_neg (by simp [hon, hop]), if_neg (by simp [hgood]), if_neg (by simp [hglyph]), if_neg (by simp [hheld]), hround, hr]

theorem exec_tmvGlyphLoad_badDesc (hop : tmOP o.desc = 1) (hbad : tmBad o.desc = true) :
    exec (.tmvGlyphLoad quad) s = .next (s.tmvTake quad.toNat { op := o, status := cTMVDESC, drops := 0, out := 0, done := true }) := by
  refine congrArg Host.Outcome.next ?_
  simp only [hq, hrun]
  rw [if_neg (by simp [hon, hop]), if_pos hbad]

/-- A glyph image that can be read is kept in its slot when it has no error. -/
theorem exec_tmvGlyphLoad_reads {w : Who} (hw : w = .mover quad.toNat) (hop : tmOP o.desc = 1) (hclean : s.upsets = [])
    (hgood : tmBad o.desc = false) (hperm : s.tblBad o.p (tmSRC o.desc) 0 528 false = none)
    (hlost : s.tblLost w o.p (tmSRC o.desc) 0 528 = none) (hheld : s.tblHeld w o.p (tmSRC o.desc) 0 528 false = [])
    (hpoison : s.tblPoison w o.p o.s (tmSRC o.desc) 0 528 = false) {img : Nat} (himg : s.tblRead w o.p o.s (tmSRC o.desc) 0 528 = img) :
    exec (.tmvGlyphLoad quad) s = .next
      (if (firstErr (glyErrs img false)).isSome then
        (s.tblEnd w).tmvTake quad.toNat { op := o, status := cTMVGLYPH, drops := 0, out := 0, done := true }
      else ((s.tblEnd w).setMover quad.toNat { s.mover quad.toNat with
          glyph := tput (s.mover quad.toNat).glyph (4 * o.p + tmGSLOT o.desc) img }).tmvTake quad.toNat
        { op := o, status := 0, drops := 0, out := 0, done := true }) := by
  subst hw himg
  refine congrArg Host.Outcome.next ?_
  simp only [hq, hrun]
  rw [if_neg (by simp [hon, hop]), if_neg (by simp [hgood]), if_neg (by simp [hperm]), hlost]
  simp only [hheld, List.isEmpty_nil, Bool.not_true, Bool.false_eq_true, if_false, if_true, eccTbl_of_clean hclean, hpoison]

end

/-- The status of a finished operation goes to its NOTE node (07 R261). -/
theorem exec_tmvComplete {s : State} {quad : BitVec 4} {r : TmRun} (hon : On s) (hrun : (s.mover quad.toNat).run = some r)
    (hdone : r.done = true) (hout : r.out = 0) (hslots : s.slotsFull = false) (hbusy : s.farBusy (.mover quad.toNat) = false)
    (hlive : lnLive (s.lnt r.op.p (bits (tmNOTE r.op.desc) 0 16)) = true) :
    exec (.tmvComplete quad) s = .next ((s.setMover quad.toNat { s.mover quad.toNat with run := some { r with out := 1 } }).sendOn r.op.p
      (.tmv quad.toNat false) .none (bits (tmNOTE r.op.desc) 0 16)
      { ptype := 2, cls := 2, size := 0, off := tmSTATUS r.op.desc, space := 0
        data := r.status + r.drops % 2 ^ 32 * 2 ^ 32, words := 1 }) := by
  refine congrArg Host.Outcome.next ?_
  simp only [hrun]
  rw [if_neg (by simp [hon, hdone, hout, hslots, hbusy]), State.tmvSend, if_neg (by simp [hlive])]
  rfl

/-- Settles O27: the operation at the head by its checks in their order, and the status of one that is done. -/
theorem tierMoverRuns : Obligations.TierMoverRuns := by
  intro s quad hon q w m
  refine ⟨fun o rest hq hrun hwait => ?runs, fun r hrun hdone hout hslots hbusy => ?completes⟩
  case completes =>
    intro n hlive
    exact exec_tmvComplete hon hrun hdone hout hslots hbusy hlive
  intro d ended
  have htake {t : State} (hq : (t.mover q).q = o :: rest) (hwait : (t.mover q).wait = []) (st dr : Nat) :
      .next (t.tmvTake q { op := o, status := st, drops := dr, out := 0, done := true }) = ended t st dr :=
    congrArg Host.Outcome.next (tmvTake_head hq hwait _)
  refine ⟨fun hop hbad => ?badMove, fun hop hgood hglyph => ?badGlyph, fun hop hgood hglyph hheld => ?rows,
    fun hop hbad => ?badLoad, fun hop hclean hgood hperm hlost hheld hpoison => ?load⟩
  case badMove => exact (exec_tmvMove_badDesc hon hq hrun hop hbad).trans (htake hq hwait ..)
  case badGlyph => exact (exec_tmvMove_badGlyph hon hq hrun hop hgood hglyph).trans (htake hq hwait ..)
  case rows =>
    intro r hkept
    have hmover : ((if tmGLY d then r.1.spend9 q o (r.2.drawn * tmK d) else r.1).tblEnd w).mover q = m := by
      split <;> exact hkept
    have hq' := (congrArg TierMover.q hmover).trans hq
    have hwait' := (congrArg TierMover.wait hmover).trans hwait
    exact (exec_tmvMove_rows hon hq hrun hop hgood hglyph hheld rfl).trans (htake hq' hwait' ..)
  case badLoad => exact (exec_tmvGlyphLoad_badDesc hon hq hrun hop hbad).trans (htake hq hwait ..)
  case load =>
    intro img
    have hload := exec_tmvGlyphLoad_reads hon hq hrun rfl hop hclean hgood hperm hlost hheld hpoison rfl
    refine ⟨fun hpasses => ?kept, fun hfails => ?refused⟩
    case kept =>
      refine hload.trans ((congrArg Host.Outcome.next (if_neg (by rw [hpasses]; decide))).trans (htake ?_ ?_ ..))
      · rw [State.mover_setMover]
        exact hq
      · rw [State.mover_setMover]
        exact hwait
    case refused =>
      exact hload.trans ((congrArg Host.Outcome.next (if_pos (Option.isSome_iff_ne_none.mpr hfails))).trans
        (htake (t := s.tblEnd w) hq hwait ..))

end Sys2Proof.Machine
end

section
/-! Rows of a move (07 R259). -/

namespace Sys2Proof.Machine

section
variable {s t : State} {q j : Nat} {o : TmOp} {m : Moving} (hclean : s.upsets = [])
include hclean

/-- Nothing follows a failure. -/
theorem moveRow_failed (hst : m.status ≠ 0) : s.moveRow q o m j = (s, m) := by
  unfold State.moveRow
  simp only [eccTbl_of_clean hclean, ite_self]
  exact if_pos hst

variable (hst : m.status = 0)
include hst

/-- The rows behind the last one, in its group, are zeros. -/
theorem moveRow_behind (hj : tmNROWS o.desc ≤ j) (ht : (s.putRow q o j 0 0 false).1 = some t) : s.moveRow q o m j = (t, m) := by
  have hput : s.putRow q o j 0 0 false = (some t, _) := Prod.ext ht rfl
  unfold State.moveRow
  simp only [eccTbl_of_clean hclean, ite_self]
  rw [if_neg (by simp [hst]), if_pos hj, hput]

variable (hj : j < tmNROWS o.desc)
include hj

/-- An index that names no source row drops the row: it is counted, and zeros are written. -/
theorem moveRow_dropped (hidx : tmNoIdx o.desc = false) (hperm : s.tblBad o.p (tmIDX o.desc) (4 * j) 4 false = none)
    (hlost : s.tblLost (.mover q) o.p (tmIDX o.desc) (4 * j) 4 = none)
    (hdrop : tmSROWS o.desc ≤ s.tblRead (.mover q) o.p o.s (tmIDX o.desc) (4 * j) 4)
    (ht : ((s.count 0x0702).putRow q o j 0 0 false).1 = some t) : s.moveRow q o m j = (t, { m with drops := m.drops + 1 }) := by
  have hput : (s.count 0x0702).putRow q o j 0 0 false = (some t, _) := Prod.ext ht rfl
  unfold State.moveRow
  simp only [eccTbl_of_clean hclean, ite_self, hidx, Bool.false_eq_true, if_false]
  rw [if_neg (by simp [hst]), if_neg (Nat.not_le.mpr hj), if_neg (by simp [hperm]), if_neg (by simp [hlost]), if_pos hdrop, hput]

/-- A row that is read in place and needs no glyph is copied: its elements, then its scales. -/
theorem moveRow_copied (hidx : tmNoIdx o.desc = true) (hin : j < tmSROWS o.desc) (hplain : tmGLY o.desc = false) {n v w : Nat}
    (hn : rowBytes (tmSFMT o.desc) (tmK o.desc) = n) (hv : s.tblRead (.mover q) o.p o.s (tmSRC o.desc) (j * n) n = v)
    (hw : tmK o.desc * fmtBits (tmSFMT o.desc) = w) (hperm : s.tblBad o.p (tmSRC o.desc) (j * n) n false = none)
    (hlost : s.tblLost (.mover q) o.p (tmSRC o.desc) (j * n) n = none)
    (hpoison : s.tblPoison (.mover q) o.p o.s (tmSRC o.desc) (j * n) n = false)
    (ht : (s.putRow q o j (v % 2 ^ w) (v / 2 ^ w) false).1 = some t) : s.moveRow q o m j = (t, m) := by
  have hput : s.putRow q o j (v % 2 ^ w) (v / 2 ^ w) false = (some t, _) := Prod.ext ht rfl
  have hlow : bits v 0 w = v % 2 ^ w := by rw [bits, Nat.shiftRight_zero]
  unfold State.moveRow
  simp only [eccTbl_of_clean hclean, ite_self, hidx, hplain, hn, hv, hw, hpoison, hlow, Bool.not_true, Bool.false_and, Bool.or_false,
    Bool.false_eq_true, if_false, if_true]
  rw [if_neg (by simp [hst]), if_neg (Nat.not_le.mpr hj), if_neg (Nat.not_le.mpr hin), if_neg (by simp [hperm]), hlost, hput]

end

theorem moveRow_clauses : Claims.MoveRow := by
  intro s q o m j d zero hclean
  refine ⟨fun hst => moveRow_failed hclean hst, fun hst hj t ht => moveRow_behind hclean hst hj ht,
    fun hst hj hidx hperm hlost hdrop t ht => moveRow_dropped hclean hst hj hidx hperm hlost hdrop ht,
    fun hst hj hidx hin hplain => ?copied⟩
  intro n v w hperm hlost hpoison t ht
  exact moveRow_copied hclean hst hj hidx hin hplain rfl rfl rfl hperm hlost hpoison ht

end Sys2Proof.Machine
end

section
/-! Migrations, staging, promotion and refresh (02 R36; 07 R254-R256, R267). -/

namespace Sys2Proof.Machine

/-! Errors of the stores: what leaves the device brings none about. -/

section
variable (s : State)

@[simp] theorem State.hostAsk_upsets (kind addr size data : Nat) (w : HostWait) :
    (s.hostAsk kind addr size data w).upsets = s.upsets := by
  unfold State.hostAsk
  split
  · exact foldl_reads State.upsets (fun t e => show (t.hostSend _).upsets = t.upsets from rfl) _ _
  · rfl

@[simp] theorem State.sendOn_upsets (p : Nat) (o : Owner) (e : Dest) (lnode : Nat) (r : RReq) :
    (s.sendOn p o e lnode r).upsets = s.upsets := by
  unfold State.sendOn
  dsimp only
  split <;> rfl

theorem State.moveOut_upsets {pl : Place} (haway : pl.onChip = false) (p g i x v : Nat) (pz : Bool) :
    (s.moveOut p g i (pl.home x) v pz).upsets = s.upsets := by
  unfold State.moveOut
  cases pl with
  | t1 | t2 => exact nomatch haway
  | t3 a | t4 k a =>
    simp only [Place.home]
    split
    · rfl
    · simp

end

/-- Two folds whose steps agree wherever a property holds that they keep. -/
theorem foldl_congr_of_kept {α : Type} {P : State → Prop} {f g : State → α → State} (hP : ∀ t x, P t → P (g t x))
    (hfg : ∀ t x, P t → f t x = g t x) (xs : List α) {s : State} (hs : P s) : xs.foldl f s = xs.foldl g s := by
  induction xs generalizing s with
  | nil => rfl
  | cons x xs ih => rw [List.foldl_cons, List.foldl_cons, hfg s x hs, ih (hP s x hs)]

theorem eccHome_of_clean {s : State} (hclean : s.upsets = []) (h : Home) (n : Nat) : s.eccHome h n = s := by
  simp [State.eccHome, hclean]

/-! MIGRATE_BLOCK with no transfer under way (02 R36, 07 R256): by which of the two places is on the device. -/

section
variable {s : State} {p : BitVec 4} {gran : BitVec 27} {m : Mig} (hon : On s)
  (hfind : (s.part p.toNat).migs.find? (fun x => x.gran == gran.toNat) = some m) (hmoving : s.moving p.toNat m.gran = false)
  (hsrc : s.homeBusy p.toNat (m.src.home (65536 * m.next)) 65536 = false)
  (hdst : s.homeBusy p.toNat (m.dst.home (65536 * m.next)) 65536 = false)
include hon hfind hmoving hsrc hdst

theorem exec_migrateBlock_copied (hsrcOn : m.src.onChip = true) (hdstOn : m.dst.onChip = true) :
    exec (.migrateBlock p gran) s = .next ((s.copyBlock p.toNat m.src m.dst m.next).moveNext p.toNat m) := by
  refine congrArg Host.Outcome.next ?_
  simp only [hfind]
  rw [if_neg (by simp [hon, hmoving, hsrc, hdst]), if_pos (by simp [hsrcOn, hdstOn])]

/-- The pieces are sent outside; without errors, nothing that leaves the device is corrected first. -/
theorem exec_migrateBlock_sent (hsrcOn : m.src.onChip = true) (hdstOff : m.dst.onChip = false) (hlink : s.link = .up)
    (hclean : s.upsets = []) :
    exec (.migrateBlock p gran) s = .next (((List.range 256).foldl (fun (t : State) i =>
      let src := m.src.home (65536 * m.next + 256 * i)
      t.moveOut p.toNat m.gran i (m.dst.home (65536 * m.next + 256 * i)) (t.hread src 256) (t.hpoison src 256)) s).moveCheck p.toNat m) := by
  refine congrArg Host.Outcome.next ?_
  simp only [hfind]
  rw [if_neg (by simp [hon, hmoving, hsrc, hdst]), if_neg (by simp [hdstOff]), if_neg (by simp [hlink]), if_pos hsrcOn]
  refine congrArg (fun t : State => t.moveCheck p.toNat m) (foldl_congr_of_kept (P := fun t => t.upsets = []) ?_ ?_ _ hclean)
  · intro t i ht
    exact (State.moveOut_upsets t hdstOff ..).trans ht
  · intro t i ht
    rw [eccHome_of_clean ht]

theorem exec_migrateBlock_asked (hsrcOff : m.src.onChip = false) (hlink : s.link = .up) :
    exec (.migrateBlock p gran) s = .next ((List.range 256).foldl (fun (t : State) i =>
      t.askHome p.toNat (m.src.home (65536 * m.next + 256 * i)) (.move p.toNat m.gran i) (.move p.toNat m.gran i)) s) := by
  refine congrArg Host.Outcome.next ?_
  simp only [hfind]
  rw [if_neg (by simp [hon, hmoving, hsrc, hdst]), if_neg (by simp [hsrcOff]), if_neg (by simp [hlink]), if_neg (by simp [hsrcOff])]

end

/-! Staging, promotion and refresh. -/

/-- A STREAM block that is not staged is, and is served; the next three follow (07 R254). -/
theorem exec_streamStage {s : State} {p : BitVec 4} {addr : BitVec 48} {o : Obj} {b : Nat} (hon : On s)
    (hobj : s.objAt p.toNat (addr.toNat / granSize) = some o) (hpolicy : dPolicy o.desc = 2)
    (hb : (addr.toNat - dGran o.desc * granSize) / 65536 = b) (hstaged : o.staged.contains b = false) :
    exec (.streamStage p addr) s = .next ([b + 1, b + 2, b + 3].foldl (fun t i => t.stageBlock p.toNat o.id i)
      ((s.stageBlock p.toNat o.id b).serveStaged p.toNat o.id b)) := by
  have hnext : List.range' 1 3 = [1, 2, 3] := rfl
  refine congrArg Host.Outcome.next ((if_neg (fun hpower => hpower hon)).trans ?_)
  simp only [hobj, hb, hnext, List.foldl_cons, List.foldl_nil]
  rw [if_neg (by simp only [hstaged, hpolicy]; decide)]

/-- The first granule of the one object that seeks a better tier, and has room there, starts to migrate (07 R255). -/
theorem exec_promotion {s : State} {p : BitVec 4} {o : Obj} {g : Nat} {src dst : Place} (hon : On s)
    (hobjs : (s.part p.toNat).objs = [o]) (hruled : (s.part p.toNat).ruled = false) (hst : (s.part p.toNat).st = .active)
    (hmigs : (s.part p.toNat).migs = []) (hpolicy : dPolicy o.desc = 1) (hplace : o.place = [(g, src)]) (hg : g < 2 ^ 28)
    (htiers : dTiers o.desc = [dst.tier, src.tier]) (hne : dst.tier ≠ src.tier)
    (hroom : s.room p.toNat o.desc g dst.tier (s.usedPlaces p.toNat) = some dst) :
    exec (.promotion p) s = .next (s.setPart p.toNat { s.part p.toNat with
      migs := [{ gran := dGran o.desc + g, src, dst, next := 0 }] }) := by
  have hbetter : (dTiers o.desc).takeWhile (fun t => t != src.tier) = [dst.tier] := by simp [htiers, hne]
  have hseeks : ((s.part p.toNat).objs.filter (fun o => dPolicy o.desc == 1)) = [o] := by simp [hobjs, hpolicy]
  refine congrArg Host.Outcome.next ((if_neg (by simp [hon, hruled, hst, hmigs])).trans ?_)
  simp only [hseeks, sortBy, insertBy, List.findSome?_cons, hplace, if_pos hg, hbetter, hroom, Option.map_some]

theorem placesAndRefresh_clauses : Claims.PlacesAndRefresh := by
  intro s hon
  refine ⟨fun p gran m hfind hmoving => ?migrate, fun p addr o hobj hpolicy hstaged => ?stage,
    fun p o g src dst hobjs hruled hst hmigs hpolicy hplace hg htiers hne hroom => ?promote, fun ch => rfl, fun quad => rfl,
    fun ch p hch hholder => ?catchup⟩
  case migrate =>
    intro b src dst hsrc hdst
    have hsrc' : s.homeBusy p.toNat (m.src.home (65536 * m.next)) 65536 = false := by simpa [src, b] using hsrc
    have hdst' : s.homeBusy p.toNat (m.dst.home (65536 * m.next)) 65536 = false := by simpa [dst, b] using hdst
    exact ⟨exec_migrateBlock_copied hon hfind hmoving hsrc' hdst', exec_migrateBlock_sent hon hfind hmoving hsrc' hdst',
      exec_migrateBlock_asked hon hfind hmoving hsrc' hdst'⟩
  case stage => exact exec_streamStage hon hobj hpolicy rfl hstaged
  case promote => exact exec_promotion hon hobjs hruled hst hmigs hpolicy hplace hg htiers hne hroom
  case catchup =>
    have hrun {t : State} : (if s.plat.power ≠ .running ∨ ch.toNat ≥ 192 then s else t) = t :=
      if_neg (not_or.mpr ⟨fun hpower => hpower hon, Nat.not_le.mpr hch⟩)
    refine ⟨fun hruled => congrArg Host.Outcome.next (hrun.trans ?_), fun hfree => congrArg Host.Outcome.next (hrun.trans ?_)⟩
    · simp only [hholder, hruled, if_true]
    · simp only [hholder, hfree, Bool.false_eq_true, if_false]

/-- Settles O28: a row by its index, a migration by where its granule lies, and the other commands by what they find. -/
theorem movesAndPlaces : Obligations.MovesAndPlaces := ⟨moveRow_clauses, placesAndRefresh_clauses⟩

end Sys2Proof.Machine
end

section
/-! What a step leaves of the queue and the routing versions (08 R295, R324): how an answer keeps them, by its form. -/

namespace Sys2Proof.Machine

/-- The state that an instruction leaves, started or waiting. -/
def Start.state : Start → State
  | .wait s | .went s => s

@[simp] theorem Start.state_wait (s : State) : (Start.wait s).state = s := rfl
@[simp] theorem Start.state_went (s : State) : (Start.went s).state = s := rfl

@[simp] theorem Start.state_ite (c : Prop) [Decidable c] (a b : Start) : (if c then a else b).state = if c then a.state else b.state :=
  apply_ite ..

/-- The state that an ALLOC's search leaves. -/
def Served.state : Served → State
  | .waits _ s | .reply _ s => s

@[simp] theorem Served.state_waits (i : Nat) (s : State) : (Served.waits i s).state = s := rfl
@[simp] theorem Served.state_reply (v : Nat) (s : State) : (Served.reply v s).state = s := rfl

/-- An outcome leaves the queue and the routing versions. -/
def Keeps (s : State) (o : Host.Outcome State Fault Refusal) : Prop := ∀ t, o = .next t → t.kept = s.kept

@[simp] theorem keeps_next (s t : State) : Keeps s (.next t) ↔ t.kept = s.kept := by simp [Keeps]

@[simp] theorem keeps_ite (c : Prop) [Decidable c] (s : State) (o p : Host.Outcome State Fault Refusal) :
    Keeps s (if c then o else p) ↔ if c then Keeps s o else Keeps s p := by split <;> rfl

/-- A state that an operation leaves, where it takes effect, has the queue and the routing versions. -/
def KeepsOpt (s : State) (o : Option State) : Prop := ∀ t ∈ o, t.kept = s.kept

@[simp] theorem keepsOpt_none (s : State) : KeepsOpt s none := by simp [KeepsOpt]
@[simp] theorem keepsOpt_some (s t : State) : KeepsOpt s (some t) ↔ t.kept = s.kept := by simp [KeepsOpt]
@[simp] theorem keepsOpt_ite (c : Prop) [Decidable c] (s : State) (o p : Option State) :
    KeepsOpt s (if c then o else p) ↔ if c then KeepsOpt s o else KeepsOpt s p := by split <;> rfl

theorem KeepsOpt.of_eq {s t : State} {o : Option State} (h : KeepsOpt s o) (ht : o = some t) : t.kept = s.kept := h t ht

theorem KeepsOpt.map {s : State} {α : Type} {o : Option α} {f g : α → State} (h : KeepsOpt s (o.map f)) (hg : ∀ x, (g x).kept = (f x).kept) :
    KeepsOpt s (o.map g) := by
  cases o with
  | none => simp
  | some x => simpa [hg] using h

theorem KeepsOpt.findSome? {s : State} {α : Type} {f : α → Option State} (h : ∀ x, KeepsOpt s (f x)) (xs : List α) :
    KeepsOpt s (xs.findSome? f) := fun t ht => by
  obtain ⟨x, -, hx⟩ := List.exists_of_findSome?_eq_some ht
  exact (h x).of_eq hx

/-- What an instruction's issue answers leaves the queue and the routing versions. -/
def Iss.Keeps (s : State) : Iss → Prop
  | .eff t => t.kept = s.kept
  | _ => True

@[simp] theorem Iss.keeps_eff (s t : State) : Iss.Keeps s (.eff t) ↔ t.kept = s.kept := Iff.rfl
@[simp] theorem Iss.keeps_stall (s : State) : Iss.Keeps s .stall := trivial
@[simp] theorem Iss.keeps_exc (s : State) (a b c : Nat) : Iss.Keeps s (.exc a b c) := trivial
@[simp] theorem Iss.keeps_dead (s : State) (a b c : Nat) : Iss.Keeps s (.dead a b c) := trivial
@[simp] theorem Iss.keeps_ite (c : Prop) [Decidable c] (s : State) (i j : Iss) :
    Iss.Keeps s (if c then i else j) ↔ if c then Iss.Keeps s i else Iss.Keeps s j := by split <;> rfl

theorem Iss.Keeps.ite {c : Prop} [Decidable c] {s : State} {i j : Iss} (hi : i.Keeps s) (hj : j.Keeps s) :
    Iss.Keeps s (if c then i else j) := by split <;> assumption

theorem Iss.Keeps.of_eff {s : State} {i : Iss} (h : ∀ t, i = .eff t → t.kept = s.kept) : i.Keeps s := by
  cases i with
  | eff t => exact h t rfl
  | _ => trivial

@[simp] theorem checkedDead_keeps {s u : State} {l : Loc} {cs : CoreSt} {errs : List (Bool × Nat)} {dead : Option Iss} {rs : List Nat}
    {ranges : List (Nat × Nat)} {track : List Rng} {act : Unit → Iss} (hdead : ∀ i, dead = some i → i.Keeps u)
    (h : (act ()).Keeps u) : (s.checkedDead l cs errs dead rs ranges track act).Keeps u :=
  .of_eff fun t ht => by
    rcases State.checkedDead_eff ht with hd | ha
    · exact hdead _ hd
    · simpa [ha] using h

@[simp] theorem checked_keeps {s u : State} {l : Loc} {cs : CoreSt} {errs : List (Bool × Nat)} {rs : List Nat}
    {ranges : List (Nat × Nat)} {track : List Rng} {act : Unit → Iss} (h : (act ()).Keeps u) :
    (s.checked l cs errs rs ranges track act).Keeps u := checkedDead_keeps (by simp) h

@[simp] theorem issue_keeps {s : State} {c : CoreId} {w0 : Nat} {ext : Bool} {body : Loc → CoreSt → Iss}
    (h : ∀ l cs, (body l cs).Keeps s) : (s.issue c w0 ext body).kept = s.kept :=
  State.issue_kept fun l cs t ht => by simpa [ht] using h l cs

end Sys2Proof.Machine
end

section
/-! The queue and the routing versions through tables, the mesh, credit and packets taken (02 R44, 08 R285). -/

namespace Sys2Proof.Machine

@[simp] theorem State.setMeshQ_kept (s : State) (n : Nat) (m : MeshPort) : (s.setMeshQ n m).kept = s.kept := by
  simp [State.setMeshQ]

@[simp] theorem State.serveLink_kept (s : State) (link : Nat) : (s.serveLink link).kept = s.kept := by simp [State.serveLink]

@[simp] theorem State.eccHome_kept (s : State) (h : Home) (n : Nat) : (s.eccHome h n).kept = s.kept := by
  unfold State.eccHome
  repeat' split
  all_goals simp

@[simp] theorem State.eccTbl_kept (s : State) (p a i n : Nat) : (s.eccTbl p a i n).kept = s.kept := by
  unfold State.eccTbl
  split
  · rfl
  · exact foldl_kept (fun s b => by split <;> simp) _ _

@[simp] theorem State.ducCount_kept (s : State) (clu code n : Nat) : (s.ducCount clu code n).kept = s.kept := by
  simp [State.ducCount]

@[simp] theorem State.ctCheck_kept (s : State) (clu i : Nat) : (s.ctCheck clu i).kept = s.kept := by
  unfold State.ctCheck
  dsimp only
  repeat' split
  all_goals simp

@[simp] theorem State.ductusFault_kept (s : State) (o : DOp) (code lnode space off : Nat) :
    (s.ductusFault o code lnode space off).kept = s.kept := by
  simp [State.ductusFault]

@[simp] theorem State.ductusDone_kept (s : State) (o : DOp) : (s.ductusDone o).kept = s.kept := by simp [State.ductusDone]

@[simp] theorem State.wrT_kept (s : State) (o : DOp) (a i n v : Nat) (pz : Bool) : (s.wrT o a i n v pz).kept = s.kept := by
  simp [State.wrT]

@[simp] theorem State.spend8_kept (s : State) (l : Loc) (n : Nat) : (s.spend8 l n).kept = s.kept := by simp [State.spend8]

@[simp] theorem State.gate_kept (s : State) (o : DOp) (xs : List Nat) : (s.gate o xs).1.kept = s.kept := by simp [State.gate]

@[simp] theorem State.serveMesh_kept (s : State) (n : Nat) : (s.serveMesh n).kept = s.kept := by
  unfold State.serveMesh
  dsimp only
  split <;> simp

@[simp] theorem unloadGo_kept (n : Nat) (k : Packet) (i : Nat) (s : State) : (unloadGo n k i s).kept = s.kept := by
  induction i generalizing s with
  | zero => rfl
  | succ i ih =>
    unfold unloadGo
    split
    · exact (ih _).trans (State.serveMesh_kept ..)
    · rfl

@[simp] theorem State.unload_kept (s : State) (k : Packet) : (s.unload k).kept = s.kept := by
  unfold State.unload
  split <;> simp

@[simp] theorem State.owe_kept (s : State) (n vc c : Nat) : (s.owe n vc c).kept = s.kept := by simp [State.owe]

@[simp] theorem State.payCredit_kept (s : State) (k : Packet) : (s.payCredit k).kept = s.kept := by
  unfold State.payCredit
  split <;> simp

@[simp] theorem State.take_kept (s : State) (k : Packet) : (s.take k).kept = s.kept := by simp [State.take]

@[simp] theorem State.dropBad_kept (s : State) (k : Packet) : (s.dropBad k).kept = s.kept := by simp [State.dropBad]

@[simp] theorem State.put_kept (s : State) (k : Packet) : (s.put k).kept = s.kept := by simp [State.put]

@[simp] theorem State.answer_kept (s : State) (k : Packet) (ptype status words data : Nat) :
    (s.answer k ptype status words data).kept = s.kept := by
  simp [State.answer]

@[simp] theorem State.refuse_kept (s : State) (k : Packet) : (s.refuse k).kept = s.kept := by simp [State.refuse]

@[simp] theorem State.notify_kept (s : State) (k : Packet) : (s.notify k).kept = s.kept := by simp [State.notify]

end Sys2Proof.Machine
end

section
/-! The queue and the routing versions through the Inkwell and its front ends (07 R234-R249). -/

namespace Sys2Proof.Machine

@[simp] theorem State.use_kept (s : State) (r up down : Nat) : (s.use_ r up down).kept = s.kept := by simp [State.use_]

@[simp] theorem State.recallCredit_kept (s : State) (r : Nat) : (s.recallCredit r).kept = s.kept := by simp [State.recallCredit]

@[simp] theorem State.recallCaches_kept (s : State) (p c : Nat) : (s.recallCaches p c).kept = s.kept := by simp [State.recallCaches]

@[simp] theorem State.disown_kept (s : State) (p c : Nat) : (s.disown p c).kept = s.kept := by simp [State.disown]

@[simp] theorem State.eccMeta_kept (s : State) (p c : Nat) : (s.eccMeta p c).kept = s.kept := by simp [State.eccMeta]

@[simp] theorem State.inkReply_kept (s : State) (k : Packet) (v : Nat) : (s.inkReply k v).kept = s.kept := by simp [State.inkReply]

@[simp] theorem inkLadder_kept (s : State) (p r c : Nat) (is : List Nat) : (s.inkLadder p r c is).state.kept = s.kept := by
  induction is generalizing s with
  | nil => rfl
  | cons i is ih =>
    unfold State.inkLadder
    dsimp only
    repeat' split
    all_goals simp [ih]

theorem Served.kept_of_eq {s t u : State} {p r c i : Nat} {is : List Nat}
    (h : s.inkLadder p r c is = .waits i t ∨ s.inkLadder p r c is = .reply i t) (hs : s.kept = u.kept) : t.kept = u.kept := by
  have hk := inkLadder_kept s p r c is
  rcases h with h | h
  · exact (by simpa [h] using hk : t.kept = s.kept).trans hs
  · exact (by simpa [h] using hk : t.kept = s.kept).trans hs

@[simp] theorem execInkAlloc_kept (s : State) : Keeps s (execInkAlloc s) := by
  simp only [execInkAlloc, keeps_next]
  split
  next => rfl
  next =>
    split
    next => rfl
    next =>
      split
      next => simp
      next =>
        split
        next h => simpa using Served.kept_of_eq (u := s) (.inl h) (by simp)
        next h => simpa using Served.kept_of_eq (u := s) (.inr h) (by simp)

@[simp] theorem State.freeRefused_kept (s : State) (p node off code cls : Nat) :
    (s.freeRefused p node off code cls).kept = s.kept := by
  simp [State.freeRefused]

@[simp] theorem State.eccFree_kept (s : State) (p off : Nat) : (s.eccFree p off).kept = s.kept := by
  unfold State.eccFree
  split <;> simp

theorem inkFreeAt_kept {s t : State} {p off : Nat} (h : s.inkFreeAt p off = .done t) : t.kept = s.kept := by
  unfold State.inkFreeAt at h
  dsimp only at h
  repeat' split at h
  all_goals simp only [Freed.done.injEq, reduceCtorEq] at h
  all_goals
    subst h
    simp

@[simp] theorem State.giveBack_kept (s : State) (p node off : Nat) : (s.giveBack p node off).kept = s.kept := by
  unfold State.giveBack
  dsimp only
  split
  next h => simpa using inkFreeAt_kept h
  next => simp
  next => simp

@[simp] theorem execInkFree_kept (s : State) : Keeps s (execInkFree s) := by
  simp only [execInkFree, keeps_next]
  split
  next => rfl
  next =>
    split
    next => rfl
    next =>
      split
      next => simp
      next =>
        split
        next => simp
        next =>
          split
          next => simp
          next h => simpa using inkFreeAt_kept h
          next => simp

@[simp] theorem State.wakeInk_kept (s : State) : s.wakeInk.kept = s.kept := by simp [State.wakeInk]

theorem State.feServe_kept {s t : State} {clu : Nat} {q : InkReq} (h : s.feServe clu q = some t) : t.kept = s.kept := by
  unfold State.feServe at h
  dsimp only at h
  repeat' split at h
  all_goals simp only [Option.some.injEq, reduceCtorEq] at h
  all_goals
    subst h
    simp

@[simp] theorem State.feCredit_kept (s : State) (clu : Nat) (q : InkReq) : (s.feCredit clu q).kept = s.kept := by
  simp [State.feCredit]

@[simp] theorem execFeAlloc_kept (clu : BitVec 6) (s : State) : Keeps s (execFeAlloc clu s) := by
  simp only [execFeAlloc, keeps_next]
  split
  next => rfl
  next =>
    split
    next => rfl
    next =>
      split
      next h => simpa using State.feServe_kept h
      next => simp

theorem execFeRefill_kept (clu : BitVec 6) (cls : BitVec 5) (s : State) : Keeps s (execFeRefill clu cls s) := by
  unfold execFeRefill
  dsimp only
  split <;> simp

theorem execFeCreditReturn_kept (clu : BitVec 6) (req : BitVec 8) (s : State) : Keeps s (execFeCreditReturn clu req s) := by
  simp [execFeCreditReturn]

theorem execFrontEndGrant_kept (clu : BitVec 6) (s : State) : Keeps s (execFrontEndGrant clu s) := by
  unfold execFrontEndGrant
  dsimp only
  split <;> simp

@[simp] theorem State.poolEnable_kept (s : State) (p c : Nat) : (s.poolEnable p c).kept = s.kept := by simp [State.poolEnable]

@[simp] theorem State.poolDisable_kept (s : State) (p c : Nat) : (s.poolDisable p c).kept = s.kept := by simp [State.poolDisable]

@[simp] theorem State.poolDrain_kept (s : State) (p c : Nat) : (s.poolDrain p c).kept = s.kept := by simp [State.poolDrain]

@[simp] theorem State.poolReclaim_kept (s : State) (p c : Nat) : (s.poolReclaim p c).kept = s.kept := by simp [State.poolReclaim]

@[simp] theorem State.poolReclaimDone_kept (s : State) (p c : Nat) : (s.poolReclaimDone p c).kept = s.kept := by
  simp [State.poolReclaimDone]

theorem execPoolEnable_kept (p : BitVec 4) (cls : BitVec 5) (s : State) : Keeps s (execPoolEnable p cls s) := by
  simp [execPoolEnable]

theorem execPoolEnableDone_kept (p : BitVec 4) (cls : BitVec 5) (s : State) : Keeps s (execPoolEnableDone p cls s) := by
  simp [execPoolEnableDone]

theorem execPoolDrain_kept (p : BitVec 4) (cls : BitVec 5) (s : State) : Keeps s (execPoolDrain p cls s) := by simp [execPoolDrain]

theorem execPoolDisable_kept (p : BitVec 4) (cls : BitVec 5) (s : State) : Keeps s (execPoolDisable p cls s) := by
  simp [execPoolDisable]

theorem execPoolReclaim_kept (p : BitVec 4) (cls : BitVec 5) (s : State) : Keeps s (execPoolReclaim p cls s) := by
  simp [execPoolReclaim]

theorem execPoolReclaimDone_kept (p : BitVec 4) (cls : BitVec 5) (s : State) : Keeps s (execPoolReclaimDone p cls s) := by
  simp [execPoolReclaimDone]

end Sys2Proof.Machine
end

section
/-! The queue and the routing versions through the Ductus engines (06). -/

namespace Sys2Proof.Machine

@[simp] theorem State.oweRegion_kept (s : State) (p c r : Nat) : (s.oweRegion p c r).kept = s.kept := by simp [State.oweRegion]

@[simp] theorem State.closeEntry_kept (s : State) (p c clu i : Nat) : (s.closeEntry p c clu i).kept = s.kept := by
  simp [State.closeEntry]

@[simp] theorem State.closeEntries_kept (s : State) (p : Nat) (pr : Nat → Bool) : (s.closeEntries p pr).kept = s.kept := by
  simp [State.closeEntries]

@[simp] theorem State.cancelOn_kept (s : State) (p c b g clu : Nat) : (s.cancelOn p c b g clu).kept = s.kept := by
  simp [State.cancelOn]

@[simp] theorem State.cancelAll_kept (s : State) (p c b g : Nat) : (s.cancelAll p c b g).kept = s.kept := by simp [State.cancelAll]

@[simp] theorem State.setRun_kept (s : State) (clu unit : Nat) (r : DRun) : (s.setRun clu unit r).kept = s.kept := by
  simp [State.setRun]

@[simp] theorem State.endRun_kept (s : State) (clu unit : Nat) : (s.endRun clu unit).kept = s.kept := by simp [State.endRun]

@[simp] theorem State.engLost_kept (s : State) (r : DRun) (q : EngReq) (code : Nat) : (s.engLost r q code).1.kept = s.kept := by
  simp [State.engLost]

@[simp] theorem State.engSend_kept (s : State) (clu unit : Nat) (r : DRun) (q : EngReq) :
    (s.engSend clu unit r q).1.kept = s.kept := by
  unfold State.engSend
  dsimp only
  repeat' split
  all_goals simp

@[simp] theorem State.engDrain_kept (clu unit : Nat) (qs : List EngReq) (r : DRun) (s : State) :
    (State.engDrain clu unit qs r s).1.kept = s.kept := by
  induction qs generalizing r s with
  | nil => rfl
  | cons q qs ih =>
    unfold State.engDrain
    repeat' split
    all_goals simp [ih]

@[simp] theorem State.releaseX_kept (s : State) (l : Loc) (x : Nat) (v : Option Nat) : (s.releaseX l x v).kept = s.kept := by
  simp [State.releaseX]

@[simp] theorem State.dallocSpoil_kept (s : State) (o : DOp) : (s.dallocSpoil o).kept = s.kept := by simp [State.dallocSpoil]

@[simp] theorem State.dallocEnd_kept (s : State) (clu : Nat) (r : DRun) : (s.dallocEnd clu r).kept = s.kept := by
  simp [State.dallocEnd]

@[simp] theorem State.fillEntry_kept (s : State) (clu : Nat) (o : DOp) (h lo len expect : Nat) :
    (s.fillEntry clu o h lo len expect).kept = s.kept := by
  unfold State.fillEntry
  dsimp only
  split <;> simp

@[simp] theorem State.returnSent_kept (s : State) (r : DRun) : (s.returnSent r).kept = s.kept := by simp [State.returnSent]

@[simp] theorem State.engEnd_kept (s : State) (clu unit : Nat) (r : DRun) : (s.engEnd clu unit r).kept = s.kept := by
  simp [State.engEnd]

@[simp] theorem State.engPump_kept (clu unit : Nat) (s : State) (r : DRun) : (State.engPump clu unit s r).kept = s.kept := by
  unfold State.engPump
  dsimp only
  repeat' split
  all_goals simp

@[simp] theorem State.ladderLog_kept (s : State) (clu : Nat) (o : DOp) (kind v e : Nat) :
    (s.ladderLog clu o kind v e).kept = s.kept := by
  simp [State.ladderLog]

@[simp] theorem State.ductusReply_kept (s : State) (clu unit tag v : Nat) : (s.ductusReply clu unit tag v).kept = s.kept := by
  unfold State.ductusReply
  dsimp only
  repeat' split
  all_goals simp

@[simp] theorem State.ductusLost_kept (s : State) (clu unit tag code lnode space off : Nat) :
    (s.ductusLost clu unit tag code lnode space off).kept = s.kept := by
  unfold State.ductusLost
  split <;> simp

@[simp] theorem overTables_kept {s : State} {o : DOp} {rs : List (Nat × Nat × Nat × Bool)} {f : State → Start}
    (h : ∀ s, (f s).state.kept = s.kept) : (s.overTables o rs f).state.kept = s.kept := by
  unfold State.overTables
  split <;> simp [h]

section
variable {clu : Nat} {o : DOp} {pump : State → DRun → State} (s : State) (h : ∀ s r, (pump s r).kept = s.kept)
include h

@[simp] theorem startSend_kept : (s.startSend clu o pump).state.kept = s.kept := by
  unfold State.startSend
  exact overTables_kept fun _ => overTables_kept fun _ => by simp [h]

@[simp] theorem startReturn_kept : (s.startReturn clu o pump).state.kept = s.kept := by
  unfold State.startReturn
  refine overTables_kept fun _ => ?_
  dsimp only
  split
  · simp
  · exact overTables_kept fun _ => by simp [h]

@[simp] theorem startDalloc_kept : (s.startDalloc o pump).state.kept = s.kept := by
  unfold State.startDalloc
  exact overTables_kept fun _ => by simp [h]

end

section
variable (s : State) (clu : Nat) (o : DOp)

@[simp] theorem runDscore_kept : (s.runDscore o).state.kept = s.kept := by
  unfold State.runDscore
  exact overTables_kept fun _ => by simp

@[simp] theorem runDtopk_kept : (s.runDtopk o).state.kept = s.kept := by
  unfold State.runDtopk
  refine overTables_kept fun _ => ?_
  dsimp only
  split <;> simp

@[simp] theorem runDnorm_kept : (s.runDnorm o).state.kept = s.kept := by
  unfold State.runDnorm
  exact overTables_kept fun _ => by simp

@[simp] theorem runDhist_kept : (s.runDhist clu o).state.kept = s.kept := by
  unfold State.runDhist
  exact overTables_kept fun _ => by simp

@[simp] theorem runDscan_kept : (s.runDscan o).state.kept = s.kept := by
  unfold State.runDscan
  exact overTables_kept fun _ => by simp

@[simp] theorem runSeg_kept : (s.runSeg o).state.kept = s.kept := by simp [State.runSeg]

@[simp] theorem runDsplit_kept : (s.runDsplit clu o).state.kept = s.kept := by
  unfold State.runDsplit
  exact overTables_kept fun _ => overTables_kept fun _ => overTables_kept fun _ => overTables_kept fun _ => overTables_kept fun _ => by simp

@[simp] theorem runCombine_kept {close : State → State} (h : ∀ s, (close s).kept = s.kept) :
    (s.runCombine o close).state.kept = s.kept := by
  unfold State.runCombine
  exact overTables_kept fun _ => overTables_kept fun _ => by simp [h]

@[simp] theorem startDuctus_kept (unit : Nat) : (s.startDuctus clu unit o).state.kept = s.kept := by
  unfold State.startDuctus
  dsimp only
  repeat' split
  all_goals simp

end

theorem Start.kept_of_eq {s t u : State} {clu unit : Nat} {o : DOp}
    (h : s.startDuctus clu unit o = .wait t ∨ s.startDuctus clu unit o = .went t) (hs : s.kept = u.kept) : t.kept = u.kept := by
  have hk := startDuctus_kept s clu o unit
  rcases h with h | h
  · exact (by simpa [h] using hk : t.kept = s.kept).trans hs
  · exact (by simpa [h] using hk : t.kept = s.kept).trans hs

@[simp] theorem State.ductusKick_kept (s : State) (clu unit : Nat) : (s.ductusKick clu unit).kept = s.kept := by
  unfold State.ductusKick
  dsimp only
  split
  · split <;> simp
  · split
    · rfl
    · split
      next h => simpa using Start.kept_of_eq (u := s) (.inr h) (by simp)
      next h => simpa using Start.kept_of_eq (u := s) (.inl h) (by simp)

theorem execDuctusQueueStart_kept (clu : BitVec 6) (unit : BitVec 2) (s : State) : Keeps s (execDuctusQueueStart clu unit s) := by
  simp [execDuctusQueueStart]

@[simp] theorem State.ductusEnter_kept (s : State) (clu unit : Nat) (o : DOp) : (s.ductusEnter clu unit o).kept = s.kept := by
  simp [State.ductusEnter]

@[simp] theorem State.ductusIssue_kept {s : State} {c : CoreId} {op unit : Nat} {w : FormX} {rsv : Bool} {size al : Nat} {regs : List Nat}
    {dst : Option Nat} {errs : Loc → CoreSt → Nat → List (Bool × Nat)} {opening : State → Loc → Nat → Nat → State}
    (h : ∀ s l n d, (opening s l n d).kept = s.kept) :
    (s.ductusIssue c op unit w rsv size al regs dst errs opening).kept = s.kept := by
  simp [State.ductusIssue, h]

@[simp] theorem noOpen_kept (s : State) (l : Loc) (n d : Nat) : (noOpen s l n d).kept = s.kept := by simp [noOpen]

@[simp] theorem State.layerIssue_kept (s : State) (c : CoreId) (op unit : Nat) (w : FormX) (fnRsv : Bool)
    (more : Loc → Nat → List (Bool × Nat)) : (s.layerIssue c op unit w fnRsv more).kept = s.kept := by
  simp [State.layerIssue]

theorem execDscore_kept (c : CoreId) (w : FormX) (s : State) : Keeps s (execDscore c w s) := by simp [execDscore]

theorem execDtopk_kept (c : CoreId) (w : FormX) (s : State) : Keeps s (execDtopk c w s) := by simp [execDtopk]

theorem execDnorm_kept (c : CoreId) (w : FormX) (s : State) : Keeps s (execDnorm c w s) := by simp [execDnorm]

theorem execDhist_kept (c : CoreId) (w : FormX) (s : State) : Keeps s (execDhist c w s) := by simp [execDhist]

theorem execDscan_kept (c : CoreId) (w : FormX) (s : State) : Keeps s (execDscan c w s) := by simp [execDscan]

@[simp] theorem execDalloc_kept (c : CoreId) (w : FormX) (s : State) : Keeps s (execDalloc c w s) := by simp [execDalloc]

@[simp] theorem State.issueSend_kept (s : State) (c : CoreId) (w : FormX) : (s.issueSend c w).kept = s.kept := by
  unfold State.issueSend
  refine State.ductusIssue_kept fun s l n d => ?_
  dsimp only
  split <;> simp

@[simp] theorem State.issueReturn_kept (s : State) (c : CoreId) (w : FormX) : (s.issueReturn c w).kept = s.kept := by simp [State.issueReturn]

theorem execDsendDispatch_kept (c : CoreId) (w : FormX) (s : State) : Keeps s (execDsendDispatch c w s) := by
  simp [execDsendDispatch]

theorem execDsendReturn_kept (c : CoreId) (w : FormX) (s : State) : Keeps s (execDsendReturn c w s) := by simp [execDsendReturn]

@[simp] theorem execDsplit_kept (c : CoreId) (w : FormX) (s : State) : Keeps s (execDsplit c w s) := by simp [execDsplit]

theorem execDcollect_kept (c : CoreId) (w : FormX) (s : State) : Keeps s (execDcollect c w s) := by simp [execDcollect]

@[simp] theorem State.issueGate_kept (s : State) (c : CoreId) (w : FormX) : (s.issueGate c w).kept = s.kept := by simp [State.issueGate]

@[simp] theorem State.issueSeg_kept (s : State) (c : CoreId) (w : FormX) : (s.issueSeg c w).kept = s.kept := by simp [State.issueSeg]

theorem execDcombineGate_kept (c : CoreId) (w : FormX) (s : State) : Keeps s (execDcombineGate c w s) := by simp [execDcombineGate]

theorem execDcombineSeg_kept (c : CoreId) (w : FormX) (s : State) : Keeps s (execDcombineSeg c w s) := by simp [execDcombineSeg]

@[simp] theorem execDcancel_kept (c : CoreId) (w : FormX) (s : State) : Keeps s (execDcancel c w s) := by simp [execDcancel]

end Sys2Proof.Machine
end

section
/-! The queue and the routing versions through places, moves and the Tier Movers (07 R253-R261). -/

namespace Sys2Proof.Machine

@[simp] theorem State.putHome_kept (s : State) (p : Nat) (h : Home) (n v : Nat) (pz : Bool) :
    (s.putHome p h n v pz).kept = s.kept := by
  unfold State.putHome
  split <;> simp

@[simp] theorem State.askHome_kept (s : State) (p : Nat) (h : Home) (o : Owner) (w : HostWait) :
    (s.askHome p h o w).kept = s.kept := by
  unfold State.askHome
  split <;> simp

@[simp] theorem State.copyLine_kept (s : State) (p : Nat) (src dst : Home) : (s.copyLine p src dst).kept = s.kept := by
  simp [State.copyLine]

@[simp] theorem State.setObj_kept (s : State) (p : Nat) (o : Obj) : (s.setObj p o).kept = s.kept := by simp [State.setObj]

@[simp] theorem State.moveNext_kept (s : State) (p : Nat) (m : Mig) : (s.moveNext p m).kept = s.kept := by
  unfold State.moveNext
  dsimp only
  repeat' split
  all_goals simp

@[simp] theorem State.copyBlock_kept (s : State) (p : Nat) (src dst : Place) (b : Nat) :
    (s.copyBlock p src dst b).kept = s.kept := by
  simp [State.copyBlock]

@[simp] theorem State.moveWhole_kept (s : State) (p : Nat) (o : Obj) (j : Nat) (src dst : Place) :
    (s.moveWhole p o j src dst).kept = s.kept := by
  simp [State.moveWhole]

@[simp] theorem State.moveOut_kept (s : State) (p g part_ : Nat) (h : Home) (v : Nat) (pz : Bool) :
    (s.moveOut p g part_ h v pz).kept = s.kept := by
  unfold State.moveOut
  split <;> simp

@[simp] theorem State.moveCheck_kept (s : State) (p : Nat) (m : Mig) : (s.moveCheck p m).kept = s.kept := by simp [State.moveCheck]

@[simp] theorem State.moveArrive_kept (s : State) (p g part_ v : Nat) (pz : Bool) :
    (s.moveArrive p g part_ v pz).kept = s.kept := by
  unfold State.moveArrive
  split <;> simp

@[simp] theorem State.moveAcked_kept (s : State) (p g : Nat) : (s.moveAcked p g).kept = s.kept := by
  unfold State.moveAcked
  split <;> simp

@[simp] theorem State.moveLost_kept (s : State) (p g : Nat) : (s.moveLost p g).kept = s.kept := by simp [State.moveLost]

theorem execMigrateBlock_kept (p : BitVec 4) (gran : BitVec 27) (s : State) : Keeps s (execMigrateBlock p gran s) := by
  unfold execMigrateBlock
  dsimp only
  split <;> simp

theorem execPromotion_kept (p : BitVec 4) (s : State) : Keeps s (execPromotion p s) := by
  unfold execPromotion
  dsimp only
  repeat' split
  all_goals simp

@[simp] theorem State.stageFeed_kept (s : State) (p id b : Nat) : (s.stageFeed p id b).kept = s.kept := by simp [State.stageFeed]

@[simp] theorem State.stageBlock_kept (s : State) (p id b : Nat) : (s.stageBlock p id b).kept = s.kept := by
  unfold State.stageBlock
  dsimp only
  repeat' split
  all_goals simp

@[simp] theorem State.stageArrive_kept (s : State) (p id b part_ v : Nat) (pz : Bool) :
    (s.stageArrive p id b part_ v pz).kept = s.kept := by
  unfold State.stageArrive
  split <;> simp

@[simp] theorem State.stageLost_kept (s : State) (p id b : Nat) : (s.stageLost p id b).kept = s.kept := by simp [State.stageLost]

theorem execDramRefresh_kept (_ch : BitVec 8) (s : State) : Keeps s (execDramRefresh _ch s) := by simp [execDramRefresh]

theorem execRuledRefresh_kept (_quad : BitVec 4) (s : State) : Keeps s (execRuledRefresh _quad s) := by simp [execRuledRefresh]

theorem execRefreshCatchup_kept (ch : BitVec 8) (s : State) : Keeps s (execRefreshCatchup ch s) := by
  simp only [execRefreshCatchup, keeps_next]
  repeat' split
  all_goals simp

@[simp] theorem State.tmvPull_kept (s : State) (q : Nat) : (s.tmvPull q).kept = s.kept := by simp [State.tmvPull]

@[simp] theorem State.tmvClear_kept (s : State) (q p : Nat) : (s.tmvClear q p).kept = s.kept := by simp [State.tmvClear]

@[simp] theorem State.tmvStore_kept (s : State) (q : Nat) (k : Packet) : (s.tmvStore q k).kept = s.kept := by simp [State.tmvStore]

@[simp] theorem State.tmvTake_kept (s : State) (q : Nat) (r : TmRun) : (s.tmvTake q r).kept = s.kept := by simp [State.tmvTake]

theorem putRow_kept {s t : State} {q : Nat} {o : TmOp} {j e sc : Nat} {pz : Bool} (h : (s.putRow q o j e sc pz).1 = some t) :
    t.kept = s.kept := by
  unfold State.putRow at h
  dsimp only at h
  repeat' split at h
  all_goals simp only [Option.some.injEq, reduceCtorEq] at h
  subst h
  simp

@[simp] theorem moveRow_kept (s : State) (q : Nat) (o : TmOp) (m : Moving) (j : Nat) : (s.moveRow q o m j).1.kept = s.kept := by
  have hput : ∀ {t : State} {m : Moving} {e sc : Nat} {pz : Bool}, State.kept (Prod.fst (match t.putRow q o j e sc pz with
      | (some t, _) => (t, m)
      | (none, c) => (if c = cFABPERM then t.count 0x0417 else t.count c, { m with status := c }))) = t.kept := by
    intro t m e sc pz
    split
    next h => exact putRow_kept (by rw [h])
    next => simp
  unfold State.moveRow
  dsimp only
  generalize hs0 : (if (decide (m.status = 0) && decide (j < tmNROWS o.desc) && !tmNoIdx o.desc) = true then
    s.eccTbl o.p (tmIDX o.desc) (4 * j) 4 else s) = s0
  have h0 : s0.kept = s.kept := by simp [← hs0]
  rw [← h0]
  generalize (if tmNoIdx o.desc = true then j else s0.tblRead (.mover q) o.p o.s (tmIDX o.desc) (4 * j) 4) = idx
  split
  · simp
  · split
    · exact hput
    · split
      · simp
      · split
        · simp
        · split
          · refine hput.trans ?_
            simp
          · split
            · simp
            · split
              · simp
              · split
                · refine hput.trans ?_
                  simp
                · refine hput.trans ?_
                  simp

@[simp] theorem State.spend9_kept (s : State) (q : Nat) (o : TmOp) (n : Nat) : (s.spend9 q o n).kept = s.kept := by
  simp [State.spend9]

theorem moveRows_kept {q : Nat} {o : TmOp} (js : List Nat) (x : State × Moving) :
    (js.foldl (fun (x : State × Moving) j => x.1.moveRow q o x.2 j) x).1.kept = x.1.kept := by
  induction js generalizing x with
  | nil => rfl
  | cons j js ih => exact (ih _).trans (moveRow_kept ..)

@[simp] theorem execTmvMove_kept (quad : BitVec 4) (s : State) : Keeps s (execTmvMove quad s) := by
  simp only [execTmvMove, keeps_next]
  repeat' split
  all_goals simp [moveRows_kept]

theorem execTmvGlyphLoad_kept (quad : BitVec 4) (s : State) : Keeps s (execTmvGlyphLoad quad s) := by
  unfold execTmvGlyphLoad
  dsimp only
  repeat' split
  all_goals simp

@[simp] theorem State.tmvFree_kept (s : State) (q : Nat) : (s.tmvFree q).kept = s.kept := by simp [State.tmvFree]

@[simp] theorem State.tmvLost_kept (s : State) (q code : Nat) : (s.tmvLost q code).kept = s.kept := by
  unfold State.tmvLost
  split <;> simp

@[simp] theorem State.tmvSend_kept (s : State) (q : Nat) (r : TmRun) (last : Bool) (rq : RReq) :
    (s.tmvSend q r last rq).kept = s.kept := by
  simp [State.tmvSend]

theorem execTmvComplete_kept (quad : BitVec 4) (s : State) : Keeps s (execTmvComplete quad s) := by
  unfold execTmvComplete
  dsimp only
  split <;> simp

@[simp] theorem State.tmvAck_kept (s : State) (q : Nat) (last : Bool) : (s.tmvAck q last).kept = s.kept := by
  unfold State.tmvAck
  split <;> simp

end Sys2Proof.Machine
end

section
/-! The queue and the routing versions through requests at their home (08 R309-R312). -/

namespace Sys2Proof.Machine

@[simp] theorem State.stay_kept (s : State) (k : Packet) : (s.stay k).kept = s.kept := by simp [State.stay]

@[simp] theorem State.hold_kept (s : State) (k : Packet) : (s.hold k).kept = s.kept := by simp [State.hold]

theorem homeWait_kept {s t : State} {k : Packet} {p : Nat} (h : s.homeWait k p = some t) : t.kept = s.kept := by
  unfold State.homeWait at h
  repeat' split at h
  all_goals simp only [Option.some.injEq, reduceCtorEq] at h
  all_goals
    subst h
    simp

@[simp] theorem State.performed_kept (s : State) (k : Packet) (old : Nat) (pz : Bool) : (s.performed k old pz).kept = s.kept := by
  unfold State.performed
  split <;> simp

@[simp] theorem State.uncarry_kept (s : State) (k : Packet) : (s.uncarry k).kept = s.kept := by simp [State.uncarry]

@[simp] theorem State.forwardOp_kept (s : State) (k : Packet) (p node off : Nat) : (s.forwardOp k p node off).kept = s.kept := by
  simp [State.forwardOp]

theorem performHere_kept {s t : State} {k : Packet} {p c : Nat} (h : s.performHere k p c = some t) : t.kept = s.kept := by
  unfold State.performHere at h
  dsimp only at h
  repeat' split at h
  all_goals simp only [Option.some.injEq, reduceCtorEq] at h
  all_goals
    subst h
    simp

@[simp] theorem State.perform_kept (s : State) (k : Packet) (p c : Nat) : (s.perform k p c).kept = s.kept := by
  unfold State.perform
  split
  next h => exact performHere_kept h
  next =>
    split
    · simp
    · split <;> simp

@[simp] theorem State.serve_kept (s : State) (k : Packet) (types : List Nat) : (s.serve k types).kept = s.kept := by
  unfold State.serve
  split
  · simp
  · split
    · simp
    · split
      · simp
      · split
        next h => simpa using homeWait_kept h
        next => simp

theorem execRldRequest_kept (p : Packet) (s : State) : Keeps s (execRldRequest p s) := by simp [execRldRequest]

theorem execPostedAtomicRequest_kept (p : Packet) (s : State) : Keeps s (execPostedAtomicRequest p s) := by
  simp [execPostedAtomicRequest]

theorem execCasRequest_kept (p : Packet) (s : State) : Keeps s (execCasRequest p s) := by simp [execCasRequest]

@[simp] theorem State.serveStaged_kept (s : State) (p id b : Nat) : (s.serveStaged p id b).kept = s.kept := by
  unfold State.serveStaged
  refine foldl_kept (fun s k => ?_) _ _
  split <;> simp

theorem execStreamStage_kept (p : BitVec 4) (addr : BitVec 48) (s : State) : Keeps s (execStreamStage p addr s) := by
  unfold execStreamStage
  dsimp only
  repeat' split
  all_goals simp

@[simp] theorem State.inkEnter_kept (s : State) (k : Packet) : (s.inkEnter k).kept = s.kept := by simp [State.inkEnter]

theorem execFetchAddRequest_kept (p : Packet) (s : State) : Keeps s (execFetchAddRequest p s) := by simp [execFetchAddRequest]

@[simp] theorem State.portStore_kept (s : State) (k : Packet) : (s.portStore k).kept = s.kept := by
  unfold State.portStore
  dsimp only
  repeat' split
  all_goals simp

theorem execTmvPortStore_kept (p : Packet) (s : State) : Keeps s (execTmvPortStore p s) := by simp [execTmvPortStore]

theorem execRstRequest_kept (p : Packet) (s : State) : Keeps s (execRstRequest p s) := by simp [execRstRequest]

@[simp] theorem execReturnStoreArrival_kept (p : Packet) (s : State) : Keeps s (execReturnStoreArrival p s) := by
  simp only [execReturnStoreArrival, keeps_next]
  split
  · simp
  · split
    · simp
    · split
      · simp
      · split
        next h => simpa using homeWait_kept h
        next => split <;> simp

@[simp] theorem State.localCopy_kept (s : State) (k : Packet) (e : BitVec 128) : (s.localCopy k e).kept = s.kept := by
  simp [State.localCopy]

@[simp] theorem State.portThrottle_kept (s : State) (n : Nat) : (s.portThrottle n).kept = s.kept := by simp [State.portThrottle]

@[simp] theorem State.enqueuePort_kept (s : State) (n : Nat) (k : Packet) (inp : Nat) (circ : Option Nat) :
    (s.enqueuePort n k inp circ).kept = s.kept := by
  simp [State.enqueuePort]

@[simp] theorem State.sendMack_kept (s : State) (k : Packet) (e : BitVec 128) (status : Nat) :
    (s.sendMack k e status).kept = s.kept := by
  simp [State.sendMack]

@[simp] theorem State.multicast_kept (s : State) (k : Packet) : (s.multicast k).kept = s.kept := by simp [State.multicast]

@[simp] theorem State.aggMerge_kept (s : State) (m : Packet → Bool) (status : Nat) : (s.aggMerge m status).kept = s.kept := by
  unfold State.aggMerge
  split <;> simp

theorem execMulticastStore_kept (p : Packet) (s : State) : Keeps s (execMulticastStore p s) := by simp [execMulticastStore]

end Sys2Proof.Machine
end

section
/-! The queue and the routing versions through the router, the ports and the links (08 R271-R307). -/

namespace Sys2Proof.Machine

@[simp] theorem State.noRoute_kept (s : State) (k : Packet) : (s.noRoute k).kept = s.kept := by simp [State.noRoute]

@[simp] theorem State.setOutQueue_kept (s : State) (n : Nat) (l : List QEnt) : (s.setOutQueue n l).kept = s.kept := by
  simp [State.setOutQueue]

@[simp] theorem State.joinAt_kept (s : State) (n : Nat) (q : QEnt) (k : Packet) : (s.joinAt n q k).kept = s.kept := by
  simp [State.joinAt]

@[simp] theorem State.enterQueue_kept (s : State) (n : Nat) (k : Packet) (inp : Nat) : (s.enterQueue n k inp).kept = s.kept := by
  unfold State.enterQueue
  split <;> simp

@[simp] theorem State.enterMeshPort_kept (s : State) (k : Packet) (inp : Nat) : (s.enterMeshPort k inp).kept = s.kept := by
  simp [State.enterMeshPort]

@[simp] theorem State.route_kept (s : State) (k : Packet) (inp : Nat) : (s.route_ k inp).kept = s.kept := by
  unfold State.route_
  repeat' split
  all_goals simp

@[simp] theorem State.onEntry_kept (s : State) (k : Packet) (c : Nat) (e : BitVec 128) (inp : Nat) :
    (s.onEntry k c e inp).kept = s.kept := by
  simp [State.onEntry]

@[simp] theorem State.circuit_kept (s : State) (k : Packet) : (s.circuit_ k).kept = s.kept := by
  unfold State.circuit_
  dsimp only
  repeat' split
  all_goals simp

@[simp] theorem State.forward_kept (s : State) (k : Packet) : (s.forward k).kept = s.kept := by simp [State.forward]

@[simp] theorem State.enterMesh_kept (s : State) (k : Packet) : (s.enterMesh k).kept = s.kept := by
  unfold State.enterMesh
  dsimp only
  repeat' split
  all_goals simp

theorem execPacketForward_kept (p : Packet) (s : State) : Keeps s (execPacketForward p s) := by simp [execPacketForward]

theorem execCircuitForward_kept (p : Packet) (s : State) : Keeps s (execCircuitForward p s) := by simp [execCircuitForward]

theorem execTdmFrameStart_kept (port : BitVec 4) (s : State) : Keeps s (execTdmFrameStart port s) := by simp [execTdmFrameStart]

theorem execMeshFrameStart_kept (clu : BitVec 6) (link : BitVec 2) (s : State) : Keeps s (execMeshFrameStart clu link s) := by
  simp [execMeshFrameStart]

@[simp] theorem State.setLnt_kept (s : State) (p n : Nat) (v : W64) : (s.setLnt p n v).kept = s.kept := by simp [State.setLnt]

theorem execLntDataWrite_kept (v : BitVec 64) (s : State) : Keeps s (execLntDataWrite v s) := by simp [execLntDataWrite]

@[simp] theorem State.requeue_kept (s : State) (q : QEnt) : (s.requeue q).kept = s.kept := by
  simp only [State.requeue]
  repeat' split
  all_goals simp

@[simp] theorem State.portDown_kept (s : State) (n cause : Nat) : (s.portDown n cause).kept = s.kept := by simp [State.portDown]

@[simp] theorem State.upFails_kept (s : State) (n cause : Nat) : (s.upFails n cause).kept = s.kept := by simp [State.upFails]

@[simp] theorem State.toState_kept (s : State) (n : Nat) (st : PortState) : (s.toState n st).kept = s.kept := by
  simp [State.toState]

@[simp] theorem State.portEnable_kept (s : State) (n : Nat) : (s.portEnable n).kept = s.kept := by simp [State.portEnable]

@[simp] theorem State.portDisable_kept (s : State) (n : Nat) : (s.portDisable n).kept = s.kept := by simp [State.portDisable]

theorem execPortEnable_kept (port : BitVec 4) (s : State) : Keeps s (execPortEnable port s) := by simp [execPortEnable]

theorem execPortDisable_kept (port : BitVec 4) (s : State) : Keeps s (execPortDisable port s) := by simp [execPortDisable]

theorem execRetrain_kept (port : BitVec 4) (s : State) : Keeps s (execRetrain port s) := by simp [execRetrain]

theorem execTrainingComplete_kept (port : BitVec 4) (rev : Bool) (s : State) : Keeps s (execTrainingComplete port rev s) := by
  simp [execTrainingComplete]

theorem execTrainingTimeout_kept (port : BitVec 4) (s : State) : Keeps s (execTrainingTimeout port s) := by
  simp [execTrainingTimeout]

theorem execAlignLock_kept (port : BitVec 4) (s : State) : Keeps s (execAlignLock port s) := by simp [execAlignLock]

theorem execAlignTimeout_kept (port : BitVec 4) (s : State) : Keeps s (execAlignTimeout port s) := by simp [execAlignTimeout]

theorem execDownRetry_kept (port : BitVec 4) (s : State) : Keeps s (execDownRetry port s) := by simp [execDownRetry]

theorem execFecLockLost_kept (port : BitVec 4) (s : State) : Keeps s (execFecLockLost port s) := by simp [execFecLockLost]

theorem execFecUeRateExceeded_kept (port : BitVec 4) (s : State) : Keeps s (execFecUeRateExceeded port s) := by
  simp [execFecUeRateExceeded]

theorem execFlitSilenceTimeout_kept (port : BitVec 4) (s : State) : Keeps s (execFlitSilenceTimeout port s) := by
  simp [execFlitSilenceTimeout]

@[simp] theorem State.retryFails_kept (s : State) (n : Nat) : (s.retryFails n).kept = s.kept := by simp [State.retryFails]

@[simp] theorem State.packetIn_kept (s : State) (n : Nat) (k : Packet) : (s.packetIn n k).kept = s.kept := by simp [State.packetIn]

@[simp] theorem State.slotIn_kept (s : State) (n : Nat) (sop : Bool) (x : Slot) : (s.slotIn n sop x).kept = s.kept := by
  simp [State.slotIn]

@[simp] theorem State.dataIn_kept (s : State) (n : Nat) (h : BitVec 64) (slots : List Slot) :
    (s.dataIn n h slots).kept = s.kept := by
  simp [State.dataIn]

@[simp] theorem State.initDone_kept (s : State) (n : Nat) : (s.initDone n).kept = s.kept := by simp [State.initDone]

@[simp] theorem State.initIn_kept (s : State) (n : Nat) (h : BitVec 64) (x : BitVec 128) : (s.initIn n h x).kept = s.kept := by
  simp [State.initIn]

@[simp] theorem State.nakIn_kept (s : State) (n : Nat) (h : BitVec 64) : (s.nakIn n h).kept = s.kept := by simp [State.nakIn]

@[simp] theorem State.flitIn_kept (s : State) (n : Nat) (h : BitVec 64) (slots : List Slot) :
    (s.flitIn n h slots).kept = s.kept := by
  unfold State.flitIn
  dsimp only
  repeat' split
  all_goals simp

theorem execDataFlit_kept (port : BitVec 4) (hdr : BitVec 64) (slots : List Slot) (s : State) :
    Keeps s (execDataFlit port hdr slots s) := by
  simp [execDataFlit]

theorem execIdleFlit_kept (port : BitVec 4) (hdr : BitVec 64) (s : State) : Keeps s (execIdleFlit port hdr s) := by
  simp [execIdleFlit]

theorem execInitFlit_kept (port : BitVec 4) (hdr : BitVec 64) (slot1 : BitVec 128) (s : State) :
    Keeps s (execInitFlit port hdr slot1 s) := by
  simp [execInitFlit]

theorem execNakFlit_kept (port : BitVec 5) (hdr : BitVec 64) (s : State) : Keeps s (execNakFlit port hdr s) := by simp [execNakFlit]

theorem execCrcFailFlit_kept (port : BitVec 4) (hdr : BitVec 64) (s : State) : Keeps s (execCrcFailFlit port hdr s) := by
  simp [execCrcFailFlit]

theorem execBadLinkHeaderFlit_kept (port : BitVec 4) (hdr : BitVec 64) (s : State) :
    Keeps s (execBadLinkHeaderFlit port hdr s) := by
  simp [execBadLinkHeaderFlit]

@[simp] theorem State.missed_kept (s : State) (n : Nat) (p : Port) (owner : Option Nat) : (s.missed n p owner).kept = s.kept := by
  unfold State.missed
  split <;> simp

@[simp] theorem State.nextFlit_kept (s : State) (n : Nat) : (s.nextFlit n).kept = s.kept := by
  unfold State.nextFlit
  dsimp only
  repeat' split
  all_goals simp

theorem execFlitBuild_kept (port : BitVec 4) (s : State) : Keeps s (execFlitBuild port s) := by
  unfold execFlitBuild
  dsimp only
  repeat' split
  all_goals simp

theorem execFabStall_kept (port : BitVec 4) (vc : BitVec 3) (s : State) : Keeps s (execFabStall port vc s) := by
  unfold execFabStall
  dsimp only
  split <;> simp

@[simp] theorem State.ligFault_kept (s : State) (e code lnode space off : Nat) :
    (s.ligFault e code lnode space off).kept = s.kept := by
  unfold State.ligFault
  dsimp only
  split <;> simp

end Sys2Proof.Machine
end

section
/-! The queue and the routing versions through Ligature (09). -/

namespace Sys2Proof.Machine

@[simp] theorem State.ligRefused_kept (s : State) (e a i : Nat) : (s.ligRefused e a i).kept = s.kept := by simp [State.ligRefused]

@[simp] theorem State.ligComplete_kept (s : State) (p c : Nat) (l : Loc) (cnt pcAt a v : Nat) :
    (s.ligComplete p c l cnt pcAt a v).kept = s.kept := by
  simp [State.ligComplete]

@[simp] theorem State.ligSend_kept (s : State) (e kind k key node off hdr data npiece : Nat) (pz : Bool) (inp ord : Nat) :
    (s.ligSend e kind k key node off hdr data npiece pz inp ord).kept = s.kept := by
  unfold State.ligSend
  dsimp only
  split
  · simp
  · split
    · simp
    · exact (foldl_kept (fun _ _ => by split <;> simp) _ _).trans (by simp)

@[simp] theorem State.ligCast_kept (s : State) (e k key off hdr data npiece : Nat) (pz : Bool) :
    (s.ligCast e k key off hdr data npiece pz).kept = s.kept := by
  simp [State.ligCast]

@[simp] theorem State.ligDrop_kept (s0 : State) (e status : Nat) : (s0.ligDrop e status).kept = s0.kept := by simp [State.ligDrop]

@[simp] theorem State.ligCloseCheck_kept (s : State) (e : Nat) : (s.ligCloseCheck e).kept = s.kept := by simp [State.ligCloseCheck]

@[simp] theorem State.ligOpenDone_kept (s : State) (e : Nat) : (s.ligOpenDone e).kept = s.kept := by
  unfold State.ligOpenDone
  dsimp only
  split <;> simp

@[simp] theorem State.ligOpenFail_kept (s : State) (e status : Nat) : (s.ligOpenFail e status).kept = s.kept := by
  unfold State.ligOpenFail
  dsimp only
  split <;> simp

@[simp] theorem State.ligOpened_kept (s : State) (e base total status : Nat) : (s.ligOpened e base total status).kept = s.kept := by
  simp [State.ligOpened]

@[simp] theorem State.ligTreeBad_kept (s : State) (e : Nat) : (s.ligTreeBad e).kept = s.kept := by simp [State.ligTreeBad]

@[simp] theorem State.ligReport_kept (s : State) (e : Nat) : (s.ligReport e).kept = s.kept := by simp [State.ligReport]

@[simp] theorem State.ligOpen_kept (s : State) (e : Nat) (l : Loc) (cnt d pcAt : Nat) :
    (s.ligOpen e l cnt d pcAt).kept = s.kept := by
  simp [State.ligOpen]

@[simp] theorem State.ligIssue_kept {s : State} {c : CoreId} {op : Nat} {w : FormX} {rsv : Bool} {n : Nat} {regs : List Nat}
    {wait : Loc → CoreSt → Nat → Bool} {errs : Loc → CoreSt → Nat → List (Bool × Nat)} {act : State → Loc → CoreSt → Nat → State}
    (h : ∀ s l cs d, (act s l cs d).kept = s.kept) : (s.ligIssue c op w rsv n regs wait errs act).kept = s.kept := by
  unfold State.ligIssue
  refine issue_keeps fun l cs => .ite trivial (checkedDead_keeps (fun i hi => ?_) (by simp [h]))
  obtain ⟨code, -, rfl⟩ := Option.map_eq_some_iff.mp hi
  simp

theorem execLclose_kept (c : CoreId) (w : FormX) (s : State) : Keeps s (execLclose c w s) := by
  simp only [execLclose, keeps_next]
  refine State.ligIssue_kept fun s l cs d => ?_
  repeat' split
  all_goals simp

@[simp] theorem State.putColl_kept (s : State) (e : Nat) (x : Coll) : (s.putColl e x).kept = s.kept := by simp [State.putColl]

@[simp] theorem State.ligSendUp_kept (s : State) (e kind k key inp hdr data npiece : Nat) (pz : Bool) :
    (s.ligSendUp e kind k key inp hdr data npiece pz).kept = s.kept := by
  simp [State.ligSendUp]

@[simp] theorem State.ligTakeIn_kept (s : State) (e : Nat) (x : Coll) (key : Nat) (i : ChunkIn) :
    (s.ligTakeIn e x key i).kept = s.kept := by
  simp [State.ligTakeIn]

@[simp] theorem State.ligDeliver_kept (s : State) (e : Nat) (x : Coll) (key data : Nat) (pz : Bool) :
    (s.ligDeliver e x key data pz).kept = s.kept := by
  unfold State.ligDeliver
  refine foldl_kept (fun s t => ?_) _ _
  dsimp only
  repeat' split
  all_goals simp

@[simp] theorem State.ligDownChildren_kept (s : State) (e : Nat) (x : Coll) (key hdr data lo : Nat) (pz : Bool) :
    (s.ligDownChildren e x key hdr data lo pz).kept = s.kept := by
  simp [State.ligDownChildren]

@[simp] theorem State.ligSlowest_kept (s : State) (e hdr : Nat) : (s.ligSlowest e hdr).kept = s.kept := by
  unfold State.ligSlowest
  dsimp only
  rw [State.countAt_kept, kept_mk, kept_eta]

@[simp] theorem State.ligDown_kept (s : State) (e k key hdr data : Nat) (pz : Bool) :
    (s.ligDown e k key hdr data pz).kept = s.kept := by
  simp [State.ligDown]

@[simp] theorem State.residue_kept (s : State) (e : Nat) (x : Coll) (key level l adds : Nat) (m : ChunkIn) :
    (s.residue e x key level l adds m).1.kept = s.kept := by
  unfold State.residue
  dsimp only
  repeat' split
  all_goals simp

@[simp] theorem State.ownResidue_kept (s : State) (e : Nat) (g : Group) (x : Coll) (key : Nat) (m : ChunkIn) :
    (s.ownResidue e g x key m).1.kept = s.kept := by
  have hfold : ∀ (ls : List Nat) (f : Nat → Nat) (r : State × ChunkIn),
      (ls.foldl (fun (r : State × ChunkIn) l => r.1.residue e x key 0 l (f l) r.2) r).1.kept = r.1.kept := by
    intro ls f r
    induction ls generalizing r with
    | nil => rfl
    | cons l ls ih => exact (ih _).trans (State.residue_kept ..)
  unfold State.ownResidue
  split
  · rfl
  · exact (State.residue_kept ..).trans (hfold ..)

@[simp] theorem State.ligUp_keeps (s : State) (e : Nat) (x : Coll) (key : Nat) (m : ChunkIn) : KeepsOpt s (s.ligUp_ e x key m) := by
  simp [State.ligUp_]

theorem State.ligUp_map_keeps {s u : State} {e : Nat} {x : Coll} {key : Nat} {m : ChunkIn} {f : State → State}
    (hs : s.kept = u.kept) (hf : ∀ t, (f t).kept = t.kept) : KeepsOpt u ((s.ligUp_ e x key m).map f) := fun t ht => by
  obtain ⟨v, hv, rfl⟩ := Option.map_eq_some_iff.mp ht
  exact (hf v).trans ((State.ligUp_keeps s e x key m v hv).trans hs)

@[simp] theorem State.eccSources_kept (s : State) (g : Group) (x : Coll) (key : Nat) : (s.eccSources g x key).kept = s.kept := by
  simp [State.eccSources]

@[simp] theorem State.ligFeed_keeps (s : State) (e : Nat) (x : Coll) : KeepsOpt s (s.ligFeed e x) := by
  unfold State.ligFeed
  dsimp only
  generalize (if x.bad = true then 0 else x.own) = key
  generalize (if x.bad = true then none else s.sourceBad (s.grp e) x key) = refusal
  generalize (if x.bad = true then none else s.sourceLost e (s.grp e) x key) = loss
  generalize (if x.bad = true then [] else s.sourceHeld e (s.grp e) x key) = held
  split
  · simp
  · split
    · simp
    · split
      · simp
      · split
        · simp
        · split
          · split <;> simp
          · split
            · simp
            · exact State.ligUp_map_keeps (by simp) (by simp)

@[simp] theorem State.ligEmit_keeps (s : State) (e : Nat) (x : Coll) (key : Nat) : KeepsOpt s (s.ligEmit e x key) := by
  simp [State.ligEmit, State.ligUp_map_keeps]

@[simp] theorem State.ligScramble_kept (s : State) (e : Nat) (x : Coll) : (s.ligScramble e x).kept = s.kept := by
  unfold State.ligScramble
  refine foldl_kept (fun s t => ?_) _ _
  dsimp only
  split <;>
  · split
    · rfl
    · rw [State.tblWrite_kept, kept_mk, kept_eta]

@[simp] theorem State.ligResidue_kept (s : State) (x : Coll) : (s.ligResidue x).kept = s.kept := by simp [State.ligResidue]

@[simp] theorem State.ligFinish_keeps (s : State) (e : Nat) (x : Coll) : KeepsOpt s (s.ligFinish e x) := by simp [State.ligFinish]

@[simp] theorem State.ligStep_keeps (s : State) (e : Nat) : KeepsOpt s (s.ligStep e) := by
  unfold State.ligStep
  dsimp only
  split
  · simp
  · refine KeepsOpt.findSome? (fun x => ?_) _
    split
    next h => simpa using (State.ligFinish_keeps s e x).of_eq h
    next =>
      split
      next h => simpa using (State.ligFeed_keeps s e x).of_eq h
      next =>
        split
        · exact KeepsOpt.findSome? (fun key => State.ligEmit_keeps s e x key) _
        · simp

@[simp] theorem State.ligRun_kept (e n : Nat) (s : State) : (State.ligRun e n s).kept = s.kept := by
  induction n generalizing s with
  | zero => rfl
  | succ n ih =>
    unfold State.ligRun
    split
    next h => exact (ih _).trans ((State.ligStep_keeps s e).of_eq h)
    next => rfl

@[simp] theorem State.ligPump_kept (s : State) (e : Nat) : (s.ligPump e).kept = s.kept := State.ligRun_kept ..

@[simp] theorem State.ligPumpAll_kept (s : State) : s.ligPumpAll.kept = s.kept := by simp [State.ligPumpAll]

theorem execLopen_kept (c : CoreId) (w : FormX) (s : State) : Keeps s (execLopen c w s) := by
  simp only [execLopen, keeps_next]
  refine State.ligIssue_kept fun s l cs d => ?_
  repeat' split
  all_goals simp

@[simp] theorem State.ligJoin_kept (s : State) (e : Nat) (l : Loc) (cnt d pcAt : Nat) :
    (s.ligJoin e l cnt d pcAt).kept = s.kept := by
  simp [State.ligJoin]

theorem execLcoll_kept (c : CoreId) (w : FormX) (s : State) : Keeps s (execLcoll c w s) := by
  simp only [execLcoll, keeps_next]
  refine State.ligIssue_kept fun s l cs d => ?_
  repeat' split
  all_goals simp

theorem execOpenReport_kept (p : Packet) (s : State) : Keeps s (execOpenReport p s) := by
  unfold execOpenReport
  dsimp only
  repeat' split
  all_goals simp

theorem execRankMessage_kept (p : Packet) (s : State) : Keeps s (execRankMessage p s) := by
  simp only [execRankMessage, keeps_next]
  repeat' split
  all_goals simp

@[simp] theorem State.ackAll_kept (s : State) (h : Packet) (ds : List Packet) : (s.ackAll h ds).kept = s.kept := by
  simp [State.ackAll]

@[simp] theorem State.refuseAll_kept (s : State) (h : Packet) (ds : List Packet) : (s.refuseAll h ds).kept = s.kept := by
  simp [State.refuseAll]

@[simp] theorem State.stayAll_kept (s : State) (h : Packet) (ds : List Packet) : (s.stayAll h ds).kept = s.kept := by
  simp [State.stayAll]

theorem execChunkUp_kept (p : Packet) (data : List Packet) (s : State) : Keeps s (execChunkUp p data s) := by
  unfold execChunkUp
  dsimp only
  repeat' split
  all_goals simp

theorem execChunkDown_kept (p : Packet) (data : List Packet) (s : State) : Keeps s (execChunkDown p data s) := by
  unfold execChunkDown
  dsimp only
  repeat' split
  all_goals simp

@[simp] theorem State.stallEvent_kept (s : State) (g : Group) (gseq node chunk : Nat) :
    (s.stallEvent g gseq node chunk).kept = s.kept := by
  simp [State.stallEvent]

theorem execLigStall_kept (entry input : BitVec 8) (s : State) : Keeps s (execLigStall entry input s) := by
  unfold execLigStall
  dsimp only
  repeat' split
  all_goals simp

end Sys2Proof.Machine
end

section
/-! The queue and the routing versions through host commands, contexts, partitions, copies and maps (10, 11 R404-R413). -/

namespace Sys2Proof.Machine

@[simp] theorem State.start_kept {s : State} {seq : W64} {op : Nat} {run : Cmd → State → State} (h : ∀ c s, (run c s).kept = s.kept) :
    (s.start seq op run).kept = s.kept := by
  unfold State.start
  split
  · rfl
  · split
    · rfl
    · split <;> simp [h]

@[simp] theorem State.fillCores_kept (s : State) (p c n : Nat) (f : Nat → Nat → CoreSt) : (s.fillCores p c n f).kept = s.kept := by
  simp [State.fillCores]

@[simp] theorem State.zeroImage_kept (s : State) (p c : Nat) : (s.zeroImage p c).kept = s.kept := by simp [State.zeroImage]

@[simp] theorem State.floorReset_kept (s : State) (p c : Nat) : (s.floorReset p c).kept = s.kept := by simp [State.floorReset]

theorem execCtxCreate_kept (seq : BitVec 64) (s : State) : Keeps s (execCtxCreate seq s) := by simp [execCtxCreate]

theorem execCtxPrio_kept (seq : BitVec 64) (s : State) : Keeps s (execCtxPrio seq s) := by simp [execCtxPrio]

@[simp] theorem State.pauseSave_kept (s : State) (p c : Nat) : (s.pauseSave p c).kept = s.kept := by simp [State.pauseSave]

theorem execCtxPause_kept (seq : BitVec 64) (s : State) : Keeps s (execCtxPause seq s) := by
  simp only [execCtxPause, keeps_next]
  refine State.start_kept fun c s => ?_
  repeat' split
  all_goals simp

theorem execCtxResume_kept (seq : BitVec 64) (s : State) : Keeps s (execCtxResume seq s) := by simp [execCtxResume]

theorem execCtxReset_kept (seq : BitVec 64) (s : State) : Keeps s (execCtxReset seq s) := by simp [execCtxReset]

theorem execCtxDestroy_kept (seq : BitVec 64) (s : State) : Keeps s (execCtxDestroy seq s) := by simp [execCtxDestroy]

@[simp] theorem State.launchCtx_kept (s : State) (c : Cmd) (rperiod : Nat) : (s.launchCtx c rperiod).kept = s.kept := by
  simp [State.launchCtx]

@[simp] theorem State.launchGo_kept (s : State) (c : Cmd) (rperiod : Nat) : (s.launchGo c rperiod).kept = s.kept := by
  simp [State.launchGo]

@[simp] theorem State.schedLoad_kept (s : State) (p b : Nat) : (s.schedLoad p b).kept = s.kept := by simp [State.schedLoad]

theorem execLaunch_kept (seq : BitVec 64) (s : State) : Keeps s (execLaunch seq s) := by
  simp only [execLaunch, keeps_next]
  refine State.start_kept fun c s => ?_
  repeat' split
  all_goals simp

@[simp] theorem State.release_kept (s : State) (p n : Nat) : (s.release p n).kept = s.kept := by
  unfold State.release
  dsimp only
  split <;> simp

@[simp] theorem State.jobPart_kept (s : State) (p job je start : Nat) : (s.jobPart p job je start).1.kept = s.kept := by
  unfold State.jobPart
  dsimp only
  repeat' split
  all_goals simp

@[simp] theorem State.jobStart_kept (s : State) (job je start : Nat) : (s.jobStart job je start).1.kept = s.kept := by
  have hfold : ∀ (ps : List Nat) (r : State × Nat), (ps.foldl (fun (r : State × Nat) p =>
      (if (r.1.jobPart p job je start).2 = 0 then (r.1.jobPart p job je start).1
        else (r.1.jobPart p job je start).1.count (r.1.jobPart p job je start).2,
        if r.2 = 0 then (r.1.jobPart p job je start).2 else r.2)) r).1.kept = r.1.kept := by
    intro ps r
    induction ps generalizing r with
    | nil => rfl
    | cons p ps ih => exact (ih _).trans (by simp)
  unfold State.jobStart
  dsimp only
  split
  · simp
  · exact hfold ..

theorem execHeldLaunchRelease_kept (p : BitVec 4) (c : BitVec 3) (s : State) : Keeps s (execHeldLaunchRelease p c s) := by
  simp [execHeldLaunchRelease]

theorem execQuantumExpiry_kept (p : BitVec 4) (s : State) : Keeps s (execQuantumExpiry p s) := by
  unfold execQuantumExpiry
  dsimp only
  split <;> simp

theorem execSaveComplete_kept (p : BitVec 4) (s : State) : Keeps s (execSaveComplete p s) := by
  unfold execSaveComplete
  dsimp only
  split <;> simp

@[simp] theorem State.afterStart_kept (s : State) (p c : Nat) : (s.afterStart p c).kept = s.kept := by simp [State.afterStart]

theorem execCoreRestoreStart_kept (p : BitVec 4) (lclu core : BitVec 6) (s : State) :
    Keeps s (execCoreRestoreStart p lclu core s) := by
  unfold execCoreRestoreStart
  dsimp only
  split <;> simp

theorem execRuledStartTick_kept (p : BitVec 4) (s : State) : Keeps s (execRuledStartTick p s) := by
  unfold execRuledStartTick
  dsimp only
  split <;> simp

theorem execPartCreate_kept (seq : BitVec 64) (s : State) : Keeps s (execPartCreate seq s) := by simp [execPartCreate]

@[simp] theorem State.setUp_kept (s : State) (p d : Nat) : (s.setUp p d).kept = s.kept := by simp [State.setUp]

theorem execPartCreateDone_kept (p : BitVec 4) (s : State) : Keeps s (execPartCreateDone p s) := by
  unfold execPartCreateDone
  dsimp only
  repeat' split
  all_goals simp

@[simp] theorem State.dramCleared_kept (s : State) : s.dramCleared.kept = s.kept := by simp [State.dramCleared]

theorem execDramClearDone_kept (s : State) : Keeps s (execDramClearDone s) := by simp [execDramClearDone]

theorem execPartDisable_kept (seq : BitVec 64) (s : State) : Keeps s (execPartDisable seq s) := by simp [execPartDisable]

theorem execDrainLimitExpiry_kept (p : BitVec 4) (s : State) : Keeps s (execDrainLimitExpiry p s) := by simp [execDrainLimitExpiry]

@[simp] theorem State.dropPools_kept (s : State) (p : Nat) : (s.dropPools p).kept = s.kept := by simp [State.dropPools]

@[simp] theorem State.releasePart_kept (s : State) (p : Nat) : (s.releasePart p).kept = s.kept := by simp [State.releasePart]

theorem execPartAbortDone_kept (p : BitVec 4) (s : State) : Keeps s (execPartAbortDone p s) := by
  unfold execPartAbortDone
  dsimp only
  repeat' split
  all_goals simp

@[simp] theorem State.copyFail_kept (s : State) (seq part code : Nat) : (s.copyFail seq part code).kept = s.kept := by
  unfold State.copyFail
  split <;> simp

@[simp] theorem State.pieceOut_kept (s : State) (c : Cmd) (part idx : Nat) (e : End) (n v : Nat) :
    (s.pieceOut c part idx e n v).kept = s.kept := by
  unfold State.pieceOut
  split <;> simp

@[simp] theorem State.pieceAsk_kept (s : State) (c : Cmd) (part idx : Nat) (e : End) (n : Nat) :
    (s.pieceAsk c part idx e n).kept = s.kept := by
  unfold State.pieceAsk
  split <;> simp

@[simp] theorem State.copyDemand_kept (s : State) (c : Cmd) (off : Nat) : (s.copyDemand c off).kept = s.kept := by
  unfold State.copyDemand
  split
  · rfl
  · split <;> simp

@[simp] theorem State.pieceStart_kept (s : State) (c : Cmd) (part idx : Nat) (x : Nat × Nat) :
    (s.pieceStart c part idx x).kept = s.kept := by
  unfold State.pieceStart
  dsimp only
  split <;> simp

@[simp] theorem State.partStart_kept (s : State) (c : Cmd) (part : Nat) : (s.partStart c part).kept = s.kept := by
  simp [State.partStart]

@[simp] theorem State.copyStart_kept (s : State) (c : Cmd) : (s.copyStart c).kept = s.kept := by simp [State.copyStart]

theorem execCopy_kept (seq : BitVec 64) (s : State) : Keeps s (execCopy seq s) := by simp [execCopy]

theorem execFill_kept (seq : BitVec 64) (s : State) : Keeps s (execFill seq s) := by simp [execFill]

@[simp] theorem State.copyArrive_kept (s : State) (seq code v : Nat) (pz : Bool) : (s.copyArrive seq code v pz).kept = s.kept := by
  unfold State.copyArrive
  split
  · rfl
  · split
    · simp
    · split
      · simp
      · split <;> simp

@[simp] theorem State.partSpoil_kept (s : State) (c : Cmd) (part : Nat) : (s.partSpoil c part).kept = s.kept := by
  simp [State.partSpoil]

@[simp] theorem State.copyEnd_kept (s : State) (seq : Nat) : (s.copyEnd seq).kept = s.kept := by
  unfold State.copyEnd
  split <;> simp

@[simp] theorem State.partEnd_kept (s : State) (c : Cmd) (part : Nat) (code : Option Nat) :
    (s.partEnd c part code).kept = s.kept := by
  simp [State.partEnd]

theorem execCopyPartEnd_kept (seq : BitVec 64) (part : BitVec 6) (s : State) : Keeps s (execCopyPartEnd seq part s) := by
  unfold execCopyPartEnd
  dsimp only
  repeat' split
  all_goals simp

theorem State.makeRoom_kept {s : State} {p d j t : Nat} {acc : List Place} {r : State × Place} (h : s.makeRoom p d j t acc = some r) :
    r.1.kept = s.kept := by
  unfold State.makeRoom at h
  obtain ⟨x, -, hx⟩ := List.exists_of_findSome?_eq_some h
  split at hx
  · cases hx
  · split at hx
    · obtain rfl := Option.some.inj hx
      simp
    · cases hx

theorem State.placeGran_kept {s : State} {p d j : Nat} {ts : List Nat} {acc : List Place} {r : State × Place}
    (h : s.placeGran p d j ts acc = some r) : r.1.kept = s.kept := by
  unfold State.placeGran at h
  split at h
  · obtain rfl := Option.some.inj h
    rfl
  · split at h
    · exact State.makeRoom_kept h
    · cases h

theorem State.placeAll_kept {p d : Nat} {js : List Nat} {s : State} {acc : Tbl Place} {r : State × Tbl Place}
    (h : State.placeAll p d js s acc = some r) : r.1.kept = s.kept := by
  induction js generalizing s acc with
  | nil =>
    obtain rfl := Option.some.inj h
    rfl
  | cons j js ih =>
    unfold State.placeAll at h
    split at h
    · cases h
    next hg => exact (ih h).trans (State.placeGran_kept hg)

theorem State.placeObj_kept {s : State} {p d : Nat} {r : State × Tbl Place} (h : s.placeObj p d = some r) : r.1.kept = s.kept := by
  obtain ⟨u, hu, hr⟩ := Option.bind_eq_some_iff.mp h
  obtain ⟨t, -, rfl⟩ := Option.map_eq_some_iff.mp hr
  exact (State.placeAll_kept hu : u.1.kept = s.kept)

@[simp] theorem State.ownAll_kept (s : State) (p d : Nat) : (s.ownAll p d).kept = s.kept := by simp [State.ownAll]

theorem State.mapNew_kept {s t : State} {p d : Nat} (h : s.mapNew p d = some t) : t.kept = s.kept := by
  obtain ⟨r, hr, rfl⟩ := Option.map_eq_some_iff.mp h
  simpa using State.placeObj_kept hr

theorem State.replaceGran_kept {s : State} {p d j : Nat} {pl : Place} {acc : List Place} {r : State × Option Place}
    (h : s.replaceGran p d j pl acc = some r) : r.1.kept = s.kept := by
  unfold State.replaceGran at h
  split at h
  · obtain rfl := Option.some.inj h
    rfl
  · split at h
    · obtain ⟨u, hu, rfl⟩ := Option.map_eq_some_iff.mp h
      exact State.makeRoom_kept hu
    · cases h

theorem State.replaceAll_kept {p d : Nat} {o : Obj} {js : List Nat} {s : State} {ms : List Mig} {r : State × List Mig}
    (h : State.replaceAll p d o js s ms = some r) : r.1.kept = s.kept := by
  induction js generalizing s ms with
  | nil =>
    obtain rfl := Option.some.inj h
    rfl
  | cons j js ih =>
    unfold State.replaceAll at h
    split at h
    · exact ih h
    · split at h
      · cases h
      next hg => exact (ih h).trans (State.replaceGran_kept hg)
      next hg => exact (ih h).trans (State.replaceGran_kept hg)

theorem State.mapReplace_kept {s t : State} {p d : Nat} {o : Obj} (h : s.mapReplace p d o = some t) : t.kept = s.kept := by
  obtain ⟨r, hr, ht⟩ := Option.bind_eq_some_iff.mp h
  obtain ⟨ring, -, rfl⟩ := Option.map_eq_some_iff.mp ht
  simpa using State.replaceAll_kept hr

@[simp] theorem State.mapObj_kept (s : State) (p d : Nat) : (s.mapObj p d).1.kept = s.kept := by
  unfold State.mapObj
  dsimp only
  split
  · rfl
  · split
    · rfl
    · split
      · split
        next h => exact State.mapReplace_kept h
        next => rfl
      · split
        · rfl
        · split
          next h => exact State.mapNew_kept h
          next => rfl

theorem execMap_kept (seq : BitVec 64) (s : State) : Keeps s (execMap seq s) := by simp [execMap]

@[simp] theorem State.dropObj_kept (s : State) (p : Nat) (o : Obj) : (s.dropObj p o).kept = s.kept := by simp [State.dropObj]

@[simp] theorem State.unmapCheck_kept (s : State) (p : Nat) : (s.unmapCheck p).kept = s.kept := by simp [State.unmapCheck]

theorem execUnmap_kept (seq : BitVec 64) (s : State) : Keeps s (execUnmap seq s) := by
  simp only [execUnmap, keeps_next]
  refine State.start_kept fun c s => ?_
  repeat' split
  all_goals simp

end Sys2Proof.Machine
end

section
/-! The queue and the routing versions through CHECKPOINT and RESTORE (12 R437-R442). -/

namespace Sys2Proof.Machine

@[simp] theorem State.setCkpt_kept (s : State) (p : Nat) (k : Ckpt) : (s.setCkpt p k).kept = s.kept := by simp [State.setCkpt]

@[simp] theorem State.ckRecompute_kept (s : State) : s.ckRecompute.kept = s.kept := by simp [State.ckRecompute]

@[simp] theorem State.ckEnd_kept (s : State) (p : Nat) (k : Ckpt) (code : Nat) : (s.ckEnd p k code).kept = s.kept := by
  simp [State.ckEnd]

@[simp] theorem State.ckFail_kept (s : State) (p : Nat) (k : Ckpt) (code : Nat) : (s.ckFail p k code).kept = s.kept := by
  simp [State.ckFail]

@[simp] theorem State.spoilObjects_kept (s : State) (p : Nat) (k : Ckpt) : (s.spoilObjects p k).kept = s.kept := by
  unfold State.spoilObjects
  refine foldl_kept (fun s x => foldl_kept (fun s i => ?_) _ _) _ _
  split <;> simp

@[simp] theorem State.spoilImage_kept (s : State) (p c : Nat) : (s.spoilImage p c).kept = s.kept := by simp [State.spoilImage]

@[simp] theorem State.spoilSaved_kept (s : State) (p : Nat) (k : Ckpt) : (s.spoilSaved p k).kept = s.kept := by
  simp [State.spoilSaved]

@[simp] theorem State.restoreFail_kept (s : State) (p : Nat) (k : Ckpt) (code : Nat) : (s.restoreFail p k code).kept = s.kept := by
  simp [State.restoreFail]

@[simp] theorem State.ckBad_kept (s : State) (p : Nat) (k : Ckpt) (code : Nat) : (s.ckBad p k code).kept = s.kept := by
  simp [State.ckBad]

@[simp] theorem State.ckSend_kept (s : State) (p : Nat) (c : Cmd) (ptype o n v key : Nat) :
    (s.ckSend p c ptype o n v key).kept = s.kept := by
  simp [State.ckSend]

@[simp] theorem State.eccBlock_kept (s : State) (p : Nat) (x : Sect) (o0 : Nat) : (s.eccBlock p x o0).kept = s.kept := by
  unfold State.eccBlock
  split
  · rfl
  · refine foldl_kept (fun s o => ?_) _ _
    split
    · split <;> simp
    · rfl

@[simp] theorem State.ckReadBlock_kept (s : State) (p : Nat) (k : Ckpt) : (s.ckReadBlock p k).kept = s.kept := by
  unfold State.ckReadBlock
  dsimp only
  split
  · simp
  · split
    · simp
    · split
      · simp
      · exact (foldl_kept (fun s o => by split <;> simp) _ _).trans (by simp)

@[simp] theorem State.ckStoreBlock_kept (s : State) (p : Nat) (k : Ckpt) (c : Cmd) : (s.ckStoreBlock p k c).kept = s.kept := by
  simp [State.ckStoreBlock]

@[simp] theorem State.ckStored_kept (s : State) (p : Nat) (k : Ckpt) (c : Cmd) : (s.ckStored p k c).kept = s.kept := by
  simp [State.ckStored]

@[simp] theorem State.ckAsk_kept (s : State) (p : Nat) (c : Cmd) (o n key : Nat) : (s.ckAsk p c o n key).kept = s.kept := by
  simp [State.ckAsk]

@[simp] theorem State.restoreObjs_kept (p : Nat) (xs : List Sect) (s : State) : (State.restoreObjs p xs s).1.kept = s.kept := by
  induction xs generalizing s with
  | nil => rfl
  | cons x xs ih =>
    unfold State.restoreObjs
    split
    · exact ih s
    · split
      · rfl
      · split
        next h => exact (ih _).trans (State.mapNew_kept h)
        next => rfl

@[simp] theorem State.restoreCheck_kept (s : State) (p : Nat) (k : Ckpt) (c : Cmd) : (s.restoreCheck p k c).kept = s.kept := by
  simp [State.restoreCheck]

/-- The pieces of a restored block written into its objects. -/
theorem restorePieces_kept (p : Nat) (x : Sect) (o0 : Nat) (at_ : Nat → Nat) (os : List Nat) (s : State) :
    (os.foldl (fun (s : State) o => match s.objHome p x (o0 + o) with
      | some h => s.putHome p h 256 (at_ o) false
      | none => s) s).kept = s.kept :=
  foldl_kept (fun s o => by split <;> simp) _ _

@[simp] theorem State.restoreBlock_kept (s : State) (p : Nat) (k : Ckpt) : (s.restoreBlock p k).kept = s.kept := by
  unfold State.restoreBlock
  dsimp only
  split
  · simp
  · split
    · simp
    · rw [State.setCkpt_kept, State.setCkpPart_kept]
      split
      · exact restorePieces_kept ..
      · rfl

@[simp] theorem State.loadInk_kept (s : State) (p : Nat) (m : Mem) : (s.loadInk p m).kept = s.kept := by
  have hreq : ∀ (s : State) (r : Nat), (if mread m (1024 + 32 * r) 32 ≠ 0 then s.setReqr r (reqFrom p (mread m (1024 + 32 * r) 32))
      else if (s.reqr r).part = p then { s with reqs := tdel s.reqs r } else s).kept = s.kept := by
    intro s r
    split
    · exact State.setReqr_kept ..
    · split <;> rfl
  unfold State.loadInk
  refine (foldl_kept hreq _ _).trans ?_
  exact (foldl_kept (fun s c => by simp) _ _).trans (State.setRg_kept ..)

@[simp] theorem State.loadSched_kept (s : State) (p c : Nat) (m : Mem) : (s.loadSched p c m).kept = s.kept := by
  simp [State.loadSched]

@[simp] theorem State.loadImage_kept (s : State) (p c : Nat) (m : Mem) : (s.loadImage p c m).kept = s.kept := by
  simp [State.loadImage]

@[simp] theorem State.restoreLoad_kept (s : State) (p : Nat) (k : Ckpt) : (s.restoreLoad p k).kept = s.kept := by
  simp [State.restoreLoad]

@[simp] theorem State.ckStep_kept (s : State) (p : Nat) (k : Ckpt) (c : Cmd) : (s.ckStep p k c).kept = s.kept := by
  simp only [State.ckStep]
  repeat' split
  all_goals simp

@[simp] theorem State.ckPumpN_kept (p n : Nat) (s : State) : (State.ckPumpN p n s).kept = s.kept := by
  induction n generalizing s with
  | zero => rfl
  | succ n ih =>
    unfold State.ckPumpN
    split
    · rfl
    · split
      · rfl
      · split
        · rfl
        · dsimp only
          split
          · simp
          · exact (ih _).trans (State.ckStep_kept ..)

@[simp] theorem State.ckPump_kept (s : State) (p : Nat) : (s.ckPump p).kept = s.kept := State.ckPumpN_kept ..

@[simp] theorem State.ckArrive_kept (s : State) (p key n v : Nat) (pz load : Bool) :
    (s.ckArrive p key n v pz load).kept = s.kept := by
  unfold State.ckArrive
  split <;> simp

@[simp] theorem State.ckHostArrive_kept (s : State) (p o v : Nat) (pz : Bool) : (s.ckHostArrive p o v pz).kept = s.kept := by
  unfold State.ckHostArrive
  split <;> simp

@[simp] theorem State.ckLost_kept (s : State) (p code : Nat) : (s.ckLost p code).kept = s.kept := by
  unfold State.ckLost
  split <;> simp

@[simp] theorem State.ckRecall_kept (s : State) (p : Nat) : (s.ckRecall p).kept = s.kept := by simp [State.ckRecall]

theorem execCheckpoint_kept (seq : BitVec 64) (s : State) : Keeps s (execCheckpoint seq s) := by simp [execCheckpoint]

theorem execRestore_kept (seq : BitVec 64) (s : State) : Keeps s (execRestore seq s) := by simp [execRestore]

theorem execFence_kept (seq : BitVec 64) (s : State) : Keeps s (execFence seq s) := by
  unfold execFence
  split <;> simp

theorem execCancelBatch_kept (seq : BitVec 64) (s : State) : Keeps s (execCancelBatch seq s) := by simp [execCancelBatch]

theorem execQuery_kept (seq : BitVec 64) (s : State) : Keeps s (execQuery seq s) := by simp [execQuery]

end Sys2Proof.Machine
end

section
/-! The queue and the routing versions through resets, power, clocks and temperature (13, 14 R477). -/

namespace Sys2Proof.Machine

@[simp] theorem State.cutFlash_kept (s : State) : s.cutFlash.kept = s.kept := by simp [State.cutFlash]

theorem State.powerState_kept (s : State) (power : Power) : (s.powerState power).kept = (s.pending, {}, {}, 0) := rfl

theorem State.cutFlash_pending (s : State) : s.cutFlash.pending = s.pending := by
  unfold State.cutFlash
  dsimp only
  split <;> rfl

theorem State.coldState_kept (s : State) : s.coldState.kept = (s.pending, {}, {}, 0) :=
  congrArg (fun q => (q, ({} : Version), ({} : Version), 0)) s.cutFlash_pending

theorem State.warmState_kept (s : State) : s.warmState.kept = (s.pending, {}, {}, 0) := s.coldState_kept

theorem State.coldReset_kept (s : State) : s.coldReset.kept = (s.pending, {}, {}, 0) := s.coldState_kept

theorem State.warmReset_kept (s : State) : s.warmReset.kept = (s.pending, {}, {}, 0) := by
  unfold State.warmReset
  split
  · exact s.warmState_kept
  · exact s.coldReset_kept

@[simp] theorem State.stopDevice_kept (s : State) : s.stopDevice.kept = s.kept := by simp [State.stopDevice]

theorem execPwrGoodDeassert_kept (s : State) : Keeps s (execPwrGoodDeassert s) := by simp [execPwrGoodDeassert]

@[simp] theorem State.railRecord_kept (s : State) (r : Nat) : (s.railRecord r).kept = s.kept := by simp [State.railRecord]

theorem execPllLockLoss_kept (s : State) : Keeps s (execPllLockLoss s) := by simp [execPllLockLoss]

theorem execRootPllLock_kept (s : State) : Keeps s (execRootPllLock s) := by simp [execRootPllLock]

@[simp] theorem State.tbStep_kept (s : State) (v : BitVec 64) : (s.tbStep v).kept = s.kept := by simp [State.tbStep]

theorem execClkTbStep_kept (v : BitVec 64) (s : State) : Keeps s (execClkTbStep v s) := by simp [execClkTbStep]

@[simp] theorem State.tick_kept (s : State) : s.tick.kept = s.kept := by simp [State.tick]

theorem execDroopDetect_kept (mv : BitVec 12) (s : State) : Keeps s (execDroopDetect mv s) := by simp [execDroopDetect]

theorem execDidtRelease_kept (s : State) : Keeps s (execDidtRelease s) := by simp [execDidtRelease]

theorem execAvsStatusRead_kept (fault : Bool) (mv : BitVec 12) (s : State) : Keeps s (execAvsStatusRead fault mv s) := by
  simp [execAvsStatusRead]

theorem execAvsVoltageWrite_kept (mv : BitVec 12) (acked : Bool) (readback : BitVec 12) (s : State) :
    Keeps s (execAvsVoltageWrite mv acked readback s) := by
  simp [execAvsVoltageWrite]

@[simp] theorem State.undoStep_kept (s : State) (x : Plat) (k : Nat) : (s.undoStep x k).kept = s.kept := by simp [State.undoStep]

@[simp] theorem State.capStep_kept (s : State) (w : Nat) : (s.capStep w).kept = s.kept := by
  unfold State.capStep
  dsimp only
  repeat' split
  all_goals simp

theorem execCapLoop_kept (watts : BitVec 11) (s : State) : Keeps s (execCapLoop watts s) := by simp [execCapLoop]

@[simp] theorem State.sampleHold_kept (s : State) (i : Nat) (t : Int) : (s.sampleHold i t).kept = s.kept := by
  simp [State.sampleHold]

@[simp] theorem State.tripNow_kept (s : State) (i : Nat) : (s.tripNow i).kept = s.kept := by simp [State.tripNow]

theorem execSensorSample_kept (i : BitVec 8) (t : BitVec 12) (s : State) : Keeps s (execSensorSample i t s) := by
  simp [execSensorSample]

theorem execThermalLoop_kept (clu : BitVec 6) (s : State) : Keeps s (execThermalLoop clu s) := by simp [execThermalLoop]

theorem execDomainWake_kept (d : BitVec 7) (s : State) : Keeps s (execDomainWake d s) := by simp [execDomainWake]

theorem execDomainWakeDone_kept (d : BitVec 7) (s : State) : Keeps s (execDomainWakeDone d s) := by simp [execDomainWakeDone]

end Sys2Proof.Machine
end

section
/-! The queue and the routing versions through boot, what returns from other nodes and the host, monitors, tests and jobs (12, 14). -/

namespace Sys2Proof.Machine

@[simp] theorem State.enterRecovery_kept (s : State) (berr : Nat) : (s.enterRecovery berr).kept = s.kept := by
  simp [State.enterRecovery]

@[simp] theorem State.runImage_kept (s : State) (m : Nat) (rec : Bool) : (s.runImage m rec).kept = s.kept := by
  simp [State.runImage]

@[simp] theorem State.bootBist_kept (s : State) (bad : Bool) : (s.bootBist bad).kept = s.kept := by simp [State.bootBist]

@[simp] theorem State.bootMemory_kept (s : State) (fail : Nat) : (s.bootMemory fail).kept = s.kept := by simp [State.bootMemory]

@[simp] theorem State.bootEnd_kept (s : State) (fail : Nat) : (s.bootEnd fail).kept = s.kept := by simp [State.bootEnd]

theorem execBootStageComplete_kept (fail : BitVec 4) (s : State) : Keeps s (execBootStageComplete fail s) := by
  unfold execBootStageComplete
  dsimp only
  repeat' split
  all_goals simp

@[simp] theorem State.recoveryBegin_kept (s : State) : s.recoveryBegin.kept = s.kept := by simp [State.recoveryBegin]

theorem execRecoveryBegin_kept (s : State) : Keeps s (execRecoveryBegin s) := by simp [execRecoveryBegin]

@[simp] theorem State.recoveryData_kept (s : State) (v : BitVec 64) : (s.recoveryData v).kept = s.kept := by
  simp [State.recoveryData]

theorem execRecoveryData_kept (v : BitVec 64) (s : State) : Keeps s (execRecoveryData v s) := by simp [execRecoveryData]

@[simp] theorem State.recoveryGo_kept (s : State) : s.recoveryGo.kept = s.kept := by simp [State.recoveryGo]

theorem execRecoveryGo_kept (s : State) : Keeps s (execRecoveryGo s) := by simp [execRecoveryGo]

@[simp] theorem State.recoveryAbort_kept (s : State) : s.recoveryAbort.kept = s.kept := by simp [State.recoveryAbort]

theorem execRecoveryAbort_kept (s : State) : Keeps s (execRecoveryAbort s) := by simp [execRecoveryAbort]

@[simp] theorem State.updateGo_kept (s : State) : s.updateGo.kept = s.kept := by simp [State.updateGo]

theorem execUpdateGo_kept (s : State) : Keeps s (execUpdateGo s) := by simp [execUpdateGo]

theorem execUpdateDone_kept (ok : Bool) (image : Nat) (s : State) : Keeps s (execUpdateDone ok image s) := by simp [execUpdateDone]

@[simp] theorem State.scribeReset_kept (s : State) (k : Nat) : (s.scribeReset k).kept = s.kept := by simp [State.scribeReset]

theorem execWatchdogExpiry_kept (k : BitVec 2) (s : State) : Keeps s (execWatchdogExpiry k s) := by simp [execWatchdogExpiry]

theorem execScribeMemoryUe_kept (k : BitVec 2) (s : State) : Keeps s (execScribeMemoryUe k s) := by simp [execScribeMemoryUe]

@[simp] theorem State.countFail_kept (s : State) (code : Nat) : (s.countFail code).kept = s.kept := by simp [State.countFail]

@[simp] theorem State.farFail_kept (s : State) (e : FarBlk) (code : Nat) : (s.farFail e code).kept = s.kept := by
  unfold State.farFail
  dsimp only
  repeat' split
  all_goals simp

@[simp] theorem State.farNudge_kept (s : State) (w : Who) : (s.farNudge w).kept = s.kept := by
  unfold State.farNudge
  split
  · simp
  · split
    · split <;> simp
    · rfl
  · rfl

@[simp] theorem State.farArrive_kept (s : State) (id v : Nat) (pz : Bool) : (s.farArrive id v pz).kept = s.kept := by
  unfold State.farArrive
  split <;> simp

@[simp] theorem State.farLost_kept (s : State) (id code : Nat) : (s.farLost id code).kept = s.kept := by
  unfold State.farLost
  dsimp only
  repeat' split
  all_goals simp

@[simp] theorem State.hostLost_kept (s : State) (w : HostWait) (code : Nat) : (s.hostLost w code).kept = s.kept := by
  unfold State.hostLost
  split
  case h_2 => split <;> simp
  all_goals simp

@[simp] theorem State.hostArrive_kept (s : State) (w : HostWait) (v : Nat) (pz : Bool) : (s.hostArrive w v pz).kept = s.kept := by
  unfold State.hostArrive
  split
  case h_2 => split <;> simp
  all_goals simp

@[simp] theorem State.afterRecall_kept (s : State) : s.afterRecall.kept = s.kept := by simp [State.afterRecall]

@[simp] theorem State.poisonLine_kept (s : State) (f line : Nat) : (s.poisonLine f line).kept = s.kept := by
  unfold State.poisonLine
  split <;> simp

@[simp] theorem State.linkDown_kept (s : State) (counted : Bool) : (s.linkDown counted).kept = s.kept := by simp [State.linkDown]

theorem execSatWindowEnd_kept (util stall : BitVec 64) (s : State) : Keeps s (execSatWindowEnd util stall s) := by
  simp [execSatWindowEnd]

@[simp] theorem State.ckFailAt_kept (s : State) (t : Nat) : (s.ckFailAt t).kept = s.kept := by
  unfold State.ckFailAt
  split
  · rfl
  · split
    · rfl
    · rw [State.ckRecompute_kept, kept_mk, kept_eta]

@[simp] theorem State.ckpFailGo_kept (s : State) : s.ckpFailGo.kept = s.kept := by simp [State.ckpFailGo]

theorem execCkpFail_kept (s : State) : Keeps s (execCkpFail s) := by simp [execCkpFail]

theorem execCkpDue_kept (p : BitVec 4) (s : State) : Keeps s (execCkpDue p s) := by simp [execCkpDue]

theorem execScribeRestartDone_kept (k : BitVec 2) (s : State) : Keeps s (execScribeRestartDone k s) := by
  simp [execScribeRestartDone]

theorem execExtest_kept (s : State) : Keeps s (execExtest s) := by simp [execExtest]

theorem execIdcode_kept (s : State) : Keeps s (execIdcode s) := by simp [execIdcode]

theorem execSamplePreload_kept (s : State) : Keeps s (execSamplePreload s) := by simp [execSamplePreload]

theorem execIjtag_kept (s : State) : Keeps s (execIjtag s) := by simp [execIjtag]

theorem execBypass_kept (code : BitVec 8) (s : State) : Keeps s (execBypass code s) := by simp [execBypass]

theorem execTrstL_kept (s : State) : Keeps s (execTrstL s) := by simp [execTrstL]

theorem execI3cDynamicAddress_kept (a : BitVec 7) (s : State) : Keeps s (execI3cDynamicAddress a s) := by
  simp [execI3cDynamicAddress]

@[simp] theorem State.setDepth_kept (s : State) (i d : Nat) : (s.setDepth i d).kept = s.kept := by simp [State.setDepth]

theorem execLoopbackDepth_kept (i : BitVec 5) (depth : BitVec 3) (s : State) : Keeps s (execLoopbackDepth i depth s) := by
  simp [execLoopbackDepth]

@[simp] theorem State.lbRun_kept (s : State) (i : Nat) : (s.lbRun i).kept = s.kept := by simp [State.lbRun]

theorem execLoopbackRun_kept (i : BitVec 5) (nbits errs : BitVec 48) (s : State) : Keeps s (execLoopbackRun i nbits errs s) := by
  simp [execLoopbackRun]

@[simp] theorem State.dbistGo_kept (s : State) : s.dbistGo.kept = s.kept := by simp [State.dbistGo]

theorem execDbistGo_kept (s : State) : Keeps s (execDbistGo s) := by simp [execDbistGo]

theorem execDbistDone_kept (fails : List (BitVec 8 × BitVec 3 × BitVec 9)) (s : State) : Keeps s (execDbistDone fails s) := by
  simp [execDbistDone]

@[simp] theorem State.jobSend_kept (s : State) : s.jobSend.kept = s.kept := by simp [State.jobSend]

@[simp] theorem State.sendWaiting_kept (s : State) : s.sendWaiting.kept = s.kept := by
  unfold State.sendWaiting
  split <;> simp

@[simp] theorem State.jobGo_kept (s : State) : s.jobGo.kept = s.kept := by simp [State.jobGo]

@[simp] theorem State.jobResult_kept (s : State) (status : Nat) : (s.jobResult status).kept = s.kept := by simp [State.jobResult]

theorem execJobstartGo_kept (s : State) : Keeps s (execJobstartGo s) := by simp [execJobstartGo]

theorem execJobstartTimeout_kept (s : State) : Keeps s (execJobstartTimeout s) := by simp [execJobstartTimeout]

end Sys2Proof.Machine
end

section
/-! The queue and the routing versions through the control window and the host link (11 R395-R401, 15). -/

namespace Sys2Proof.Machine

@[simp] theorem State.counterWrite_kept (s : State) (o v : Nat) : (s.counterWrite o v).kept = s.kept := by simp [State.counterWrite]

@[simp] theorem State.tbTrimWrite_kept (s : State) (v : Nat) : (s.tbTrimWrite v).kept = s.kept := by simp [State.tbTrimWrite]

@[simp] theorem State.recCmd_kept (s : State) (v : Nat) : (s.recCmd v).kept = s.kept := by
  unfold State.recCmd
  split <;> simp

@[simp] theorem State.ringBase_kept (s : State) (k o v : Nat) : (s.ringBase k o v).kept = s.kept := by simp [State.ringBase]

@[simp] theorem State.dropDue_kept (s : State) (f r : Nat) : (s.dropDue f r).kept = s.kept := by simp [State.dropDue]

@[simp] theorem State.ringCtlWrite_kept (s : State) (f r v : Nat) : (s.ringCtlWrite f r v).kept = s.kept := by
  simp [State.ringCtlWrite]

@[simp] theorem State.ringStatWrite_kept (s : State) (k v : Nat) : (s.ringStatWrite k v).kept = s.kept := by
  simp [State.ringStatWrite]

@[simp] theorem State.poolCmd_kept (s : State) (p c v : Nat) : (s.poolCmd p c v).kept = s.kept := by
  unfold State.poolCmd
  split <;> simp

@[simp] theorem State.reqCfgWrite_kept (s : State) (i v : Nat) : (s.reqCfgWrite i v).kept = s.kept := by simp [State.reqCfgWrite]

@[simp] theorem State.portCtlWrite_kept (s : State) (n v : Nat) : (s.portCtlWrite n v).kept = s.kept := by simp [State.portCtlWrite]

@[simp] theorem State.routeWrite_kept (s : State) (k v : Nat) : (s.routeWrite k v).kept = s.kept := by simp [State.routeWrite]

@[simp] theorem State.treeWrite_kept (s : State) (k v : Nat) : (s.treeWrite k v).kept = s.kept := by simp [State.treeWrite]

@[simp] theorem State.circWrite_kept (s : State) (c v : Nat) : (s.circWrite c v).kept = s.kept := by simp [State.circWrite]

@[simp] theorem State.tdmWrite_kept (s : State) (k v : Nat) : (s.tdmWrite k v).kept = s.kept := by simp [State.tdmWrite]

@[simp] theorem State.lbWrite_kept (s : State) (i v : Nat) : (s.lbWrite i v).kept = s.kept := by simp [State.lbWrite]

theorem execCounterWrite_kept (off : BitVec 26) (v : BitVec 64) (s : State) : Keeps s (execCounterWrite off v s) := by
  simp [execCounterWrite]

theorem execI3cPrivateRead_kept (off : BitVec 32) (s : State) : Keeps s (execI3cPrivateRead off s) := by simp [execI3cPrivateRead]

@[simp] theorem State.tell_kept (s : State) (m : HostMsg) : (s.tell m).kept = s.kept := by simp [State.tell]

@[simp] theorem State.hostRefuse_kept (s : State) (t : HostTarget) (addr code : Nat) :
    (s.hostRefuse t addr code).kept = s.kept := by
  simp [State.hostRefuse]

@[simp] theorem State.hostReply_kept (s : State) (t : HostTarget) (addr : Nat) (copy : Bool) (size data : Nat) :
    (s.hostReply t addr copy size data).kept = s.kept := by
  simp [State.hostReply]

@[simp] theorem State.sfInsert_kept (s : State) (f line : Nat) (claim : Bool) : (s.sfInsert f line claim).kept = s.kept := by
  unfold State.sfInsert
  split <;> simp

@[simp] theorem State.sfRemove_kept (s : State) (f line : Nat) : (s.sfRemove f line).kept = s.kept := by simp [State.sfRemove]

@[simp] theorem State.shareServe_kept (s : State) (b : Blocked) (claim : Bool) (h : Home) :
    (s.shareServe b claim h).kept = s.kept := by
  unfold State.shareServe
  dsimp only
  repeat' split
  all_goals simp

@[simp] theorem State.eccFilter_kept (s : State) (f line : Nat) : (s.eccFilter f line).1.kept = s.kept := by simp [State.eccFilter]

@[simp] theorem State.maskAt_kept (s : State) (f a : Nat) (h : Home) (mask data : Nat) :
    (s.maskAt f a h mask data).kept = s.kept := by
  simp [State.maskAt]

@[simp] theorem State.serveHome_kept (s : State) (b : Blocked) (h : Home) : (s.serveHome b h).kept = s.kept := by
  unfold State.serveHome
  split <;> simp

@[simp] theorem State.hostServe_kept (s : State) (b : Blocked) : (s.hostServe b).kept = s.kept := by
  unfold State.hostServe
  split <;> simp

@[simp] theorem State.retryBlocked_kept (s : State) : s.retryBlocked.kept = s.kept := by simp [State.retryBlocked]

@[simp] theorem State.lineBack_kept (s : State) (f line : Nat) : (s.lineBack f line).kept = s.kept := by simp [State.lineBack]

@[simp] theorem State.lineWrite_kept (s : State) (f line data : Nat) : (s.lineWrite f line data).kept = s.kept := by
  simp [State.lineWrite]

@[simp] theorem State.peek_kept (s : State) (t : HostTarget) (a n : Nat) : (s.peek t a n).kept = s.kept := by
  unfold State.peek
  dsimp only
  repeat' split
  all_goals simp

theorem execLoadpeek_kept (t : HostTarget) (addr : BitVec 64) (size : BitVec 9) (s : State) :
    Keeps s (execLoadpeek t addr size s) := by
  simp [execLoadpeek]

@[simp] theorem State.share_kept (s : State) (t : HostTarget) (a : Nat) (claim : Bool) : (s.share t a claim).kept = s.kept := by
  unfold State.share
  dsimp only
  repeat' split
  all_goals simp

theorem execLoadshare_kept (t : HostTarget) (addr : BitVec 64) (s : State) : Keeps s (execLoadshare t addr s) := by
  simp [execLoadshare]

theorem execLoadclaim_kept (t : HostTarget) (addr : BitVec 64) (s : State) : Keeps s (execLoadclaim t addr s) := by
  simp [execLoadclaim]

@[simp] theorem State.wakeLine_kept (s : State) (i : Nat) : (s.wakeLine i).kept = s.kept := by simp [State.wakeLine]

@[simp] theorem State.hostAtomic_kept (s : State) (t : HostTarget) (a : Nat) (cas wide : Bool) (ty x y : Nat) :
    (s.hostAtomic t a cas wide ty x y).kept = s.kept := by
  unfold State.hostAtomic
  dsimp only
  repeat' split
  all_goals simp

theorem execHostAtomic_kept (t : HostTarget) (addr : BitVec 64) (cas : Bool) (wide : Bool) (atype : BitVec 2)
    (operand compare : BitVec 128) (s : State) :
    Keeps s (execHostAtomic t addr cas wide atype operand compare s) := by
  simp [execHostAtomic]

@[simp] theorem State.returnDirty_kept (s : State) (t : HostTarget) (a data : Nat) : (s.returnDirty t a data).kept = s.kept := by
  unfold State.returnDirty
  split <;> simp

theorem execReturndirty_kept (t : HostTarget) (addr : BitVec 64) (data : BitVec 512) (s : State) :
    Keeps s (execReturndirty t addr data s) := by
  simp [execReturndirty]

@[simp] theorem State.returnClean_kept (s : State) (t : HostTarget) (a : Nat) : (s.returnClean t a).kept = s.kept := by
  unfold State.returnClean
  split <;> simp

theorem execReturnclean_kept (t : HostTarget) (addr : BitVec 64) (s : State) : Keeps s (execReturnclean t addr s) := by
  simp [execReturnclean]

theorem execRecallResponse_kept (f : BitVec 4) (line : BitVec 48) (dirty : Bool) (data : BitVec 512) (s : State) :
    Keeps s (execRecallResponse f line dirty data s) := by
  simp [execRecallResponse]

theorem execRecallTimeout_kept (f : BitVec 4) (line : BitVec 48) (s : State) : Keeps s (execRecallTimeout f line s) := by
  simp [execRecallTimeout]

theorem execDynerlinkDown_kept (s : State) : Keeps s (execDynerlinkDown s) := by simp [execDynerlinkDown]

theorem execDynerlinkTraining_kept (w : LinkWidth) (s : State) : Keeps s (execDynerlinkTraining w s) := by
  simp [execDynerlinkTraining]

end Sys2Proof.Machine
end

section
/-! The queue and the routing versions through the Blot Log, rings and completions (11, 12). -/

namespace Sys2Proof.Machine

@[simp] theorem State.putRecord_kept (s : State) (r : Nat) : (s.putRecord r).kept = s.kept := by simp [State.putRecord]

@[simp] theorem State.logWrite_kept (s : State) : s.logWrite.kept = s.kept := by
  unfold State.logWrite
  dsimp only
  repeat' split
  all_goals simp

theorem execLogRecordWrite_kept (s : State) : Keeps s (execLogRecordWrite s) := by simp [execLogRecordWrite]

@[simp] theorem State.noticeWrite_kept (s : State) (rec snode : Nat) : (s.noticeWrite rec snode).kept = s.kept := by
  simp [State.noticeWrite]

@[simp] theorem State.setNotified_kept (s : State) (n : Nat) : (s.setNotified n).kept = s.kept := by
  unfold State.setNotified
  split <;> simp

@[simp] theorem State.noticeNext_kept (s : State) (n : Nat) : (s.noticeNext n).kept = s.kept := by simp [State.noticeNext]

@[simp] theorem State.noticeIssue_kept (s : State) (n rec tries : Nat) : (s.noticeIssue n rec tries).kept = s.kept := by
  simp [State.noticeIssue]

theorem execNoticeSend_kept (s : State) : Keeps s (execNoticeSend s) := by
  simp only [execNoticeSend, keeps_next]
  repeat' split
  all_goals simp

@[simp] theorem State.noticeFailed_kept (s : State) (n : Nat) : (s.noticeFailed n).kept = s.kept := by
  unfold State.noticeFailed
  split <;> simp

@[simp] theorem State.releaseSlot_kept (s : State) (k : Packet) : (s.release_ k).kept = s.kept := by simp [State.release_]

theorem execNoticeResponse_kept (p : Packet) (s : State) : Keeps s (execNoticeResponse p s) := by
  simp only [execNoticeResponse, keeps_next]
  repeat' split
  all_goals simp

theorem execNoticeResendTimeout_kept (s : State) : Keeps s (execNoticeResendTimeout s) := by
  unfold execNoticeResendTimeout
  split <;> simp

@[simp] theorem State.ringError_kept (s : State) (f r : Nat) : (s.ringError f r).kept = s.kept := by simp [State.ringError]

@[simp] theorem State.accept_kept (s : State) (f r : Nat) (rec : Option Nat) : (s.accept f r rec).kept = s.kept := by
  simp [State.accept]

@[simp] theorem State.recordServe_kept (s : State) (f r a : Nat) : (s.recordServe f r a).kept = s.kept := by
  unfold State.recordServe
  dsimp only
  repeat' split
  all_goals simp

theorem execRingService_kept (f : BitVec 4) (r : BitVec 6) (_rec : BitVec 512) (s : State) :
    Keeps s (execRingService f r _rec s) := by
  simp [execRingService]

@[simp] theorem State.recordArrive_kept (s : State) (k a v : Nat) (pz : Bool) : (s.recordArrive k a v pz).kept = s.kept := by
  simp [State.recordArrive]

@[simp] theorem State.hostAnswer_kept (s : State) (r : HostReq) (v : Nat) (pz : Bool) : (s.hostAnswer r v pz).kept = s.kept := by
  unfold State.hostAnswer
  split <;> simp

theorem execHostResponse_kept (id : BitVec 32) (status : BitVec 16) (data : Nat) (s : State) :
    Keeps s (execHostResponse id status data s) := by
  unfold execHostResponse
  dsimp only
  repeat' split
  all_goals simp

@[simp] theorem State.forget_kept (s : State) (seq : Nat) : (s.forget seq).kept = s.kept := by simp [State.forget]

@[simp] theorem State.completed_kept (s : State) (c : Cmd) : (s.completed c).kept = s.kept := by simp [State.completed]

theorem execCompletionWrite_kept (f : BitVec 4) (r : BitVec 6) (s : State) : Keeps s (execCompletionWrite f r s) := by
  unfold execCompletionWrite
  dsimp only
  split <;> simp

theorem execRingEnable_kept (f : BitVec 4) (r : BitVec 6) (v : BitVec 64) (s : State) : Keeps s (execRingEnable f r v s) := by
  simp [execRingEnable]

theorem execRingDisable_kept (f : BitVec 4) (r : BitVec 6) (v : BitVec 64) (s : State) : Keeps s (execRingDisable f r v s) := by
  simp [execRingDisable]

end Sys2Proof.Machine
end

section
/-! The queue and the routing versions through management and responses (08 R316-R321). -/

namespace Sys2Proof.Machine

@[simp] theorem State.hwAnswer_kept (s : State) (k : Packet) (status : Nat) : (s.hwAnswer k status).kept = s.kept := by
  simp [State.hwAnswer]

@[simp] theorem State.agentAnswer_kept (s : State) (k : Packet) (status words data : Nat) :
    (s.agentAnswer k status words data).kept = s.kept := by
  simp [State.agentAnswer]

@[simp] theorem State.agentRefuse_kept (s : State) (k : Packet) : (s.agentRefuse k).kept = s.kept := by simp [State.agentRefuse]

@[simp] theorem State.mgmtTake_kept {s : State} {k : Packet} {act : State → State} (h : ∀ s, (act s).kept = s.kept) :
    (s.mgmtTake k act).kept = s.kept := by
  simp [State.mgmtTake, h]

@[simp] theorem State.regrd_kept (s : State) (k : Packet) : (s.regrd k).kept = s.kept := by simp [State.regrd]

theorem execRegrd_kept (p : Packet) (s : State) : Keeps s (execRegrd p s) := by simp [execRegrd]

@[simp] theorem State.lntwr_kept (s : State) (k : Packet) : (s.lntwr k).kept = s.kept := by simp [State.lntwr]

theorem execLntwr_kept (p : Packet) (s : State) : Keeps s (execLntwr p s) := by simp [execLntwr]

theorem execNotice_kept (p : Packet) (s : State) : Keeps s (execNotice p s) := by simp [execNotice]

theorem execMgmtUnknownSub_kept (p : Packet) (s : State) : Keeps s (execMgmtUnknownSub p s) := by simp [execMgmtUnknownSub]

@[simp] theorem State.fallBack_kept (s : State) (p c : Nat) : (s.fallBack p c).kept = s.kept := by simp [State.fallBack]

@[simp] theorem State.tearCtx_kept (s : State) (p c : Nat) : (s.tearCtx p c).kept = s.kept := by
  unfold State.tearCtx
  dsimp only
  split <;> simp

@[simp] theorem State.tornOwner_kept (s : State) (o : Owner) : (s.tornOwner o).kept = s.kept := by
  unfold State.tornOwner
  split <;> simp

@[simp] theorem State.tearPart_kept (s : State) (p : Nat) : (s.tearPart p).kept = s.kept := by
  unfold State.tearPart
  dsimp only
  split <;> simp

@[simp] theorem State.tear_kept (s : State) (k : Packet) : (s.tear k).1.kept = s.kept := by
  unfold State.tear
  split <;> simp

@[simp] theorem State.jobRequest_kept (s : State) (k : Packet) : (s.jobRequest k).1.kept = s.kept := by
  unfold State.jobRequest
  split <;> simp

@[simp] theorem State.treeLocal_kept {s : State} {k : Packet} {act : State → State × Nat} (h : ∀ s, (act s).1.kept = s.kept) :
    (s.treeLocal k act).kept = s.kept := by
  simp [State.treeLocal, h]

@[simp] theorem State.mgmtTree_kept {s : State} {k : Packet} {act : State → State × Nat} (h : ∀ s, (act s).1.kept = s.kept) :
    (s.mgmtTree k act).kept = s.kept := by
  simp [State.mgmtTree, h]

theorem execTeardown_kept (p : Packet) (s : State) : Keeps s (execTeardown p s) := by simp [execTeardown]

theorem execJobstart_kept (p : Packet) (s : State) : Keeps s (execJobstart p s) := by simp [execJobstart]

@[simp] theorem State.deliver_kept (s : State) (d : Dest) (v : Nat) (pz : Bool) : (s.deliver d v pz).kept = s.kept := by
  unfold State.deliver
  split <;> simp

@[simp] theorem State.undeliver_kept (s : State) (d : Dest) : (s.undeliver d).kept = s.kept := by
  unfold State.undeliver
  split <;> simp

@[simp] theorem State.dmaBack_kept (s : State) (l : Loc) (id : Nat) : (s.dmaBack l id).1.kept = s.kept := by
  unfold State.dmaBack
  dsimp only
  split <;> simp

@[simp] theorem State.succeed_kept (s : State) (o : Op) (v : Nat) (load pz : Bool) : (s.succeed o v load pz).kept = s.kept := by
  unfold State.succeed
  dsimp only
  repeat' split
  all_goals simp

@[simp] theorem State.failOp_kept (s : State) (o : Op) (code : Nat) : (s.failOp o code).kept = s.kept := by
  unfold State.failOp
  dsimp only
  repeat' split
  all_goals simp

@[simp] theorem State.response_kept {s : State} {k : Packet} {act : State → Op → State} (h : ∀ s o, (act s o).kept = s.kept) :
    (s.response k act).kept = s.kept := by
  unfold State.response
  split
  · simp
  · split
    · simp
    · split <;> simp [h]

theorem execDallocAttemptReply_kept (p : Packet) (s : State) : Keeps s (execDallocAttemptReply p s) := by
  unfold execDallocAttemptReply
  split <;> simp

theorem execAckResponse_kept (p : Packet) (s : State) : Keeps s (execAckResponse p s) := by simp [execAckResponse]

theorem execDataResponse_kept (p : Packet) (s : State) : Keeps s (execDataResponse p s) := by
  simp only [execDataResponse, keeps_next]
  repeat' split
  all_goals simp

theorem execNakResponse_kept (p : Packet) (s : State) : Keeps s (execNakResponse p s) := by simp [execNakResponse]

theorem execMackResponse_kept (p : Packet) (s : State) : Keeps s (execMackResponse p s) := by simp [execMackResponse]

theorem execFabTimeout_kept (slot : BitVec 22) (s : State) : Keeps s (execFabTimeout slot s) := by
  unfold execFabTimeout
  dsimp only
  split <;> simp

theorem execSlotQuarantineEnd_kept (slot : BitVec 22) (s : State) : Keeps s (execSlotQuarantineEnd slot s) := by
  unfold execSlotQuarantineEnd
  dsimp only
  split <;> simp

end Sys2Proof.Machine
end

section
/-! Version commands, window writes, resets, and every command (08 R295, R324; 14 R477; 15 R505): legal versions stay legal. -/

namespace Sys2Proof.Machine

/-- What a command may do to the queue and the routing versions: the queue stays, and legal versions stay legal. -/
def Lawful (s t : State) : Prop := t.pending = s.pending ∧ (EpochsLegal s → EpochsLegal t)

namespace Lawful

variable {s t u : State}

theorem of_kept (h : t.kept = s.kept) : Lawful s t := by
  simp only [State.kept, Prod.mk.injEq] at h
  obtain ⟨hpending, hverA, hverB, hsrc⟩ := h
  exact ⟨hpending, by simp only [EpochsLegal, State.version, hverA, hverB, hsrc]; exact id⟩

/-- After a reset the versions are INVALID. -/
theorem of_reset (h : t.kept = (s.pending, {}, {}, 0)) : Lawful s t := by
  simp only [State.kept, Prod.mk.injEq] at h
  obtain ⟨hpending, hverA, hverB, hsrc⟩ := h
  exact ⟨hpending, fun _ => by simp [EpochsLegal, State.version, hverA, hverB, hsrc]⟩

theorem refl (s : State) : Lawful s s := ⟨rfl, id⟩

theorem trans (h : Lawful s t) (h' : Lawful t u) : Lawful s u := ⟨h'.1.trans h.1, h'.2 ∘ h.2⟩

theorem ite {c : Prop} [Decidable c] (ht : Lawful s t) (hu : Lawful s u) : Lawful s (if c then t else u) := by
  split <;> assumption

theorem foldl {α : Type} {f : State → α → State} (h : ∀ s x, Lawful s (f s x)) (xs : List α) (s : State) : Lawful s (xs.foldl f s) := by
  induction xs generalizing s with
  | nil => exact .refl s
  | cons x xs ih => exact (h s x).trans (ih _)

end Lawful

@[simp] theorem setVersion_pending (s : State) (v : Nat) (x : Version) : (s.setVersion v x).pending = s.pending := by
  unfold State.setVersion
  split <;> rfl

@[simp] theorem setVersion_srcEpoch (s : State) (v : Nat) (x : Version) : (s.setVersion v x).srcEpoch = s.srcEpoch := by
  unfold State.setVersion
  split <;> rfl

theorem version_setVersion (s : State) {v w : Nat} (hv : v ≤ 1) (hw : w ≤ 1) (x : Version) :
    (s.setVersion v x).version w = if w = v then x else s.version w := by
  obtain rfl | rfl : v = 0 ∨ v = 1 := by omega
  all_goals
    obtain rfl | rfl : w = 0 ∨ w = 1 := by omega
    all_goals rfl

/-- A version in a state of its own, which is not DRAINING where it is the source version. -/
theorem setVersion_lawful (s : State) {v : Nat} {x : Version} (hv : v ≤ 1) (hx : x.st ≤ 2) (hsrc : s.srcEpoch = v → x.st ≠ 2) :
    Lawful s (s.setVersion v x) := by
  refine ⟨setVersion_pending .., fun ⟨hA, hB, hle, hne⟩ => ⟨?_, ?_, by simpa using hle, ?_⟩⟩
  · change ((s.setVersion v x).version 0).st ≤ 2
    rw [version_setVersion s hv (by decide)]
    split
    · exact hx
    · exact hA
  · change ((s.setVersion v x).version 1).st ≤ 2
    rw [version_setVersion s hv (by decide)]
    split
    · exact hx
    · exact hB
  · rw [setVersion_srcEpoch, version_setVersion s hv hle]
    split
    next h => exact hsrc h
    next => exact hne

/-- A version command on version 0 or 1; outside its states it leaves the versions (08 R295, R324). -/
theorem epochCmd_lawful (s : State) (cmd : Nat) {v : Nat} (hv : v ≤ 1) : Lawful s (s.epochCmd cmd v) := by
  unfold State.epochCmd
  dsimp only
  split
  · exact .ite (setVersion_lawful s hv (by simp) (by simp)) (.of_kept rfl)
  · split
    next h => exact ⟨rfl, fun ⟨hA, hB, _, _⟩ => ⟨hA, hB, hv, by simpa [State.version] using h ▸ (by decide : 1 ≠ 2)⟩⟩
    next => exact .of_kept rfl
  · split
    next h => exact setVersion_lawful s hv (by simp) fun hsrc => absurd hsrc h.2
    next => exact .of_kept rfl
  · exact .refl s

/-! The control window (15 R505): each register's write. -/

/-- Every write of a window's registers is lawful. -/
def Win.Lawful (w : Win) : Prop := ∀ s i v, Machine.Lawful s (w.wr s i v)

theorem Win.Lawful.of_kept {w : Win} (h : ∀ s i v, (w.wr s i v).kept = s.kept) : w.Lawful := fun s i v => .of_kept (h s i v)

theorem Win.find_mem {ws : List Win} {o i : Nat} {w : Win} (h : Win.find ws o = some (w, i)) : w ∈ ws := by
  obtain ⟨u, hu, hi⟩ := List.exists_of_findSome?_eq_some h
  obtain ⟨j, -, hj⟩ := Option.map_eq_some_iff.mp hi
  exact (Prod.mk.inj hj).1 ▸ hu

theorem fwsReset_lawful (s : State) (v : BitVec 64) : Lawful s (s.fwsReset v) := .ite (.of_reset s.warmReset_kept) (.refl s)

@[simp] theorem write128_kept (s : State) (o v : Nat) {put : State → Nat → State} (h : ∀ s v, (put s v).kept = s.kept) :
    (s.write128 o v put).kept = s.kept := by
  simp [State.write128, h]

theorem glbWins_kept : ∀ w ∈ glbWins, ∀ s i v, (w.wr s i v).kept = s.kept := by
  simp [glbWins, Win.at_]

theorem platWins_kept : ∀ w ∈ platWins, ∀ s i v, (w.wr s i v).kept = s.kept := by
  simp [platWins, Win.at_, Win.stored]

theorem cmdWins_kept : ∀ w ∈ cmdWins, ∀ s i v, (w.wr s i v).kept = s.kept := by
  simp [cmdWins, Win.at_]

theorem bltWins_kept : ∀ w ∈ bltWins, ∀ s i v, (w.wr s i v).kept = s.kept := by
  simp [bltWins, Win.at_, Win.stored]

theorem prtWins_kept : ∀ w ∈ prtWins, ∀ s i v, (w.wr s i v).kept = s.kept := by
  simp [prtWins, Win.stored]

theorem inkWins_kept : ∀ w ∈ inkWins, ∀ s i v, (w.wr s i v).kept = s.kept := by
  unfold inkWins
  refine List.forall_mem_append.mpr ⟨?_, fun w hpools => ?_⟩
  · simp only [List.forall_mem_cons, Win.at_, Win.stored]
    simp
  obtain ⟨ws, hws, hw⟩ := List.mem_flatten.mp hpools
  obtain ⟨p, -, rfl⟩ := List.mem_map.mp hws
  simp only [List.mem_cons, List.not_mem_nil, or_false] at hw
  rcases hw with rfl | rfl | rfl <;> simp

theorem ckpWins_kept : ∀ w ∈ ckpWins, ∀ s i v, (w.wr s i v).kept = s.kept := by
  simp [ckpWins, Win.at_, Win.stored]

theorem drmWins_kept : ∀ w ∈ drmWins, ∀ s i v, (w.wr s i v).kept = s.kept := by
  simp [drmWins, Win.at_]

theorem ligWins_kept : ∀ w ∈ ligWins, ∀ s i v, (w.wr s i v).kept = s.kept := by
  simp [ligWins, Win.at_, Win.stored]

theorem dlkWins_kept : ∀ w ∈ dlkWins, ∀ s i v, (w.wr s i v).kept = s.kept := by
  simp [dlkWins, Win.at_, Win.stored]

theorem prfWins_kept : ∀ w ∈ prfWins, ∀ s i v, (w.wr s i v).kept = s.kept := by
  simp [prfWins, Win.at_, Win.stored]

theorem tstWins_kept : ∀ w ∈ tstWins, ∀ s i v, (w.wr s i v).kept = s.kept := by
  simp [tstWins, Win.at_]

theorem cluWins_kept (n : Nat) : ∀ w ∈ cluWins n, ∀ s i v, (w.wr s i v).kept = s.kept := by
  simp [cluWins]

/-- The FWS block's registers, but for FWS_RESET. -/
theorem fwsWins_kept : ∀ w ∈ fwsWins, w.base ≠ 0x00400200 → ∀ s i v, (w.wr s i v).kept = s.kept := by
  simp [fwsWins, Win.at_, Win.stored]

theorem fwsWins_reset : ∀ w ∈ fwsWins, w.base = 0x00400200 → ∀ s i v, w.wr s i v = s.fwsReset (w64 v) := by
  simp [fwsWins, Win.at_, Win.stored]

theorem fwsWins_lawful (w : Win) (hw : w ∈ fwsWins) : w.Lawful := by
  by_cases hbase : w.base = 0x00400200
  · exact fun s i v => fwsWins_reset w hw hbase s i v ▸ fwsReset_lawful ..
  · exact .of_kept (fwsWins_kept w hw hbase)

/-- The FAB block's registers, but for FAB_EPOCH_CMD. -/
theorem fabWins_kept : ∀ w ∈ fabWins, w.base ≠ 0x00D00018 → ∀ s i v, (w.wr s i v).kept = s.kept := by
  simp [fabWins, Win.at_, Win.stored]

theorem fabWins_epochCmd : ∀ w ∈ fabWins, w.base = 0x00D00018 → ∀ s i v, w.wr s i v = s.epochCmd (v % 4) (bits v 2 1) := by
  simp [fabWins, Win.at_, Win.stored, oFabNode, oFabFm]

theorem fabWins_lawful (w : Win) (hw : w ∈ fabWins) : w.Lawful := by
  by_cases hbase : w.base = 0x00D00018
  · exact fun s i v => fabWins_epochCmd w hw hbase s i v ▸ epochCmd_lawful s _ (Nat.le_of_lt_succ (Nat.mod_lt _ (by decide)))
  · exact .of_kept (fabWins_kept w hw hbase)

theorem blockWins_lawful (o : Nat) (w : Win) (hw : w ∈ blockWins o) : w.Lawful := by
  unfold blockWins at hw
  split at hw
  · exact .of_kept (glbWins_kept w hw)
  · exact .of_kept (platWins_kept w hw)
  · exact .of_kept (platWins_kept w hw)
  · exact .of_kept (platWins_kept w hw)
  · exact fwsWins_lawful w hw
  · exact fwsWins_lawful w hw
  · exact .of_kept (cmdWins_kept w hw)
  · exact .of_kept (cmdWins_kept w hw)
  · exact .of_kept (bltWins_kept w hw)
  · exact .of_kept (prtWins_kept w hw)
  · exact .of_kept (inkWins_kept w hw)
  · exact .of_kept (ckpWins_kept w hw)
  · exact .of_kept (drmWins_kept w hw)
  · exact fabWins_lawful w hw
  · exact .of_kept (ligWins_kept w hw)
  · exact .of_kept (dlkWins_kept w hw)
  · exact .of_kept (prfWins_kept w hw)
  · exact .of_kept (tstWins_kept w hw)
  · cases hw

/-- A write of any offset of the control window. -/
theorem regWrite_lawful (s : State) (o v : Nat) : Lawful s (s.regWrite o v) := by
  unfold State.regWrite
  split
  · exact .of_kept (State.counterWrite_kept ..)
  · split
    next w i hwin =>
      unfold regWin at hwin
      split at hwin
      · exact Win.Lawful.of_kept (cluWins_kept _ w (Win.find_mem hwin)) s i v
      · exact blockWins_lawful o w (Win.find_mem hwin) s i v
    next => exact .refl s

/-! The commands. -/

/-- A command that answers lawfully. -/
def Lawfully (s : State) (o : Host.Outcome State Fault Refusal) : Prop := ∀ t, o = .next t → Lawful s t

theorem Lawfully.next {s t : State} (h : Lawful s t) : Lawfully s (.next t) := fun _ ht => Host.Outcome.next.inj ht ▸ h

theorem Keeps.lawfully {s : State} {o : Host.Outcome State Fault Refusal} (h : Keeps s o) : Lawfully s o := fun t ht => .of_kept (h t ht)

theorem execEpochLoaded_lawfully (v : BitVec 1) (s : State) : Lawfully s (execEpochLoaded v s) :=
  .next (.ite (.refl s) (epochCmd_lawful s 1 (Nat.le_of_lt_succ v.isLt)))

theorem execEpochFlip_lawfully (v : BitVec 1) (s : State) : Lawfully s (execEpochFlip v s) :=
  .next (.ite (.refl s) (epochCmd_lawful s 2 (Nat.le_of_lt_succ v.isLt)))

theorem execEpochRetire_lawfully (v : BitVec 1) (s : State) : Lawfully s (execEpochRetire v s) :=
  .next (.ite (.refl s) (epochCmd_lawful s 3 (Nat.le_of_lt_succ v.isLt)))

theorem execEpochDrainExpiry_lawfully (v : BitVec 1) (s : State) : Lawfully s (execEpochDrainExpiry v s) := by
  refine .next (.ite (.refl s) ?_)
  have hreach : Lawful s (s.reach ((s.version v.toNat).since + s.drainTicks)) := .of_kept (State.reach_kept ..)
  exact (hreach.trans (setVersion_lawful _ (Nat.le_of_lt_succ v.isLt) (by simp) (by simp))).trans (.of_kept rfl)

theorem execRegisterWrite_lawfully (path : RegPath) (off : BitVec 26) (v : BitVec 64) (s : State) :
    Lawfully s (execRegisterWrite path off v s) := .next (.ite (regWrite_lawful ..) (.refl s))

theorem execI3cPrivateWrite_lawfully (off : BitVec 32) (v : BitVec 64) (s : State) : Lawfully s (execI3cPrivateWrite off v s) :=
  .next (.ite (regWrite_lawful ..) (.refl s))

theorem storeMask_lawful (s : State) (t : HostTarget) (a mask data : Nat) : Lawful s (s.storeMask t a mask data) := by
  unfold State.storeMask
  split
  · exact .of_kept (State.hostRefuse_kept ..)
  · split
    · split
      · exact .ite ((Lawful.of_kept (State.hostReply_kept ..)).trans (regWrite_lawful ..)) (.of_kept (State.hostRefuse_kept ..))
      · exact .of_kept (State.hostRefuse_kept ..)
    · dsimp only
      split
      · refine .ite (.of_kept ?_) (.of_kept (State.hostRefuse_kept ..))
        rw [State.hostReply_kept, State.wakeLine_kept, kept_mk, kept_eta]
      · exact .of_kept (State.hostServe_kept ..)

theorem execStoremask_lawfully (t : HostTarget) (addr : BitVec 64) (mask : BitVec 64) (data : BitVec 512) (s : State) :
    Lawfully s (execStoremask t addr mask data s) := .next (.ite (storeMask_lawful ..) (.refl s))

theorem regwr_lawful (s : State) (k : Packet) : Lawful s (s.regwr k) :=
  .ite (.of_kept (State.agentRefuse_kept ..))
    ((Lawful.foldl (fun s (e : Nat × Nat) => regWrite_lawful s (offOf e.1) e.2) _ s).trans (.of_kept (State.agentAnswer_kept ..)))

theorem execRegwr_lawfully (p : Packet) (s : State) : Lawfully s (execRegwr p s) := by
  have htake : Lawful s (s.take p) := .of_kept (State.take_kept ..)
  exact .next (.ite (.of_kept (State.dropBad_kept ..)) (.ite (htake.trans (.of_kept (State.count_kept ..)))
    (.ite (htake.trans (.of_kept (State.count_kept ..))) (htake.trans (regwr_lawful ..)))))

/-! Resets (14 R477). -/

theorem execPowerOnReset_lawfully (s : State) : Lawfully s (execPowerOnReset s) := .next (.of_reset (s.powerState_kept _))

theorem execAuxSupplyLoss_lawfully (s : State) : Lawfully s (execAuxSupplyLoss s) := .next (.of_reset (s.powerState_kept _))

theorem execPwrGoodAssert_lawfully (s : State) : Lawfully s (execPwrGoodAssert s) := by
  refine .next ?_
  split
  · exact .refl s
  · exact .of_kept rfl
  · exact .refl s
  · exact .of_reset (State.coldReset_kept _)

theorem execColdResetAssert_lawfully (s : State) : Lawfully s (execColdResetAssert s) :=
  .next (.ite (.refl s) (.of_reset s.coldState_kept))

theorem execColdResetL_lawfully (s : State) : Lawfully s (execColdResetL s) :=
  .next (.ite (.refl s) (.ite (.of_reset s.coldReset_kept) (.of_kept rfl)))

theorem execWarmResetL_lawfully (s : State) : Lawfully s (execWarmResetL s) :=
  .next (.ite (.of_reset s.warmReset_kept) (.refl s))

theorem execFwsReset_lawfully (v : BitVec 64) (s : State) : Lawfully s (execFwsReset v s) := .next (fwsReset_lawful s v)

theorem execRailFault_lawfully (rail : BitVec 4) (mv : BitVec 12) (s : State) : Lawfully s (execRailFault rail mv s) :=
  .next (.ite (.refl s) (.ite (.of_kept rfl) (.ite (.of_kept (by simp)) (.of_reset (s.powerState_kept _)))))

/-! Every command, by its row. -/

theorem exec_lawfully (s : State) : ∀ i : Instr, Lawfully s (exec i s)
  | .nop c w => Keeps.lawfully (execNop_kept c w s)
  | .alu c w => Keeps.lawfully (execAlu_kept c w s)
  | .alui c w => Keeps.lawfully (execAlui_kept c w s)
  | .lih c w => Keeps.lawfully (execLih_kept c w s)
  | .ld c w => Keeps.lawfully (execLd_kept c w s)
  | .st c w => Keeps.lawfully (execSt_kept c w s)
  | .br c w => Keeps.lawfully (execBr_kept c w s)
  | .jal c w => Keeps.lawfully (execJal_kept c w s)
  | .jalr c w => Keeps.lawfully (execJalr_kept c w s)
  | .srd c w => Keeps.lawfully (execSrd_kept c w s)
  | .swr c w => Keeps.lawfully (execSwr_kept c w s)
  | .eret c w => Keeps.lawfully (execEret_kept c w s)
  | .brk c w => Keeps.lawfully (execBrk_kept c w s)
  | .trap c w => Keeps.lawfully (execTrap_kept c w s)
  | .ifence c w => Keeps.lawfully (execIfence_kept c w s)
  | .illegalInstruction c w0 w1 => Keeps.lawfully (execIllegalInstruction_kept c w0 w1 s)
  | .cset c w => Keeps.lawfully (execCset_kept c w s)
  | .cadd c w => Keeps.lawfully (execCadd_kept c w s)
  | .crd c w => Keeps.lawfully (execCrd_kept c w s)
  | .cwait c w => Keeps.lawfully (execCwait_kept c w s)
  | .coreWaitTimeout c => Keeps.lawfully (execCoreWaitTimeout_kept c s)
  | .rfence c w => Keeps.lawfully (execRfence_kept c w s)
  | .rld c w => Keeps.lawfully (execRld_kept c w s)
  | .rst c w => Keeps.lawfully (execRst_kept c w s)
  | .ratom c w => Keeps.lawfully (execRatom_kept c w s)
  | .ratomF c w => Keeps.lawfully (execRatomF_kept c w s)
  | .rcas c w => Keeps.lawfully (execRcas_kept c w s)
  | .rmcst c w => Keeps.lawfully (execRmcst_kept c w s)
  | .tdma c w => Keeps.lawfully (execTdma_kept c w s)
  | .tdmaPieceIssue c => Keeps.lawfully (execTdmaPieceIssue_kept c s)
  | .bput c w => Keeps.lawfully (execBput_kept c w s)
  | .bflush c w => Keeps.lawfully (execBflush_kept c w s)
  | .batchWaitExpiry c => Keeps.lawfully (execBatchWaitExpiry_kept c s)
  | .asyncExceptionTake c => Keeps.lawfully (execAsyncExceptionTake_kept c s)
  | .mmaF c w => Keeps.lawfully (execMmaF_kept c w s)
  | .mmaS c w => Keeps.lawfully (execMmaS_kept c w s)
  | .sparsify c w => Keeps.lawfully (execSparsify_kept c w s)
  | .sparsifyT c w => Keeps.lawfully (execSparsifyT_kept c w s)
  | .matrixStreamStart c arr => Keeps.lawfully (execMatrixStreamStart_kept c arr s)
  | .matrixComplete c arr => Keeps.lawfully (execMatrixComplete_kept c arr s)
  | .sparsifyComplete c arr => Keeps.lawfully (execSparsifyComplete_kept c arr s)
  | .vld c w => Keeps.lawfully (execVld_kept c w s)
  | .vst c w => Keeps.lawfully (execVst_kept c w s)
  | .vldx c w => Keeps.lawfully (execVldx_kept c w s)
  | .vstx c w => Keeps.lawfully (execVstx_kept c w s)
  | .vmovx c w => Keeps.lawfully (execVmovx_kept c w s)
  | .viota c w => Keeps.lawfully (execViota_kept c w s)
  | .vfp c w => Keeps.lawfully (execVfp_kept c w s)
  | .vfma c w => Keeps.lawfully (execVfma_kept c w s)
  | .vun c w => Keeps.lawfully (execVun_kept c w s)
  | .vint c w => Keeps.lawfully (execVint_kept c w s)
  | .vcmp c w => Keeps.lawfully (execVcmp_kept c w s)
  | .vsel c w => Keeps.lawfully (execVsel_kept c w s)
  | .vcvt c w => Keeps.lawfully (execVcvt_kept c w s)
  | .vcvtm c w => Keeps.lawfully (execVcvtm_kept c w s)
  | .vred c w => Keeps.lawfully (execVred_kept c w s)
  | .scan c w => Keeps.lawfully (execScan_kept c w s)
  | .smax c w => Keeps.lawfully (execSmax_kept c w s)
  | .topk c w => Keeps.lawfully (execTopk_kept c w s)
  | .sortk c w => Keeps.lawfully (execSortk_kept c w s)
  | .hist c w => Keeps.lawfully (execHist_kept c w s)
  | .vrand c w => Keeps.lawfully (execVrand_kept c w s)
  | .gload c w => Keeps.lawfully (execGload_kept c w s)
  | .gatingGlyphLoad clu => Keeps.lawfully (execGatingGlyphLoad_kept clu s)
  | .gatt c w => Keeps.lawfully (execGatt_kept c w s)
  | .gdrain c w => Keeps.lawfully (execGdrain_kept c w s)
  | .vectorQueueStart c => Keeps.lawfully (execVectorQueueStart_kept c s)
  | .drainGlyphTile c arr => Keeps.lawfully (execDrainGlyphTile_kept c arr s)
  | .dscore c w => Keeps.lawfully (execDscore_kept c w s)
  | .dtopk c w => Keeps.lawfully (execDtopk_kept c w s)
  | .dnorm c w => Keeps.lawfully (execDnorm_kept c w s)
  | .dhist c w => Keeps.lawfully (execDhist_kept c w s)
  | .dscan c w => Keeps.lawfully (execDscan_kept c w s)
  | .dalloc c w => Keeps.lawfully (execDalloc_kept c w s)
  | .dallocAttemptReply p => Keeps.lawfully (execDallocAttemptReply_kept p s)
  | .dsendDispatch c w => Keeps.lawfully (execDsendDispatch_kept c w s)
  | .dsendReturn c w => Keeps.lawfully (execDsendReturn_kept c w s)
  | .dsplit c w => Keeps.lawfully (execDsplit_kept c w s)
  | .dcollect c w => Keeps.lawfully (execDcollect_kept c w s)
  | .dcombineGate c w => Keeps.lawfully (execDcombineGate_kept c w s)
  | .dcombineSeg c w => Keeps.lawfully (execDcombineSeg_kept c w s)
  | .dcancel c w => Keeps.lawfully (execDcancel_kept c w s)
  | .ductusQueueStart clu unit => Keeps.lawfully (execDuctusQueueStart_kept clu unit s)
  | .returnStoreArrival p => Keeps.lawfully (execReturnStoreArrival_kept p s)
  | .inkAlloc => Keeps.lawfully (execInkAlloc_kept s)
  | .inkFree => Keeps.lawfully (execInkFree_kept s)
  | .feAlloc clu => Keeps.lawfully (execFeAlloc_kept clu s)
  | .feRefill clu cls => Keeps.lawfully (execFeRefill_kept clu cls s)
  | .feCreditReturn clu req => Keeps.lawfully (execFeCreditReturn_kept clu req s)
  | .poolEnable p cls => Keeps.lawfully (execPoolEnable_kept p cls s)
  | .poolEnableDone p cls => Keeps.lawfully (execPoolEnableDone_kept p cls s)
  | .poolDrain p cls => Keeps.lawfully (execPoolDrain_kept p cls s)
  | .poolDisable p cls => Keeps.lawfully (execPoolDisable_kept p cls s)
  | .poolReclaim p cls => Keeps.lawfully (execPoolReclaim_kept p cls s)
  | .poolReclaimDone p cls => Keeps.lawfully (execPoolReclaimDone_kept p cls s)
  | .tmvPortStore p => Keeps.lawfully (execTmvPortStore_kept p s)
  | .tmvMove quad => Keeps.lawfully (execTmvMove_kept quad s)
  | .tmvGlyphLoad quad => Keeps.lawfully (execTmvGlyphLoad_kept quad s)
  | .tmvComplete quad => Keeps.lawfully (execTmvComplete_kept quad s)
  | .migrateBlock p gran => Keeps.lawfully (execMigrateBlock_kept p gran s)
  | .streamStage p addr => Keeps.lawfully (execStreamStage_kept p addr s)
  | .promotion p => Keeps.lawfully (execPromotion_kept p s)
  | .dramRefresh ch => Keeps.lawfully (execDramRefresh_kept ch s)
  | .ruledRefresh quad => Keeps.lawfully (execRuledRefresh_kept quad s)
  | .refreshCatchup ch => Keeps.lawfully (execRefreshCatchup_kept ch s)
  | .rldRequest p => Keeps.lawfully (execRldRequest_kept p s)
  | .rstRequest p => Keeps.lawfully (execRstRequest_kept p s)
  | .postedAtomicRequest p => Keeps.lawfully (execPostedAtomicRequest_kept p s)
  | .fetchAddRequest p => Keeps.lawfully (execFetchAddRequest_kept p s)
  | .casRequest p => Keeps.lawfully (execCasRequest_kept p s)
  | .multicastStore p => Keeps.lawfully (execMulticastStore_kept p s)
  | .ackResponse p => Keeps.lawfully (execAckResponse_kept p s)
  | .dataResponse p => Keeps.lawfully (execDataResponse_kept p s)
  | .nakResponse p => Keeps.lawfully (execNakResponse_kept p s)
  | .mackResponse p => Keeps.lawfully (execMackResponse_kept p s)
  | .packetForward p => Keeps.lawfully (execPacketForward_kept p s)
  | .circuitForward p => Keeps.lawfully (execCircuitForward_kept p s)
  | .portEnable port => Keeps.lawfully (execPortEnable_kept port s)
  | .portDisable port => Keeps.lawfully (execPortDisable_kept port s)
  | .retrain port => Keeps.lawfully (execRetrain_kept port s)
  | .trainingComplete port rev => Keeps.lawfully (execTrainingComplete_kept port rev s)
  | .trainingTimeout port => Keeps.lawfully (execTrainingTimeout_kept port s)
  | .alignLock port => Keeps.lawfully (execAlignLock_kept port s)
  | .alignTimeout port => Keeps.lawfully (execAlignTimeout_kept port s)
  | .downRetry port => Keeps.lawfully (execDownRetry_kept port s)
  | .fecLockLost port => Keeps.lawfully (execFecLockLost_kept port s)
  | .fecUeRateExceeded port => Keeps.lawfully (execFecUeRateExceeded_kept port s)
  | .flitSilenceTimeout port => Keeps.lawfully (execFlitSilenceTimeout_kept port s)
  | .dataFlit port hdr slots => Keeps.lawfully (execDataFlit_kept port hdr slots s)
  | .idleFlit port hdr => Keeps.lawfully (execIdleFlit_kept port hdr s)
  | .initFlit port hdr slot1 => Keeps.lawfully (execInitFlit_kept port hdr slot1 s)
  | .nakFlit port hdr => Keeps.lawfully (execNakFlit_kept port hdr s)
  | .crcFailFlit port hdr => Keeps.lawfully (execCrcFailFlit_kept port hdr s)
  | .badLinkHeaderFlit port hdr => Keeps.lawfully (execBadLinkHeaderFlit_kept port hdr s)
  | .epochLoaded v => execEpochLoaded_lawfully v s
  | .epochFlip v => execEpochFlip_lawfully v s
  | .epochRetire v => execEpochRetire_lawfully v s
  | .epochDrainExpiry v => execEpochDrainExpiry_lawfully v s
  | .tdmFrameStart port => Keeps.lawfully (execTdmFrameStart_kept port s)
  | .meshFrameStart clu link => Keeps.lawfully (execMeshFrameStart_kept clu link s)
  | .fabTimeout slot => Keeps.lawfully (execFabTimeout_kept slot s)
  | .slotQuarantineEnd slot => Keeps.lawfully (execSlotQuarantineEnd_kept slot s)
  | .fabStall port vc => Keeps.lawfully (execFabStall_kept port vc s)
  | .lntDataWrite v => Keeps.lawfully (execLntDataWrite_kept v s)
  | .regrd p => Keeps.lawfully (execRegrd_kept p s)
  | .regwr p => execRegwr_lawfully p s
  | .lntwr p => Keeps.lawfully (execLntwr_kept p s)
  | .notice p => Keeps.lawfully (execNotice_kept p s)
  | .teardown p => Keeps.lawfully (execTeardown_kept p s)
  | .jobstart p => Keeps.lawfully (execJobstart_kept p s)
  | .mgmtUnknownSub p => Keeps.lawfully (execMgmtUnknownSub_kept p s)
  | .noticeSend => Keeps.lawfully (execNoticeSend_kept s)
  | .noticeResponse p => Keeps.lawfully (execNoticeResponse_kept p s)
  | .noticeResendTimeout => Keeps.lawfully (execNoticeResendTimeout_kept s)
  | .lopen c w => Keeps.lawfully (execLopen_kept c w s)
  | .lcoll c w => Keeps.lawfully (execLcoll_kept c w s)
  | .lclose c w => Keeps.lawfully (execLclose_kept c w s)
  | .openReport p => Keeps.lawfully (execOpenReport_kept p s)
  | .rankMessage p => Keeps.lawfully (execRankMessage_kept p s)
  | .chunkUp p data => Keeps.lawfully (execChunkUp_kept p data s)
  | .chunkDown p data => Keeps.lawfully (execChunkDown_kept p data s)
  | .ligStall entry input => Keeps.lawfully (execLigStall_kept entry input s)
  | .jobstartGo => Keeps.lawfully (execJobstartGo_kept s)
  | .jobstartTimeout => Keeps.lawfully (execJobstartTimeout_kept s)
  | .heldLaunchRelease p x => Keeps.lawfully (execHeldLaunchRelease_kept p x s)
  | .launch seq => Keeps.lawfully (execLaunch_kept seq s)
  | .copy seq => Keeps.lawfully (execCopy_kept seq s)
  | .fill seq => Keeps.lawfully (execFill_kept seq s)
  | .copyPartEnd seq part => Keeps.lawfully (execCopyPartEnd_kept seq part s)
  | .map seq => Keeps.lawfully (execMap_kept seq s)
  | .unmap seq => Keeps.lawfully (execUnmap_kept seq s)
  | .fence seq => Keeps.lawfully (execFence_kept seq s)
  | .cancelBatch seq => Keeps.lawfully (execCancelBatch_kept seq s)
  | .partCreate seq => Keeps.lawfully (execPartCreate_kept seq s)
  | .partCreateDone p => Keeps.lawfully (execPartCreateDone_kept p s)
  | .dramClearDone => Keeps.lawfully (execDramClearDone_kept s)
  | .partDisable seq => Keeps.lawfully (execPartDisable_kept seq s)
  | .drainLimitExpiry p => Keeps.lawfully (execDrainLimitExpiry_kept p s)
  | .partAbortDone p => Keeps.lawfully (execPartAbortDone_kept p s)
  | .ctxCreate seq => Keeps.lawfully (execCtxCreate_kept seq s)
  | .ctxPrio seq => Keeps.lawfully (execCtxPrio_kept seq s)
  | .ctxPause seq => Keeps.lawfully (execCtxPause_kept seq s)
  | .ctxResume seq => Keeps.lawfully (execCtxResume_kept seq s)
  | .ctxReset seq => Keeps.lawfully (execCtxReset_kept seq s)
  | .ctxDestroy seq => Keeps.lawfully (execCtxDestroy_kept seq s)
  | .checkpoint seq => Keeps.lawfully (execCheckpoint_kept seq s)
  | .restore seq => Keeps.lawfully (execRestore_kept seq s)
  | .query seq => Keeps.lawfully (execQuery_kept seq s)
  | .quantumExpiry p => Keeps.lawfully (execQuantumExpiry_kept p s)
  | .saveComplete p => Keeps.lawfully (execSaveComplete_kept p s)
  | .coreRestoreStart p lclu core => Keeps.lawfully (execCoreRestoreStart_kept p lclu core s)
  | .ruledStartTick p => Keeps.lawfully (execRuledStartTick_kept p s)
  | .loadshare t addr => Keeps.lawfully (execLoadshare_kept t addr s)
  | .loadclaim t addr => Keeps.lawfully (execLoadclaim_kept t addr s)
  | .loadpeek t addr size => Keeps.lawfully (execLoadpeek_kept t addr size s)
  | .storemask t addr mask data => execStoremask_lawfully t addr mask data s
  | .returndirty t addr data => Keeps.lawfully (execReturndirty_kept t addr data s)
  | .returnclean t addr => Keeps.lawfully (execReturnclean_kept t addr s)
  | .hostAtomic t addr cas wide atype operand compare => Keeps.lawfully (execHostAtomic_kept t addr cas wide atype operand compare s)
  | .recallResponse f line dirty data => Keeps.lawfully (execRecallResponse_kept f line dirty data s)
  | .recallTimeout f line => Keeps.lawfully (execRecallTimeout_kept f line s)
  | .hostResponse id status data => Keeps.lawfully (execHostResponse_kept id status data s)
  | .ringService f r rec => Keeps.lawfully (execRingService_kept f r rec s)
  | .completionWrite f r => Keeps.lawfully (execCompletionWrite_kept f r s)
  | .dynerlinkTraining w => Keeps.lawfully (execDynerlinkTraining_kept w s)
  | .ringEnable f r v => Keeps.lawfully (execRingEnable_kept f r v s)
  | .ringDisable f r v => Keeps.lawfully (execRingDisable_kept f r v s)
  | .counterWrite off v => Keeps.lawfully (execCounterWrite_kept off v s)
  | .registerWrite path off v => execRegisterWrite_lawfully path off v s
  | .satWindowEnd util stall => Keeps.lawfully (execSatWindowEnd_kept util stall s)
  | .ckpDue p => Keeps.lawfully (execCkpDue_kept p s)
  | .fwsReset v => execFwsReset_lawfully v s
  | .railFault rail mv => execRailFault_lawfully rail mv s
  | .sensorSample j t => Keeps.lawfully (execSensorSample_kept j t s)
  | .droopDetect mv => Keeps.lawfully (execDroopDetect_kept mv s)
  | .capLoop watts => Keeps.lawfully (execCapLoop_kept watts s)
  | .thermalLoop clu => Keeps.lawfully (execThermalLoop_kept clu s)
  | .avsStatusRead fault mv => Keeps.lawfully (execAvsStatusRead_kept fault mv s)
  | .avsVoltageWrite mv acked readback => Keeps.lawfully (execAvsVoltageWrite_kept mv acked readback s)
  | .domainWake d => Keeps.lawfully (execDomainWake_kept d s)
  | .domainWakeDone d => Keeps.lawfully (execDomainWakeDone_kept d s)
  | .watchdogExpiry x => Keeps.lawfully (execWatchdogExpiry_kept x s)
  | .scribeRestartDone x => Keeps.lawfully (execScribeRestartDone_kept x s)
  | .bootStageComplete fail => Keeps.lawfully (execBootStageComplete_kept fail s)
  | .recoveryData v => Keeps.lawfully (execRecoveryData_kept v s)
  | .updateDone ok image => Keeps.lawfully (execUpdateDone_kept ok image s)
  | .clkTbStep v => Keeps.lawfully (execClkTbStep_kept v s)
  | .dbistDone fails => Keeps.lawfully (execDbistDone_kept fails s)
  | .loopbackDepth j depth => Keeps.lawfully (execLoopbackDepth_kept j depth s)
  | .loopbackRun j bits errs => Keeps.lawfully (execLoopbackRun_kept j bits errs s)
  | .bypass code => Keeps.lawfully (execBypass_kept code s)
  | .i3cPrivateWrite off v => execI3cPrivateWrite_lawfully off v s
  | .i3cPrivateRead off => Keeps.lawfully (execI3cPrivateRead_kept off s)
  | .i3cDynamicAddress a => Keeps.lawfully (execI3cDynamicAddress_kept a s)
  | .flitBuild port => Keeps.lawfully (execFlitBuild_kept port s)
  | .frontEndGrant clu => Keeps.lawfully (execFrontEndGrant_kept clu s)
  | .scribeMemoryUe x => Keeps.lawfully (execScribeMemoryUe_kept x s)
  | .dynerlinkDown => Keeps.lawfully (execDynerlinkDown_kept s)
  | .logRecordWrite => Keeps.lawfully (execLogRecordWrite_kept s)
  | .ckpFail => Keeps.lawfully (execCkpFail_kept s)
  | .powerOnReset => execPowerOnReset_lawfully s
  | .pwrGoodAssert => execPwrGoodAssert_lawfully s
  | .pwrGoodDeassert => Keeps.lawfully (execPwrGoodDeassert_kept s)
  | .coldResetL => execColdResetL_lawfully s
  | .warmResetL => execWarmResetL_lawfully s
  | .pllLockLoss => Keeps.lawfully (execPllLockLoss_kept s)
  | .didtRelease => Keeps.lawfully (execDidtRelease_kept s)
  | .recoveryBegin => Keeps.lawfully (execRecoveryBegin_kept s)
  | .recoveryGo => Keeps.lawfully (execRecoveryGo_kept s)
  | .recoveryAbort => Keeps.lawfully (execRecoveryAbort_kept s)
  | .updateGo => Keeps.lawfully (execUpdateGo_kept s)
  | .dbistGo => Keeps.lawfully (execDbistGo_kept s)
  | .extest => Keeps.lawfully (execExtest_kept s)
  | .idcode => Keeps.lawfully (execIdcode_kept s)
  | .samplePreload => Keeps.lawfully (execSamplePreload_kept s)
  | .ijtag => Keeps.lawfully (execIjtag_kept s)
  | .trstL => Keeps.lawfully (execTrstL_kept s)
  | .rootPllLock => Keeps.lawfully (execRootPllLock_kept s)
  | .coldResetAssert => execColdResetAssert_lawfully s
  | .auxSupplyLoss => execAuxSupplyLoss_lawfully s

/-- Settles O60: each command is lawful, by its row; with no command waiting only the timebase moves. -/
theorem stepKeepsVersionsAndQueue : Obligations.StepKeepsVersionsAndQueue := by
  unfold Obligations.StepKeepsVersionsAndQueue
  intro s t hlegal hstep
  unfold step at hstep
  split at hstep
  next hempty =>
    obtain ⟨hpending, hkeeps⟩ : Lawful s s.tick := .of_kept s.tick_kept
    obtain rfl := Host.Outcome.next.inj hstep
    exact ⟨hkeeps hlegal, by rw [hpending, hempty]; rfl⟩
  next c rest hfront =>
    obtain ⟨hpending, hkeeps⟩ := exec_lawfully _ c t hstep
    exact ⟨hkeeps hlegal, by rw [hpending, hfront]; rfl⟩

end Sys2Proof.Machine
end

section
/-! A request's header words, and the slot an operation takes (08 R282, R317). -/

namespace Sys2Proof.Machine

/-- A field of a word is the quotient by its place, modulo its width. -/
theorem fld_w64 (x lo n : Nat) : fld (w64 x) lo n = x % 2 ^ 64 / 2 ^ lo % 2 ^ n := by
  simp [fld, bits, w64, Nat.shiftRight_eq_div_pow]

theorem testBit_w64 {x i : Nat} {b : Bool} (h : x % 2 ^ 64 / 2 ^ i % 2 = b2n b) : (w64 x).toNat.testBit i = b := by
  cases b <;> simpa [w64, Nat.testBit_eq_decide_div_mod_eq, b2n] using h

theorem b2n_lt_two (b : Bool) : b2n b < 2 := by cases b <;> decide

section
variable (r : RReq) {epoch snode dnode dpart dctx wg slot use job jepoch : Nat}

/-- The first word's fields lie apart: each is below the place of the next one. -/
theorem packet_w0_fields (ht : r.ptype < 16) (hc : r.cls < 4) (he : epoch < 2) (hw : r.words ≤ 32) (hd : dnode < 2 ^ 16)
    (hs : snode < 2 ^ 16) :
    let k := r.packet epoch snode dnode dpart dctx wg slot use job jepoch
    k.ptype = r.ptype ∧ k.cls = r.cls ∧ k.epoch = epoch ∧ k.ext = r.ext ∧ k.slots = r.slots ∧ k.dnode = dnode ∧
    k.snode = snode ∧ k.hops = 0 := by
  have hext := b2n_lt_two r.ext
  obtain ⟨m, hm, hslots⟩ : ∃ m, m < 32 ∧ r.slots = m + 1 :=
    ⟨1 + b2n r.ext + (r.words + 1) / 2, by omega, by unfold RReq.slots; omega⟩
  simp only [Packet.ptype, Packet.cls, Packet.epoch, Packet.ext, Packet.slots, Packet.dnode, Packet.snode, Packet.hops,
    RReq.packet, fld_w64, hslots, Nat.add_sub_cancel]
  refine ⟨?_, ?_, ?_, testBit_w64 ?_, ?_, ?_, ?_, ?_⟩ <;> omega

theorem packet_w1_fields (ho : r.off < 2 ^ 48) (hsp : r.space < 4) (ha : r.atype < 4) (hop : r.aop < 4) (hsz : r.size < 32) :
    let k := r.packet epoch snode dnode dpart dctx wg slot use job jepoch
    k.offset = r.off ∧ k.space = r.space ∧ k.atype = r.atype ∧ k.aop = r.aop ∧ k.size = 8 * (r.size + 1) ∧ k.nt = r.nt ∧
    k.comb = r.comb := by
  have hnt := b2n_lt_two r.nt
  have hcomb := b2n_lt_two r.comb
  simp only [Packet.offset, Packet.space, Packet.atype, Packet.aop, Packet.size, Packet.nt, Packet.comb, RReq.packet, fld_w64]
  refine ⟨?_, ?_, ?_, ?_, ?_, testBit_w64 ?_, testBit_w64 ?_⟩ <;> omega

theorem packet_w2_fields (hp : dpart < 16) (hx : dctx < 8) (hw : wg < 16) (hn : r.ncnt < 64) (hco : r.ncore < 64)
    (hcl : r.nclu < 64) (hci : r.circ < 2 ^ 12) (ht : r.tree < 2 ^ 10) :
    let k := r.packet epoch snode dnode dpart dctx wg slot use job jepoch
    k.dpart = dpart ∧ k.dctx = dctx ∧ k.wgrp = wg ∧ k.ncnt = r.ncnt ∧ k.ncore = r.ncore ∧ k.nclu = r.nclu ∧ k.circ = r.circ ∧
    k.tree = r.tree := by
  simp only [Packet.dpart, Packet.dctx, Packet.wgrp, Packet.ncnt, Packet.ncore, Packet.nclu, Packet.circ, Packet.tree,
    RReq.packet, fld_w64]
  omega

theorem packet_w3_fields (hs : slot < 2 ^ 22) (hu : use < 2 ^ 10) (hj : job < 2 ^ 16) (he : jepoch < 2 ^ 16) :
    let k := r.packet epoch snode dnode dpart dctx wg slot use job jepoch
    k.slot = slot ∧ k.use = use ∧ k.job = job ∧ k.jepoch = jepoch := by
  simp only [Packet.slot, Packet.use, Packet.job, Packet.jepoch, RReq.packet, fld_w64]
  omega

end

theorem requestHeaderFields : Claims.RequestHeaderFields := by
  intro r epoch snode dnode dpart dctx wg slot use job jepoch ht hc he hw hd hs ho hsp ha hop hsz hp hx hwg hn hco hcl hci htr
    hsl hu hj hje k
  obtain ⟨ptype, cls, epoch, ext, slots, dnode, snode, hops⟩ := packet_w0_fields r ht hc he hw hd hs
  obtain ⟨offset, space, atype, aop, size, nt, comb⟩ := packet_w1_fields r ho hsp ha hop hsz
  obtain ⟨dpart, dctx, wgrp, ncnt, ncore, nclu, circ, tree⟩ := packet_w2_fields r hp hx hwg hn hco hcl hci htr
  obtain ⟨slot, use, job, jepoch⟩ := packet_w3_fields r hsl hu hj hje
  exact ⟨ptype, cls, epoch, ext, slots, dnode, snode, hops, offset, space, atype, aop, size, nt, comb, dpart, dctx, wgrp, ncnt,
    ncore, nclu, circ, tree, slot, use, job, jepoch⟩

/-- The search passes over used slots only, each of them once: all that is left of the used ones beyond the slot found is
shorter than the search. -/
theorem freeSlotGo_not_mem (used : List Nat) : ∀ n i, (used.filter (i ≤ ·)).length ≤ n → freeSlotGo used n i ∉ used
  | 0, i, h => fun hi => by
    have hnil := List.eq_nil_of_length_eq_zero (Nat.le_zero.mp h)
    exact List.not_mem_nil (hnil ▸ List.mem_filter.mpr ⟨hi, decide_eq_true (Nat.le_refl i)⟩)
  | n + 1, i, h => by
    unfold freeSlotGo
    split
    case isFalse hi => simpa using hi
    case isTrue hi =>
      have hmem : i ∈ used.filter (i ≤ ·) := List.mem_filter.mpr ⟨by simpa using hi, by simp⟩
      have hlater : used.filter (i + 1 ≤ ·) = (used.filter (i ≤ ·)).filter (· ≠ i) := by
        rw [List.filter_filter]
        exact List.filter_congr fun j _ => by grind
      have hfewer : (used.filter (i + 1 ≤ ·)).length < (used.filter (i ≤ ·)).length := by
        rw [hlater]
        exact List.length_filter_lt_length_iff_exists.mpr ⟨i, hmem, by simp⟩
      exact freeSlotGo_not_mem used n (i + 1) (by omega)

theorem tget_eq_none_of_not_mem {V : Type} {t : Tbl V} {k : Nat} (h : k ∉ t.map Prod.fst) : tget t k = none := by
  induction t with
  | nil => rfl
  | cons e t ih =>
    obtain ⟨hne, hrest⟩ := by simpa only [List.map_cons, List.mem_cons, not_or] using h
    simp only [tget, if_neg (Ne.symm hne), ih hrest]

theorem slotTakenIsFree : Claims.SlotTakenIsFree := fun s => by
  have hfree : s.freeSlot ∉ s.ops.map Prod.fst ++ s.quar.map Prod.fst :=
    freeSlotGo_not_mem _ _ 0 (List.length_filter_le ..)
  rw [List.mem_append, not_or] at hfree
  exact ⟨tget_eq_none_of_not_mem hfree.1, tget_eq_none_of_not_mem hfree.2⟩

/-- Settles O8: a header word's fields are the digits of a number in mixed radix, and the search for a slot cannot run out of
steps. -/
theorem requestHeaders : Obligations.RequestHeaders := ⟨requestHeaderFields, slotTakenIsFree⟩

end Sys2Proof.Machine
end

section
/-! The router (08 R293-R296, R300, R305, R312): what a packet's next hop keeps of its header, and what a router's choice reads. -/

namespace Sys2Proof.Machine

/-- A field apart from the one replaced. -/
theorem fld_putFld_apart {w : W64} {lo n lo' n' : Nat} (h : lo' + n' ≤ lo ∨ lo + n ≤ lo') (hfit : lo' + n' ≤ 64) (x : Nat) :
    fld (putFld w lo n x) lo' n' = fld w lo' n' := by
  simp only [fld, putFld, w64, BitVec.toNat_ofNat]
  rw [bits_mod64 hfit, bits_setBits_apart h]

section
variable (k : Packet)

/-! A header word's fields do not depend on the other words. Stated for any first word: the kernel then never compares a word with its own update. -/

theorem Packet.fields_of_w0 (w : W64) : ({ k with w0 := w } : Packet).slot = k.slot ∧ ({ k with w0 := w } : Packet).use = k.use ∧
    ({ k with w0 := w } : Packet).aop = k.aop ∧ ({ k with w0 := w } : Packet).nt = k.nt := ⟨rfl, rfl, rfl, rfl⟩

theorem Packet.isReq_of_ptype {j k : Packet} (h : j.ptype = k.ptype) : j.isReq = k.isReq := by simp only [Packet.isReq, h]

theorem Packet.combines_of_fields {j k : Packet} (ht : j.ptype = k.ptype) (ho : j.aop = k.aop) (hn : j.nt = k.nt) (hc : j.cls = k.cls) :
    j.combines = k.combines := by simp only [Packet.combines, ht, ho, hn, hc]

theorem State.opOf_of_fields {j k : Packet} (hn : j.snode = k.snode) (hs : j.slot = k.slot) (hu : j.use = k.use) (s : State) :
    s.opOf j = s.opOf k := by simp only [State.opOf, hn, hs, hu]

theorem Packet.hop_w0 : k.hop.w0 = putFld k.w0 48 8 (k.hops + 1) := rfl

theorem Packet.fld_hop_w0 {lo n : Nat} (h : lo + n ≤ 48) : fld k.hop.w0 lo n = fld k.w0 lo n := by
  rw [hop_w0, fld_putFld_apart (.inl h) (by omega)]

theorem Packet.hop_ptype : k.hop.ptype = k.ptype := fld_hop_w0 k (by decide)
theorem Packet.hop_cls : k.hop.cls = k.cls := fld_hop_w0 k (by decide)
theorem Packet.hop_snode : k.hop.snode = k.snode := fld_hop_w0 k (by decide)

@[simp] theorem Packet.hop_isReq : k.hop.isReq = k.isReq := isReq_of_ptype (hop_ptype k)

@[simp] theorem Packet.hop_combines : k.hop.combines = k.combines :=
  have ⟨_, _, ho, hn⟩ := fields_of_w0 k (putFld k.w0 48 8 (k.hops + 1))
  combines_of_fields (hop_ptype k) ho hn (hop_cls k)

@[simp] theorem State.opOf_hop (s : State) : s.opOf k.hop = s.opOf k :=
  have ⟨hs, hu, _, _⟩ := Packet.fields_of_w0 k (putFld k.w0 48 8 (k.hops + 1))
  opOf_of_fields (Packet.hop_snode k) hs hu s

@[simp] theorem State.ofRuled_hop (s : State) : s.ofRuled k.hop = s.ofRuled k := by simp [State.ofRuled, State.ruledOp]

end

/-! A packet that is taken leaves the ports in their states. -/

theorem KeepsPorts.payCredit {s t : State} (h : KeepsPorts s t) (k : Packet) : KeepsPorts s (t.payCredit k) := by
  unfold State.payCredit
  split
  · exact h
  · rename_i o _
    have howed : KeepsPorts s (t.owe o.port o.vc o.n) := h.setPort rfl
    exact ⟨howed.st, howed.reg⟩

theorem KeepsPorts.unloadGo (n : Nat) (k : Packet) (i : Nat) {s t : State} (h : KeepsPorts s t) :
    KeepsPorts s (unloadGo n k i t) := by
  induction i generalizing t with
  | zero => exact h
  | succ i ih =>
    rw [Machine.unloadGo]
    split
    · refine ih ?_
      unfold State.serveMesh
      dsimp only
      split
      · exact h
      · exact ⟨h.st, h.reg⟩
    · exact h

theorem KeepsPorts.take (s : State) (k : Packet) : KeepsPorts s (s.take k) := by
  have hunload : KeepsPorts s (s.unload k) := by
    unfold State.unload
    split
    · exact .unloadGo _ _ _ (.refl s)
    · exact .refl s
  have hpaid := hunload.payCredit k
  exact ⟨hpaid.st, hpaid.reg⟩

section
variable (s : State) (k : Packet)

@[simp] theorem State.take_version (v : Nat) : (s.take k).version v = s.version v := take_reads (·.version v) (fun _ => rfl) s k
@[simp] theorem State.take_routeOf (v n : Nat) : (s.take k).routeOf v n = s.routeOf v n :=
  take_reads (·.routeOf v n) (fun _ => rfl) s k
@[simp] theorem State.take_ofRuled (j : Packet) : (s.take k).ofRuled j = s.ofRuled j :=
  take_reads (·.ofRuled j) (fun _ => rfl) s k

@[simp] theorem State.take_portUp (n : Nat) : (s.take k).portUp n = s.portUp n := by
  simp only [State.portUp, (KeepsPorts.take s k).st n]

@[simp] theorem State.take_outPort (j : Packet) : (s.take k).outPort j = s.outPort j := by
  simp only [State.outPort, take_routeOf, take_portUp]

/-- Where no memory is in error, an entry is read as it is. -/
theorem State.eccAt_of_no_upsets {t : State} (h : t.upsets = []) (x : ErrAt) : t.eccAt x = t := by simp [State.eccAt, h]

end

/-! The routing table. -/

section
variable {s : State} {k : Packet} {inp : Nat}

theorem route_of_invalid (hver : (s.version k.epoch).st = 0) : s.route_ k inp = s.count 0x0412 := if_pos hver

theorem route_of_last_hop (hver : (s.version k.epoch).st ≠ 0) (hhops : 63 ≤ k.hops) : s.route_ k inp = s.count 0x0414 :=
  (if_neg hver).trans (if_pos (by omega))

theorem route_of_no_port (hver : (s.version k.epoch).st ≠ 0) (hhops : k.hops < 63) (hout : s.outPort k = none)
    (hupsets : s.upsets = []) : s.route_ k inp = s.count 0x0413 := by
  refine (if_neg hver).trans ((if_neg (by omega)).trans ?_)
  rw [hout]
  exact congrArg (State.count · 0x0413) (State.eccAt_of_no_upsets hupsets _)

theorem route_of_port {n : Nat} (hver : (s.version k.epoch).st ≠ 0) (hhops : k.hops < 63) (hout : s.outPort k = some n) :
    s.route_ k inp = s.enterQueue n k.hop inp := by
  refine (if_neg hver).trans ((if_neg (by omega)).trans ?_)
  rw [hout]

/-- A packet that is no Ruled operation of this device joins an ADD that waits, or enters the queue. -/
theorem enterQueue_of_free (n : Nat) (hfree : s.ofRuled k = false) :
    s.enterQueue n k inp = match (if k.combines then s.findJoin k (s.outQueue n) else none) with
      | some q => s.joinAt n q k
      | none => s.enqueuePort n k inp none := by
  unfold State.enterQueue
  simp only [hfree, Bool.not_false, Bool.and_true] <;> rfl

end

/-! Circuits. -/

section
variable {s : State} {k : Packet} {inp : Nat}

theorem onEntry_of_up {c : Nat} {e : BitVec 128} (hhops : k.hops < 63) (hport : ciOUT e < 16) (hup : s.portUp (ciOUT e) = true) :
    s.onEntry k c e inp =
      s.enqueuePort (ciOUT e) ({ k with w2 := putFld k.w2 30 12 (ciNEXT e) } : Packet).hop inp (some c) :=
  (if_neg (by omega)).trans ((if_neg (by omega)).trans (if_neg (by simp [hup]; omega)))

/-- A C1 request of another node. -/
theorem circuit_of_foreign (hsrc : k.snode ≠ s.pnode) (hupsets : s.upsets = []) :
    s.circuit_ k = if ciVALID (s.circOf k.circ) then (s.take k).onEntry k k.circ (s.circOf k.circ) (s.inputOf k)
      else (s.take k).count 0x0419 := by
  have hecc : (s.take k).eccAt (.circ k.circ) = s.take k := State.eccAt_of_no_upsets (by rw [State.take_upsets, hupsets]) _
  unfold State.circuit_
  simp only [if_neg hsrc, hecc]
  cases ciVALID (s.circOf k.circ) <;> rfl

end

/-! Forwarding. -/

section
variable {s : State} {k : Packet} (hmay : s.mayTake k = true) (hbad : k.bad = false) (hmcast : k.ptype ≠ 6) (hmack : k.ptype ≠ 0xB)
  (htree : k.onTree = false) (hnode : s.nodeValid = true) (hdst : k.dnode ≠ s.pnode)
include hmay hbad hmcast hmack htree hnode hdst

/-- A well-formed packet for another node, in its turn, goes by a circuit or by the routing table. -/
theorem forward_of_elsewhere : s.forward k =
    if k.isReq && k.cls == 1 then s.circuit_ k
    else if s.ofRuled k then (s.take k).answer k 0xA cFABNOCIRC 0 0 else (s.take k).route_ k (s.inputOf k) := by
  unfold State.forward
  rw [if_neg (by simp [hmay]), if_neg (by simp [hbad]), if_neg (by simp [hmcast, hmack, htree]), if_neg (by simp [hnode]), if_neg hdst]

theorem exec_packetForward_routed (hon : On s) (hmgmt : s.mgmtOut = []) (hclass : k.cls ≠ 1 ∨ k.isReq = false)
    (hfree : s.ofRuled k = false) : exec (.packetForward k) s = .next ((s.take k).route_ k (s.inputOf k)) := by
  have hplain : ¬(k.isReq && k.cls == 1) = true := by rcases hclass with h | h <;> simp [h]
  refine congrArg Host.Outcome.next ((if_neg (not_not_intro hon)).trans ((if_neg (by simp [hmgmt])).trans ?_))
  rw [forward_of_elsewhere hmay hbad hmcast hmack htree hnode hdst, if_neg hplain, if_neg (by simp [hfree])]

theorem exec_circuitForward_foreign (hreq : k.isReq = true) (hcls : k.cls = 1) (hsrc : k.snode ≠ s.pnode) (hupsets : s.upsets = []) :
    exec (.circuitForward k) s =
      .next (if ciVALID (s.circOf k.circ) then (s.take k).onEntry k k.circ (s.circOf k.circ) (s.inputOf k)
        else (s.take k).count 0x0419) := by
  refine congrArg Host.Outcome.next ((if_neg (by simp [hbad])).trans ((if_pos (by simp [hreq, hcls, hdst])).trans ?_))
  rw [forward_of_elsewhere hmay hbad hmcast hmack htree hnode hdst, if_pos (by simp [hreq, hcls]), circuit_of_foreign hsrc hupsets]

end

theorem routing_clauses : Claims.Routing := by
  intro s k hon hmay hbad hmcast hmack htree hnode hdst hmgmt hupsets
  have hupsets' : (s.take k).upsets = [] := by rw [State.take_upsets, hupsets]
  refine ⟨fun hclass hfree => ?_, fun hreq hcls hsrc hhops => ?_⟩
  · intro t
    have hver : (t.version k.epoch).st = (s.version k.epoch).st := by rw [State.take_version]
    have hout : t.outPort k = s.outPort k := State.take_outPort s k k
    rw [exec_packetForward_routed hmay hbad hmcast hmack htree hnode hdst hon hmgmt hclass hfree, ← hver, ← hout]
    refine ⟨fun hinvalid => ?_, fun hvalid hhops => ?_, fun hvalid hhops hnone => ?_, fun n hvalid hhops hsome => ?_⟩
    · rw [route_of_invalid hinvalid]
    · rw [route_of_last_hop hvalid hhops]
    · rw [route_of_no_port hvalid hhops hnone hupsets']
    · have hfree' : t.ofRuled k.hop = false := by rw [State.ofRuled_hop, State.take_ofRuled, hfree]
      rw [route_of_port hvalid hhops hsome, enterQueue_of_free n hfree', Packet.hop_combines] <;> rfl
  · rw [exec_circuitForward_foreign hmay hbad hmcast hmack htree hnode hdst hreq hcls hsrc hupsets]
    refine ⟨fun hvalid hport hup => ?_, fun hinvalid => ?_⟩
    · rw [if_pos hvalid, onEntry_of_up hhops hport (by rw [State.take_portUp, hup])]
    · rw [if_neg (by rw [hinvalid]; decide)]

/-- R294: the choice between two ports, by which of them are up. -/
theorem outPortIsValid : Claims.OutPortIsValid := by
  intro s k n hout
  unfold State.outPort at hout
  dsimp only at hout ⊢
  generalize s.routeOf k.epoch k.dnode = e at hout ⊢
  split_ifs at hout <;> simp_all

/-- Settles O33: what each check of the router leaves to do, with the ports as they were when the packet came. -/
theorem routing : Obligations.Routing := ⟨routing_clauses, outPortIsValid⟩

end Sys2Proof.Machine
end

section
/-! Flits that a fabric port receives (08 R273, R275-R280), by the state of the port and the type of the flit. -/

namespace Sys2Proof.Machine

theorem port_of_fixtures {s t : State} (h : t.fixtures = s.fixtures) (n : Nat) : t.port n = s.port n := by
  have hports : t.ports = s.ports := congrArg (fun x => x.2.1) h
  rw [State.port, hports, State.port]

section
variable {s : State} {n : Nat} {h : BitVec 64}

/-- A whole flit at a port that has a link is taken by its type. -/
theorem flitIn_taken (hon : On s) (hlink : (s.port n).st = .init ∨ (s.port n).st = .up) (hgood : fhBad h = false)
    (slots : List Slot) : s.flitIn n h slots =
      if fhTYPE h = 0 then s.dataIn n h slots
      else if fhTYPE h = 1 then s.setPort n (((s.port n).takeAck (fhACK h)).takeCredit (fhCVC h) (fhCCNT h))
      else if fhTYPE h = 2 then s.initIn n h ((slots.head?.map Slot.w).getD 0)
      else s.nakIn n h := by
  have hpower : s.plat.power = .running := hon
  unfold State.flitIn
  dsimp only
  rw [if_neg (by rcases hlink with hst | hst <;> simp [hpower, hst]), if_neg (by simp [hgood])]
  split <;> simp_all

theorem flitIn_refused (hon : On s) (hst : (s.port n).st = .up) (hbad : fhBad h = true) (slots : List Slot) :
    s.flitIn n h slots = ((s.setPort n { s.port n with nakDue := true }).count 0x041B).retryFails n := by
  have hpower : s.plat.power = .running := hon
  unfold State.flitIn
  dsimp only
  rw [if_neg (by simp [hpower, hst]), if_pos hbad]

theorem dataIn_out_of_sequence (hst : (s.port n).st = .up) (hseq : fhSEQ h ≠ (s.port n).rxNext) (slots : List Slot) :
    s.dataIn n h slots = s.setPort n { s.port n with nakDue := true } :=
  (if_neg (not_not_intro hst)).trans (if_pos hseq)

theorem dataIn_in_sequence (hst : (s.port n).st = .up) (hseq : fhSEQ h = (s.port n).rxNext) (slots : List Slot) :
    s.dataIn n h slots = ((slots.take 15).zip (List.range 15)).foldl (fun t x => t.slotIn n (bit (fhSOP h) x.2) x.1)
      (s.setPort n { ((s.port n).takeAck (fhACK h)).takeCredit (fhCVC h) (fhCCNT h) with
        rxNext := ((s.port n).rxNext + 1) % 4096, retries := 0 }) :=
  (if_neg (not_not_intro hst)).trans (if_neg (not_not_intro hseq))

/-- A NAK, with the port's throttle stated by what is left to send again. -/
theorem nakIn_eq (s : State) (n : Nat) (h : BitVec 64) :
    s.nakIn n h =
      let acked := ((s.port n).takeAck (fhACK h)).takeCredit (fhCVC h) (fhCCNT h)
      let f := acked.failed + b2n (acked.resent && !acked.retry.isEmpty)
      let s1 := s.setPort n { acked with replay := acked.retry, failed := f, resent := false }
      let s2 := if acked.retry = [] then s1 else s1.portThrottle n
      if f + acked.retries ≥ 8 then s2.portDown n 2 else s2 := by
  simp only [State.nakIn, List.isEmpty_iff]

/-- A retry that fails, but is not the eighth in succession. -/
theorem retryFails_counted (hretries : (s.port n).failed + (s.port n).retries < 7) :
    s.retryFails n = s.setPort n { s.port n with retries := (s.port n).retries + 1 } :=
  if_neg (by simp; omega)

end

/-! INIT. -/

/-- The credits that an INIT flit grants. -/
def initCredit (x : BitVec 128) (c : Tbl Nat) : Tbl Nat :=
  (List.range 8).foldl (fun c i => tput c i (fld x (32 + 12 * i) 12)) c

theorem tgetD_foldl_tput {V : Type} (f : Nat → V) (v : Nat) (d : V) (xs : List Nat) (c : Tbl V) :
    tgetD (xs.foldl (fun c i => tput c i (f i)) c) v d = if v ∈ xs then f v else tgetD c v d := by
  induction xs generalizing c with
  | nil => rfl
  | cons x xs ih =>
    rw [List.foldl_cons, ih]
    by_cases hin : v ∈ xs
    · rw [if_pos hin, if_pos (List.mem_cons_of_mem x hin)]
    · by_cases hx : v = x
      · simp [hx]
      · rw [tgetD_tput_ne _ _ _ hx]
        simp [hin, hx]

theorem tgetD_initCredit (x : BitVec 128) (c : Tbl Nat) {v : Nat} (hv : v < 8) :
    tgetD (initCredit x c) v 0 = fld x (32 + 12 * v) 12 :=
  (tgetD_foldl_tput (fun i => fld x (32 + 12 * i) 12) v 0 _ c).trans (if_pos (List.mem_range.mpr hv))

theorem tgetD_tput_add (c : Tbl Nat) (w m v : Nat) :
    tgetD (tput c w (tgetD c w 0 + m)) v 0 = tgetD c v 0 + if v = w then m else 0 := by
  by_cases hv : v = w
  · rw [hv, tgetD_tput_self, if_pos rfl]
  · rw [tgetD_tput_ne _ _ _ hv, if_neg hv, Nat.add_zero]

/-- The port with what an INIT flit tells of its partner. -/
def Port.inited (p : Port) (h : BitVec 64) (x : BitVec 128) : Port :=
  { p.takeAck (fhACK h) with
    pnode := fld x 0 16, pvalid := x.toNat.testBit 16, pport := fld x 24 4, initRcvd := true
    credit := tput (initCredit x p.credit) (fhCVC h) (tgetD (initCredit x p.credit) (fhCVC h) 0 + fhCCNT h) }

theorem initIn_of_init {s : State} {n : Nat} (hst : (s.port n).st = .init) (h : BitVec 64) (x : BitVec 128) :
    s.initIn n h x = (s.setPort n ((s.port n).inited h x)).initDone n :=
  if_neg (not_not_intro hst)

/-- The port that comes UP, when both ends' INIT have passed. -/
def Port.linked (p : Port) (now : Nat) : Port :=
  { p with st := .up, since := now, txSeq := 0, rxNext := 0, retries := 0, failed := 0, resent := false, nakDue := false }

theorem port_initDone (s : State) (n : Nat) : (s.initDone n).port n =
    if (s.port n).initSent && (s.port n).initRcvd && (s.port n).st == .init then (s.port n).linked s.now else s.port n := by
  unfold State.initDone
  dsimp only
  split
  · rw [port_of_fixtures (State.logEvent_fixtures ..), port_of_fixtures (State.count_fixtures ..), State.port_setPort]
    rfl
  · rfl

/-- What an INIT flit leaves of its port, whether or not the link is then up. -/
theorem initIn_port {s : State} {n : Nat} (hst : (s.port n).st = .init) (h : BitVec 64) (x : BitVec 128) :
    (s.initIn n h x).port n =
      if (s.port n).initSent then ((s.port n).inited h x).linked s.now else (s.port n).inited h x := by
  have hsent : ((s.port n).inited h x).initSent = (s.port n).initSent := rfl
  have hrcvd : ((s.port n).inited h x).initRcvd = true := rfl
  have hstill : ((s.port n).inited h x).st = .init := hst
  rw [initIn_of_init hst, port_initDone, State.port_setPort, hsent, hrcvd, hstill]
  cases (s.port n).initSent <;> rfl

theorem fhCVC_lt (h : BitVec 64) : fhCVC h < 8 := Nat.mod_lt _ (by decide)

theorem flitsReceived : Claims.FlitsReceived := by
  intro s port h hon n p acked
  refine ⟨fun hst => ⟨?discard, ?accept, ?idle, ?nak, ?crc, ?header⟩, ?init, ?dynerLink⟩
  case discard =>
    intro slots hgood hty hseq
    refine congrArg Host.Outcome.next ((flitIn_taken hon (.inr hst) hgood slots).trans ((if_pos hty).trans ?_))
    exact dataIn_out_of_sequence hst hseq slots
  case accept =>
    intro slots hgood hty hseq
    refine congrArg Host.Outcome.next ((flitIn_taken hon (.inr hst) hgood slots).trans ((if_pos hty).trans ?_))
    exact dataIn_in_sequence hst hseq slots
  case idle =>
    intro hgood hty
    exact congrArg Host.Outcome.next ((flitIn_taken hon (.inr hst) hgood []).trans ((if_neg (by omega)).trans (if_pos hty)))
  case nak =>
    intro q hq hgood hty f s1 s2
    have hlt : q.toNat < 16 := hq ▸ port.isLt
    have hnak : exec (.nakFlit q h) s = .next (s.nakIn n h) := by
      refine congrArg Host.Outcome.next ((if_pos hlt).trans ?_)
      rw [hq, flitIn_taken hon (.inr hst) hgood [], if_neg (by omega), if_neg (by omega), if_neg (by omega)]
    rw [hnak, nakIn_eq]
    exact ⟨fun hfew => congrArg Host.Outcome.next (if_neg (Nat.not_le.mpr hfew)), fun hmany => congrArg Host.Outcome.next (if_pos hmany)⟩
  case crc =>
    intro hty
    have hpower : s.plat.power = .running := hon
    exact congrArg Host.Outcome.next (if_pos (by simp [hpower, hty]; exact hst))
  case header =>
    intro hbad hretries
    refine ⟨_, congrArg Host.Outcome.next (flitIn_refused hon hst hbad []), ?_⟩
    have hcounted : ((s.setPort n { p with nakDue := true }).count 0x041B).port n = { p with nakDue := true } :=
      (port_of_fixtures (State.count_fixtures ..) n).trans (State.port_setPort ..)
    rw [retryFails_counted (by rw [hcounted]; exact hretries), State.port_setPort, hcounted]
  case init =>
    intro slot1 hst hgood hty
    refine ⟨s.initIn n h slot1, ?_, ?_⟩
    · exact congrArg Host.Outcome.next
        ((flitIn_taken hon (.inl hst) hgood _).trans ((if_neg (by omega)).trans ((if_neg (by omega)).trans (if_pos hty))))
    · have hcredit : ∀ v, v < 8 → tgetD (p.inited h slot1).credit v 0 =
          fld slot1 (32 + 12 * v) 12 + (if v = fhCVC h then fhCCNT h else 0) := fun v hv => by
        rw [← tgetD_initCredit slot1 p.credit hv]
        exact tgetD_tput_add ..
      rw [initIn_port hst]
      change (ite (p.initSent = true) _ _ : Port).st = _ ∧ _
      cases p.initSent
      · exact ⟨hst, rfl, rfl, rfl, hcredit⟩
      · exact ⟨rfl, rfl, rfl, rfl, hcredit⟩
  case dynerLink =>
    intro hup
    exact congrArg Host.Outcome.next ((if_neg (by decide)).trans (if_pos ⟨by decide, hon, hup⟩))

end Sys2Proof.Machine
end

section
/-! Flits that a fabric port sends (08 R276-R278, R287, R302, R303): what fills a DATA flit, its header, and the next flit by what the
port holds. -/

namespace Sys2Proof.Machine

/-! A slot that its owner missed leaves the ports alone. -/

theorem State.missed_fixtures (s : State) (n : Nat) (p : Port) (owner : Option Nat) : (s.missed n p owner).fixtures = s.fixtures := by
  unfold State.missed
  split
  · rfl
  · dsimp only
    split
    · exact State.throttled_fixtures ..
    · rfl

/-! Filling a flit. -/

/-- What a port keeps of the flits it has sent. -/
def Port.sent (p : Port) : List Flit × List Flit × Nat := (p.tx, p.retry, p.txSeq)

/-- Slots that fill a flit leave the flits sent before it. -/
theorem fillFlit_sent (weights shares : Tbl Nat) (ready : List QEnt) (owner : Option Nat) (n : Nat) (p : Port) (l : List (Slot × Bool)) :
    (fillFlit weights shares ready owner n p l).1.sent = p.sent := by
  induction n generalizing p l with
  | zero => rfl
  | succ n ih =>
    unfold fillFlit
    dsimp only
    split
    · rfl
    · rw [ih]
      rfl

theorem cands_nil {p : Port} (hq : p.outq = []) (hpart : p.partial_ = []) (ready : List QEnt) : p.cands ready = [] := by
  simp [Port.cands, hq, hpart]

theorem turn_nil (p : Port) : p.turn [] = none := rfl

/-- Where nothing waits, nothing is picked. -/
theorem pick_nil (p : Port) (owner : Option Nat) (shares : Tbl Nat) (left : Nat) (w : Tbl Nat) : p.pick owner shares left w [] = none := by
  cases owner with
  | some o => rfl
  | none =>
    have hc0 : p.c0Pick left [] = none := rfl
    have hshare : p.sharePick shares [] = none := rfl
    have hwrr : p.wrrPick w [] = none := by simp [Port.wrrPick, turn_nil]
    simp only [Port.pick, hc0, hshare, hwrr, Option.map_none]

theorem fillFlit_nothing {p : Port} (hq : p.outq = []) (hpart : p.partial_ = []) (weights shares : Tbl Nat) (ready : List QEnt)
    (owner : Option Nat) (n : Nat) (l : List (Slot × Bool)) : fillFlit weights shares ready owner n p l = (p, l) := by
  cases n with
  | zero => rfl
  | succ n =>
    unfold fillFlit
    simp only [cands_nil hq hpart, pick_nil]

/-! The header of a DATA flit. -/

/-- The bits that mark where packets start in a flit. -/
def sopBits (xs : List (Slot × Bool)) : Nat :=
  listSum ((xs.zip (List.range 15)).map (fun x => if x.1.2 then 2 ^ (44 + x.2) else 0))

theorem dvd_sopBits (xs : List (Slot × Bool)) : 2 ^ 44 ∣ sopBits xs := by
  rw [sopBits, listSum_eq_sum]
  refine List.dvd_sum fun y hy => ?_
  obtain ⟨x, -, rfl⟩ := List.mem_map.mp hy
  split
  · exact Nat.pow_dvd_pow 2 (Nat.le_add_right ..)
  · exact Nat.dvd_zero _

/-- Marks above bit 44 leave a header's type and number. -/
theorem header_type_seq (p : Port) {seq m : Nat} (hseq : seq < 4096) (hm : 2 ^ 44 ∣ m) :
    fhTYPE (w64 ((p.header 0 seq).1 + m)) = 0 ∧ fhSEQ (w64 ((p.header 0 seq).1 + m)) = seq := by
  obtain ⟨j, rfl⟩ := hm
  have hack : (p.rxNext + 4095) % 4096 < 4096 := Nat.mod_lt _ (by decide)
  simp only [fhTYPE, fhSEQ, fld_w64, Port.header]
  omega

/-! The next flit of a port that is UP. -/

section
variable {s : State} {n : Nat}

theorem nextFlit_nak (hnak : (s.port n).nakDue = true) :
    s.nextFlit n = (s.setPort n ((({ ((s.port n).header 3 0).2 with nakDue := false } : Port).sendFlit
      (mkFlit ((s.port n).header 3 0).1 [])))).missed n (s.port n) (s.slotOwner n) := by
  unfold State.nextFlit
  dsimp only
  rw [if_pos hnak]

theorem nextFlit_replay {f : Flit} {rest : List Flit} (hnak : (s.port n).nakDue = false) (hnode : s.nodeValid = true)
    (hreplay : (s.port n).replay = f :: rest) :
    s.nextFlit n = ((s.setPort n (({ s.port n with
      replay := rest, frameSlot := min 1024 ((s.port n).frameSlot + 1), frameFlag := false
      resent := (s.port n).resent || (s.port n).retry.head? == some f } : Port).sendFlit
        ((s.port n).again f))).count 0x0410).missed n (s.port n) (s.slotOwner n) := by
  unfold State.nextFlit
  dsimp only
  rw [if_neg (by simp [hnak])]
  simp only [hnode, if_true, hreplay]

/-- The slots that a port has for its next DATA flit, and the port after. -/
def State.filled (s : State) (n : Nat) : Port × List (Slot × Bool) :=
  let p := s.port n
  let ready := s.ready [] p.outq
  fillFlit s.weights (s.sharesOf n) ready ((s.slotOwner n).filter (fun o => (p.cands ready).any (fun c => c.circ == some o))) 15 p []

theorem nextFlit_idle (hnak : (s.port n).nakDue = false)
    (hidle : s.nodeValid = false ∨ (s.port n).replay = [] ∧ (s.port n).outq = [] ∧ (s.port n).partial_ = []) :
    s.nextFlit n = (s.setPort n (((s.port n).header 1 0).2.sendFlit (mkFlit ((s.port n).header 1 0).1 []))).missed n (s.port n)
      (s.slotOwner n) := by
  unfold State.nextFlit
  dsimp only
  rw [if_neg (by simp [hnak])]
  rcases hidle with hnode | ⟨hreplay, hq, hpart⟩
  · simp [hnode]
  · simp [hreplay, fillFlit_nothing hq hpart]

/-- The DATA flit of what a port has filled. -/
def State.dataFlit (s : State) (n : Nat) : Flit :=
  mkFlit (((s.filled n).1.header 0 (s.filled n).1.txSeq).1 + sopBits (s.filled n).2) ((s.filled n).2.map Prod.fst)

theorem nextFlit_data (hnak : (s.port n).nakDue = false) (hnode : s.nodeValid = true) (hreplay : (s.port n).replay = [])
    (hroom : (s.port n).retry.length < 512) (hfilled : (s.filled n).2 ≠ []) : ∃ owner,
    s.nextFlit n = (s.setPort n (({ ((s.filled n).1.header 0 (s.filled n).1.txSeq).2 with
      txSeq := ((s.filled n).1.txSeq + 1) % 4096
      retry := ((s.filled n).1.header 0 (s.filled n).1.txSeq).2.retry ++ [s.dataFlit n]
      rot := ((s.port n).rot + 1) % 25 } : Port).sendFlit (s.dataFlit n))).missed n (s.port n) owner := by
  have hfull : ¬(decide ((s.port n).retry.length ≥ 512) || !s.nodeValid) = true := by simp [hnode]; omega
  have hsome : ¬(s.filled n).2.isEmpty = true := by simpa using hfilled
  unfold State.nextFlit
  dsimp only
  rw [if_neg (by simp [hnak]), hreplay, ite_self]
  simp only [if_neg hfull]
  exact ⟨_, if_neg hsome⟩

end

/-- A port of a running device that is UP sends its next flit. -/
theorem exec_flitBuild_up {s : State} {port : BitVec 4} (hon : On s) (hst : (s.port port.toNat).st = .up) :
    exec (.flitBuild port) s = .next (s.nextFlit port.toNat) := by
  refine congrArg Host.Outcome.next ((if_neg (not_not_intro hon)).trans ?_)
  simp only [hst]

theorem flitsSent : Claims.FlitsSent := by
  intro s port hon n p late
  refine ⟨fun hst hnak => ?nak, fun f rest hst hnak hnode hreplay => ?replay, fun hst hnak hidle => ?idle, ?data, ?init, ?frame, ?mesh⟩
  case nak =>
    rw [exec_flitBuild_up hon hst, nextFlit_nak hnak]
    rfl
  case replay =>
    rw [exec_flitBuild_up hon hst, nextFlit_replay hnak hnode hreplay]
    rfl
  case idle =>
    rw [exec_flitBuild_up hon hst, nextFlit_idle hnak hidle]
    rfl
  case data =>
    intro hst hnak hnode hreplay hroom hnumber ready own r hfilled
    obtain ⟨owner, hnext⟩ := nextFlit_data hnak hnode hreplay hroom hfilled
    have hsent : r.1.sent = p.sent := fillFlit_sent ..
    obtain ⟨htx, hretry, hseq⟩ : r.1.tx = p.tx ∧ r.1.retry = p.retry ∧ r.1.txSeq = p.txSeq := by simpa [Port.sent] using hsent
    obtain ⟨htype, hnum⟩ := header_type_seq r.1 (hseq ▸ hnumber) (dvd_sopBits r.2)
    refine ⟨s.nextFlit n, s.dataFlit n, exec_flitBuild_up hon hst, htype, hnum.trans hseq, rfl, ?_⟩
    rw [hnext, port_of_fixtures (State.missed_fixtures ..), State.port_setPort]
    exact ⟨congrArg (· ++ [s.dataFlit n]) htx, congrArg (· ++ [s.dataFlit n]) hretry, congrArg (fun q => (q + 1) % 4096) hseq⟩
  case init =>
    intro hst hrcvd
    refine congrArg Host.Outcome.next ((if_neg (not_not_intro hon)).trans ?_)
    have hrcvd' : (s.port port.toNat).initRcvd = false := hrcvd
    simp only [show (s.port port.toNat).st = .init from hst]
    exact if_neg (by rw [State.port_setPort]; simp [Port.sendFlit, Port.header, hrcvd'])
  case frame =>
    intro s1
    refine congrArg Host.Outcome.next ((if_neg (not_not_intro hon)).trans ?_)
    simp only [State.sharesOf, List.map_map]
    rfl
  case mesh => exact fun clu link => congrArg Host.Outcome.next (if_neg (not_not_intro hon))

/-- Settles O34: flits in by the port's state and their type; flits out by what is due first. -/
theorem linkFlits : Obligations.LinkFlits := ⟨flitsReceived, flitsSent⟩

end Sys2Proof.Machine
end

section
/-! The commands of the routing versions (08 R295, R324), and what the fabric's timers and its node table do (08 R290, R314, R317). -/

namespace Sys2Proof.Machine

/-- A command of a running device has the effect that it has there. -/
theorem next_of_on {s : State} (hon : On s) (t : State) :
    Host.Outcome.next (φ := Fault) (ρ := Refusal) (if s.plat.power ≠ .running then s else t) = .next t :=
  congrArg Host.Outcome.next (if_neg (not_not_intro hon))

theorem State.reach_aggs (s : State) (t : Nat) : (s.reach t).aggs = s.aggs := by
  unfold State.reach
  split <;> rfl

/-- The aggregation entries and a version's state are written apart from each other. -/
theorem setVersion_aggs (s : State) (v : Nat) (x : Version) (f : List Agg → List Agg) :
    ({ s.setVersion v x with aggs := f (s.setVersion v x).aggs } : State) = ({ s with aggs := f s.aggs } : State).setVersion v x := by
  unfold State.setVersion
  split <;> rfl

/-- R295: the end of a drain. -/
theorem exec_epochDrainExpiry {s : State} {v : BitVec 1} (hon : On s) (hst : (s.version v.toNat).st = 2) :
    exec (.epochDrainExpiry v) s =
      let s1 := s.reach ((s.version v.toNat).since + s.drainTicks)
      .next (({ s1 with aggs := s.aggs.filter (fun a => a.ver != v.toNat) } : State).setVersion v.toNat { st := 0, since := s1.now }) := by
  refine congrArg Host.Outcome.next ((if_neg (by simp [hst]; exact hon)).trans ?_)
  refine (setVersion_aggs _ _ _ (List.filter fun a => a.ver != v.toNat)).trans ?_
  rw [State.reach_aggs]

theorem versionCommands : Claims.VersionCommands := by
  intro s v hon n x set
  refine ⟨?loaded, ?flip, ?retire, ?drained⟩
  case loaded | flip | retire => exact next_of_on hon _
  case drained => exact fun hst => exec_epochDrainExpiry hon hst

theorem fabricTimers : Claims.FabricTimers := by
  intro s hon
  refine ⟨fun slot o hop htimed => ?timeout, fun slot t hquar => ?quarantine, fun port vc q hwaits hcredit => ?stall,
    fun v hv => ?nodeTable⟩
  case timeout =>
    refine congrArg Host.Outcome.next ?_
    simp only [hop]
    exact if_neg (by simp [htimed]; exact hon)
  case quarantine =>
    refine congrArg Host.Outcome.next ?_
    simp only [hquar]
    exact if_neg (not_not_intro hon)
  case stall =>
    refine congrArg Host.Outcome.next ?_
    simp only [hwaits]
    exact if_neg (not_or.mpr ⟨not_not_intro hon, Nat.not_le.mpr hcredit⟩)
  case nodeTable =>
    intro p
    refine (next_of_on hon _).trans (congrArg Host.Outcome.next ?_)
    rw [State.setLnt, if_neg (show lnMask v ≠ 0 from hv)]
    rfl

/-- Settles O35: a running device answers each command by the version's state, and each timer by what it finds. -/
theorem versionsAndTimers : Obligations.VersionsAndTimers := ⟨versionCommands, fabricTimers⟩

end Sys2Proof.Machine
end

section
/-! Management requests (08 R316-R321; 09 R355): how the agent takes a request and answers it, by its subtype, and a request on a tree. -/

namespace Sys2Proof.Machine

/-! What counting and taking leave of the platform. -/

section
variable (s : State)

theorem State.logEvent_plat (e : Event) : (s.logEvent e).plat = s.plat := by
  unfold State.logEvent
  repeat' split
  all_goals rfl

theorem State.count_plat (code : Nat) : (s.count code).plat = s.plat := by
  unfold State.count State.countAt
  dsimp only
  repeat' split
  case isTrue.isFalse => exact State.logEvent_plat ..
  all_goals rfl

end

theorem On.count {s : State} (hon : On s) (code : Nat) : On (s.count code) := (congrArg Plat.power (State.count_plat s code)).trans hon

theorem On.take {s : State} (hon : On s) (k : Packet) : On (s.take k) := (take_reads (·.plat.power) (fun _ => rfl) s k).trans hon

theorem State.take_scribeUp (s : State) (k : Packet) (i : Nat) : (s.take k).scribeUp i = s.scribeUp i :=
  take_reads (·.scribeUp i) (fun _ => rfl) s k

theorem State.take_reg (s : State) (k : Packet) : (s.take k).reg = s.reg := (KeepsPorts.take s k).reg

/-- Which node is the fabric manager's stands in a register. -/
theorem fmSent_of_reg {s t : State} (h : t.reg = s.reg) (k : Packet) : t.fmSent k = s.fmSent k := by
  simp only [State.fmSent, State.fmValid, State.fmNode, State.rg, h]

/-! The agent's answers. -/

/-- The agent's answer, queued. -/
def State.agentAnswered (s : State) (k : Packet) (status words data : Nat) : State :=
  { s with mgmtOut := s.mgmtOut ++ [s.mgmtReply k status words data] }

theorem agentAnswer_of_on {s : State} (hon : On s) (k : Packet) (status words data : Nat) :
    s.agentAnswer k status words data = s.agentAnswered k status words data := if_pos hon

theorem agentRefuse_of_on {s : State} (hon : On s) (k : Packet) : s.agentRefuse k = (s.count 0x0405).agentAnswered k 0x0405 0 0 :=
  agentAnswer_of_on (hon.count _) ..

section
variable {s : State} {k : Packet}

theorem mgmtTake_from_manager (hnum : s.unnumbered k = false) (hfm : s.fmSent k = true) (act : State → State) :
    s.mgmtTake k act = act (s.take k) := by
  simp [State.mgmtTake, hnum, hfm]

theorem mgmtTake_from_other (hnum : s.unnumbered k = false) (hfm : s.fmSent k = false) (act : State → State) :
    s.mgmtTake k act = (s.take k).count 0x0418 := by
  simp [State.mgmtTake, hnum, hfm]

/-! The requests, once taken. -/

theorem regrd_answers (hon : On s) (hup : s.scribeUp 2 = true) (hn : k.size / 8 ≤ 8)
    (hoff : ((List.range (k.size / 8)).map (mgmtWord k)).all mgmtOff = true) :
    s.regrd k = s.agentAnswered k 0 (k.size / 8)
      (packElems 64 ((List.range (k.size / 8)).map (fun i => s.regRead (mgmtWord k i % 2 ^ 26)))) := by
  unfold State.regrd
  dsimp only
  rw [if_neg (by rw [hup, hoff]; simpa using hn), agentAnswer_of_on hon, List.map_map]
  rfl

/-- A REGWR of one pair. -/
theorem regwr_answers (hup : s.scribeUp 2 = true) (hn : k.size / 8 = 2) (hoff : mgmtOff (mgmtWord k 0) = true)
    (hon : On (s.regWrite (mgmtWord k 0 % 2 ^ 26) (mgmtWord k 1))) :
    s.regwr k = (s.regWrite (mgmtWord k 0 % 2 ^ 26) (mgmtWord k 1)).agentAnswered k 0 0 0 := by
  unfold State.regwr
  dsimp only
  rw [hn, if_neg (by simp [hup, hoff])]
  exact agentAnswer_of_on hon ..

/-- An LNTWR of one entry. -/
theorem lntwr_answers (hon : On s) (hup : s.scribeUp 2 = true) (hn : k.size / 8 = 2) (hhead : mgmtWord k 0 < 2 ^ 20)
    (hmask : lnMask (w64 (mgmtWord k 1)) = w64 (mgmtWord k 1)) :
    s.lntwr k =
      (s.setLnt (bits (mgmtWord k 0) 16 8) (bits (mgmtWord k 0) 0 16) (w64 (mgmtWord k 1))).agentAnswered k 0 0 0 := by
  have hpart : bits (mgmtWord k 0) 16 8 < 16 := by simp only [bits, Nat.shiftRight_eq_div_pow]; omega
  have hrest : bits (mgmtWord k 0) 24 40 = 0 := by simp only [bits, Nat.shiftRight_eq_div_pow]; omega
  have hfirst : bits (mgmtWord k 0) 0 16 ≤ 65535 := Nat.le_of_lt_succ (Nat.mod_lt _ (by decide))
  unfold State.lntwr
  dsimp only
  rw [hn, if_neg (by simp [hup, hrest, hmask, hfirst]; omega)]
  exact agentAnswer_of_on (s := s.setLnt _ _ _) hon ..

end

/-- A command for a request of one subtype, at a device that the request reaches. -/
theorem next_of_sub {s : State} {k : Packet} {n : Nat} (hreach : s.reaches k [12] = true) (hsub : k.sub = n) (t : State) :
    Host.Outcome.next (φ := Fault) (ρ := Refusal) (if !s.reaches k [12] || decide (k.sub ≠ n) then s.dropBad k else t) = .next t :=
  congrArg Host.Outcome.next (if_neg (by simp [hreach, hsub]))

theorem managementRequests : Claims.ManagementRequests := by
  intro s k hon hreach hnum t answer n
  have hont : On t := hon.take k
  refine ⟨fun hfm hup hn => ⟨?regrd, ?regwr, ?lntwr⟩, ?unknown, ?other, ?notice, ?stray⟩
  case regrd =>
    intro hsub hoff
    refine (next_of_sub hreach hsub _).trans (congrArg Host.Outcome.next ((mgmtTake_from_manager hnum hfm _).trans ?_))
    exact regrd_answers hont ((State.take_scribeUp ..).trans hup) hn hoff
  case regwr =>
    intro hsub hn2 hoff hpower
    refine (next_of_sub hreach hsub _).trans (congrArg Host.Outcome.next ((mgmtTake_from_manager hnum hfm _).trans ?_))
    exact regwr_answers ((State.take_scribeUp ..).trans hup) hn2 hoff hpower
  case lntwr =>
    intro hsub hn2 hhead hmask
    refine (next_of_sub hreach hsub _).trans (congrArg Host.Outcome.next ((mgmtTake_from_manager hnum hfm _).trans ?_))
    exact lntwr_answers hont ((State.take_scribeUp ..).trans hup) hn2 hhead hmask
  case unknown =>
    intro hfm hsub
    have hassigned : ¬(!s.reaches k [12] || (decide (1 ≤ k.sub) && decide (k.sub ≤ 6))) = true := by simp [hreach]; omega
    refine congrArg Host.Outcome.next ((if_neg hassigned).trans ((mgmtTake_from_manager hnum hfm _).trans ?_))
    exact agentRefuse_of_on hont k
  case other =>
    exact fun hfm => ⟨fun hsub => (next_of_sub hreach hsub _).trans (congrArg Host.Outcome.next (mgmtTake_from_other hnum hfm _)),
      fun hsub => (next_of_sub hreach hsub _).trans (congrArg Host.Outcome.next (mgmtTake_from_other hnum hfm _)),
      fun hsub => (next_of_sub hreach hsub _).trans (congrArg Host.Outcome.next (mgmtTake_from_other hnum hfm _))⟩
  case notice =>
    intro hsub hfm hsize hpower
    refine (next_of_sub hreach hsub _).trans (congrArg Host.Outcome.next ?_)
    rw [if_neg (by simp [hnum]), if_neg (by simp [hfm]), if_neg (not_not_intro hsize)]
    exact agentAnswer_of_on hpower ..
  case stray =>
    intro hsub hfm
    refine (next_of_sub hreach hsub _).trans (congrArg Host.Outcome.next ?_)
    rw [if_neg (by simp [hnum]), if_pos (by simp [hfm])]

/-! TEARDOWN. -/

/-- The partitions that a TEARDOWN of one word makes TORN. -/
theorem tear_of_word {s : State} {k : Packet} (hsize : k.size = 8) (hdata : k.data < 2 ^ 32) :
    s.tear k = (((List.range 16).filter (fun p => (s.part p).st != .free && s.job p == k.data % 2 ^ 16
      && !epochNewer (s.jepoch p) (k.data / 2 ^ 16) && !s.torn p)).foldl (fun t p => t.tearPart p) s, 0) := by
  have hrest : bits k.data 32 32 = 0 := by simp only [bits, Nat.shiftRight_eq_div_pow]; omega
  have hjob : bits k.data 0 16 = k.data % 2 ^ 16 := by simp only [bits, Nat.shiftRight_zero]
  have hepoch : bits k.data 16 16 = k.data / 2 ^ 16 := by simp only [bits, Nat.shiftRight_eq_div_pow]; omega
  unfold State.tear
  rw [if_neg (by simp [hsize, hrest]), hjob, hepoch]

theorem epochNewer_iff {a b : Nat} (hb : b < 2 ^ 16) :
    epochNewer a b = true ↔ 1 ≤ (a + 2 ^ 16 - b) % 2 ^ 16 ∧ (a + 2 ^ 16 - b) % 2 ^ 16 ≤ 32767 := by
  simp only [epochNewer, Bool.and_eq_true, decide_eq_true_eq]
  rw [show b % 65536 = b from Nat.mod_eq_of_lt hb]
  exact Iff.rfl

/-! A request on a tree. -/

/-- What a router sends of a request on a tree leaves the registers. -/
theorem fannedOut_reg (s : State) (k : Packet) (e : BitVec 128) (n : Nat) : (s.fannedOut k e n).reg = s.reg :=
  ((KeepsPorts.take s k).foldl (fun _ _ i h => h.enqueuePort i k.hop (s.inputOf k) none) (treePorts e)).reg

/-- A request that no check stops goes to its entry's ports, and this device's part of it is done at once. -/
theorem mgmtTree_of_valid {s : State} {k : Packet} {e : BitVec 128} (he : s.treeOf k.epoch k.tree = e) (hmay : s.mayTake k = true)
    (hbad : k.bad = false) (hnum : s.unnumbered k = false) (hver : (s.version k.epoch).st ≠ 0) (hvalid : trVALID e = true)
    (hown : k.snode = s.pnode → trROOT e = true ∧ (treePorts e = [] ∨ s.nodeValid = true)) (hhops : k.hops + 1 < 64)
    (haggs : s.aggs.length < 4096) (hmembers : (treePorts e).length + b2n (trLOCAL e) ≠ 0) (act : State → State × Nat) :
    s.mgmtTree k act =
      let t := s.fannedOut k e ((treePorts e).length + b2n (trLOCAL e))
      if trLOCAL e then t.treeLocal k act else t := by
  have hroot : ¬(k.snode == s.pnode && ((s.version k.epoch).st == 0 || !trVALID e || !trROOT e)) = true := by
    by_cases h : k.snode = s.pnode
    · simp [hver, hvalid, (hown h).1]
    · simp [h]
  have hnode : ¬(k.snode == s.pnode && !(treePorts e).isEmpty && !s.nodeValid) = true := by
    by_cases h : k.snode = s.pnode
    · rcases (hown h).2 with hports | hnode
      · simp [hports]
      · simp [hnode]
    · simp [h]
  rw [treePorts] at hnode hmembers
  unfold State.mgmtTree
  simp only [he]
  rw [if_neg (by simp [hmay, hbad]), if_neg (by simp [hnum]), if_neg hroot, if_neg hnode, if_neg (by simp [hver]),
    if_neg (by simp [hvalid]), if_neg (by omega), if_neg (by simp [haggs]), if_neg hmembers]
  rfl

theorem teardownAndJobStart : Claims.TeardownAndJobStart := by
  intro s k hty
  refine ⟨?teardown, ?jobstart, fun a b _ hb => epochNewer_iff hb⟩
  case teardown =>
    intro hsub htree hreach hnum hfm hsize hdata t ps
    refine congrArg Host.Outcome.next ((if_neg (by simp [hty, hsub])).trans ((if_neg (by simp [htree])).trans
      ((if_neg (by simp [hreach])).trans ((mgmtTake_from_manager hnum hfm _).trans ?_))))
    rw [tear_of_word hsize hdata]
  case jobstart =>
    intro hsub hmay hbad hnum e ports n hver hvalid hown hhops haggs hn hfm t1 t
    have hfmt : t.fmSent k = true := (fmSent_of_reg (fannedOut_reg s k e n) k).trans hfm
    have hlocal : t.treeLocal k (fun s => s.jobRequest k) = (t.jobRequest k).1.aggMerge (fun a => a == k) (t.jobRequest k).2 :=
      if_neg (by simp [hfmt])
    refine congrArg Host.Outcome.next ((if_neg (by simp [hty, hsub])).trans ?_)
    rw [mgmtTree_of_valid rfl hmay hbad hnum hver hvalid hown hhops haggs hn, ← hlocal]
    rfl

/-- Settles O36: each management request by its subtype, once the agent or the router has taken it. -/
theorem management : Obligations.Management := ⟨managementRequests, teardownAndJobStart⟩

end Sys2Proof.Machine
end

section
/-! Ligature messages at a member (09 R331, R344, R347): what each message does once its stores have come, by the group it names and its
sender. -/

namespace Sys2Proof.Machine

section
variable {s : State} {k : Packet} {ds : List Packet} {e : Nat} {g : Group}

/-! Open reports and rank messages (09 R331). -/

/-- A header store of the up blocks that may be an open report. -/
structure IsReport (s : State) (k : Packet) : Prop where
  off : upOff k = true
  kind : lhKIND k.data = 1
  size : k.size = 64
  ext : k.ext = false
  reaches : s.reaches k [2] = true
  numbered : s.unnumbered k = false

theorem exec_openReport_of_child (hk : IsReport s k) (hgrp : s.blockGroup k = some (e, g)) {i : Nat}
    (hchild : (s.childrenAt g k.snode).find? (fun i => !g.reports.any (fun r => r.1 == i)) = some i) (hst : g.st = 1)
    (hport : s.portOk k (!s.isCopy k) = true) :
    exec (.openReport k) s = .next (((((s.take k).setGrp e { g with
      reports := g.reports ++ [(i, lhNIN k.data, lhSUBP k.data, lhSTATUS k.data)] }).performed k 0 false).ligReport e).ligPump e) := by
  refine congrArg Host.Outcome.next ((if_neg (by simp [hk.off, hk.kind, hk.size, hk.ext, hk.reaches])).trans
    ((if_neg (by simp [hk.numbered])).trans ?_))
  simp only [hgrp, hchild]
  exact if_pos (by simp [hst, hport])

theorem exec_openReport_of_stranger (hk : IsReport s k) (hgrp : s.blockGroup k = some (e, g))
    (hnone : s.childrenAt g k.snode = []) : exec (.openReport k) s = .next ((s.take k).refuse k) := by
  refine congrArg Host.Outcome.next ((if_neg (by simp [hk.off, hk.kind, hk.size, hk.ext, hk.reaches])).trans
    ((if_neg (by simp [hk.numbered])).trans ?_))
  simp only [hgrp, hnone, List.find?_nil]

theorem exec_rankMessage_of_parent (hoff : downOff k = true) (hkind : lhKIND k.data = 2) (hsize : k.size = 64) (hext : k.ext = false)
    (hreach : s.reaches k [2] = true) (hnum : s.unnumbered k = false) (hgrp : s.blockGroup k = some (e, g)) (hst : g.st = 1)
    (htold : g.told = true) (hparent : s.nodeIs g.p (gdPARENT g.desc) k.snode = true) (hport : s.portOk k true = true) :
    exec (.rankMessage k) s = .next ((((s.take k).performed k 0 false).ligOpened e (lhSUBP k.data) (lhPTOT k.data)
      (lhSTATUS k.data)).ligPump e) := by
  refine congrArg Host.Outcome.next ((if_neg (by simp [hoff, hkind, hsize, hext, hreach])).trans ((if_neg (by simp [hnum])).trans ?_))
  simp only [hgrp]
  exact if_pos (by simp [hst, htold, hparent, hport])

/-! Chunks from a child (09 R344). -/

/-- But for an all-gather a message's chunk is the one that its header names. -/
theorem msgKey_of_not_gather {h : Nat} (hop : shOP (lhShape h) ≠ 2) (x : Coll) (src : Nat) : msgKey x src h = lhCHUNK h := if_neg hop

/-- A chunk message from a child of an open group, of a collective that has not ended here and is no all-gather. -/
structure IsChunkUp (s : State) (k : Packet) (ds : List Packet) (e : Nat) (g : Group) (i : Nat) (rest : List Nat) : Prop where
  off : upOff k = true
  stores : s.msgOk k ds = true
  reaches : s.reaches k [2] = true
  numbered : s.unnumbered k = false
  grp : s.blockGroup k = some (e, g)
  isOpen : g.st = 2
  port : s.portOk k (!s.isCopy k) = true
  notOver : g.over_ (lhGSEQ k.data) = false
  notGather : shOP (lhShape k.data) ≠ 2
  kids : s.childrenAt g k.snode = i :: rest

/-- A vertex with a slot takes a child's first chunk of a collective in. -/
theorem exec_chunkUp_of_vertex {i : Nat} {rest : List Nat} (hk : IsChunkUp s k ds e g i rest) (hvertex : g.bypass = false)
    (hfirst : g.coll (lhGSEQ k.data) = { k := lhGSEQ k.data }) (hslot : s.slotFor e (lhGSEQ k.data) (lhCHUNK k.data) = true)
    (hreport : 0 < (g.report i).1) :
    exec (.chunkUp k ds) s = .next (((s.ackAll k ds).ligTakeIn e { k := lhGSEQ k.data } (lhCHUNK k.data)
      { inp := i + 1, hdr := k.data, data := dataOf ds, pz := ds.any s.carries }).ligPump e) := by
  refine congrArg Host.Outcome.next ((if_neg (by simp [hk.off, hk.stores, hk.reaches])).trans
    ((if_neg (by simp [hk.numbered])).trans ?_))
  simp only [hk.grp, hfirst, msgKey_of_not_gather hk.notGather, hk.kids]
  rw [if_neg (by simp [hk.isOpen, hk.port]), if_neg (by simp [hk.notOver]), if_neg (by simp [hvertex]), if_neg (by simp [hslot]),
    if_neg hk.notGather]
  simp [hreport]

/-- A member in endpoint mode passes a child's chunk on. -/
theorem exec_chunkUp_of_bypass {i : Nat} {rest : List Nat} (hk : IsChunkUp s k ds e g i rest) (hbypass : g.bypass = true)
    (hroom : s.roomFor ds.length = true) (hwindow : s.windowOpen e (k.snode * 2 ^ 32 + lhWHO k.data + 1) = true) :
    exec (.chunkUp k ds) s = .next (((s.ackAll k ds).putColl e (g.coll (lhGSEQ k.data))).ligSendUp e 3 (lhGSEQ k.data) (lhCHUNK k.data)
      (k.snode * 2 ^ 32 + lhWHO k.data + 1) k.data (dataOf ds) ds.length (ds.any s.carries)) := by
  refine congrArg Host.Outcome.next ((if_neg (by simp [hk.off, hk.stores, hk.reaches])).trans
    ((if_neg (by simp [hk.numbered])).trans ?_))
  simp only [hk.grp, msgKey_of_not_gather hk.notGather, hk.kids]
  rw [if_neg (by simp [hk.isOpen, hk.port]), if_neg (by simp [hk.notOver]), if_pos hbypass, if_neg (by rw [hroom, hwindow]; decide),
    if_neg hk.notGather]

theorem exec_chunkUp_of_nameless (hoff : upOff k = true) (hstores : s.msgOk k ds = true) (hreach : s.reaches k [2] = true)
    (hnum : s.unnumbered k = false) (hnone : s.blockGroup k = none) : exec (.chunkUp k ds) s = .next (s.refuseAll k ds) := by
  refine congrArg Host.Outcome.next ((if_neg (by simp [hoff, hstores, hreach])).trans ((if_neg (by simp [hnum])).trans ?_))
  simp only [hnone]

/-! Result chunks (09 R347). -/

/-- A result chunk whose destinations here are at hand is delivered, and sent on where it travels the tree of members. -/
theorem exec_chunkDown_delivers (hoff : downOff k = true) (hstores : s.msgOk k ds = true) (hreach : s.reaches k [2] = true)
    (hnum : s.unnumbered k = false) (hgrp : s.blockGroup k = some (e, g)) (hopen : g.st = 2) (hport : s.portOk k true = true)
    (hover : g.over_ (lhGSEQ k.data) = false) (hgather : shOP (lhShape k.data) ≠ 2) {y : Coll}
    (hy : (g.coll (lhGSEQ k.data)).meet (lhShape k.data) = y) (hheld : s.downHeld e g y (lhCHUNK k.data) = [])
    (hroom : s.roomFor ((ds.length + 1) * max 1 (gdNCHILD g.desc)) = true) :
    exec (.chunkDown k ds) s = .next (((if s.ligTreeDown g (lhShape k.data) then s.ackAll k ds
      else (s.ackAll k ds).ligDownChildren e y (lhCHUNK k.data) k.data (dataOf ds)
        (g.downRange (lhShape k.data) (lhCHUNK k.data)).1 (ds.any s.carries)).ligDown e (lhGSEQ k.data) (lhCHUNK k.data) k.data
          (dataOf ds) (ds.any s.carries)).ligPump e) := by
  refine congrArg Host.Outcome.next ((if_neg (by simp [hoff, hstores, hreach])).trans ((if_neg (by simp [hnum])).trans ?_))
  simp only [hgrp, hy, if_neg hgather]
  rw [if_neg (by simp [hopen, hport]), if_neg (by simp [hover]), if_neg (by simp [hheld]), if_neg (by simp [hroom])]

end

theorem ligatureMessages_clauses : Claims.LigatureMessages := by
  intro s k ds e g hreach hnum h
  refine ⟨?report, ?rank, ?up, ?down, fun hnone hoff hstores => exec_chunkUp_of_nameless hoff hstores hreach hnum hnone⟩
  case report =>
    intro hoff hkind hsize hext hgrp hst hport hcopy
    have hk : IsReport s k := ⟨hoff, hkind, hsize, hext, hreach, hnum⟩
    refine ⟨fun i rest hkids hreports => ?_, exec_openReport_of_stranger hk hgrp⟩
    have hexec := exec_openReport_of_child hk hgrp (i := i) (by simp [hkids, hreports]) hst (by simpa [hcopy] using hport)
    simpa only [hreports, List.nil_append] using hexec
  case rank =>
    intro hoff hkind hsize hext hgrp hst htold hparent hport
    exact exec_rankMessage_of_parent hoff hkind hsize hext hreach hnum hgrp hst htold hparent hport
  case up =>
    intro hoff hstores hgrp hst hport hcopy hover hop i rest hkids
    have hk : IsChunkUp s k ds e g i rest :=
      ⟨hoff, hstores, hreach, hnum, hgrp, hst, by simpa [hcopy] using hport, hover, hop, hkids⟩
    exact ⟨exec_chunkUp_of_vertex hk, exec_chunkUp_of_bypass hk⟩
  case down =>
    intro hoff hstores hgrp hst hport hover hop sh y pz s1 hheld hroom
    exact exec_chunkDown_delivers hoff hstores hreach hnum hgrp hst hport hover hop rfl hheld hroom

end Sys2Proof.Machine
end

section
/-! How inputs of a chunk and their headers are combined (09 R341, R342, R346, R349, R351). -/

namespace Sys2Proof.Machine

/-- One more input is combined last (09 R341). -/
theorem ligFold_append_singleton (x : Nat) (v u : List Nat) (vs : List (List Nat)) :
    ligFold x (v :: (vs ++ [u])) = (ligFold x (v :: vs)).map (fun a => ligAdd x a u) := by
  simp [ligFold]

/-- Whatever order a number picks, it takes each input once (09 R342). -/
theorem shuffle_perm {α : Type} (n v : Nat) (l : List α) : (shuffle n v l).Perm l := by
  induction n generalizing v l with
  | zero => exact .refl l
  | succ n ih =>
    unfold shuffle
    split
    next x hx =>
      obtain ⟨hlt, rfl⟩ := List.getElem?_eq_some_iff.mp hx
      exact ((ih _ _).cons _).trans (List.getElem_cons_eraseIdx_perm hlt)
    next => exact .refl l

/-- A sum split at w bits has the residue of its addends, whatever its carry weighs (09 R349). -/
theorem residueHolds_add (w a b : Nat) : residueHolds w a b ((a + b) % 2 ^ w) ((a + b) / 2 ^ w) = true := by
  have hparts : ((a + b) % 2 ^ w + (a + b) / 2 ^ w * 2 ^ w) % 7 = (a + b) % 7 := by rw [Nat.mul_comm, Nat.mod_add_div]
  rw [residueHolds, beq_iff_eq, ← Nat.add_mod, ← hparts, Nat.add_mod, Nat.mul_mod]
  simp [Nat.add_mod, Nat.mul_mod]

theorem lhTMAX_laterOf (a b : Nat) : lhTMAX (laterOf a b) = max (lhTMAX a) (lhTMAX b) := by
  unfold laterOf
  split_ifs <;> omega

/-- Of two equal issue times the lowest contributor's is taken (09 R346). -/
theorem lhWHO_laterOf_of_tie {a b : Nat} (h : lhTMAX a = lhTMAX b) : lhWHO (laterOf a b) = min (lhWHO a) (lhWHO b) := by
  unfold laterOf
  split_ifs <;> omega

theorem mergeStatus_zero_right (a : Nat) : mergeStatus a 0 = a := by
  unfold mergeStatus
  split_ifs <;> omega

theorem mergeStatus_of_ne_zero {a b : Nat} (ha : a ≠ 0) (hb : b ≠ 0) : mergeStatus a b = min a b := by
  rw [mergeStatus, if_neg ha, if_neg hb]

/-! The buckets of a skew (09 R351). -/

theorem skewBucket_of_lt {t : Nat} (h : t < 1050) : skewBucket t = 0 := if_pos h

theorem skewBucket_of_ge {t : Nat} (h : 1050 ≤ t) : skewBucket t = min 15 (Nat.log2 (t / 1050) + 1) := if_neg (by omega)

/-- A skew past the last bound falls into the last bucket. -/
theorem skewBucket_last {t : Nat} (h : 1050 * 16384 ≤ t) : skewBucket t = 15 := by
  have hlog : 14 ≤ Nat.log2 (t / 1050) := (Nat.le_log2 (by omega)).mpr (by omega)
  rw [skewBucket_of_ge (by omega)]
  omega

/-- A skew of at least 2^b and less than 2^(b+1) microseconds falls into bucket b + 1. -/
theorem skewBucket_succ {t b : Nat} (hb : b < 14) (hlo : 1050 * 2 ^ b ≤ t) (hhi : t < 1050 * 2 ^ (b + 1)) : skewBucket t = b + 1 := by
  have hpos : 0 < 2 ^ b := Nat.two_pow_pos b
  have hlo' : 2 ^ b ≤ t / 1050 := by omega
  have hlog : Nat.log2 (t / 1050) = b := (Nat.log2_eq_iff (by omega)).mpr ⟨hlo', by omega⟩
  rw [skewBucket_of_ge (by omega), hlog]
  omega

theorem ligatureArithmetic_clauses : Claims.LigatureArithmetic := by
  refine ⟨fun x v vs u => ⟨rfl, ligFold_append_singleton x v u vs⟩, fun n v l _ => shuffle_perm n v l,
    fun w a b _ _ => residueHolds_add w a b, fun a b => ⟨lhTMAX_laterOf a b, lhWHO_laterOf_of_tie⟩,
    fun a b => ⟨mergeStatus_zero_right a, rfl, mergeStatus_of_ne_zero⟩,
    fun t => ⟨skewBucket_of_lt, skewBucket_last, fun b hb hb' hlo hhi => ?_⟩⟩
  obtain ⟨b, rfl⟩ := Nat.exists_eq_add_of_le' hb
  exact skewBucket_succ hb' hlo hhi

/-- Settles O39: each message by the checks it passes, and the combining of inputs by the lists and numbers combined. -/
theorem ligatureCombining : Obligations.LigatureCombining := ⟨ligatureMessages_clauses, ligatureArithmetic_clauses⟩

end Sys2Proof.Machine
end

section
/-! A LOPEN whose status word cannot be written, in a partition that drains (09 R331; 10 R374, R385). -/

namespace Sys2Proof.Machine

def drainingLoc : Loc := ⟨15, 7, 0, 0⟩

/-- A root without children, of core 0 of cluster 0 (09 R330). -/
def lonelyRootDesc : Nat := 2 ^ 16 + 2 ^ 64 + 2 ^ 128

/-- A partition that drains, whose one context runs with core 0 in a handler; no logical node of the partition is live. -/
def drainingState : State :=
  { State.reset with
    plat := { power := .running }
    parts := [(15, { st := .draining, clus := [0], resident := some 7, ctxs := [(7, { st := .running, started := [0] })] })]
    cores := [(drainingLoc.key, { run := .running, inh := true })] }

/-- The status word meets FAB_DEAD, which stops the core and its context; the drain is over, and the partition's end closes the group
that has just opened. -/
theorem ligOpen_ends_drain :
    let t := drainingState.ligOpen 0 drainingLoc 0 lonelyRootDesc 0
    (t.part 15).st = .aborting ∧ (t.grp 0).st = 0 := by
  decide +kernel

/-- Refutes O38: the clause on a root without children has its group open after the LOPEN, also where the LOPEN's own failure ends the
partition. -/
theorem not_ligatureGroups : ¬ Obligations.LigatureGroups := by
  unfold Obligations.LigatureGroups Claims.LigatureOpens
  intro h
  have hroot := (h.2 drainingState 0 drainingLoc 0 lonelyRootDesc 0 (by decide +kernel) rfl (by decide +kernel)).1 (by decide +kernel)
  have hopen : 0 = 2 := ligOpen_ends_drain.2.symm.trans (congrArg Group.st hroot)
  exact absurd hopen (by decide)

end Sys2Proof.Machine
end

section
/-! A held launch whose START comes while its partition is being aborted (09 R355; 10 R385). -/

namespace Sys2Proof.Machine

theorem State.release_of_aborting {s : State} {p : Nat} (habort : (s.part p).st = .aborting) (n : Nat) : s.release p n = s := by
  unfold State.release
  dsimp only
  split
  · rfl
  · exact if_pos habort

theorem State.part_reach (s : State) (t p : Nat) : (s.reach t).part p = s.part p := by
  unfold State.reach
  split <;> rfl

/-- In ABORTING a held launch stays held: its START moves the timebase alone. -/
theorem exec_heldLaunchRelease_of_aborting {s : State} {p : BitVec 4} {n : BitVec 3} (hon : On s)
    (hheld : (s.ctx p.toNat n.toNat).st = .held) (hstart : (s.ctx p.toNat n.toNat).startAt ≠ 0)
    (habort : (s.part p.toNat).st = .aborting) :
    exec (.heldLaunchRelease p n) s = .next (s.reach (s.ctx p.toNat n.toNat).startAt) :=
  congrArg Host.Outcome.next ((if_neg (by simp [hon, hheld, hstart])).trans
    (State.release_of_aborting ((congrArg Part.st (State.part_reach ..)).trans habort) _))

/-- A LAUNCH that the end of its partition has ended with CMD_ABORTED. -/
def abortedLaunch : Cmd :=
  { seq := 5, f := 15, r := 0, ridx := 0, body := 1, st := 3, parts := 0, fails := [], code := 0x0601, detail := 0, accept := 0, fin := 0 }

/-- Its context, still held for START 2000, in the partition being aborted. -/
def abortingState : State :=
  { State.reset with
    plat := { power := .running }
    parts := [(15, { st := .aborting, ctxs := [(7, { st := .held, startAt := 2000, launchSeq := some 5 })] })]
    cmds := [abortedLaunch] }

/-- Refutes O40: the clause on held launches makes the context READY at its START in every state of its partition, and in ABORTING it
stays held. -/
theorem not_stallsAndJobStarts : ¬ Obligations.StallsAndJobStarts := by
  unfold Obligations.StallsAndJobStarts
  intro h
  have hon : On abortingState := rfl
  obtain ⟨-, -, -, hlaunch⟩ := h abortingState hon
  have hready := hlaunch 15 7 abortedLaunch (by decide +kernel) (by decide +kernel) (by decide +kernel) (by decide +kernel)
  have hheld := exec_heldLaunchRelease_of_aborting (p := 15) (n := 7) hon (by decide +kernel) (by decide +kernel) (by decide +kernel)
  have hsame := congrArg (fun t => (t.ctx 15 7).st) (Host.Outcome.next.inj (hheld.symm.trans hready))
  exact absurd hsame (by decide +kernel)

end Sys2Proof.Machine
end

section
/-! A host command that may start runs (11 R404-R406), and reads of a field of a field and of joined or thinned tables. -/

namespace Sys2Proof.Machine

theorem start_of_starts {s : State} {seq : W64} {op : Nat} {c : Cmd} (h : Starts s seq.toNat op c) (run : Cmd → State → State) :
    s.start seq op run = run c s := by
  obtain ⟨hcmd, hop, hst, hheld, hmay, hadmit⟩ := h
  simp [State.start, hcmd, hop, hst, hheld, hmay, hadmit]

/-- What a host command answers where it may start. -/
theorem next_of_starts {s t : State} {seq : W64} {op : Nat} {c : Cmd} (h : Starts s seq.toNat op c) {run : Cmd → State → State}
    (hrun : run c s = t) : Host.Outcome.next (φ := Fault) (ρ := Refusal) (s.start seq op run) = .next t :=
  congrArg Host.Outcome.next ((start_of_starts h run).trans hrun)

theorem bit_bits {i n : Nat} (h : i < n) (v lo : Nat) : bit (bits v lo n) i = bit v (lo + i) := by
  simp [bit, testBit_bits, h]

theorem bits_bits {a n m : Nat} (h : a + n ≤ m) (v lo : Nat) : bits (bits v lo m) a n = bits v (lo + a) n := by
  refine Nat.eq_of_testBit_eq fun i => ?_
  simp only [testBit_bits, Nat.add_assoc]
  by_cases hi : i < n
  · simp [hi, show a + i < m by omega]
  · simp [hi]

section
variable {V : Type}

theorem tget_filter_key (f : Nat → Bool) (t : Tbl V) (k : Nat) :
    tget (t.filter fun e => f e.1) k = if f k then tget t k else none := by
  induction t with
  | nil => simp
  | cons e t ih =>
    obtain ⟨j, w⟩ := e
    by_cases hj : j = k
    · subst hj
      by_cases hf : f j <;> simp [hf, ih, tget]
    · by_cases hf : f j <;> simp [hf, ih, tget, hj]

theorem tget_append (t u : Tbl V) (k : Nat) : tget (t ++ u) k = (tget t k).or (tget u k) := by
  induction t with
  | nil => rfl
  | cons e t ih =>
    obtain ⟨j, w⟩ := e
    by_cases hj : j = k <;> simp [tget, hj, ih]

theorem tget_numbered (f : Nat → V) (b : Nat) {i n : Nat} (h : i < n) :
    tget ((List.range n).map fun i => (b + i, f i)) (b + i) = some (f i) := by
  induction n with
  | zero => exact absurd h (Nat.not_lt_zero i)
  | succ n ih =>
    rw [List.range_succ, List.map_append, tget_append]
    rcases Nat.lt_succ_iff_lt_or_eq.mp h with hlt | rfl
    · rw [ih hlt, Option.some_or]
    · rw [tget_eq_none_of_not_mem (by simp)]
      simp [tget]

end

end Sys2Proof.Machine
end

section
/-! The choice of the resident context (10 R373). -/

namespace Sys2Proof.Machine

section
variable {s : State} {p : Nat}

theorem mem_candidates {pr c : Nat} :
    c ∈ s.candidates p pr ↔ c < 8 ∧ (s.ctx p c).prio = pr ∧ ((s.ctx p c).st = .ready ∨ (s.ctx p c).st = .running) := by
  simp [State.candidates, slots8]

theorem nextAfter_mem {l c : Nat} {cs : List Nat} (h : nextAfter l cs = some c) : c ∈ cs := by
  unfold nextAfter at h
  split at h
  next d hd => exact Option.some.inj h ▸ List.mem_of_find?_eq_some hd
  next => exact List.mem_of_head? h

section
variable {expired : Bool} {q c pr : Nat} {prs : List Nat}

theorem chooseAt_skip (hnone : s.candidates p q = []) : s.chooseAt p expired (q :: prs) = s.chooseAt p expired prs :=
  if_pos (List.isEmpty_iff.mpr hnone)

/-- Where contexts of the first priority may run, the resident one goes on if it is among them and its quantum lasts; otherwise the
next in turn is chosen, or the resident one where there is no other. -/
theorem chooseAt_head (hsome : s.candidates p q ≠ []) (h : s.chooseAt p expired (q :: prs) = some (c, pr)) :
    q = pr ∧ (c ∈ s.candidates p q ∨ (s.part p).resident = some c) ∧
      ∀ r, (s.part p).resident = some r → r ∈ s.candidates p q → expired = false → c = r := by
  have hhead : s.chooseAt p expired (q :: prs) = _ := if_neg (mt List.isEmpty_iff.mp hsome)
  rw [hhead] at h
  cases hres : (s.part p).resident with
  | none =>
    simp only [hres] at h
    split at h
    next d hd =>
      cases h
      exact ⟨rfl, .inl (List.mem_filter.mp (nextAfter_mem hd)).1, nofun⟩
    next => cases h
  | some r =>
    by_cases hgoes : r ∈ s.candidates p q ∧ expired = false
    · simp only [hres, List.contains_iff_mem.mpr hgoes.1, hgoes.2, Bool.not_false, Bool.and_self, if_true] at h
      cases h
      exact ⟨rfl, .inl hgoes.1, fun _ hr _ _ => Option.some.inj hr⟩
    · have hleaves (r' : Nat) (hr : some r = some r') (hmem : r' ∈ s.candidates p q) (hlasts : expired = false) : c = r' :=
        absurd ⟨Option.some.inj hr ▸ hmem, hlasts⟩ hgoes
      have hstop : ((s.candidates p q).contains r && !expired) = false := by simpa using hgoes
      simp only [hres, hstop, Bool.false_eq_true, if_false] at h
      split at h
      next d hd =>
        cases h
        exact ⟨rfl, .inl (List.mem_filter.mp (nextAfter_mem hd)).1, hleaves⟩
      next =>
        cases h
        exact ⟨rfl, .inr rfl, hleaves⟩

/-- What is chosen among priorities that rise: nothing may run at an earlier one; the choice may run or is resident, and the resident
one goes on while its quantum lasts. -/
theorem chooseAt_inv (hrise : prs.Pairwise (· < ·)) (h : s.chooseAt p expired prs = some (c, pr)) :
    pr ∈ prs ∧ (∀ q ∈ prs, q < pr → s.candidates p q = []) ∧ (c ∈ s.candidates p pr ∨ (s.part p).resident = some c) ∧
      (∀ r, (s.part p).resident = some r → r ∈ s.candidates p pr → expired = false → c = r) := by
  induction prs with
  | nil => cases h
  | cons q prs ih =>
    obtain ⟨hfirst, hrest⟩ := List.pairwise_cons.mp hrise
    by_cases hcand : s.candidates p q = []
    · obtain ⟨hmem, hbefore, hchosen, hstays⟩ := ih hrest (chooseAt_skip hcand ▸ h)
      exact ⟨.tail _ hmem, List.forall_mem_cons.mpr ⟨fun _ => hcand, hbefore⟩, hchosen, hstays⟩
    · obtain ⟨rfl, hchosen, hstays⟩ := chooseAt_head hcand h
      exact ⟨.head _, List.forall_mem_cons.mpr ⟨fun hlt => absurd hlt (Nat.lt_irrefl q),
        fun x hx hlt => absurd hlt (Nat.lt_asymm (hfirst x hx))⟩, hchosen, hstays⟩

end

end

theorem schedulingChoice_clauses : Claims.SchedulingChoice := by
  intro s p c pr hchoice hslots
  obtain ⟨hpr, hbefore, hchosen, hstays⟩ := chooseAt_inv (by decide) hchoice
  have hlevels (q : Nat) (hq : q ≤ 3) : q ∈ [0, 1, 2, 3] := by simp; omega
  have hpr3 : pr ≤ 3 := by simp at hpr; omega
  refine ⟨hchosen.imp_left fun hc => ⟨hpr3, mem_candidates.mp hc⟩, fun q n hq hn hprio => ?_, fun r hr hrun hprio hlasts => ?_⟩
  · have hnot : n ∉ s.candidates p q := by simp [hbefore q (hlevels q (by omega)) hq]
    simpa [mem_candidates, hn, hprio] using hnot
  · exact hstays r hr (mem_candidates.mpr ⟨hslots r hr, hprio, .inr hrun⟩) (by simpa [hr] using hlasts)

end Sys2Proof.Machine
end

section
/-! LAUNCH: the cores that it fills and the context that it leaves (10 R372, R375; 11 R407). -/

namespace Sys2Proof.Machine

section
variable (s : State)

theorem State.core_fillCores {p c n l k : Nat} (f : Nat → Nat → CoreSt) (hl : l < n) (hk : k < 64) :
    (s.fillCores p c n f).core ⟨p, c, l, k⟩ = f l k := by
  have hkey : Loc.key ⟨p, c, l, k⟩ = ctxBase p c + (64 * l + k) := by simp only [Loc.key, ctxBase]; omega
  have hbelow : tget (s.cores.filter fun e => decide (e.1 < ctxBase p c)) (ctxBase p c + (64 * l + k)) = none := by
    rw [tget_filter_key (fun j => decide (j < ctxBase p c)), if_neg (by simp)]
  have hown : (64 * l + k) / 64 = l ∧ (64 * l + k) % 64 = k := by omega
  rw [State.core, tgetD, hkey]
  simp only [State.fillCores]
  rw [tget_append, tget_append, hbelow, Option.none_or, tget_numbered (fun i => f (i / 64) (i % 64)) _ (by omega), hown.1, hown.2]
  rfl

theorem State.core_launchCtx (c : Cmd) (rperiod : Nat) {l k : Nat} (hl : l < s.nclu c.f) (hl64 : l < 64) (hk : k < 64) :
    (s.launchCtx c rperiod).core ⟨c.f, c.ctxNo, l, k⟩ = (s.core ⟨c.f, c.ctxNo, l, k⟩).launched (bits c.body 320 18)
      (bit c.body (192 + l) && bit c.body (256 + k)) := by
  have hfill := s.core_fillCores (p := c.f) (c := c.ctxNo) (fun l k => (s.core ⟨c.f, c.ctxNo, l, k⟩).launched
    (bits (c.at_ 40 4) 0 18) (bit (c.at_ 24 8) l && bit (c.at_ 32 8) k)) hl hk
  have hpc : bits (c.at_ 40 4) 0 18 = bits c.body 320 18 := bits_bits (by decide) ..
  have hclu : bit (c.at_ 24 8) l = bit c.body (192 + l) := bit_bits hl64 ..
  have hcore : bit (c.at_ 32 8) k = bit c.body (256 + k) := bit_bits hk ..
  exact hfill.trans (by rw [hpc, hclu, hcore])

theorem State.ctx_launchCtx_st (c : Cmd) (rperiod : Nat) :
    ((s.launchCtx c rperiod).ctx c.f c.ctxNo).st = if c.hold then .held else .ready :=
  congrArg Ctx.st (State.ctx_setCtx ..)

end

theorem launch_clauses : Claims.Launch := by
  intro s seq c hstarts p n
  refine ⟨fun hst => ?busy, fun hst hfree hsched => ?scheduled, fun hst hfree hsched => ?goes, fun _ _ hclus l k hl hk => ?cores,
    s.ctx_launchCtx_st c 0⟩
  case busy => exact next_of_starts hstarts (if_pos hst)
  case scheduled =>
    have hgiven : (c.sched == 0) = (s.part p).ruled := by rw [hfree]; exact beq_eq_false_iff_ne.mpr hsched
    refine next_of_starts hstarts ((if_neg (not_not_intro hst)).trans (if_pos ?_))
    exact beq_iff_eq.mpr hgiven
  case goes =>
    have hnone : (c.sched == 0) = true := beq_iff_eq.mpr hsched
    refine next_of_starts hstarts ((if_neg (not_not_intro hst)).trans ?_)
    simp only [hnone, hfree, p]
    rfl
  case cores =>
    intro d
    have hd : d = _ := s.core_launchCtx c 0 hl (by omega) hk
    rw [hd]
    exact ⟨rfl, rfl, rfl, rfl, rfl, rfl, rfl, rfl, rfl, rfl⟩

/-- Settles O42: LAUNCH by its checks and by the cores it fills, the choice by the first priority at which something may run. -/
theorem launchAndScheduling : Obligations.LaunchAndScheduling := ⟨launch_clauses, schedulingChoice_clauses⟩

end Sys2Proof.Machine
end

section
/-! The CTX commands, each by the state of its context, and the image of zeros that they write (10 R375, R377). -/

namespace Sys2Proof.Machine

theorem inCtx_key {q m p n l k : Nat} (hm : m < 8) (hn : n < 8) (hl : l < 64) (hk : k < 64) :
    inCtx p n (Loc.key ⟨q, m, l, k⟩) = decide (q = p ∧ m = n) := by
  have hctx : Loc.key ⟨q, m, l, k⟩ / 4096 = q * 8 + m := by simp only [Loc.key]; omega
  rw [inCtx, hctx, Bool.eq_iff_iff, beq_iff_eq, decide_eq_true_iff]
  omega

theorem State.core_zeroImage (s : State) {p n : Nat} (loc : Loc) :
    (s.zeroImage p n).core loc = if inCtx p n loc.key then {} else s.core loc := by
  have hkept : tget (s.zeroImage p n).cores loc.key = if (!inCtx p n loc.key) then tget s.cores loc.key else none :=
    tget_filter_key (fun k => !inCtx p n k) s.cores loc.key
  rw [State.core, tgetD, hkept]
  cases inCtx p n loc.key <;> rfl

theorem zeroImage_clauses : Claims.ZeroImage := by
  intro s p n hp hn
  refine ⟨fun l k hl hk => ?own, fun q m l k hq hm hl hk hother => ?other⟩
  case own => rw [State.core_zeroImage, inCtx_key hn hn hl hk, if_pos (by simp)]
  case other => rw [State.core_zeroImage, inCtx_key hm hn hl hk, if_neg (by simpa [imp_iff_not_or] using hother)]

theorem endLaunch_of_none {s : State} {p n : Nat} (h : (s.ctx p n).launchSeq = none) (code : Nat) : s.endLaunch p n code = s := by
  simp only [State.endLaunch, h]

theorem atRest_of_idle {x : CtxState} (h : x = .idle) : (!x.atRest) = false := h ▸ rfl

theorem not_atRest_of_running {x : CtxState} (h : x = .running) : (!x.atRest) = true := h ▸ rfl

theorem contextCommands_clauses : Claims.ContextCommands := by
  intro s seq c p n x prio no
  refine ⟨fun h => ⟨fun hst => ?created, fun hst hroom => ?create⟩, fun h => ⟨fun hst => ?prioFree, fun hst => ?prio⟩,
    fun h => ⟨fun hst => ?pauseIdle, fun hst => ?pauseReady, ?pauseResident, fun hst hpausing => ?pauseSaving,
      fun hst hpausing => ?pauseAgain⟩,
    fun h => ⟨fun hst => ?resumeOther, fun hst => ?resume⟩,
    fun h => ⟨fun hst => ?resetRunning, fun hst hlaunch => ?reset⟩,
    fun h => ⟨fun hst => ?destroyRunning, fun hst hlaunch => ?destroy⟩⟩
  case created | prioFree | resumeOther => exact next_of_starts h (if_pos hst)
  case create => exact next_of_starts h ((if_neg (not_not_intro hst)).trans (if_neg (Bool.eq_false_iff.mp (congrArg not hroom))))
  case prio => exact next_of_starts h (if_neg hst)
  case resume => exact next_of_starts h (if_neg (not_not_intro hst))
  case pauseIdle | pauseReady =>
    have hhere : (s.ctx c.f c.ctxNo).st = _ := hst
    refine next_of_starts h ?_
    simp only [hhere]
    rfl
  case pauseResident =>
    rintro (hst | hst)
    all_goals
      have hhere : (s.ctx c.f c.ctxNo).st = _ := hst
      refine next_of_starts h ?_
      simp only [hhere, hst]
      rfl
  case pauseSaving =>
    have hhere : (s.ctx c.f c.ctxNo).st = _ := hst
    refine next_of_starts h ?_
    simp only [hhere, hst]
    exact if_neg (Bool.eq_false_iff.mp hpausing)
  case pauseAgain =>
    have hhere : (s.ctx c.f c.ctxNo).st = _ := hst
    refine next_of_starts h ?_
    simp only [hhere]
    exact if_pos hpausing
  case resetRunning | destroyRunning => exact next_of_starts h (if_pos (not_atRest_of_running hst))
  case reset | destroy =>
    have hnone : s.endLaunch c.f c.ctxNo cCMDABORTED = s := endLaunch_of_none hlaunch _
    refine next_of_starts h ((if_neg (Bool.eq_false_iff.mp (atRest_of_idle hst))).trans ?_)
    simp only [hnone]
    rfl

end Sys2Proof.Machine
end

section
/-! Saves, restores and the quantum (10 R372, R381, R382, R392). -/

namespace Sys2Proof.Machine

section
variable (s : State)

theorem State.parts_logEvent (e : Event) : (s.logEvent e).parts = s.parts := by
  unfold State.logEvent
  repeat' split
  all_goals rfl

theorem State.parts_countAt (off code n : Nat) : (s.countAt off code n).parts = s.parts := by
  unfold State.countAt
  dsimp only
  repeat' split
  · rfl
  · exact State.parts_logEvent ..
  · rfl

theorem State.ctx_countAt (off code n p c : Nat) : (s.countAt off code n).ctx p c = s.ctx p c := by
  rw [State.ctx, State.part, State.parts_countAt]
  rfl

theorem State.ctx_unseat (p c : Nat) : (s.unseat p).ctx p c = s.ctx p c := by
  have hpart : (s.unseat p).part p = { s.part p with resident := none } := State.part_setPart ..
  rw [State.ctx, hpart]
  rfl

end

theorem roundUp_bounds {n : Nat} (h : 0 < n) (v : Nat) : v ≤ roundUp v n ∧ roundUp v n < v + n := by
  have hsplit := Nat.div_add_mod' (v + n - 1) n
  have hrest := Nat.mod_lt (v + n - 1) h
  rw [roundUp]
  omega

theorem roundUp_mod (v n : Nat) : roundUp v n % n = 0 := Nat.mul_mod_left ..

/-- A Ruled start comes at least 1 µs on, within a period after that, at a whole number of periods from its base. -/
theorem startTick_aligned {x : Ctx} {now : Nat} (hperiod : x.rperiod ≠ 0) (hsaved : x.saveTick ≤ now) :
    let base := if x.firstStart then 0 else x.saveTick
    now + 1050 ≤ x.startTick now ∧ x.startTick now < now + 1050 + x.rperiod ∧ (x.startTick now - base) % x.rperiod = 0 := by
  intro base
  have hbase : base ≤ now := by simp only [base]; split <;> omega
  have htick : x.startTick now = base + roundUp (now + 1050 - base) x.rperiod := if_neg hperiod
  obtain ⟨hlow, hhigh⟩ := roundUp_bounds (Nat.pos_of_ne_zero hperiod) (now + 1050 - base)
  refine ⟨by omega, by omega, ?_⟩
  rw [htick, Nat.add_sub_cancel_left, roundUp_mod]

/-- The save that is complete, by the stop code that came while it ran. -/
theorem exec_saveComplete {s : State} {p : BitVec 4} {n : Nat} (hon : On s) (hres : (s.part p.toNat).resident = some n)
    (hst : (s.ctx p.toNat n).st = .saving) :
    let q := p.toNat
    let x := s.ctx q n
    let s1 := (s.countAt (oSaves q n) 0 1).unseat q
    exec (.saveComplete p) s = .next (if x.stopcode ≠ 0
      then (((s1.setCtx q n { x with st := .stopped, started := [] }).endLaunch q n x.stopcode).endPauses q n 0x0604).settle q
      else ((s1.setCtx q n { x with st := if x.pausing then .paused else .ready, started := [] }).endPauses q n 0).settle q) := by
  intro q x s1
  have hkept : s1.ctx q n = x := (State.ctx_unseat ..).trans (State.ctx_countAt ..)
  refine congrArg Host.Outcome.next ?_
  simp only [hres]
  rw [if_neg (by simp [hon, hst]), hkept]

/-- The first core of a Freehand restore starts, its wave being reached. -/
theorem exec_coreRestoreStart {s : State} {p : BitVec 4} {l k : BitVec 6} {n : Nat} (hon : On s)
    (hres : (s.part p.toNat).resident = some n) (hruled : (s.part p.toNat).ruled = false)
    (hst : (s.ctx p.toNat n).st = .restoring) (hstarted : (s.ctx p.toNat n).startedAt l.toNat k.toNat = false)
    (hl : l.toNat < s.nclu p.toNat) (hreached : s.waveReached p.toNat n k.toNat = true) :
    let x := s.ctx p.toNat n
    exec (.coreRestoreStart p l k) s = .next ((s.setCtx p.toNat n { x with
      st := .running, runTick := s.now, firstStart := false, started := (64 * l.toNat + k.toNat) :: x.started }).afterStart p.toNat n) := by
  intro x
  refine congrArg Host.Outcome.next ?_
  simp only [hres]
  refine (if_neg (by simp [hon, hruled, hst, hstarted, hl, hreached])).trans ?_
  simp only [hst, if_true]
  rfl

theorem savesAndRestores_clauses : Claims.SavesAndRestores := by
  intro s p n hon hres q x
  refine ⟨fun hst hlasts => ?quantum, fun hst => ⟨fun hcode => ?saved, fun hcode => ?stopped⟩,
    fun l k hruled hst hstarted hl hwave => ?core, fun hruled hst => ?ruled, fun now => startTick_aligned⟩
  case quantum =>
    refine congrArg Host.Outcome.next ?_
    simp only [hres]
    exact if_neg (by simp [hon, q, x, hst, hlasts])
  case saved => exact (exec_saveComplete hon hres hst).trans (congrArg Host.Outcome.next (if_neg (not_not_intro hcode)))
  case stopped => exact (exec_saveComplete hon hres hst).trans (congrArg Host.Outcome.next (if_pos hcode))
  case core =>
    refine exec_coreRestoreStart hon hres hruled hst hstarted hl ?_
    by_cases hk : k = 0
    · simp [State.waveReached, hk]
    · simpa [State.waveReached, State.nclu] using .inr fun m hm => hwave m hm hk
  case ruled =>
    refine congrArg Host.Outcome.next ?_
    simp only [hres]
    exact if_neg (by simp [hon, hruled, q, x, hst])

/-- Settles O43: each CTX command by the state of its context, an image of zeros by the keys of the cores it leaves out, the resident
context by how far its save or restore is. -/
theorem contextLifecycle : Obligations.ContextLifecycle :=
  ⟨contextCommands_clauses, zeroImage_clauses, savesAndRestores_clauses⟩

end Sys2Proof.Machine
end

section
/-! Partitions: creation, set-up, the end of a drain, the clean-up (10 R366-R369, R385; 13 R467), and how CHECKPOINT and RESTORE start
(12 R437-R442). -/

namespace Sys2Proof.Machine

theorem domOn_domsOff (x : Plat) {ds : List Nat} {d : Nat} (h : d ∈ ds) : (x.domsOff ds).domOn d = false := by
  have hgone : tget (x.domsOff ds).dom d = none := by
    rw [Plat.domsOff, tget_filter_key (fun k => !ds.contains k), if_neg (by simpa using h)]
  simp [Plat.domOn, tgetD, hgone]

section
variable (s : State) (n : Nat)

theorem State.part_releasePart : (s.releasePart n).part n = { reason := (s.part n).reason, err := (s.part n).err } :=
  State.part_setPart ..

theorem State.clearing_releasePart : (s.releasePart n).clearing = s.clearing ++ (s.part n).dpa := by
  unfold State.releasePart
  dsimp only
  split <;> rfl

theorem State.domOn_releasePart {k : Nat} (h : k ∈ (s.part n).clus) : (s.releasePart n).plat.domOn k = false :=
  domOn_domsOff _ h

theorem State.cores_releasePart {e : Nat × CoreSt} (h : e ∈ (s.releasePart n).cores) : e.1 / 32768 ≠ n := by
  simpa using (List.mem_filter.mp h).2

theorem State.mslot_releasePart {e : Nat × W16} (h : e ∈ (s.releasePart n).mslot) : e.2.toNat ≠ 16 + n := by
  simpa using (List.mem_filter.mp h).2

theorem State.part_setUp (d : Nat) :
    (s.setUp n d).part n = { s.part n with st := .active, cmdSeq := none, lnt := [], ctxs := [] } :=
  State.part_setPart ..

theorem State.rg_setUp (d : Nat) : (s.setUp n d).rg (oPartTime n) =
    ((if pdQUANTUM d = 0 then 2000 else pdQUANTUM d) + (if pdDRAIN d = 0 then 5000 else pdDRAIN d) * 2 ^ 32) % 2 ^ 64 :=
  State.rg_setRg ..

theorem State.quantum_setUp_zero : (s.setUp n 0).quantum n = usTicks 2000 := by
  rw [State.quantum, State.rg_setUp]
  rfl

theorem State.drainLimit_setUp_zero : (s.setUp n 0).drainLimit n = usTicks 5000 := by
  rw [State.drainLimit, State.rg_setUp]
  rfl

end

theorem exec_partCreateDone {s : State} {p : BitVec 4} {c : Cmd} (hon : On s) (hst : (s.part p.toNat).st = .creating)
    (hclear : s.clearingMeets (s.part p.toNat).dpa = false) (hdoms : ∀ k ∈ (s.part p.toNat).clus, s.plat.domOn k = true)
    (hseq : (s.part p.toNat).cmdSeq = some c.seq) (hcmd : s.cmd c.seq = some c) :
    exec (.partCreateDone p) s = .next ((s.setUp p.toNat (bits c.body 128 256)).doneCmd c.seq 0 0) := by
  have hbind : (s.part p.toNat).cmdSeq.bind s.cmd = some c := by rw [hseq, Option.bind_some, hcmd]
  refine congrArg Host.Outcome.next ((if_neg (by simpa [hon, hst, hclear] using hdoms)).trans ?_)
  simp only [hbind]
  rfl

theorem exec_partAbortDone {s : State} {p : BitVec 4} (hon : On s) (hst : (s.part p.toNat).st = .aborting)
    (hsf : s.sf = []) (hseq : (s.part p.toNat).cmdSeq = none) :
    exec (.partAbortDone p) s = .next ((((List.range 16).foldl (fun (t : State) q => t.tmvClear q p.toNat) s).dropPools
      p.toNat).releasePart p.toNat) := by
  have hheld : s.heldBy p.toNat = [] := by rw [State.heldBy, hsf]; rfl
  refine congrArg Host.Outcome.next ((if_neg (by simp [hon, hst])).trans ((if_neg (by simp [hheld])).trans ?_))
  simp only [hseq]

theorem exec_dramClearDone {s : State} (hon : On s) (hclean : s.upsets = []) :
    exec .dramClearDone s = .next { s with
      dram := s.clearing.foldl (fun m r => mclear m (r.1 * 2 ^ 21) (r.2 * 2 ^ 21)) s.dram
      dramPoison := s.dramPoison.filter fun l => !s.clearing.any (fun r => decide (r.1 ≤ l / 8192) && decide (l / 8192 < r.1 + r.2))
      clearing := [] } := by
  refine congrArg Host.Outcome.next ((if_neg (not_not_intro hon)).trans ?_)
  have hnone (pr : ErrAt → Bool) : s.upsetsIn pr = s.upsets := by rw [State.upsetsIn, hclean, List.filter_nil]
  simp only [State.dramCleared, hnone]
  rfl

theorem partitionLifecycle_clauses : Claims.PartitionLifecycle := by
  constructor
  · intro s seq c p d x
    refine ⟨fun h => ⟨fun r hr hne => ?refused, fun hr => ?create⟩, fun h => ?disable⟩
    case refused =>
      subst hr
      exact next_of_starts h (if_pos hne)
    case create => exact next_of_starts h (if_neg (not_not_intro hr))
    case disable => exact next_of_starts h rfl
  · intro s p c hon n x
    refine ⟨exec_partCreateDone hon, fun hst hres => ?limit, exec_partAbortDone hon, ?released,
      exec_dramClearDone hon, ?setUp⟩
    case limit =>
      have hcopy : s.copying p.toNat = false := by
        have hres' : (s.part p.toNat).resident = none := hres
        simp only [State.copying, hres']
      exact congrArg Host.Outcome.next (if_neg (by simp [hon, hst, hcopy, x, n]))
    case released =>
      exact ⟨s.part_releasePart n, s.clearing_releasePart n, fun k => s.domOn_releasePart n, fun e => s.cores_releasePart n,
        fun e => s.mslot_releasePart n⟩
    case setUp =>
      have hpart := s.part_setUp n 0
      exact ⟨congrArg Part.st hpart, congrArg Part.lnt hpart, congrArg Part.ctxs hpart, s.quantum_setUp_zero n,
        s.drainLimit_setUp_zero n⟩

theorem checkpointAndRestore_clauses : Claims.CheckpointAndRestore := by
  intro s seq c p n x
  refine ⟨fun h => ⟨fun hst => ?ckRunning, fun hst harea hbusy => ?ckBusy, fun hst harea hnone hclosed => ?checkpoint⟩,
    fun h => ⟨fun hst => ?rsRunning, fun hst harea hnone => ?restore⟩⟩
  case ckRunning =>
    have hhere : (s.ctx c.f c.ctxNo).st = .running := hst
    exact next_of_starts h (if_pos (by simp [hhere]))
  case ckBusy =>
    have hhere : (s.ctx c.f c.ctxNo).st = .idle := hst
    exact next_of_starts h ((if_neg (by simp [hhere])).trans ((if_neg (Bool.eq_false_iff.mp harea)).trans (if_pos hbusy)))
  case checkpoint =>
    have hhere : (s.ctx c.f c.ctxNo).st = .idle := hst
    have hidle : ¬ (s.part p).ckpt.isSome = true := Option.not_isSome_iff_eq_none.mpr hnone
    exact next_of_starts h ((if_neg (by simp [hhere])).trans ((if_neg (Bool.eq_false_iff.mp harea)).trans
      ((if_neg hidle).trans (if_neg (Bool.eq_false_iff.mp hclosed)))))
  case rsRunning => exact next_of_starts h (if_pos (not_atRest_of_running hst))
  case restore =>
    have hidle : ¬ (s.part p).ckpt.isSome = true := Option.not_isSome_iff_eq_none.mpr hnone
    exact next_of_starts h ((if_neg (Bool.eq_false_iff.mp (atRest_of_idle hst))).trans
      ((if_neg (Bool.eq_false_iff.mp harea)).trans (if_neg hidle)))

/-- Settles O45: each command by the checks it passes, the set-up and the clean-up by the tables they write. -/
theorem partitionsAndCheckpoints : Obligations.PartitionsAndCheckpoints :=
  ⟨partitionLifecycle_clauses, checkpointAndRestore_clauses⟩

end Sys2Proof.Machine
end

section
/-! Commands in the journal (11 R404-R406, R412, R413): what the list of commands reads after one of them is replaced, how a command
ends, and how it waits. -/

namespace Sys2Proof.Machine

/-! The list of commands. -/

theorem seq_of_cmd {s : State} {n : Nat} {c : Cmd} (h : s.cmd n = some c) : c.seq = n := by
  simpa using List.find?_some h

theorem State.cmd_setCmd (s : State) (d : Cmd) (n : Nat) :
    (s.setCmd d).cmd n = (s.cmd n).map fun c => if c.seq = d.seq then d else c := by
  have hseq : (fun c : Cmd => c.seq == n) ∘ (fun c => if c.seq = d.seq then d else c) = fun c => c.seq == n := by
    funext c
    by_cases h : c.seq = d.seq <;> simp [h]
  refine List.find?_map.trans ?_
  rw [hseq]
  rfl

theorem cmd_setCmd_self {s : State} {n : Nat} {c d : Cmd} (h : s.cmd n = some c) (hseq : d.seq = n) :
    (s.setCmd d).cmd n = some d := by
  rw [State.cmd_setCmd, h, Option.map_some, if_pos ((seq_of_cmd h).trans hseq.symm)]

theorem cmd_setCmd_ne (s : State) {n : Nat} {d : Cmd} (h : d.seq ≠ n) : (s.setCmd d).cmd n = s.cmd n := by
  rw [State.cmd_setCmd]
  cases hc : s.cmd n with
  | none => rfl
  | some c => rw [Option.map_some, if_neg fun he => h (he.symm.trans (seq_of_cmd hc))]

/-! The end of a command (11 R412, R413). -/

/-- A command at its end. -/
def Cmd.ended (c : Cmd) (now code parts detail : Nat) : Cmd :=
  { c with st := if code = 0x0601 then 3 else if code = 0x0602 then 4 else 2, code, parts, detail, fin := now }

/-- A command replaced by itself at its end, the command unit's codes counted. -/
def State.endCmd (s : State) (d : Cmd) : State :=
  if 0x0601 ≤ d.code ∧ d.code ≤ 0x0608 then (s.setCmd d).count d.code else s.setCmd d

theorem endCmd_eq_counters (s : State) (d : Cmd) : ∃ c q, s.endCmd d = { s.setCmd d with ctr := c, bltq := q } := by
  unfold State.endCmd
  split
  · exact count_eq_counters ..
  · exact ⟨_, _, rfl⟩

section
variable {s : State} {seq code parts detail : Nat} {c : Cmd}

theorem finishCmd_of_none (hcmd : s.cmd seq = none) : s.finishCmd seq code parts detail = s := by
  simp only [State.finishCmd, hcmd]

theorem finishCmd_of_final (hcmd : s.cmd seq = some c) (hst : 2 ≤ c.st) : s.finishCmd seq code parts detail = s := by
  have hfinal : c.final = true := decide_eq_true hst
  simp only [State.finishCmd, hcmd, hfinal, if_true]

theorem finishCmd_of_open (hcmd : s.cmd seq = some c) (hst : c.st < 2) :
    s.finishCmd seq code parts detail =
      let t := s.endCmd (c.ended s.now code parts detail)
      if s.ringActive c.f c.r = true then { t with order := t.order ++ [seq] }
      else { t with cmds := t.cmds.filter fun e => e.seq != seq } := by
  have hfinal : c.final = false := decide_eq_false (Nat.not_le.mpr hst)
  have hring : (s.endCmd (c.ended s.now code parts detail)).ringActive c.f c.r = s.ringActive c.f c.r := by
    obtain ⟨ctr, q, h⟩ := endCmd_eq_counters s (c.ended s.now code parts detail)
    rw [h]
    rfl
  rw [← hring]
  simp only [State.finishCmd, hcmd, hfinal, Bool.false_eq_true, if_false]
  rfl

end

/-- The end of a command touches the lists of commands, the journal, the errors met and the counters alone. -/
theorem finishCmd_eq_journal (s : State) (seq code parts detail : Nat) : ∃ cmds order jrn upsets ctr bltq,
    s.finishCmd seq code parts detail = { s with cmds, order, jrn, upsets, ctr, bltq } := by
  cases hcmd : s.cmd seq with
  | none => exact ⟨_, _, _, _, _, _, finishCmd_of_none hcmd⟩
  | some c =>
    by_cases hst : 2 ≤ c.st
    · exact ⟨_, _, _, _, _, _, finishCmd_of_final hcmd hst⟩
    · rw [finishCmd_of_open hcmd (Nat.not_le.mp hst)]
      obtain ⟨ctr, q, h⟩ := endCmd_eq_counters s (c.ended s.now code parts detail)
      simp only [h]
      split <;> exact ⟨_, _, _, _, _, _, rfl⟩

theorem commandsEnd_clauses : Claims.CommandsEnd := by
  intro s seq code parts detail c hcmd t
  have hseq := seq_of_cmd hcmd
  obtain ⟨ctr, q, hend⟩ := endCmd_eq_counters s (c.ended s.now code parts detail)
  refine ⟨fun hst => finishCmd_of_final hcmd hst, fun hst hring => ?active, fun hst hring => ?inactive⟩
  case active =>
    have ht : t = { s.setCmd (c.ended s.now code parts detail) with ctr, bltq := q, order := s.order ++ [seq] } := by
      rw [show t = _ from finishCmd_of_open hcmd hst, hend]
      exact if_pos hring
    rw [ht]
    refine ⟨cmd_setCmd_self hcmd hseq, rfl, fun n hn => cmd_setCmd_ne s (d := c.ended s.now code parts detail) ?_, ?_⟩
    · exact fun h => hn (h.symm.trans hseq)
    · rw [← hseq]
      exact tget_tput_self ..
  case inactive =>
    have ht : t = { s.setCmd (c.ended s.now code parts detail) with
        ctr, bltq := q, cmds := (s.setCmd (c.ended s.now code parts detail)).cmds.filter fun e => e.seq != seq } := by
      rw [show t = _ from finishCmd_of_open hcmd hst, hend]
      exact if_neg (Bool.eq_false_iff.mp hring)
    rw [ht]
    exact ⟨by simp [State.cmd, List.find?_eq_none], rfl⟩

/-! Commands that wait (11 R404-R406). -/

theorem start_of_waiting {s : State} {seq : W64} {c : Cmd} (hcmd : s.cmd seq.toNat = some c) (hwait : s.mayStart c = false)
    (op : Nat) (run : Cmd → State → State) : s.start seq op run = s := by
  simp [State.start, hcmd, hwait]

/-- A command other than PART_CREATE and QUERY in a partition that does not exist. -/
theorem start_of_free {s : State} {seq : W64} {c : Cmd} {op : Nat} (hcmd : s.cmd seq.toNat = some c) (hst : c.st = 0)
    (hmay : s.mayStart c = true) (hheld : s.heldLaunch c = false) (hfree : (s.part c.f).st = .free) (hop : c.op = op)
    (hcreate : op ≠ 0x10) (hquery : op ≠ 0x30) (run : Cmd → State → State) : s.start seq op run = s.doneCmd c.seq 0x0604 0 := by
  have hadmit : s.admits c = some false := by simp [State.admits, hfree, hop, hcreate, hquery]
  simp [State.start, hcmd, hop, hst, hheld, hmay, hadmit, State.stateCmd]

theorem commandsWait_clauses : Claims.CommandsWait := by
  intro s seq c hcmd hst
  refine ⟨fun hwait => ?waits, fun hmay hheld hfree => ?free⟩
  case waits =>
    have hstart (op : Nat) (run : Cmd → State → State) :
        Host.Outcome.next (φ := Fault) (ρ := Refusal) (s.start seq op run) = .next s :=
      congrArg Host.Outcome.next (start_of_waiting hcmd hwait op run)
    have hfence : exec (.fence seq) s = .next s := by
      refine Eq.trans (congrArg Host.Outcome.next ?_) (hstart 6 fun c s => if s.fenceWaits c then s.startCmd c else s.doneCmd c.seq 0 0)
      simp only [hcmd]
      exact if_neg fun h => by omega
    exact ⟨hfence, hstart .., hstart .., hstart .., hstart .., hstart .., hstart .., hstart ..⟩
  case free =>
    have hstart {op : Nat} (hop : c.op = op) (hcreate : op ≠ 0x10) (hquery : op ≠ 0x30) (run : Cmd → State → State) :=
      congrArg (Host.Outcome.next (φ := Fault) (ρ := Refusal)) (start_of_free hcmd hst hmay hheld hfree hop hcreate hquery run)
    exact ⟨fun hop => hstart hop (by decide) (by decide) _, fun hop => hstart hop (by decide) (by decide) _,
      fun hop => hstart hop (by decide) (by decide) _, fun hop => hstart hop (by decide) (by decide) _⟩

/-! FENCE, CANCEL_BATCH and QUERY (11 R405, R406; 06 R227). -/

theorem fenceWaits_iff (s : State) (c : Cmd) : s.fenceWaits c = true ↔
    ∃ d ∈ s.cmds, d.f = c.f ∧ (bit c.body 64 = true ∨ d.r = c.r) ∧ d.seq < c.seq ∧ d.st < 2 := by
  simp [State.fenceWaits, Cmd.final, and_assoc]

theorem exec_fence_of_starts {s : State} {seq : W64} {c : Cmd} (h : Starts s seq.toNat 6 c) :
    exec (.fence seq) s = .next (if s.fenceWaits c then s.startCmd c else s.doneCmd c.seq 0 0) := by
  obtain ⟨hcmd, -, hst, -⟩ := id h
  refine Eq.trans (congrArg Host.Outcome.next ?_)
    (next_of_starts h (run := fun c s => if s.fenceWaits c then s.startCmd c else s.doneCmd c.seq 0 0) rfl)
  simp only [hcmd]
  exact if_neg fun hrun => by omega

theorem exec_fence_of_running {s : State} {seq : W64} {c : Cmd} (hon : On s) (hcmd : s.cmd seq.toNat = some c) (hop : c.op = 6)
    (hst : c.st = 1) : exec (.fence seq) s = .next (if s.fenceWaits c then s else (s.doneCmd c.seq 0 0).settle c.f) := by
  refine congrArg Host.Outcome.next ?_
  simp only [hcmd]
  exact if_pos ⟨hop, hst, hon⟩

theorem fenceCancelQuery_clauses : Claims.FenceCancelQuery := by
  intro s seq c waits
  have hwaits : s.fenceWaits c = true ↔ waits := fenceWaits_iff s c
  refine ⟨fun h => ?fence, fun hon hcmd hop hst => ?running, fun h => next_of_starts h rfl,
    fun h => ⟨fun hsel => ?partition, fun hsel => ?context, fun hsel => ?head⟩⟩
  case fence =>
    rw [exec_fence_of_starts h]
    exact ⟨fun hw => by rw [if_pos (hwaits.mpr hw)], fun hw => by rw [if_neg (mt hwaits.mp hw)]⟩
  case running =>
    rw [exec_fence_of_running hon hcmd hop hst]
    exact ⟨fun hw => by rw [if_pos (hwaits.mpr hw)], fun hw => by rw [if_neg (mt hwaits.mp hw)]⟩
  case partition | context | head =>
    refine next_of_starts h ?_
    simp only [hsel]

/-- Settles O41: the end of a command by the commands, the order and the journal that it leaves; its start by the checks that hold
it back; FENCE by what it waits for. -/
theorem commandEnds : Obligations.CommandEnds := ⟨commandsEnd_clauses, commandsWait_clauses, fenceCancelQuery_clauses⟩

end Sys2Proof.Machine
end

section
/-! Numbers put together byte by byte (00 R6), the parts of COPY and FILL (11 R410), and MAP and UNMAP (07 R253). -/

namespace Sys2Proof.Machine

/-! Bytes. -/

/-- What stands above a field does not reach it. -/
theorem bits_add_mul_two_pow {lo n k : Nat} (h : lo + n ≤ k) (v x : Nat) : bits (v + x * 2 ^ k) lo n = bits v lo n := by
  obtain ⟨m, rfl⟩ := Nat.exists_eq_add_of_le h
  have hsplit : v + x * 2 ^ (lo + n + m) = v + 2 ^ lo * (2 ^ n * (x * 2 ^ m)) := by ring
  rw [bits, bits, Nat.shiftRight_eq_div_pow, Nat.shiftRight_eq_div_pow, hsplit, Nat.add_mul_div_left _ _ (Nat.two_pow_pos lo),
    Nat.add_mul_mod_self_left]

/-- The field at the top of what stands below it. -/
theorem bits_add_mul_two_pow_top {k n v x : Nat} (hv : v < 2 ^ k) (hx : x < 2 ^ n) : bits (v + x * 2 ^ k) k n = x := by
  rw [bits, Nat.shiftRight_eq_div_pow, Nat.add_mul_div_right _ _ (Nat.two_pow_pos k), Nat.div_eq_of_lt hv, Nat.zero_add,
    Nat.mod_eq_of_lt hx]

section
variable {f : Nat → Nat} (hf : ∀ i, f i < 256)
include hf

theorem sumBytes_lt (n : Nat) : (List.range n).foldl (fun v i => v + f i * 2 ^ (8 * i)) 0 < 2 ^ (8 * n) := by
  induction n with
  | zero => exact Nat.one_pos
  | succ n ih =>
    have hpow : 2 ^ (8 * (n + 1)) = 2 ^ (8 * n) + 255 * 2 ^ (8 * n) := by ring
    have htop : f n * 2 ^ (8 * n) ≤ 255 * 2 ^ (8 * n) := Nat.mul_le_mul_right _ (Nat.le_of_lt_succ (hf n))
    rw [List.range_succ, List.foldl_append, List.foldl_cons, List.foldl_nil, hpow]
    exact Nat.add_lt_add_of_lt_of_le ih htop

theorem bits_sumBytes {i n : Nat} (h : i < n) :
    bits ((List.range n).foldl (fun v i => v + f i * 2 ^ (8 * i)) 0) (8 * i) 8 = f i := by
  induction n with
  | zero => exact absurd h (Nat.not_lt_zero i)
  | succ n ih =>
    rw [List.range_succ, List.foldl_append, List.foldl_cons, List.foldl_nil]
    rcases Nat.lt_succ_iff_lt_or_eq.mp h with hlt | rfl
    · rw [bits_add_mul_two_pow (by omega), ih hlt]
    · exact bits_add_mul_two_pow_top (sumBytes_lt hf i) (hf i)

end

theorem bits_lt (v lo n : Nat) : bits v lo n < 2 ^ n := Nat.mod_lt _ (Nat.two_pow_pos n)

theorem bits_fillBytes (pat off : Nat) {i n : Nat} (h : i < n) :
    bits (fillBytes pat off n) (8 * i) 8 = bits pat (8 * ((off + i) % 8)) 8 :=
  bits_sumBytes (fun _ => bits_lt ..) h

/-! The parts of a COPY or FILL (11 R410). -/

namespace Cmd

variable (c : Cmd)

/-- The number, among the ranges of 2 MiB that the destination touches, of the first one in part j. -/
def partRange (j : Nat) : Nat := if c.ranges ≤ 64 then j else j * c.ranges / 64

/-- The byte, from the destination's first, at which part j begins. -/
def partStarts (j : Nat) : Nat := min c.len (c.partRange j * granSize - opAddr c.dst % granSize)

theorem partBytes_eq (i : Nat) : c.partBytes i = (c.partStarts i, c.partStarts (i + 1)) := rfl

theorem partRange_zero : c.partRange 0 = 0 := by simp [partRange]

theorem partRange_nparts : c.partRange c.nparts = c.ranges := by
  unfold partRange nparts
  split
  · omega
  · rw [Nat.min_eq_left (by omega), Nat.mul_div_cancel_left _ (by decide)]

theorem partRange_lt_succ (j : Nat) : c.partRange j < c.partRange (j + 1) := by
  unfold partRange
  split
  · exact j.lt_succ_self
  · rw [Nat.succ_mul]
    omega

theorem partRange_lt_ranges {j : Nat} (h : j < c.nparts) : c.partRange j < c.ranges := by
  unfold nparts at h
  unfold partRange
  split
  · omega
  · have hmul : j * c.ranges ≤ 63 * c.ranges := Nat.mul_le_mul_right _ (by omega)
    omega

variable {c}

theorem len_le_ranges : opAddr c.dst % granSize + c.len ≤ c.ranges * granSize := by
  simp only [ranges, granSize]
  omega

theorem lt_len_of_lt_ranges {k : Nat} (h : k < c.ranges) : k * granSize < opAddr c.dst % granSize + c.len := by
  simp only [ranges, granSize] at h ⊢
  omega

theorem partStarts_zero : c.partStarts 0 = 0 := by simp [partStarts, partRange_zero]

theorem partStarts_nparts : c.partStarts c.nparts = c.len := by
  have hcover := len_le_ranges (c := c)
  rw [partStarts, partRange_nparts]
  omega

theorem partStarts_lt_succ {i : Nat} (hlen : 0 < c.len) (h : i < c.nparts) : c.partStarts i < c.partStarts (i + 1) := by
  have hbelow := lt_len_of_lt_ranges (c.partRange_lt_ranges h)
  have hstep : (c.partRange i + 1) * granSize ≤ c.partRange (i + 1) * granSize := Nat.mul_le_mul_right _ (c.partRange_lt_succ i)
  have hoff : opAddr c.dst % granSize < granSize := Nat.mod_lt _ (by decide)
  rw [Nat.succ_mul] at hstep
  unfold partStarts
  omega

theorem nparts_pos (hlen : 0 < c.len) : 0 < c.nparts := by
  have hcover := len_le_ranges (c := c)
  unfold nparts
  rcases Nat.eq_zero_or_pos c.ranges with h | h
  · rw [h] at hcover
    omega
  · omega

end Cmd

/-- A part nothing of which failed or is outside the device ends with success (11 R410). -/
theorem exec_copyPartEnd {s : State} {seq : W64} {part : BitVec 6} {c : Cmd} (hon : On s) (hcmd : s.cmd seq.toNat = some c)
    (hst : c.st = 1) (hop : c.op = 2 ∨ c.op = 3) (hpart : part.toNat < c.nparts) (hopen : bit c.parts part.toNat = false)
    (hfails : c.fails = []) (hback : s.partFlying c.seq part.toNat = false) :
    exec (.copyPartEnd seq part) s =
      .next (((s.setCmd { c with parts := c.parts + 2 ^ part.toNat }).copyEnd c.seq).settle c.f) := by
  have hnone : c.fails.find? (fun e => e.1 == 64 + part.toNat) = none := by rw [hfails, List.find?_nil]
  have hkind : (c.op == 2 || c.op == 3) = true := by simpa using hop
  refine congrArg Host.Outcome.next ?_
  simp only [hcmd]
  rw [if_neg (by simp [hon, hst, hkind, hpart, hopen, hfails, hback])]
  simp only [hnone]
  rfl

theorem copyAndFill_clauses : Claims.CopyAndFill := by
  refine ⟨fun s seq c => ⟨fun h hheld hatomic => ?copy, fun h hheld hatomic => ?fill, fun h hatomic hranges => ?atomic,
    fun part hon hcmd hst hop hpart hopen hfails hback => exec_copyPartEnd hon hcmd hst hop hpart hopen hfails hback⟩,
    fun c _ hlen _ => ?parts, fun pat off n i => bits_fillBytes pat off⟩
  case copy | fill =>
    exact next_of_starts h ((if_neg (by simp [hatomic])).trans (if_neg (by simp [hheld])))
  case atomic => exact next_of_starts h (if_pos (by simp [hatomic, hranges]))
  case parts =>
    have hlast : (c.partBytes (c.nparts - 1)).2 = c.len := by
      rw [Cmd.partBytes_eq, Nat.sub_add_cancel (Cmd.nparts_pos hlen), Cmd.partStarts_nparts]
    exact ⟨Cmd.partStarts_zero, hlast, fun i _ => rfl, fun i hi => Cmd.partStarts_lt_succ hlen hi⟩

/-! MAP and UNMAP (07 R253). -/

section
variable {s : State} {p d : Nat}

theorem mapObj_of_bad (hbad : mapBad d = true) : s.mapObj p d = (s, 0x0710) := if_pos hbad

variable (hgood : mapBad d = false) (hfits : dGran d + dNgran d ≤ 2 ^ 27 - 1)
include hgood hfits

theorem mapObj_of_new {t : State} (hobjs : (s.part p).objs = []) (hnew : s.mapNew p d = some t) : s.mapObj p d = (t, 0) := by
  unfold State.mapObj
  simp only [hgood, hobjs, hnew, List.find?_nil, List.any_nil, Bool.false_eq_true, if_false]
  exact if_neg (by simpa [portGran] using hfits)

theorem mapObj_of_overlap {o : Obj} (hobjs : (s.part p).objs = [o]) (hsame : o.same (dGran d) (dNgran d) = false)
    (hover : o.overlaps (dGran d) (dNgran d) = true) : s.mapObj p d = (s, 0x0712) := by
  unfold State.mapObj
  have hnone : [o].find? (fun o => o.same (dGran d) (dNgran d)) = none := by simp [hsame]
  have hany : [o].any (fun o => o.overlaps (dGran d) (dNgran d)) = true := by simp [hover]
  simp only [hgood, hobjs, hnone, hany, Bool.false_eq_true, if_false, if_true]
  exact if_neg (by simpa [portGran] using hfits)

end

section
variable {s : State} {seq : W64} {c : Cmd}

theorem exec_map_of_starts (h : Starts s seq.toNat 4 c)
    (hidle : s.rangeBusy c.f (dGran (bits c.body 128 384)) (dNgran (bits c.body 128 384)) = false) {r : State × Nat}
    (hr : s.mapObj c.f (bits c.body 128 384) = r) : exec (.map seq) s = .next (r.1.doneCmd c.seq r.2 0) := by
  subst hr
  exact next_of_starts h (if_neg (Bool.eq_false_iff.mp hidle))

variable (h : Starts s seq.toNat 5 c) {g n : Nat} (hg : c.at_ 16 8 / granSize = g) (hn : c.at_ 24 4 = n)
include h hg hn

/-- An UNMAP of a range that is no object is refused. -/
theorem exec_unmap_of_none (hnone : (s.part c.f).objs.find? (fun o => o.same g n) = none) :
    exec (.unmap seq) s = .next (s.doneCmd c.seq 0x0712 0) := by
  refine next_of_starts h ?_
  simp only [hg, hn, hnone]
  rfl

theorem exec_unmap_of_object {o : Obj} (hobj : (s.part c.f).objs.find? (fun o => o.same g n) = some o) :
    exec (.unmap seq) s = .next (if c.at_ 16 8 % granSize ≠ 0 || s.poolMeets c.f g n then s.doneCmd c.seq 0x0712 0
      else (((s.startCmd c).recallAll c.f (s.heldIn c.f g n)).dropObj c.f o).unmapCheck c.f) := by
  refine next_of_starts h ?_
  simp only [hg, hn, hobj]
  rfl

end

theorem mapAndUnmap_clauses : Claims.MapAndUnmap := by
  intro s seq c p
  let g := c.at_ 16 8 / granSize
  let n := c.at_ 24 4
  have hfind {o : Obj} (hobjs : (s.part p).objs = [o]) (hsame : o.same g n = true) :
      (s.part p).objs.find? (fun o => o.same g n) = some o := by
    rw [hobjs]
    exact List.find?_cons_of_pos hsame
  refine ⟨fun h hidle => ⟨fun hbad => ?bad, fun t hgood hfits hobjs hnew => ?new, fun o hgood hfits hobjs hsame hover => ?overlap⟩,
    fun h => ⟨fun hobjs => ?unmapped, fun o hobjs hsame hwhole hfree hsf => ?dropped, fun o hobjs hsame hpool => ?pooled⟩⟩
  case bad => exact exec_map_of_starts h hidle (mapObj_of_bad hbad)
  case new => exact exec_map_of_starts h hidle (mapObj_of_new hgood hfits hobjs hnew)
  case overlap => exact exec_map_of_starts h hidle (mapObj_of_overlap hgood hfits hobjs hsame hover)
  case unmapped =>
    have hnone : (s.part c.f).objs.find? (fun o => o.same g n) = none := by rw [show (s.part c.f).objs = [] from hobjs, List.find?_nil]
    exact exec_unmap_of_none h rfl rfl hnone
  case dropped =>
    have hheld : s.heldIn c.f g n = [] := by simp [State.heldIn, hsf]
    have hkept : ¬ (decide (c.at_ 16 8 % granSize ≠ 0) || s.poolMeets c.f g n) = true := by
      have hwhole' : c.at_ 16 8 % granSize = 0 := hwhole
      rw [show s.poolMeets c.f g n = false from hfree, Bool.or_false, hwhole']
      decide
    rw [exec_unmap_of_object h rfl rfl (hfind hobjs hsame), if_neg hkept, hheld]
    rfl
  case pooled =>
    rw [exec_unmap_of_object h rfl rfl (hfind hobjs hsame), if_pos]
    rw [show s.poolMeets c.f g n = true from hpool, Bool.or_true]

/-- Settles O44: parts by where each begins, MAP by what its check answers, UNMAP by the object that it finds. -/
theorem copiesAndMaps : Obligations.CopiesAndMaps := ⟨copyAndFill_clauses, mapAndUnmap_clauses⟩

end Sys2Proof.Machine
end

section
/-! Host reads, writes and atomics over DynerLink (11 R395-R397, R400; 02 R43): where a request on a function's Reservoir lies and how
it is served at its home, and the snoop filter. -/

namespace Sys2Proof.Machine

/-! A request on a function's Reservoir (11 R395, R396; 07 R256). -/

section
variable {s : State} {f a : Nat} {h : Home} {write : Bool}

theorem hostAcc_of_readOnly (hhome : s.hostHome f a = some h) (hro : s.hostRo f a = true) : s.hostAcc f a true = .refused cFABPERM := by
  simp [State.hostAcc, hhome, hro]

theorem hostAcc_of_moving (hhome : s.hostHome f a = some h) (hro : (write && s.hostRo f a) = false) (hbusy : s.migBusy f a = true) :
    s.hostAcc f a write = .waits := by
  simp [State.hostAcc, hhome, hro, hbusy]

theorem hostAcc_of_home (hhome : s.hostHome f a = some h) (hro : (write && s.hostRo f a) = false) (hidle : s.migBusy f a = false) :
    s.hostAcc f a write = .home h := by
  simp [State.hostAcc, hhome, hro, hidle]

variable {b : Blocked}

theorem hostServe_of_refused {code : Nat} (hacc : s.hostAcc b.f b.addr b.op.writes = .refused code) :
    s.hostServe b = s.hostRefuse (.func (BitVec.ofNat 4 b.f)) b.addr code := by
  simp only [State.hostServe, hacc]

theorem hostServe_of_waits (hacc : s.hostAcc b.f b.addr b.op.writes = .waits) :
    s.hostServe b = { s with blocked := s.blocked ++ [b] } := by
  simp only [State.hostServe, hacc]

theorem eccFilter_of_clean (hclean : s.upsets = []) (f line : Nat) : s.eccFilter f line = (s, false) := by
  simp [State.eccFilter, State.upsetsIn, hclean]

/-- Without errors a request is served at the home of its bytes. -/
theorem hostServe_of_home (hclean : s.upsets = []) (hacc : s.hostAcc b.f b.addr b.op.writes = .home h) :
    s.hostServe b = s.serveHome b h := by
  simp only [State.hostServe, hacc, eccFilter_of_clean hclean, eccHome_of_clean hclean]
  rfl

end

theorem func_ofNat_toNat (f : BitVec 4) : HostTarget.func (BitVec.ofNat 4 f.toNat) = .func f := by simp

theorem hostRefuse_refused (s : State) (t : HostTarget) (a : Nat) :
    s.hostRefuse t a 0x0609 = (s.count 0x0609).tell (.reply t a 0x0609 false 0 0) := rfl

theorem hostRefuse_poison (s : State) (t : HostTarget) (a : Nat) :
    s.hostRefuse t a 0x0805 = (s.count 0x0805).tell (.reply t a 0x0805 false 0 0) := rfl

theorem hostRefuse_perm (s : State) (t : HostTarget) (a : Nat) :
    s.hostRefuse t a 0x0403 = s.tell (.reply t a 0x0403 false 0 0) := rfl

/-! Each command while the link serves. -/

section
variable {s : State} (hon : On s) (hlink : s.link = .up)
include hon hlink

theorem linkUp_of_up : s.linkUp = true := by simp [State.linkUp, hon, hlink]

theorem exec_loadpeek (t : HostTarget) (a : BitVec 64) (size : BitVec 9) :
    exec (.loadpeek t a size) s = .next (s.peek t a.toNat size.toNat) :=
  congrArg Host.Outcome.next (if_pos (linkUp_of_up hon hlink))

theorem exec_loadshare (t : HostTarget) (a : BitVec 64) : exec (.loadshare t a) s = .next (s.share t a.toNat false) :=
  congrArg Host.Outcome.next (if_pos (linkUp_of_up hon hlink))

theorem exec_loadclaim (t : HostTarget) (a : BitVec 64) : exec (.loadclaim t a) s = .next (s.share t a.toNat true) :=
  congrArg Host.Outcome.next (if_pos (linkUp_of_up hon hlink))

theorem exec_storemask (t : HostTarget) (a mask : BitVec 64) (data : BitVec 512) :
    exec (.storemask t a mask data) s = .next (s.storeMask t a.toNat mask.toNat data.toNat) :=
  congrArg Host.Outcome.next (if_pos (linkUp_of_up hon hlink))

theorem exec_hostAtomic (t : HostTarget) (a : BitVec 64) (cas wide : Bool) (ty : BitVec 2) (x y : BitVec 128) :
    exec (.hostAtomic t a cas wide ty x y) s = .next (s.hostAtomic t a.toNat cas wide ty.toNat x.toNat y.toNat) :=
  congrArg Host.Outcome.next (if_pos (linkUp_of_up hon hlink))

end

/-! Reads (11 R395-R397). -/

section
variable {s : State} {n : Nat}

theorem peek_register (hlow : n < 0x04000000) (hal : n % 8 = 0) :
    s.peek .mgmt n 8 = s.tell (.reply .mgmt n 0 false 8 (s.regRead n)) := by
  have hread : s.mgmtRead n 8 = some (s.regRead n) := by simp [State.mgmtRead, hlow, hal]
  have hkept : s.jrnLost n 8 = false := by simp [State.jrnLost, hlow]
  simp [State.peek, hread, hkept, State.hostReply]

theorem peek_outside (hhigh : 0x05080000 ≤ n) (size : Nat) :
    s.peek .mgmt n size = (s.count 0x0609).tell (.reply .mgmt n 0x0609 false 0 0) := by
  have hread : s.mgmtRead n size = none := by
    simp only [State.mgmtRead]
    rw [if_neg (by omega), if_neg (by omega), if_neg (by omega)]
  simp only [State.peek, hread]
  rfl

theorem peek_line {size : Nat} (f : BitVec 4) (hok : peekOk n size = true) (hwl : wlIndex n = none) :
    s.peek (.func f) n size = s.hostServe ⟨f.toNat, n, .peek size⟩ := by
  simp [State.peek, hok, hwl]

theorem share_line (f : BitVec 4) (claim : Bool) (hal : n % 64 = 0) (hwl : wlIndex n = none) :
    s.share (.func f) n claim = s.hostServe ⟨f.toNat, n, .share claim⟩ := by
  simp [State.share, hal, hwl]

theorem share_unaligned (t : HostTarget) (claim : Bool) (hal : n % 64 ≠ 0) :
    s.share t n claim = (s.count 0x0609).tell (.reply t n 0x0609 false 0 0) := by
  cases t with
  | mgmt => rfl
  | func f => exact if_pos hal

section
variable {b : Blocked} {claim : Bool} {h : Home} (hgood : s.hpoison h 64 = false)
include hgood

/-- A line that is not poisoned, in an empty set of the filter, is shared. -/
theorem shareServe_of_empty (hset : s.sfSetOf b.f (b.addr / 64) = []) : s.shareServe b claim h =
    (s.sfInsert b.f (b.addr / 64) claim).hostReply (.func (BitVec.ofNat 4 b.f)) b.addr true 64 (s.hread h 64) := by
  simp [State.shareServe, hgood, hset]

/-- One whose set has entries is shared where one of them is its own or there is room; a full set gives up its first. -/
theorem shareServe_of_entries {v : SfEnt} {vs : List SfEnt} (hset : s.sfSetOf b.f (b.addr / 64) = v :: vs) :
    s.shareServe b claim h =
      let wait : State := { s with blocked := s.blocked ++ [b] }
      if s.sfEntry b.f (b.addr / 64) = none ∧ 15 ≤ vs.length then
        (if (v.f, v.line) ∈ s.recalls then wait else (wait.count 0x0612).sendRecall v.f v.line)
      else (s.sfInsert b.f (b.addr / 64) claim).hostReply (.func (BitVec.ofNat 4 b.f)) b.addr true 64 (s.hread h 64) := by
  simp [State.shareServe, hgood, hset]

end

end

/-! The snoop filter (11 R397). -/

/-- An entry, claimed if it is that of a line which is. -/
def SfEnt.claimAt (f line : Nat) (claim : Bool) (e : SfEnt) : SfEnt :=
  if e.f == f && e.line == line then { e with claimed := e.claimed || claim } else e

@[simp] theorem SfEnt.claimAt_f (f line : Nat) (claim : Bool) (e : SfEnt) : (e.claimAt f line claim).f = e.f := by
  unfold SfEnt.claimAt
  split <;> rfl

@[simp] theorem SfEnt.claimAt_line (f line : Nat) (claim : Bool) (e : SfEnt) : (e.claimAt f line claim).line = e.line := by
  unfold SfEnt.claimAt
  split <;> rfl

theorem SfEnt.claimAt_self (claim : Bool) (e : SfEnt) : e.claimAt e.f e.line claim = { e with claimed := e.claimed || claim } := by
  simp [SfEnt.claimAt]

theorem SfEnt.claimAt_other {f line : Nat} (claim : Bool) {e : SfEnt} (hne : e.f ≠ f ∨ e.line ≠ line) : e.claimAt f line claim = e :=
  if_neg (by rcases hne with h | h <;> simp [h])

theorem find?_claimAt (sf : List SfEnt) (f line g k : Nat) (claim : Bool) :
    (sf.map (SfEnt.claimAt f line claim)).find? (fun e => e.f == g && e.line == k) =
      (sf.find? (fun e => e.f == g && e.line == k)).map (SfEnt.claimAt f line claim) := by
  have hkey : (fun e : SfEnt => e.f == g && e.line == k) ∘ SfEnt.claimAt f line claim = fun e => e.f == g && e.line == k := by
    funext e
    simp
  rw [List.find?_map, hkey]

theorem key_of_find? {sf : List SfEnt} {f line : Nat} {e : SfEnt} (h : sf.find? (fun e => e.f == f && e.line == line) = some e) :
    e.f = f ∧ e.line = line := by
  simpa using List.find?_some h

section
variable {s : State} {f line : Nat} (claim : Bool)

/-- A line's entry stays where it is, and becomes claimed where the line is. -/
theorem sfInsert_sf_of_some {e : SfEnt} (h : s.sfEntry f line = some e) :
    (s.sfInsert f line claim).sf = s.sf.map (SfEnt.claimAt f line claim) := by
  simp only [State.sfInsert, h]
  rfl

theorem sfInsert_sf_of_none (h : s.sfEntry f line = none) :
    (s.sfInsert f line claim).sf = s.sf ++ [{ f, line, claimed := claim }] := by
  simp only [State.sfInsert, h]
  rfl

theorem sfEntry_sfInsert : ∃ e, (s.sfInsert f line claim).sfEntry f line = some e ∧ e.f = f ∧ e.line = line ∧
    (claim = true → e.claimed = true) := by
  cases h : s.sfEntry f line with
  | none =>
    refine ⟨{ f, line, claimed := claim }, ?_, rfl, rfl, id⟩
    have hold : s.sf.find? (fun e => e.f == f && e.line == line) = none := h
    simp [State.sfEntry, sfInsert_sf_of_none claim h, List.find?_append, hold]
  | some e =>
    obtain ⟨rfl, rfl⟩ := key_of_find? h
    refine ⟨{ e with claimed := e.claimed || claim }, ?_, rfl, rfl, fun hc => by simp [hc]⟩
    have hold : s.sf.find? (fun x => x.f == e.f && x.line == e.line) = some e := h
    rw [State.sfEntry, sfInsert_sf_of_some claim h, find?_claimAt, hold, Option.map_some, SfEnt.claimAt_self]

theorem sfEntry_sfInsert_other {g k : Nat} (hne : g ≠ f ∨ k ≠ line) : (s.sfInsert f line claim).sfEntry g k = s.sfEntry g k := by
  cases h : s.sfEntry f line with
  | none =>
    have hother : (f == g && line == k) = false := by rcases hne with h | h <;> simp [Ne.symm h]
    simp [State.sfEntry, sfInsert_sf_of_none claim h, List.find?_append, hother]
  | some e =>
    rw [State.sfEntry, sfInsert_sf_of_some claim h, find?_claimAt, State.sfEntry]
    cases hfind : s.sf.find? (fun e => e.f == g && e.line == k) with
    | none => rfl
    | some x =>
      obtain ⟨rfl, rfl⟩ := key_of_find? hfind
      rw [Option.map_some, SfEnt.claimAt_other claim hne]

end

theorem hostReads_clauses : Claims.HostReads := by
  intro s a hon hlink hclean n
  refine ⟨fun hlow hal => ?register, fun size hhigh => ?outside, fun f size h hok hwl hhome hidle => ?peek,
    fun f size h hok hwl hhome hbusy => ?waits, fun f claim h hal hwl hhome hidle hro => ?share, fun f l c => ?insert,
    fun t hal => ?unaligned⟩
  case register => exact (exec_loadpeek hon hlink ..).trans (congrArg Host.Outcome.next (peek_register hlow hal))
  case outside => exact (exec_loadpeek hon hlink ..).trans (congrArg Host.Outcome.next (peek_outside hhigh _))
  case peek =>
    rw [exec_loadpeek hon hlink, peek_line f hok hwl, hostServe_of_home hclean (hostAcc_of_home hhome rfl hidle)]
    simp only [State.serveHome, func_ofNat_toNat]
    rfl
  case waits => rw [exec_loadpeek hon hlink, peek_line f hok hwl, hostServe_of_waits (hostAcc_of_moving hhome rfl hbusy)]
  case share =>
    have hacc : s.hostAcc f.toNat n (HostOp.share claim).writes = .home h := by
      refine hostAcc_of_home hhome ?_ hidle
      cases claim with
      | false => rfl
      | true => exact hro rfl
    have hexec : exec (if claim then Instr.loadclaim (.func f) a else Instr.loadshare (.func f) a) s =
        .next (s.shareServe ⟨f.toNat, n, .share claim⟩ claim h) := by
      have hserve : s.share (.func f) n claim = s.shareServe ⟨f.toNat, n, .share claim⟩ claim h :=
        (share_line f claim hal hwl).trans (hostServe_of_home (b := ⟨f.toNat, n, .share claim⟩) hclean hacc)
      cases claim with
      | false => exact (exec_loadshare hon hlink ..).trans (congrArg Host.Outcome.next hserve)
      | true => exact (exec_loadclaim hon hlink ..).trans (congrArg Host.Outcome.next hserve)
    refine ⟨fun hbad => ?_, fun hgood => ?_⟩
    · refine hexec.trans (congrArg Host.Outcome.next ((if_pos hbad).trans ?_))
      rw [func_ofNat_toNat]
      rfl
    · rw [hexec]
      cases hset : s.sfSetOf f.toNat (n / 64) with
      | nil =>
        rw [shareServe_of_empty hgood hset, func_ofNat_toNat]
        rfl
      | cons v vs =>
        rw [shareServe_of_entries hgood hset, func_ofNat_toNat]
        rfl
  case insert =>
    obtain ⟨e, hentry, hf, hl, hc⟩ := sfEntry_sfInsert (s := s) (f := f) (line := l) c
    exact ⟨e, hentry, hf, hl, hc, fun g k hne => sfEntry_sfInsert_other c hne⟩
  case unaligned =>
    rw [exec_loadshare hon hlink, exec_loadclaim hon hlink, share_unaligned t _ hal, share_unaligned t _ hal]
    exact ⟨rfl, rfl⟩

/-! Writes and atomics (11 R396, R400; 02 R43). -/

theorem bits_maskBytes (mask new old : Nat) {i n : Nat} (h : i < n) :
    bits (maskBytes mask new old n) (8 * i) 8 = if bit mask i then bits new (8 * i) 8 else bits old (8 * i) 8 := by
  refine bits_sumBytes (f := fun i => if bit mask i then bits new (8 * i) 8 else bits old (8 * i) 8) (fun j => ?_) h
  split <;> exact bits_lt ..

/-- A mask of one aligned word names that word. -/
theorem wordOfMask_word {i : Nat} (h : i < 8) : wordOfMask (0xFF * 2 ^ (8 * i)) = some i := by
  have hall : ∀ j < 8, wordOfMask (0xFF * 2 ^ (8 * j)) = some j := by decide
  exact hall i h

section
variable {s : State} {n : Nat}

theorem storeMask_line (f : BitVec 4) (mask data : Nat) (hal : n % 64 = 0) (hwl : wlIndex n = none) :
    s.storeMask (.func f) n mask data = s.hostServe ⟨f.toNat, n, .mask mask data⟩ := by
  simp [State.storeMask, hal, hwl]

theorem storeMask_watched {i : Nat} (f : BitVec 4) (mask data : Nat) (hal : n % 64 = 0) (hwl : wlIndex n = some i) :
    s.storeMask (.func f) n mask data = if s.wlOf f.toNat i
      then (({ s with wl := mwrite s.wl (64 * i) 64 (maskBytes mask data (mread s.wl (64 * i) 64) 64) } : State).wakeLine
        i).tell (.reply (.func f) n 0 false 0 0)
      else (s.count 0x0609).tell (.reply (.func f) n 0x0609 false 0 0) := by
  simp only [State.storeMask, hwl]
  rw [if_neg (by simp [hal])]
  rfl

theorem storeMask_register {mask i : Nat} (data : Nat) (hal : n % 64 = 0) (hword : wordOfMask mask = some i) (hlow : n < 0x04000000) :
    s.storeMask .mgmt n mask data = (s.tell (.reply .mgmt n 0 false 0 0)).regWrite (n + 8 * i) (bits data (64 * i) 64) := by
  simp [State.storeMask, hal, hword, hlow, State.hostReply]

section
variable {cas wide : Bool} {ty : Nat} (hform : cas = false → wide = false ∧ ty ≤ 1) (hal : n % atomSize cas wide ty = 0)
include hform

/-- The forms of an atomic that R396 has: ADD of 4 or 8 bytes, and CAS. -/
theorem atomForm_good : (!cas && (wide || decide (1 < ty))) = false := by
  cases cas with
  | false => simpa using hform rfl
  | true => rfl

include hal

theorem hostAtomic_line (f : BitVec 4) (x y : Nat) (hwl : wlIndex n = none) :
    s.hostAtomic (.func f) n cas wide ty x y = s.hostServe ⟨f.toNat, n, .atomic cas wide ty x y⟩ := by
  simp [State.hostAtomic, atomForm_good hform, hal, hwl]

theorem hostAtomic_watched {f : BitVec 4} {i : Nat} (x y : Nat) (hwl : wlIndex n = some i) (hof : s.wlOf f.toNat i = true) :
    s.hostAtomic (.func f) n cas wide ty x y =
      let w := atomSize cas wide ty
      let old := mread s.wl (n - wlBase) w
      (({ s with wl := mwrite s.wl (n - wlBase) w (hostAtom cas w ty x y old) } : State).wakeLine i).tell
        (.reply (.func f) n 0 false w old) := by
  simp [State.hostAtomic, atomForm_good hform, hal, hwl, hof, State.hostReply]

end

/-- An atomic at a home that is not poisoned. -/
theorem serveHome_atomic {f : BitVec 4} {h : Home} {cas wide : Bool} {ty x y w : Nat} (hsize : atomSize cas wide ty = w)
    (hgood : s.hpoison h w = false) : s.serveHome ⟨f.toNat, n, .atomic cas wide ty x y⟩ h =
      ((s.hwrite h w (hostAtom cas w ty x y (s.hread h w))).noteWrite f.toNat n).tell
        (.reply (.func f) n 0 false w (s.hread h w)) := by
  subst hsize
  simp [State.serveHome, hgood, State.hostReply]

end

theorem atomSize_add {ty : Nat} (h : ty ≤ 1) : atomSize false false ty = 4 + 4 * ty := by
  interval_cases ty <;> rfl

theorem hostAtom_add {ty : Nat} (h : ty ≤ 1) (n x y old : Nat) :
    hostAtom false n ty x y old = (old + x) % 2 ^ (8 * (4 + 4 * ty)) := by
  interval_cases ty <;> rfl

theorem hostWrites_clauses : Claims.HostWrites := by
  refine ⟨fun s f a mask data hon hlink hclean hal => ⟨fun h hwl hhome hro hbusy => ?waits, fun h hwl hhome hidle => ?line,
      fun i hwl => ?watched, fun i hi hmask hlow => ?register⟩,
    fun mask new old n i => bits_maskBytes mask new old,
    fun s f a x y h hon hlink hclean hwl hhome hro hidle => ⟨fun ty hty hal hgood => ?add, fun wide ty hal hgood => ?cas⟩,
    fun s f a i x y hon hlink hwl hof hal => ?watchedAdd⟩
  case waits =>
    rw [exec_storemask hon hlink, storeMask_line f _ _ hal hwl,
      hostServe_of_waits (hostAcc_of_moving hhome (by rw [hro, Bool.and_false]) hbusy)]
  case line =>
    rw [exec_storemask hon hlink, storeMask_line f _ _ hal hwl]
    cases hro : s.hostRo f.toNat a.toNat with
    | true =>
      rw [hostServe_of_refused (hostAcc_of_readOnly hhome hro), func_ofNat_toNat]
      rfl
    | false =>
      rw [hostServe_of_home hclean (hostAcc_of_home hhome (by rw [hro, Bool.and_false]) hidle)]
      simp only [State.serveHome, func_ofNat_toNat]
      rfl
  case watched => rw [exec_storemask hon hlink, storeMask_watched f _ _ hal hwl]
  case register =>
    rw [exec_storemask hon hlink, hmask, storeMask_register _ hal (wordOfMask_word hi) hlow]
  case add =>
    rw [← atomSize_add hty] at hal hgood
    rw [exec_hostAtomic hon hlink, hostAtomic_line (fun _ => ⟨rfl, hty⟩) hal f _ _ hwl,
      hostServe_of_home hclean (hostAcc_of_home hhome (by rw [hro, Bool.and_false]) hidle), serveHome_atomic rfl hgood,
      atomSize_add hty, hostAtom_add hty]
  case cas =>
    have hform : true = false → wide = false ∧ ty.toNat ≤ 1 := fun h => absurd h (by decide)
    rw [exec_hostAtomic hon hlink, hostAtomic_line hform hal f _ _ hwl,
      hostServe_of_home hclean (hostAcc_of_home hhome (by rw [hro, Bool.and_false]) hidle), serveHome_atomic rfl hgood]
    rfl
  case watchedAdd =>
    have hform : false = false → false = false ∧ (1 : BitVec 2).toNat ≤ 1 := fun _ => ⟨rfl, le_rfl⟩
    rw [exec_hostAtomic hon hlink, hostAtomic_watched hform hal x.toNat y.toNat hwl hof]
    rfl

/-- Settles O46: a request by where its bytes lie and what is in their way, the filter by the entries that it leaves. -/
theorem hostAccess : Obligations.HostAccess := ⟨hostReads_clauses, hostWrites_clauses⟩

end Sys2Proof.Machine
end

section
/-! Copies that the host gives back, its answers, and the loss of the link (11 R395-R399). -/

namespace Sys2Proof.Machine

/-! Copies given back, and Recalls (11 R396, R397). -/

section
variable {s : State} (hon : On s) (hlink : s.link = .up)
include hon hlink

theorem exec_returndirty (t : HostTarget) (a : BitVec 64) (data : BitVec 512) :
    exec (.returndirty t a data) s = .next (s.returnDirty t a.toNat data.toNat) :=
  congrArg Host.Outcome.next (if_pos (linkUp_of_up hon hlink))

theorem exec_returnclean (t : HostTarget) (a : BitVec 64) : exec (.returnclean t a) s = .next (s.returnClean t a.toNat) :=
  congrArg Host.Outcome.next (if_pos (linkUp_of_up hon hlink))

theorem exec_dynerlinkDown : exec .dynerlinkDown s = .next (s.linkDown true) :=
  congrArg Host.Outcome.next (if_pos (linkUp_of_up hon hlink))

variable {f : BitVec 4} {l : BitVec 48} (hrecall : (f.toNat, l.toNat) ∈ s.recalls)
include hrecall

theorem exec_recallResponse (dirty : Bool) (data : BitVec 512) : exec (.recallResponse f l dirty data) s =
    let t : State := { s with recalls := s.recalls.filter fun r => r != (f.toNat, l.toNat) }
    .next ((if dirty && (s.sfEntry f.toNat l.toNat).any SfEnt.claimed then t.lineWrite f.toNat l.toNat data.toNat else t).lineBack
      f.toNat l.toNat) :=
  congrArg Host.Outcome.next (if_neg (by simp [linkUp_of_up hon hlink, hrecall]))

theorem exec_recallTimeout : exec (.recallTimeout f l) s = .next (s.linkDown true) :=
  congrArg Host.Outcome.next (if_pos (by simp [linkUp_of_up hon hlink, hrecall]))

end

section
variable {s : State} {f : BitVec 4} {n : Nat}

/-- A line that the host has claimed is written at its home. -/
theorem returnDirty_of_claimed (data : Nat) {e : SfEnt} (hal : n % 64 = 0) (hst : (s.part f.toNat).st = .active)
    (hentry : s.sfEntry f.toNat (n / 64) = some e) (hclaimed : e.claimed = true) : s.returnDirty (.func f) n data =
      ((s.lineWrite f.toNat (n / 64) data).tell (.reply (.func f) n 0 false 0 0)).lineBack f.toNat (n / 64) :=
  if_neg (by simp [hal, hst, hentry, hclaimed])

theorem returnDirty_of_unheld (data : Nat) (hentry : s.sfEntry f.toNat (n / 64) = none) :
    s.returnDirty (.func f) n data = (s.count 0x0609).tell (.reply (.func f) n 0x0609 false 0 0) :=
  if_pos (by simp [hentry])

theorem returnClean_func : s.returnClean (.func f) n = if s.reachesLine f.toNat n
    then (s.tell (.reply (.func f) n 0 false 0 0)).lineBack f.toNat (n / 64)
    else (s.count 0x0609).tell (.reply (.func f) n 0x0609 false 0 0) := by
  cases hreach : s.reachesLine f.toNat n with
  | true => exact if_neg (by simp [hreach])
  | false => exact if_pos (by simp [hreach])

end

/-! The host's answers (11 R398). -/

theorem retryBlocked_of_none {s : State} (h : s.blocked = []) : s.retryBlocked = s := by
  have hsame : ({ s with blocked := [] } : State) = s := by rw [← h]
  simp only [State.retryBlocked, h, List.foldl_nil, hsame]

theorem find?_request {s : State} {r : HostReq} {rs : List HostReq} {id : BitVec 32} (hreqs : s.hreqs = r :: rs)
    (hid : r.id % 2 ^ 32 = id.toNat) : s.hreqs.find? (fun r => r.id % 2 ^ 32 == id.toNat) = some r := by
  rw [hreqs]
  exact List.find?_cons_of_pos (beq_iff_eq.mpr hid)

/-- The answer to a request that is not a piece of a COPY. -/
theorem exec_hostResponse {s : State} {r : HostReq} {id : BitVec 32} (hon : On s) (hlink : s.link = .up)
    (hfind : s.hreqs.find? (fun r => r.id % 2 ^ 32 == id.toNat) = some r) (hwait : ∀ q i, r.wait ≠ .copyRead q i)
    (status : BitVec 16) (data : Nat) : exec (.hostResponse id status data) s =
      let t : State := { s with hreqs := s.hreqs.filter fun x => x.id != r.id }
      .next (if status = 0 ∨ status.toNat = 0x0805 then
          (if r.kind = 1 ∧ t.hreqs.any (fun x => x.grp == r.grp) = true then t
            else t.hostAnswer r (data % 2 ^ (8 * r.size)) (status != 0)).retryBlocked
        else (({ s with hreqs := s.hreqs.filter fun x => x.id != r.id && !(r.kind == 1 && x.grp == r.grp) } : State).hostLost
          r.wait status.toNat).retryBlocked) := by
  refine congrArg Host.Outcome.next ((if_neg (by simp [linkUp_of_up hon hlink])).trans ?_)
  simp only [hfind]
  cases hw : r.wait with
  | copyRead q i => exact absurd hw (hwait q i)
  | _ => rfl

section
variable {s : State} {r : HostReq} {id : BitVec 32} (hon : On s) (hlink : s.link = .up) (hreqs : s.hreqs = [r])
  (hid : r.id % 2 ^ 32 = id.toNat)
include hon hlink hreqs hid

/-- The answer to the one request there is. -/
theorem exec_hostResponse_only (hwait : ∀ q i, r.wait ≠ .copyRead q i) (status : BitVec 16) (data : Nat) :
    exec (.hostResponse id status data) s =
      let t : State := { s with hreqs := [] }
      .next (if status = 0 ∨ status.toNat = 0x0805 then t.hostAnswer r (data % 2 ^ (8 * r.size)) (status != 0)
        else t.hostLost r.wait status.toNat).retryBlocked := by
  have hfind := find?_request hreqs hid
  have hgone : s.hreqs.filter (fun x => x.id != r.id) = [] := by simp [hreqs]
  have hgroup : s.hreqs.filter (fun x => x.id != r.id && !(r.kind == 1 && x.grp == r.grp)) = [] := by simp [hreqs]
  rw [exec_hostResponse hon hlink hfind hwait]
  simp only [hgone, hgroup, List.any_nil, Bool.false_eq_true, and_false, if_false]
  split <;> rfl

/-- A piece of a block being staged goes to the staging, poisoned or whole; one that is lost ends it (07 R254). -/
theorem exec_hostResponse_stage {p o b i : Nat} (hwait : r.wait = .stage p o b i) (status : BitVec 16) (data : Nat) :
    exec (.hostResponse id status data) s =
      let t : State := { s with hreqs := [] }
      .next (if status = 0 then t.stageArrive p o b i (data % 2 ^ (8 * r.size)) false
        else if status.toNat = 0x0805 then t.stageArrive p o b i (data % 2 ^ (8 * r.size)) true
        else t.stageLost p o b).retryBlocked := by
  rw [exec_hostResponse_only hon hlink hreqs hid fun q j h => by simp [hwait] at h]
  simp only [State.hostAnswer, State.hostArrive, State.hostLost, hwait]
  by_cases hok : status = 0
  · rw [if_pos (.inl hok), if_pos hok, hok]
    rfl
  · by_cases hpoison : status.toNat = 0x0805
    · rw [if_pos (.inr hpoison), if_neg hok, if_pos hpoison, bne_iff_ne.mpr hok]
    · rw [if_neg (not_or.mpr ⟨hok, hpoison⟩), if_neg hok, if_neg hpoison]

theorem exec_hostResponse_complete (hwait : r.wait = .complete) (hblocked : s.blocked = []) (status : BitVec 16) (data : Nat) :
    exec (.hostResponse id status data) s = .next { s with hreqs := [] } := by
  rw [exec_hostResponse_only hon hlink hreqs hid fun q j h => by simp [hwait] at h]
  simp only [State.hostAnswer, State.hostArrive, State.hostLost, hwait, ite_self]
  exact congrArg Host.Outcome.next (retryBlocked_of_none hblocked)

end

/-- A write of which another StoreMask is unanswered is not done. -/
theorem exec_hostResponse_group {s : State} {r x : HostReq} {id : BitVec 32} (hon : On s) (hlink : s.link = .up)
    (hreqs : s.hreqs = [r, x]) (hid : r.id % 2 ^ 32 = id.toNat) (hkind : r.kind = 1) (hgrp : x.grp = r.grp) (hne : x.id ≠ r.id)
    (hwait : r.wait = .complete) (hblocked : s.blocked = []) (data : Nat) :
    exec (.hostResponse id 0 data) s = .next { s with hreqs := [x] } := by
  have hfind := find?_request hreqs hid
  have hleft : s.hreqs.filter (fun x => x.id != r.id) = [x] := by simp [hreqs, hne]
  have hmore : [x].any (fun x => x.grp == r.grp) = true := by simp [hgrp]
  rw [exec_hostResponse hon hlink hfind fun q j h => by simp [hwait] at h]
  simp only [hleft, hmore, hkind, true_or, and_self, if_true]
  exact congrArg Host.Outcome.next (retryBlocked_of_none hblocked)

/-! The loss of the link and its training (11 R393, R397, R399). -/

theorem unmapCheck_of_none {s : State} (hcmds : s.cmds = []) (p : Nat) : s.unmapCheck p = s := by
  simp [State.unmapCheck, State.liveCmds, hcmds]

theorem ckPump_of_none {s : State} {p : Nat} (hckpt : (s.part p).ckpt = none) : s.ckPump p = s := by
  simp [State.ckPump, State.ckPumpN, hckpt]

/-- With no command, no group and no CHECKPOINT nothing waits for a line. -/
theorem afterRecall_of_none {s : State} (hcmds : s.cmds = []) (hgrps : s.grps = []) (hckpt : ∀ p, (s.part p).ckpt = none) :
    s.afterRecall = s := by
  have hstep (p : Nat) : (s.unmapCheck p).ckPump p = s := by rw [unmapCheck_of_none hcmds, ckPump_of_none (hckpt p)]
  have hfold : (List.range 16).foldl (fun (t : State) p => (t.unmapCheck p).ckPump p) s = s :=
    List.foldl_fixed' (f := fun (t : State) p => (t.unmapCheck p).ckPump p) hstep _
  simp only [State.afterRecall, hfold, State.ligPumpAll, hgrps, List.foldl_nil]

theorem linkDown_of_quiet {s : State} (hreqs : s.hreqs = []) (hcmds : s.cmds = []) (hgrps : s.grps = [])
    (hckpt : ∀ p, (s.part p).ckpt = none) (hsf : s.sf.any SfEnt.claimed = false) : s.linkDown true =
      ({ s with sf := [], recalls := [], blocked := [], link := .down, linkWidth := 0, hostTx := [] } : State).count 0x0613 := by
  have hclaimed : s.sf.filter SfEnt.claimed = [] := by simpa using hsf
  have hsame : ({ s with sf := [], recalls := [], blocked := [], hreqs := [], link := .down, linkWidth := 0, hostTx := [] } : State) =
      { s with sf := [], recalls := [], blocked := [], link := .down, linkWidth := 0, hostTx := [] } := by rw [← hreqs]
  simp only [State.linkDown, hclaimed, List.foldl_nil, hreqs, if_true]
  obtain ⟨c, q, hcount⟩ := count_eq_counters
    ({ s with sf := [], recalls := [], blocked := [], link := .down, linkWidth := 0, hostTx := [] } : State) 0x0613
  rw [hsame, hcount]
  exact afterRecall_of_none hcmds hgrps hckpt

theorem exec_dynerlinkTraining {s : State} (w : LinkWidth) (hon : On s) (hlink : s.link ≠ .up) (hlow : 5 ≤ s.plat.stage)
    (hhigh : s.plat.stage ≤ 6) (hlb : bits (s.rg 0x02100200) 0 3 = 0) :
    exec (.dynerlinkTraining w) s = .next { s with link := .up, linkWidth := widthCode w } := by
  have hdepth : bits (s.rg (oLb 16)) 0 3 = 0 := hlb
  exact congrArg Host.Outcome.next (if_neg (by simp [hon, hlink, hlow, hhigh, hdepth]))

/-- Settles O47: each command by what the filter, the Recalls and the requests hold. -/
theorem hostReturns : Obligations.HostReturns := by
  intro s hon
  refine ⟨fun hlink => ⟨fun f a d e hal hst => ⟨fun hentry hclaimed => ?dirty, fun hentry => ?refused, ?clean⟩,
      fun f l dirty d => ⟨fun hrecall hclean => ?unmodified, fun e hrecall hdirty hentry hclaimed => ?modified,
        fun hrecall => exec_recallTimeout hon hlink hrecall⟩,
      exec_dynerlinkDown hon hlink,
      fun r id code data hreqs hid => ⟨fun p o b i hwait => exec_hostResponse_stage hon hlink hreqs hid hwait code data,
        fun hwait hblocked => exec_hostResponse_complete hon hlink hreqs hid hwait hblocked code data⟩,
      fun r x id data hreqs hid hkind hgrp hne hwait hblocked =>
        exec_hostResponse_group hon hlink hreqs hid hkind hgrp hne hwait hblocked data⟩,
    linkDown_of_quiet, fun w => exec_dynerlinkTraining w hon⟩
  case dirty => rw [exec_returndirty hon hlink, returnDirty_of_claimed _ hal hst hentry hclaimed]
  case refused => rw [exec_returndirty hon hlink, returnDirty_of_unheld _ hentry]
  case clean => rw [exec_returnclean hon hlink, returnClean_func]
  case unmodified =>
    rw [exec_recallResponse hon hlink hrecall, hclean]
    rfl
  case modified =>
    rw [exec_recallResponse hon hlink hrecall, hdirty, hentry, Option.any_some, hclaimed]
    rfl

end Sys2Proof.Machine
end

section
/-! The intake of records into the journal (11 R404, R406, R412-R414). -/

namespace Sys2Proof.Machine

/-! A journal entry's fields lie apart (11 R412). -/

theorem add_mul_two_pow_lt {v x k n m : Nat} (hv : v < 2 ^ k) (hx : x < 2 ^ n) (h : k + n ≤ m) : v + x * 2 ^ k < 2 ^ m := by
  have hfit : v + x * 2 ^ k < 2 ^ k * 2 ^ n := by
    calc v + x * 2 ^ k < 2 ^ k + x * 2 ^ k := Nat.add_lt_add_right hv _
      _ = (x + 1) * 2 ^ k := by ring
      _ ≤ 2 ^ n * 2 ^ k := Nat.mul_le_mul_right _ hx
      _ = 2 ^ k * 2 ^ n := Nat.mul_comm ..
  exact Nat.lt_of_lt_of_le (Nat.pow_add .. ▸ hfit) (Nat.pow_le_pow_right (by decide) h)

theorem entry_fields (c : Cmd) (dig : Nat) (hseq : c.seq < 2 ^ 64) : let e := c.entry dig
    bits e 0 64 = c.seq ∧ bits e 448 64 = c.seq ∧ bits e 64 64 = dig % 2 ^ 64 ∧ bits e 288 3 = c.st % 8 ∧
    bits e 272 4 = c.f % 16 ∧ bits e 280 6 = c.r % 64 ∧ bits e 296 8 = c.op := by
  have hmod (v n : Nat) : v % 2 ^ n < 2 ^ n := Nat.mod_lt _ (Nat.two_pow_pos n)
  have hdig := add_mul_two_pow_lt (m := 128) hseq (hmod dig 64) (by decide)
  have haccept := add_mul_two_pow_lt (m := 192) hdig (hmod c.accept 64) (by decide)
  have hparts := add_mul_two_pow_lt (m := 256) haccept (hmod c.parts 64) (by decide)
  have hcode := add_mul_two_pow_lt (m := 272) hparts (hmod c.code 16) (by decide)
  have hf := add_mul_two_pow_lt (m := 280) hcode (hmod c.f 4) (by decide)
  have hr := add_mul_two_pow_lt (m := 288) hf (hmod c.r 6) (by decide)
  have hst := add_mul_two_pow_lt (m := 296) hr (hmod c.st 3) (by decide)
  have hop := add_mul_two_pow_lt (m := 320) hst (bits_lt c.body 0 8) (by decide)
  have hridx := add_mul_two_pow_lt (m := 352) hop (hmod c.ridx 32) (by decide)
  have huser := add_mul_two_pow_lt (m := 384) hridx (bits_lt c.body 32 32) (by decide)
  have hfin := add_mul_two_pow_lt (m := 448) huser (hmod c.fin 64) (by decide)
  have htop := bits_add_mul_two_pow_top hfin (hmod c.seq 64)
  refine ⟨?_, htop.trans (Nat.mod_eq_of_lt hseq), ?_, ?_, ?_, ?_, ?_⟩ <;> unfold Cmd.entry
  · iterate 12 rw [bits_add_mul_two_pow (by decide)]
    exact Nat.mod_eq_of_lt hseq
  · iterate 11 rw [bits_add_mul_two_pow (by decide)]
    exact bits_add_mul_two_pow_top hseq (hmod dig 64)
  · iterate 5 rw [bits_add_mul_two_pow (by decide)]
    exact bits_add_mul_two_pow_top hr (hmod c.st 3)
  · iterate 7 rw [bits_add_mul_two_pow (by decide)]
    exact bits_add_mul_two_pow_top hcode (hmod c.f 4)
  · iterate 6 rw [bits_add_mul_two_pow (by decide)]
    exact bits_add_mul_two_pow_top hf (hmod c.r 6)
  · iterate 4 rw [bits_add_mul_two_pow (by decide)]
    exact bits_add_mul_two_pow_top hst (bits_lt c.body 0 8)

/-! A record's check (11 R404, R405). -/

/-- No opcode's operands reach the bits of the header that R404 reserves. -/
theorem recOperands_header : ∀ op < 256, (recOperands op).all (fun m => (recHeader + m) % 2 ^ 32 == 2 ^ 11 - 1) = true := by
  decide +kernel

theorem badRec_of_unassigned {c : Cmd} (h : recOperands c.op = none) : c.badRec = true := by simp only [Cmd.badRec, h]

theorem badRec_of_reserved {c : Cmd} (h : bits c.body 11 21 ≠ 0) : c.badRec = true := by
  cases hm : recOperands c.op with
  | none => exact badRec_of_unassigned hm
  | some m =>
    have hmask : (recHeader + m) % 2 ^ 32 = 2 ^ 11 - 1 := by simpa [hm] using recOperands_header c.op (bits_lt c.body 0 8)
    have hdiff : c.body &&& (recHeader + m) ≠ c.body := by
      intro hsame
      refine h (Nat.eq_of_testBit_eq fun i => ?_)
      rw [testBit_bits, Nat.zero_testBit]
      by_cases hi : i < 21
      · have hbit : (recHeader + m).testBit (11 + i) = false := by
          have hlow : ((recHeader + m) % 2 ^ 32).testBit (11 + i) = (2 ^ 11 - 1).testBit (11 + i) := by rw [hmask]
          rw [Nat.testBit_mod_two_pow, decide_eq_true (by omega), Bool.true_and, Nat.testBit_two_pow_sub_one] at hlow
          exact hlow.trans (decide_eq_false (by omega))
        rw [← hsame, Nat.testBit_and, hbit, Bool.and_false, Bool.and_false]
      · simp [hi]
    simp [Cmd.badRec, hm, hdiff]

/-! The command that a record becomes, and the state with its entry in the journal (11 R404, R413, R414). -/

/-- The command of the next record of a ring. -/
def State.recordCmd (s : State) (f r body : Nat) : Cmd :=
  { seq := s.jrnHead, f, r, ridx := (s.ring (ringKey f r)).head, body, st := 0, parts := 0, fails := [], code := 0, detail := 0
    accept := s.now, fin := 0 }

/-- The state with that command ACCEPTED. -/
def State.recorded (s : State) (f r body : Nat) : State :=
  ({ s.mend (.journal (jrnIndex s.jrnHead)) with
    jrn := tput s.jrn (jrnIndex s.jrnHead) ((s.recordCmd f r body).entry (sha3x256 body 64 % 2 ^ 64))
    jrnHead := s.jrnHead + 1
    jrnWait := false
    cmds := s.cmds ++ [s.recordCmd f r body]
    turnRing := ringKey f r
    turnTaken := if s.turnRing = ringKey f r then s.turnTaken % 16 + 1 else 1 } : State).setRing (ringKey f r)
      { s.ring (ringKey f r) with head := ((s.ring (ringKey f r)).head + 1) % 2 ^ 32 }

section
variable {s : State} {f r body : Nat}

theorem accept_of_good (hgood : (s.recordCmd f r body).badRec = false) (hopen : s.afterDisable (s.recordCmd f r body) = false) :
    s.accept f r (some body) = s.recorded f r body :=
  (if_neg (by simpa [State.recordCmd] using hgood)).trans (if_neg (Bool.eq_false_iff.mp hopen))

theorem accept_of_bad (hbad : (s.recordCmd f r body).badRec = true) :
    s.accept f r (some body) = (s.recorded f r body).doneCmd s.jrnHead 0x0603 0 :=
  if_pos (by simpa [State.recordCmd] using hbad)

theorem accept_of_disabled (hgood : (s.recordCmd f r body).badRec = false)
    (hdisabled : s.afterDisable (s.recordCmd f r body) = true) :
    s.accept f r (some body) = (s.recorded f r body).doneCmd s.jrnHead 0x0604 0 :=
  (if_neg (by simpa [State.recordCmd] using hgood)).trans (if_pos hdisabled)

/-- Whatever its check says, a record takes its number and its place in the ring. -/
theorem accept_takes : (s.accept f r (some body)).jrnHead = s.jrnHead + 1 ∧
    ((s.accept f r (some body)).ring (ringKey f r)).head = ((s.ring (ringKey f r)).head + 1) % 2 ^ 32 := by
  have hrecorded : ((s.recorded f r body).ring (ringKey f r)).head = ((s.ring (ringKey f r)).head + 1) % 2 ^ 32 := by
    rw [State.recorded, State.ring_setRing]
  have hended (code : Nat) : ((s.recorded f r body).doneCmd s.jrnHead code 0).jrnHead = s.jrnHead + 1 ∧
      (((s.recorded f r body).doneCmd s.jrnHead code 0).ring (ringKey f r)).head = ((s.ring (ringKey f r)).head + 1) % 2 ^ 32 := by
    obtain ⟨cmds, order, jrn, upsets, ctr, bltq, h⟩ :=
      finishCmd_eq_journal (s.recorded f r body) s.jrnHead code (if code = 0 then 1 else 0) 0
    rw [State.doneCmd, h]
    exact ⟨rfl, hrecorded⟩
  cases hbad : (s.recordCmd f r body).badRec with
  | true =>
    rw [accept_of_bad hbad]
    exact hended _
  | false =>
    cases hdis : s.afterDisable (s.recordCmd f r body) with
    | true =>
      rw [accept_of_disabled hbad hdis]
      exact hended _
    | false =>
      rw [accept_of_good hbad hdis]
      exact ⟨rfl, hrecorded⟩

/-- A command just recorded that ends with a failure of the command unit. -/
theorem doneCmd_recorded {code : Nat} (hcode : 0x0602 < code) (hnew : s.cmd s.jrnHead = none)
    (hring : (s.ring (ringKey f r)).st = 1) : let t := (s.recorded f r body).doneCmd s.jrnHead code 0
    ∃ d, t.cmd s.jrnHead = some d ∧ d.st = 2 ∧ d.code = code ∧ d.parts = 0 ∧ t.order = s.order ++ [s.jrnHead] := by
  have hcmd : (s.recorded f r body).cmd s.jrnHead = some (s.recordCmd f r body) := by
    have hold : s.cmds.find? (fun c => c.seq == s.jrnHead) = none := hnew
    have hjoin : (s.cmds ++ [s.recordCmd f r body]).find? (fun c => c.seq == s.jrnHead) = some (s.recordCmd f r body) := by
      simp [List.find?_append, hold, State.recordCmd]
    exact hjoin
  have hactive : (s.recorded f r body).ringActive f r = true := by
    rw [State.ringActive, State.recorded, State.ring_setRing]
    exact beq_iff_eq.mpr hring
  obtain ⟨-, hend, -⟩ := commandsEnd_clauses (s.recorded f r body) s.jrnHead code (if code = 0 then 1 else 0) 0 _ hcmd
  obtain ⟨hd, horder, -⟩ := hend Nat.two_pos hactive
  refine ⟨_, hd, ?_, rfl, if_neg (by omega), horder⟩
  show (if code = 0x0601 then 3 else if code = 0x0602 then 4 else 2) = 2
  rw [if_neg (by omega), if_neg (by omega)]

theorem afterDisable_recordCmd : s.afterDisable (s.recordCmd f r body) = true ↔ bits body 0 8 ≠ 0x30 ∧ bits body 0 8 ≠ 0x10 ∧
    ∃ d ∈ s.cmds, d.f = f ∧ d.st < 2 ∧ bits d.body 0 8 = 0x11 ∧ d.seq < s.jrnHead := by
  have hcheck : s.afterDisable (s.recordCmd f r body) = (bits body 0 8 != 0x30 && bits body 0 8 != 0x10 &&
      (s.liveCmds f).any fun d => d.op == 0x11 && decide (d.seq < s.jrnHead)) := rfl
  simp [hcheck, State.liveCmds, Cmd.op, Cmd.final, and_assoc]

end

theorem recordAccepted_clauses : Claims.RecordAccepted := by
  intro s f r body t c
  obtain ⟨hhead, htaken⟩ := accept_takes (s := s) (f := f) (r := r) (body := body)
  refine ⟨hhead, htaken, fun hgood hopen => ?accepted, fun hseq hbody hf hr => ?fields, fun hbad hnew hring => ?bad,
    fun hgood hdis hnew hring => ?disabled, afterDisable_recordCmd, badRec_of_unassigned (c := c), badRec_of_reserved (c := c)⟩
  case accepted =>
    have ht : t = s.recorded f r body := accept_of_good hgood hopen
    rw [ht]
    exact ⟨rfl, _, tget_tput_self .., rfl⟩
  case fields =>
    obtain ⟨hlow, hhigh, hdig, hst, hfn, hrn, hop⟩ := entry_fields c (sha3x256 body 64 % 2 ^ 64) hseq
    exact ⟨hlow, hhigh, hdig.trans (Nat.mod_mod ..), hst, hfn.trans (Nat.mod_eq_of_lt hf), hrn.trans (Nat.mod_eq_of_lt hr), hop⟩
  case bad =>
    have ht : t = (s.recorded f r body).doneCmd s.jrnHead 0x0603 0 := accept_of_bad hbad
    rw [ht]
    exact doneCmd_recorded (by decide) hnew hring
  case disabled =>
    have ht : t = (s.recorded f r body).doneCmd s.jrnHead 0x0604 0 := accept_of_disabled hgood hdis
    rw [ht]
    exact doneCmd_recorded (by decide) hnew hring

end Sys2Proof.Machine
end

section
/-! The service of rings (11 R398, R402, R415), their completions (11 R403, R408) and states (11 R400, R417). -/

namespace Sys2Proof.Machine

/-! A record in the Reservoir (11 R401, R417). -/

section
variable {a : Nat} (ha : a < 2 ^ 48)
include ha

theorem tblSpace_of_lt : tblSpace a = 0 := by
  rw [tblSpace, bits, Nat.shiftRight_eq_div_pow, Nat.div_eq_of_lt ha]
  rfl

theorem tblOff_of_lt : tblOff a 0 = a := by
  rw [tblOff, bits, Nat.shiftRight_zero, Nat.mod_eq_of_lt ha, Nat.add_zero, Nat.mod_eq_of_lt ha]

end

/-- A line lies in one block. -/
theorem blocksOf_line {a : Nat} (hal : a % 64 = 0) : blocksOf a 64 = [(a, 64)] := by
  have hfit : min 64 (256 - a % 256) = 64 := by omega
  simp [blocksOf, cutAt, hfit]

section
variable {s : State} {f r a x : Nat} {d : Bool} (ha : a < 2 ^ 48) (hal : a % 64 = 0) (hhome : s.homeOf f a = some (.mem d x))
include ha hal hhome

theorem tblPoison_line (w : Who) (c : Nat) : s.tblPoison w f c a 0 64 = s.hpoison (.mem d x) 64 := by
  simp [State.tblPoison, tblOff_of_lt ha, blocksOf_line hal, tblSpace_of_lt ha, hhome, Home.fetched]

theorem tblRead_line (w : Who) (c : Nat) : s.tblRead w f c a 0 64 = s.hread (.mem d x) 64 := by
  simp [State.tblRead, State.tblBlock, tblOff_of_lt ha, blocksOf_line hal, tblSpace_of_lt ha, hhome, Home.fetched]

/-- A record in memory on the device, free of errors and poison, that nothing holds back is accepted at once. -/
theorem recordServe_of_mem (hclean : s.upsets = []) (hfar : s.far = []) (hgood : s.tblBad f a 0 64 false = none)
    (hheld : s.tblHeld (.ring (ringKey f r)) f a 0 64 false = []) (hpoison : s.hpoison (.mem d x) 64 = false) :
    s.recordServe f r a = ({ s with free := s.free + 2 ^ 48 } : State).accept f r (some (s.hread (.mem d x) 64)) := by
  have hlost : s.tblLost (.ring (ringKey f r)) f a 0 64 = none := by simp [State.tblLost, State.farAt, hfar]
  have hend : s.tblEnd (.ring (ringKey f r)) = { s with free := s.free + 2 ^ 48 } := by
    rw [State.tblEnd, hfar, List.filter_nil, ← hfar]
  unfold State.recordServe
  rw [if_neg (by rw [hgood, hlost]; simpa using ha)]
  simp only [hheld, eccTbl_of_clean hclean, hend, tblPoison_line ha hal hhome, tblRead_line ha hal hhome, hpoison,
    Bool.false_eq_true, if_false]

end

theorem ringAddr_aligned (v i n : Nat) : ringAddr v i n % 64 = 0 := by
  unfold ringAddr
  omega

/-! The ring in turn (11 R402). -/

theorem ringReady_of_nextRing {s : State} {k : Nat} (h : s.nextRing = some k) : s.ringReady k = true := by
  have hready {j : Nat} (hj : j ∈ (s.rings.map Prod.fst).filter fun k => s.ringReady k) : s.ringReady j = true :=
    (List.mem_filter.mp hj).2
  unfold State.nextRing at h
  split at h
  next hturn =>
    obtain rfl := Option.some.inj h
    simp only [Bool.and_eq_true] at hturn
    exact hturn.2
  next =>
    dsimp only at h
    split at h
    next j hfind =>
      obtain rfl := Option.some.inj h
      exact hready (List.mem_of_find?_eq_some hfind)
    next => exact hready (List.mem_of_head? h)

theorem ringOut_iff (s : State) (f r : Nat) : s.ringOut f r = true ↔
    2 ^ (min 10 (bits (s.ringCtl f r) 1 4) + 6) < (s.ringTail f r + 2 ^ 32 - (s.ring (ringKey f r)).head) % 2 ^ 32 ∨
    2 ^ (min 10 (bits (s.ringCtl f r) 5 4) + 6) < ((s.ring (ringKey f r)).cqt + 2 ^ 32 - s.ringCqh f r) % 2 ^ 32 := by
  rw [State.ringOut, Bool.or_eq_true, decide_eq_true_iff, decide_eq_true_iff]
  rfl

/-- Rings that are not in turn, and a device that does not run firmware, are left alone. -/
theorem exec_ringService_idle {s : State} {f : BitVec 4} {r : BitVec 6} (rec : BitVec 512)
    (h : s.nextRing ≠ some (ringKey f.toNat r.toNat) ∨ s.plat.berr ≠ 0 ∨ s.plat.stage < 5) :
    exec (.ringService f r rec) s = .next s := by
  refine congrArg Host.Outcome.next (if_pos ?_)
  rcases h with h | h | h <;> simp [h]

section
variable {s : State} {f : BitVec 4} {r : BitVec 6} (rec : BitVec 512) (hon : On s) (hberr : s.plat.berr = 0)
  (hstage : 5 ≤ s.plat.stage) (hturn : s.nextRing = some (ringKey f.toNat r.toNat))
include hon hberr hstage hturn

theorem exec_ringService_of_turn : exec (.ringService f r rec) s =
    let g := s.ring (ringKey f.toNat r.toNat)
    let base := s.rg (oRing f.toNat r.toNat)
    let a := ringAddr base g.head (s.rqSize f.toNat r.toNat)
    .next (if s.ringOut f.toNat r.toNat then s.ringError f.toNat r.toNat
      else if s.ringTail f.toNat r.toNat = g.head then
        { s.setRing (ringKey f.toNat r.toNat) { g with woken := false } with
          turnTaken := if s.turnRing = ringKey f.toNat r.toNat then 0 else s.turnTaken }
      else if s.jrnFull then (if s.jrnWait then s else ({ s with jrnWait := true } : State).count 0x0611)
      else if bit base 0 then s.recordServe f.toNat r.toNat a
      else if s.link ≠ .up || s.hreqs.any (fun x => x.wait == .record (ringKey f.toNat r.toNat)) then s
      else s.hostAsk 0 a 64 0 (.record (ringKey f.toNat r.toNat))) :=
  congrArg Host.Outcome.next (if_neg (by simp [hon, hberr, Nat.not_lt.mpr hstage, hturn]))

theorem exec_ringService_out (hout : s.ringOut f.toNat r.toNat = true) :
    exec (.ringService f r rec) s = .next (s.ringError f.toNat r.toNat) :=
  (exec_ringService_of_turn rec hon hberr hstage hturn).trans (congrArg Host.Outcome.next (if_pos hout))

variable (hin : s.ringOut f.toNat r.toNat = false)
include hin

theorem exec_ringService_empty (hempty : s.ringTail f.toNat r.toNat = (s.ring (ringKey f.toNat r.toNat)).head) :
    exec (.ringService f r rec) s =
      .next { s.setRing (ringKey f.toNat r.toNat) { s.ring (ringKey f.toNat r.toNat) with woken := false } with
        turnTaken := if s.turnRing = ringKey f.toNat r.toNat then 0 else s.turnTaken } := by
  rw [exec_ringService_of_turn rec hon hberr hstage hturn]
  simp only [hin, Bool.false_eq_true, if_false]
  rw [if_pos hempty]

variable (hsome : s.ringTail f.toNat r.toNat ≠ (s.ring (ringKey f.toNat r.toNat)).head)
include hsome

theorem exec_ringService_full (hfull : s.jrnFull = true) (hwait : s.jrnWait = false) :
    exec (.ringService f r rec) s = .next (({ s with jrnWait := true } : State).count 0x0611) := by
  rw [exec_ringService_of_turn rec hon hberr hstage hturn]
  simp only [hin, if_neg hsome, hfull, hwait, Bool.false_eq_true, if_false, if_true]

variable (hroom : s.jrnFull = false)
include hroom

theorem exec_ringService_reservoir (hloc : bit (s.rg (oRing f.toNat r.toNat)) 0 = true) :
    exec (.ringService f r rec) s = .next (s.recordServe f.toNat r.toNat
      (ringAddr (s.rg (oRing f.toNat r.toNat)) (s.ring (ringKey f.toNat r.toNat)).head (s.rqSize f.toNat r.toNat))) := by
  rw [exec_ringService_of_turn rec hon hberr hstage hturn]
  simp only [hin, if_neg hsome, hroom, hloc, Bool.false_eq_true, if_false, if_true]

theorem exec_ringService_host (hloc : bit (s.rg (oRing f.toNat r.toNat)) 0 = false) (hlink : s.link = .up)
    (hnone : ∀ x ∈ s.hreqs, x.wait ≠ .record (ringKey f.toNat r.toNat)) :
    exec (.ringService f r rec) s = .next (s.hostAsk 0
      (ringAddr (s.rg (oRing f.toNat r.toNat)) (s.ring (ringKey f.toNat r.toNat)).head (s.rqSize f.toNat r.toNat)) 64 0
      (.record (ringKey f.toNat r.toNat))) := by
  have hfree : (s.link ≠ .up || s.hreqs.any fun x => x.wait == .record (ringKey f.toNat r.toNat)) = false := by
    simpa [hlink] using hnone
  rw [exec_ringService_of_turn rec hon hberr hstage hturn]
  simp only [hin, if_neg hsome, hroom, hloc, hfree, Bool.false_eq_true, if_false]

end

/-- A record that comes to a ring that still waits for it is accepted; a poisoned one is a bad record. -/
theorem recordArrive_of_waiting {s : State} {f r : Nat} (hr : r < 64) (v : Nat) (pz : Bool)
    (hst : (s.ring (ringKey f r)).st = 1) (hsome : s.ringTail f r ≠ (s.ring (ringKey f r)).head) (hroom : s.jrnFull = false) :
    s.recordArrive (ringKey f r) (ringAddr (s.rg (oRing f r)) (s.ring (ringKey f r)).head (s.rqSize f r)) v pz =
      s.accept f r (if pz then none else some v) := by
  have hf : ringKey f r / 64 = f := by
    unfold ringKey
    omega
  have hrn : ringKey f r % 64 = r := by
    unfold ringKey
    omega
  simp only [State.recordArrive, hf, hrn]
  exact if_pos ⟨hst, hsome, trivial, hroom⟩

theorem ringService_clauses : Claims.RingService := by
  intro s f r rec k g bad base a some_
  have hbad : s.ringOut f.toNat r.toNat = true ↔ bad := ringOut_iff s f.toNat r.toNat
  have hin (h : ¬ bad) : s.ringOut f.toNat r.toNat = false := Bool.eq_false_iff.mpr (mt hbad.mp h)
  refine ⟨fun h => exec_ringService_idle rec (.inl h), fun h => exec_ringService_idle rec (.inr h),
    fun hon hberr hstage hturn => ⟨fun h => exec_ringService_out rec hon hberr hstage hturn (hbad.mpr h),
      fun h hempty => exec_ringService_empty rec hon hberr hstage hturn (hin h) hempty,
      fun h hfull hwait => exec_ringService_full rec hon hberr hstage hturn (hin h.1) h.2 hfull hwait,
      fun h hroom hloc => exec_ringService_reservoir rec hon hberr hstage hturn (hin h.1) h.2 hroom hloc,
      fun h hroom hloc hlink hnone => exec_ringService_host rec hon hberr hstage hturn (hin h.1) h.2 hroom hloc hlink hnone⟩,
    fun d x ha hclean hfar hgood hheld hhome hpoison =>
      recordServe_of_mem ha (ringAddr_aligned ..) hhome hclean hfar hgood hheld hpoison,
    fun v hst hsome hroom => ⟨recordArrive_of_waiting r.isLt v false hst hsome hroom,
      recordArrive_of_waiting r.isLt v true hst hsome hroom⟩, fun hturn => ?ready⟩
  case ready =>
    have hready := ringReady_of_nextRing hturn
    simp only [State.ringReady, Bool.and_eq_true, beq_iff_eq, decide_eq_true_iff] at hready
    obtain ⟨⟨hst, hwoken⟩, hlive⟩ := hready
    exact ⟨hst, hwoken, hlive⟩

/-! Completions (11 R403, R408, R413). -/

section
variable {s : State} {f : BitVec 4} {r : BitVec 6} {c : Cmd} (hon : On s) (hdue : s.dueOn f.toNat r.toNat = some c)
include hon hdue

omit hon in
theorem exec_completionWrite_inactive (hst : (s.ring (ringKey f.toNat r.toNat)).st ≠ 1) :
    exec (.completionWrite f r) s = .next s := by
  refine congrArg Host.Outcome.next ?_
  simp only [hdue]
  exact if_pos (by simp [hst])

variable (hst : (s.ring (ringKey f.toNat r.toNat)).st = 1) (hin : s.ringOut f.toNat r.toNat = false)
include hst hin

theorem exec_completionWrite_full (hfull : s.cqSize f.toNat r.toNat ≤
      idxDiff (s.ring (ringKey f.toNat r.toNat)).cqt (s.ringCqh f.toNat r.toNat)) : exec (.completionWrite f r) s = .next s := by
  refine congrArg Host.Outcome.next ?_
  simp only [hdue]
  rw [if_neg (by simp [hon, hst]), if_neg (Bool.eq_false_iff.mp hin), if_pos hfull]

variable (hroom : idxDiff (s.ring (ringKey f.toNat r.toNat)).cqt (s.ringCqh f.toNat r.toNat) < s.cqSize f.toNat r.toNat)
include hroom

theorem exec_completionWrite_down (hlink : s.link ≠ .up) : exec (.completionWrite f r) s = .next (s.forget c.seq) := by
  refine congrArg Host.Outcome.next ?_
  simp only [hdue]
  rw [if_neg (by simp [hon, hst]), if_neg (Bool.eq_false_iff.mp hin), if_neg (Nat.not_le.mpr hroom), if_pos hlink]

theorem exec_completionWrite_host (hloc : bit (s.rg (oRing f.toNat r.toNat + 8)) 0 = false) (hlink : s.link = .up) :
    exec (.completionWrite f r) s =
      let g := s.ring (ringKey f.toNat r.toNat)
      let n := s.cqSize f.toNat r.toNat
      .next ((s.hostAsk 1 (ringAddr (s.rg (oRing f.toNat r.toNat + 8)) g.cqt n) 64 (c.completion (g.cqt / n % 2 == 0))
        .complete).completed c) := by
  refine congrArg Host.Outcome.next ?_
  simp only [hdue]
  rw [if_neg (by simp [hon, hst]), if_neg (Bool.eq_false_iff.mp hin), if_neg (Nat.not_le.mpr hroom),
    if_neg (not_not_intro hlink), if_neg (Bool.eq_false_iff.mp hloc)]

end

/-- A completion in ring memory: CQT advances, the command leaves the device's lists, and an event message goes out where it is due. -/
theorem completed_leaves (s : State) (c : Cmd) : let t := s.completed c
    (t.ring (ringKey c.f c.r)).cqt = ((s.ring (ringKey c.f c.r)).cqt + 1) % 2 ^ 32 ∧ t.cmd c.seq = none ∧ c.seq ∉ t.order ∧
    t.jrn = s.jrn ∧ t.hostTx = s.hostTx ++ (if bit (s.ringCtl c.f c.r) 35 = true ∧ bit c.body 10 = false then
      [HostMsg.event (bits (s.ringCtl c.f c.r) 24 11)] else []) := by
  intro t
  let u := (s.forget c.seq).setRing (ringKey c.f c.r)
    { s.ring (ringKey c.f c.r) with cqt := ((s.ring (ringKey c.f c.r)).cqt + 1) % 2 ^ 32 }
  have hcqt : (u.ring (ringKey c.f c.r)).cqt = ((s.ring (ringKey c.f c.r)).cqt + 1) % 2 ^ 32 :=
    congrArg Ring.cqt (State.ring_setRing ..)
  have hcmd : (s.forget c.seq).cmd c.seq = none := by simp [State.cmd, State.forget]
  have horder : c.seq ∉ (s.forget c.seq).order := by simp [State.forget]
  by_cases hevent : bit (s.ringCtl c.f c.r) 35 = true ∧ bit c.body 10 = false
  · have ht : t = u.tell (.event (bits (s.ringCtl c.f c.r) 24 11)) := if_pos (by simpa [Cmd.quiet] using hevent)
    rw [ht, if_pos hevent]
    exact ⟨hcqt, hcmd, horder, rfl, rfl⟩
  · have ht : t = u := if_neg (by simpa [Cmd.quiet] using hevent)
    rw [ht, if_neg hevent, List.append_nil]
    exact ⟨hcqt, hcmd, horder, rfl, rfl⟩

theorem completions_clauses : Claims.Completions :=
  ⟨fun _ _ _ _ hon hdue => ⟨exec_completionWrite_inactive hdue, fun hst hin => ⟨exec_completionWrite_full hon hdue hst hin,
    fun hroom hloc hlink => exec_completionWrite_host hon hdue hst hin hroom hloc hlink,
    fun hroom hlink => exec_completionWrite_down hon hdue hst hin hroom hlink⟩⟩, completed_leaves⟩

/-! The states of rings (11 R400, R417). -/

theorem bit_mod_two_pow {i n : Nat} (h : i < n) (v : Nat) : bit (v % 2 ^ n) i = bit v i := by
  simp [bit, Nat.testBit_mod_two_pow, h]

section
variable {s : State} {f r v o : Nat} (ho : oRing f r + 0x10 = o)
include ho

/-- A ring that is not enabled becomes so only with a watched line of its function. -/
theorem ringCtlWrite_enable (hset : bit v 0 = true) (hoff : bit (s.rg o) 0 = false) : s.ringCtlWrite f r v =
    if s.wlOf f (ctlWL (v % 2 ^ 36)) then (s.setRg o (v % 2 ^ 36)).setRing (ringKey f r) { s.ring (ringKey f r) with st := 1 }
    else s.setRg o (v % 2 ^ 36 - 1) := by
  have hnew : bit (v % 2 ^ 36) 0 = true := (bit_mod_two_pow (by decide) v).trans hset
  unfold State.ringCtlWrite
  simp only [ho, hoff, hnew, Bool.false_and, Bool.not_false, Bool.and_self, Bool.false_eq_true, if_false, if_true]

theorem ringCtlWrite_disable (hclear : bit v 0 = false) (hsame : bit (s.rg o) 0 = false ∨ s.rg o / 2 = v % 2 ^ 36 / 2) :
    s.ringCtlWrite f r v = ((s.setRg o (v % 2 ^ 36)).setRing (ringKey f r)
      { s.ring (ringKey f r) with st := 0, woken := false }).dropDue f r := by
  have hnew : bit (v % 2 ^ 36) 0 = false := (bit_mod_two_pow (by decide) v).trans hclear
  have hkept : (bit (s.rg o) 0 && s.rg o / 2 != v % 2 ^ 36 / 2) = false := by
    rcases hsame with h | h <;> simp only [h, Bool.false_and, bne_self_eq_false, Bool.and_false]
  unfold State.ringCtlWrite
  simp only [ho, hkept, hnew, Bool.false_and, Bool.not_false, Bool.false_eq_true, if_false, if_true]

/-- While ENABLE is 1, a write that changes another field is ignored. -/
theorem ringCtlWrite_changed (henabled : bit (s.rg o) 0 = true) (hdiff : s.rg o / 2 ≠ v % 2 ^ 36 / 2) :
    s.ringCtlWrite f r v = s := by
  subst ho
  exact if_pos (by rw [henabled, Bool.true_and, bne_iff_ne]; exact hdiff)

end

theorem exec_ringEnable {s : State} {f : BitVec 4} {r : BitVec 6} {v : BitVec 64} (hon : On s) (hset : bit v.toNat 0 = true) :
    exec (.ringEnable f r v) s = .next (s.ringCtlWrite f.toNat r.toNat v.toNat) :=
  congrArg Host.Outcome.next (if_pos ⟨hon, hset⟩)

theorem exec_ringDisable {s : State} {f : BitVec 4} {r : BitVec 6} {v : BitVec 64} (hon : On s) (hclear : bit v.toNat 0 = false) :
    exec (.ringDisable f r v) s = .next (s.ringCtlWrite f.toNat r.toNat v.toNat) :=
  congrArg Host.Outcome.next (if_pos ⟨hon, hclear⟩)

/-- A ring after a store to watched line i. -/
def State.rung (s : State) (i k : Nat) (g : Ring) : Ring :=
  if g.st == 1 && ctlWL (s.ringCtl (k / 64) (k % 64)) == i then { g with woken := true } else g

theorem rung_woken (s : State) (i k : Nat) (g : Ring) :
    (s.rung i k g).woken = (g.woken || (g.st == 1 && ctlWL (s.ringCtl (k / 64) (k % 64)) == i)) := by
  unfold State.rung
  cases h : g.st == 1 && ctlWL (s.ringCtl (k / 64) (k % 64)) == i <;> simp

theorem ring_wakeLine (s : State) (i k : Nat) : (s.wakeLine i).ring k = s.rung i k (s.ring k) := by
  have hmap : (s.wakeLine i).rings = s.rings.map fun e => (e.1, s.rung i e.1 e.2) := by
    refine List.map_congr_left fun e _ => ?_
    unfold State.rung
    split <;> rfl
  rw [State.ring, State.ring, tgetD, tgetD, hmap, tget_map_snd]
  cases tget s.rings k <;> rfl

theorem ringStates_clauses : Claims.RingStates := by
  refine ⟨fun s f r v hon => ?control, fun s i k => ?woken⟩
  case control =>
    have ho : oRing f.toNat r.toNat + 0x10 = 0x00610010 + 0x800 * f.toNat + 0x20 * r.toNat := by
      unfold oRing
      omega
    refine ⟨fun hset hoff hwl => ?enabled, fun hset hoff hwl => ?unwatched, fun hclear hsame => ?disabled,
      fun hclear henabled hdiff => ?ignored⟩
    case enabled =>
      rw [exec_ringEnable hon hset, ringCtlWrite_enable ho hset hoff]
      exact congrArg Host.Outcome.next (if_pos hwl)
    case unwatched =>
      rw [exec_ringEnable hon hset, ringCtlWrite_enable ho hset hoff]
      exact congrArg Host.Outcome.next (if_neg (Bool.eq_false_iff.mp hwl))
    case disabled => rw [exec_ringDisable hon hclear, ringCtlWrite_disable ho hclear hsame]
    case ignored => rw [exec_ringDisable hon hclear, ringCtlWrite_changed ho henabled hdiff]
  case woken => rw [ring_wakeLine, rung_woken, ctlWL]

/-- Settles O48: a record by its check, a ring's turn by what the ring and the journal hold, a completion by the room and the link,
a ring's state by the write to its control register. -/
theorem ringsAndCompletions : Obligations.RingsAndCompletions :=
  ⟨recordAccepted_clauses, ringService_clauses, completions_clauses, ringStates_clauses⟩

end Sys2Proof.Machine
end

section
/-! The step of the block (14 R490, R491), and what a read returns after a power-on reset (15 R502, R505). -/

namespace Sys2Proof.Machine

/-- The tap of the timebase is a part of the platform. -/
theorem tick_rest (s : State) : { s.tick with plat := s.plat } = s := by
  unfold State.tick
  dsimp only
  split <;> rfl

theorem step_of_empty {s : State} (hempty : s.pending = []) : step s = .next s.tick := by rw [step, hempty]

theorem stepRunsFront_clauses : Claims.StepRunsTheFrontCommand :=
  ⟨fun _ _ => rfl, fun s hempty => ⟨step_of_empty hempty, tick_rest s⟩⟩

/-- No arm of the model's dispatch answers a fault or a refusal. -/
theorem everyCommand_completes : Claims.EveryCommandCompletes := fun c s => by
  cases c <;> exact ⟨_, rfl⟩

/-- Settles O57: the queue's front is the command that runs, and the meaning of each of the commands is a next state. -/
theorem stepRunsTheFrontCommand : Obligations.StepRunsTheFrontCommand := ⟨stepRunsFront_clauses, everyCommand_completes⟩

theorem resetTable_reads : ∀ e ∈ resetTable, occupied e.1 = true ∧ State.reset.regRead e.1 = e.2 := by
  decide +kernel

theorem resetValues_clauses : Claims.ResetValues :=
  ⟨resetTable_reads, fun _ => rfl, fun _ => rfl, fun _ => rfl, rfl, rfl, rfl⟩

theorem reset_versionsLegal : Claims.ResetVersionsLegal := by
  unfold Claims.ResetVersionsLegal
  decide

/-- Settles O58: each register of the table is read in the state after reset, whose tables of bytes, partitions and ports are empty. -/
theorem resetValues : Obligations.ResetValues := ⟨resetValues_clauses, reset_versionsLegal⟩

end Sys2Proof.Machine
end

section
/-! A circuit entry written through the window (08 R303; 15 R501): a write whose share would pass 896 of its output is ignored. -/

namespace Sys2Proof.Machine

/-- The low word of a circuit entry that is VALID, not TDM, and asks for all 1,023 units of SHARE. -/
def greedyEntry : Nat := 2 ^ 5 + 1023 * 2 ^ 32

/-- The two halves of entry 0 written after reset leave the table of circuits empty. -/
theorem greedyEntry_ignored :
    ((State.reset.regWrite 0x00D70000 greedyEntry).regWrite 0x00D70008 0).circ = [] := by
  decide +kernel

/-- Refutes O49: the statement has the high half of a circuit entry write the entry whatever it holds, and the model ignores one whose
SHARE, here 1,023, takes the shares of its output over 896. -/
theorem not_registersAndCounters : ¬ Obligations.RegistersAndCounters := by
  unfold Obligations.RegistersAndCounters Claims.WideRegisters
  rintro ⟨-, -, hwide⟩
  obtain ⟨-, -, hwritten, -⟩ := hwide State.reset 0 greedyEntry 0 (by decide) (by decide) (by decide)
  exact absurd (greedyEntry_ignored.symm.trans hwritten) (by decide +kernel)

end Sys2Proof.Machine
end

section
/-! What stops the device (13 R457, R465, R470; 14 R496), each cause with its record, and the timebase (14 R491). -/

namespace Sys2Proof.Machine

/-! Records and counters that have room (12 R423, R426). -/

/-- A record that has entered the log's queue, counted at a register. -/
def State.noted (s : State) (e : Event) (o : Nat) : State := ({ s with bltq := s.bltq ++ [e] } : State).rawCount o 1

section
variable {s : State}

theorem logEvent_of_room (hroom : s.bltq.length < 64) (e : Event) : s.logEvent e = { s with bltq := s.bltq ++ [e] } := if_pos hroom

theorem countAt_of_room {off n : Nat} (hsat : s.newSat off n = false) (code : Nat) : s.countAt off code n = s.rawCount off n :=
  if_neg (Bool.eq_false_iff.mp hsat)

theorem noted_of_room {code : Nat} (hroom : s.bltq.length < 64) (hsat : s.newSat (cntOff code) 1 = false) (e : Event) :
    (s.logEvent e).count code = s.noted e (cntOff code) := by
  rw [logEvent_of_room hroom]
  exact countAt_of_room (s := { s with bltq := s.bltq ++ [e] }) hsat code

end

theorem mem_addOnce_self (l : List Nat) (a : Nat) : a ∈ addOnce l a := by
  unfold addOnce
  split
  next h => exact List.contains_iff_mem.mp h
  next => exact List.mem_cons_self

/-! The stop. -/

/-- A port whose clocks stop. -/
def Port.idled (p : Port) : Port := { p with st := if p.st = .disabled then .disabled else .down }

theorem port_stopDevice (s : State) (n : Nat) : s.stopDevice.port n = ((tget s.ports n).map Port.idled).getD {} :=
  congrArg (fun p : Option Port => p.getD {}) (tget_map_snd (fun _ => Port.idled) s.ports n)

theorem stopDevice_leaves (s : State) : let t := s.stopDevice
    t.plat.power = .stopped ∧ t.link = .down ∧ (∀ n, (t.port n).st = .down ∨ (t.port n).st = .disabled) ∧ t.cores = s.cores ∧
    t.dram = s.dram ∧ t.jrn = s.jrn ∧ t.blt = s.blt := by
  refine ⟨rfl, rfl, fun n => ?ports, rfl, rfl, rfl, rfl⟩
  case ports =>
    rw [port_stopDevice]
    cases tget s.ports n with
    | none => exact .inr rfl
    | some p =>
      by_cases hst : p.st = .disabled
      · exact .inr (if_pos hst)
      · exact .inl (if_neg hst)

/-! The causes. -/

section
variable {s : State} (hroom : s.bltq.length < 64)
include hroom

theorem railRecord_of_room (hsat : s.newSat 0x00801188 1 = false) (r : Nat) :
    s.railRecord r = s.noted (s.event 0x0831 4 9 r 0 0 0) 0x00801188 := noted_of_room (code := 0x0831) hroom hsat _

theorem tripNow_of_room (hsat : s.newSat 0x00801180 1 = false) (i : Nat) : s.tripNow i =
    (({ s with plat := { s.plat with trip := true } } : State).stopDevice).noted (s.event 0x0830 4 9 i 0 0 0) 0x00801180 :=
  noted_of_room (s := ({ s with plat := { s.plat with trip := true } } : State).stopDevice) (code := 0x0830) hroom hsat _

end

theorem railBad_core_iff (x : Plat) (mv : Nat) : railBad x 0 mv = true ↔ mv + 20 < x.vset ∨ x.vset + 20 < mv ∨ 850 < mv := by
  simp [railBad, or_assoc]

theorem railBad_ioLow_iff (x : Plat) (mv : Nat) : railBad x 1 mv = true ↔ 100 * mv < 75000 - 4500 ∨ 75000 + 4500 < 100 * mv := by
  simp only [railBad, Bool.or_eq_true, decide_eq_true_eq]
  omega

section
variable {s : State} (hon : On s)
include hon

theorem exec_railFault {r : BitVec 4} (hr : r.toNat ≤ 6) (mv : BitVec 12) : exec (.railFault r mv) s =
    let x := { s.plat with railMv := tput s.plat.railMv r.toNat mv.toNat }
    .next (if railBad s.plat r.toNat mv.toNat = true
      then ({ s with plat := { x with railFault := addOnce s.plat.railFault r.toNat } } : State).stopDevice.railRecord r.toNat
      else { s with plat := x }) := by
  have hmonitors : s.plat.monitors = true := by simp [Plat.monitors, show s.plat.power = .running from hon]
  refine congrArg Host.Outcome.next ((if_neg (by simp [hmonitors]; omega)).trans ?_)
  cases railBad s.plat r.toNat mv.toNat with
  | false => rfl
  | true => exact if_pos hr

theorem exec_pllLockLoss (hlock : s.plat.lock = true) : exec .pllLockLoss s =
    .next (({ s with plat := { s.plat with lock := false, tbRun := false, refloss := true, railFault := addOnce s.plat.railFault 9 } } :
      State).stopDevice.railRecord 9) := by
  have hpower : s.plat.power = .running := hon
  exact congrArg Host.Outcome.next ((if_neg (by simp [hpower, hlock])).trans (if_pos hpower))

/-- What a sensor's sample leaves of the platform. -/
def State.sampled (s : State) (i v : Nat) : State :=
  { s with plat := { s.plat with
    temp := tput s.plat.temp i v
    tmax := tput s.plat.tmax i (if signed12 (tgetD s.plat.tmax i 0) < signed12 v then v else tgetD s.plat.tmax i 0)
    tripAt := if tripLimit i ≤ signed12 v then addOnce s.plat.tripAt i else s.plat.tripAt.filter (fun k => k != i)
    alert := s.plat.alert || decide (signed12 v ≥ signed12 (bits (s.rg 0x00300000) 0 12)) } }

theorem exec_sensorSample (i : BitVec 8) (v : BitVec 12) : exec (.sensorSample i v) s =
    .next (if tripLimit i.toNat ≤ signed12 v.toNat ∧ i.toNat ∈ s.plat.tripAt then (s.sampled i.toNat v.toNat).tripNow i.toNat
      else (s.sampled i.toNat v.toNat).sampleHold i.toNat (signed12 v.toNat)) := by
  refine congrArg Host.Outcome.next ((if_neg (not_not_intro hon)).trans ?_)
  simp only [State.sampled, ge_iff_le, Bool.and_eq_true, decide_eq_true_eq, List.contains_iff_mem]

end

theorem deviceStops_clauses : Claims.DeviceStops := by
  refine ⟨fun s hon => ⟨?lost, ?extest, fun r mv hr hbad hroom hsat => ?rail, fun r mv hr hgood => ?steady,
    fun hlock hroom hsat => ?lock, fun i v hhot hroom => ⟨fun hagain hsat => ?trip, fun hfirst hdram => ?first⟩⟩,
    stopDevice_leaves, fun x mv => ⟨railBad_core_iff x mv, railBad_ioLow_iff x mv⟩⟩
  case lost | extest => exact congrArg Host.Outcome.next (if_pos hon)
  case rail =>
    refine ⟨_, _, (exec_railFault hon hr mv).trans
      (congrArg Host.Outcome.next ((if_pos hbad).trans (railRecord_of_room ?_ ?_ _))), rfl, rfl, mem_addOnce_self .., rfl, rfl, rfl⟩
    · exact hroom
    · exact hsat
  case steady =>
    exact (exec_railFault hon hr mv).trans (congrArg Host.Outcome.next (if_neg (Bool.eq_false_iff.mp hgood)))
  case lock =>
    refine ⟨_, _, (exec_pllLockLoss hon hlock).trans (congrArg Host.Outcome.next (railRecord_of_room ?_ ?_ _)),
      rfl, rfl, rfl, rfl, rfl, rfl, rfl⟩
    · exact hroom
    · exact hsat
  case trip =>
    refine ⟨_, _, (exec_sensorSample hon i v).trans
      (congrArg Host.Outcome.next ((if_pos ⟨hhot, hagain⟩).trans (tripNow_of_room ?_ ?_ _))), rfl, rfl, rfl, rfl, rfl⟩
    · exact hroom
    · exact hsat
  case first =>
    have hheld := (exec_sensorSample hon i v).trans
      (congrArg Host.Outcome.next ((if_neg fun h => hfirst h.2).trans (if_pos hdram)))
    refine ⟨_, hheld, hon, ?_, rfl⟩
    rw [show (s.sampled i.toNat v.toNat).plat.tripAt = addOnce s.plat.tripAt i.toNat from if_pos hhot]
    exact mem_addOnce_self ..

/-! The timebase. -/

theorem exec_rootPllLock {s : State} (hpower : s.plat.power ≠ .islandReset) (hlock : s.plat.lock = false) : exec .rootPllLock s =
    let x := { s.plat with lock := true, tbRun := true, tb := if s.plat.tbStarted then s.plat.tb else 0, tbStarted := true }
    .next { s with plat := { x with power := if s.plat.power = .waitGood ∧ s.plat.pwrGood = true then .running else s.plat.power } } := by
  refine congrArg Host.Outcome.next ((if_neg (by simp [hpower, hlock])).trans ?_)
  by_cases hwait : s.plat.power = .waitGood ∧ s.plat.pwrGood = true
  · simp [hwait]
  · simp [hwait]

/-- A field apart from one that is written keeps its value when the register is written back. -/
theorem bits_rg_setRg_setBits_apart {lo n lo' n' : Nat} (h : lo' + n' ≤ lo ∨ lo + n ≤ lo') (hfit : lo' + n' ≤ 64) (s : State) (o x : Nat) :
    bits ((s.setRg o (setBits (s.rg o) lo n x)).rg o) lo' n' = bits (s.rg o) lo' n' := by
  rw [State.rg_setRg, bits_mod64 hfit, bits_setBits_apart h]

theorem bits_rg_setRg_setBits_same {lo n : Nat} (hfit : lo + n ≤ 64) (s : State) (o x : Nat) :
    bits ((s.setRg o (setBits (s.rg o) lo n x)).rg o) lo n = x % 2 ^ n := by
  rw [State.rg_setRg, bits_mod64 hfit, bits_setBits_same]

theorem bit_eq_bits (v i : Nat) : bit v i = (bits v i 1 == 1) := by
  simp [bit, bits, Nat.testBit, Nat.and_comm, Nat.and_one_is_mod]

/-! The tap. -/

section
variable {s : State}

theorem natAbs_trim_le (s : State) : s.trim.natAbs ≤ 200000 := by
  unfold State.trim
  omega

theorem tick_of_no_carry (hrun : s.plat.tbRun = true) (hcarry : s.plat.trimAcc + s.trim.natAbs < 1000000000) : s.tick =
    { s with plat := { s.plat with tb := (s.plat.tb + 1) % 2 ^ 64, trimAcc := s.plat.trimAcc + s.trim.natAbs } } := by
  simp only [State.tick, hrun, hcarry, if_true]

theorem tick_of_carry (hrun : s.plat.tbRun = true) (hcarry : 1000000000 ≤ s.plat.trimAcc + s.trim.natAbs) : s.tick =
    { s with plat := { s.plat with tb := (s.plat.tb + if s.trim > 0 then 2 else 0) % 2 ^ 64
                                   trimAcc := s.plat.trimAcc + s.trim.natAbs - 1000000000 } } := by
  simp only [State.tick, hrun, Nat.not_lt.mpr hcarry, if_true, if_false]

theorem tick_trimAcc_lt (hacc : s.plat.trimAcc < 1000000000) (hrun : s.plat.tbRun = true) : s.tick.plat.trimAcc < 1000000000 := by
  have htrim := natAbs_trim_le s
  rcases Nat.lt_or_ge (s.plat.trimAcc + s.trim.natAbs) 1000000000 with hcarry | hcarry
  · rw [tick_of_no_carry hrun hcarry]
    exact hcarry
  · rw [tick_of_carry hrun hcarry]
    show s.plat.trimAcc + s.trim.natAbs - 1000000000 < 1000000000
    omega

/-- What a cycle adds to the timebase and to the accumulator is together a second's worth of cycles and the trim. -/
theorem tick_balance (hrun : s.plat.tbRun = true) (hacc : s.plat.trimAcc < 1000000000) (hlow : s.plat.tb < 2 ^ 64 - 2) :
    1000000000 * ((s.tick.plat.tb : Int) - s.plat.tb) + s.tick.plat.trimAcc * s.trim.sign =
      1000000000 + s.trim + s.plat.trimAcc * s.trim.sign := by
  have hsign : s.trim.sign * |s.trim| = s.trim := Int.sign_mul_abs s.trim
  rcases Nat.lt_or_ge (s.plat.trimAcc + s.trim.natAbs) 1000000000 with hcarry | hcarry
  · rw [tick_of_no_carry hrun hcarry]
    have htb : (s.plat.tb + 1) % 2 ^ 64 = s.plat.tb + 1 := Nat.mod_eq_of_lt (by omega)
    simp only [htb]
    push_cast
    linarith
  · rw [tick_of_carry hrun hcarry]
    have htb (n : Nat) (hn : n ≤ 2) : (s.plat.tb + n) % 2 ^ 64 = s.plat.tb + n := Nat.mod_eq_of_lt (by omega)
    rcases lt_trichotomy s.trim 0 with hneg | hzero | hpos
    · rw [Int.sign_eq_neg_one_of_neg hneg] at hsign ⊢
      rw [if_neg (by omega), htb 0 (by decide)]
      push_cast [hcarry]
      linarith
    · exact absurd hcarry (by rw [hzero]; exact Nat.not_le.mpr hacc)
    · rw [Int.sign_eq_one_of_pos hpos] at hsign ⊢
      rw [if_pos hpos, htb 2 (by decide)]
      push_cast [hcarry]
      linarith

end

theorem timebase_clauses : Claims.Timebase := by
  refine ⟨fun s hpower hlock => ⟨_, exec_rootPllLock hpower hlock, rfl, rfl, rfl, rfl⟩,
    fun s v hon => ⟨fun hruled => ?refused, fun hfree => ?stepped⟩,
    fun s hempty => ⟨fun hstop => ?still, fun hrun htrim hacc => ?plain, fun hrun hacc => ?tapped⟩⟩
  case refused =>
    refine ⟨_, (next_of_on hon _).trans (congrArg Host.Outcome.next (if_pos hruled)), rfl, ?_,
      bits_rg_setRg_setBits_apart (.inl (by decide)) (by decide) s oTbTrim 1⟩
    rw [bit_eq_bits]
    exact beq_iff_eq.mpr (bits_rg_setRg_setBits_same (by decide) s oTbTrim 1)
  case stepped => exact (next_of_on hon _).trans (congrArg Host.Outcome.next (if_neg (Bool.eq_false_iff.mp hfree)))
  case still =>
    exact (step_of_empty hempty).trans (congrArg Host.Outcome.next (if_neg (Bool.eq_false_iff.mp hstop)))
  case plain =>
    have htick : s.tick = { s with plat := { s.plat with tb := (s.plat.tb + 1) % 2 ^ 64 } } := by
      rw [tick_of_no_carry hrun (by rw [htrim]; exact hacc), htrim]
      rfl
    rw [step_of_empty hempty, htick]
  case tapped =>
    refine ⟨s.tick, step_of_empty hempty, tick_trimAcc_lt hacc hrun, ?_⟩
    rcases Nat.lt_or_ge s.plat.tb (2 ^ 64 - 2) with hlow | hhigh
    · exact .inl (tick_balance hrun hacc hlow)
    · exact .inr hhigh

/-- Settles O52: each cause by the record that it leaves in a queue with room, the timebase by the tap's carry. -/
theorem stopsAndTimebase : Obligations.StopsAndTimebase := ⟨deviceStops_clauses, timebase_clauses⟩

end Sys2Proof.Machine
end

section
/-! Droop, the core voltage, the power cap, temperature and power domains (13 R458-R460, R463, R466, R467, R469; 14 R493, R494). -/

namespace Sys2Proof.Machine

/-! A throttle leaves the platform (12 R444; 14 R493). -/

/-- It is felt in the contexts of partitions alone. -/
theorem foldl_throttleCtx_reads {α : Type} (f : State → α) (hf : ∀ (s : State) parts, f { s with parts } = f s) (ps : List Nat) (s : State) :
    f (ps.foldl (fun (s : State) p => s.throttleCtx p) s) = f s := by
  refine foldl_reads f (fun s p => ?_) ps s
  unfold State.throttleCtx
  split
  · rfl
  · dsimp only
    split
    · exact hf ..
    · rfl

theorem throttled_plat (s : State) (srck srcid : Nat) (ps : List Nat) : (s.throttled srck srcid ps).plat = s.plat :=
  (foldl_throttleCtx_reads State.plat (fun _ _ => rfl) ps _).trans ((State.logEvent_plat ..).trans (State.count_plat ..))

theorem droop_clauses : Claims.Droop := by
  refine fun s mv hon => ⟨rfl, fun hhigh => ?held, fun hlow hfirst => ?droops⟩
  case held => exact congrArg Host.Outcome.next (if_pos (by simp; omega))
  case droops =>
    have hpower : s.plat.power = .running := hon
    exact congrArg Host.Outcome.next (if_neg (by simp [hpower, hfirst]; omega))

/-! The core voltage. -/

section
variable {s : State} (hruns : s.loopsRun = true)
include hruns

theorem exec_avsStatusRead (fault : Bool) (v : BitVec 12) : exec (.avsStatusRead fault v) s =
    let t : State := { s with plat := { s.plat with railMv := tput s.plat.railMv 0 v.toNat } }
    .next (if fault then t.railRecord 0 else t) :=
  congrArg Host.Outcome.next (if_neg (by simp [hruns]))

omit hruns in
theorem exec_avsVoltageWrite_ruled (hruled : s.ruledExists = true) (v rb : BitVec 12) (ack : Bool) :
    exec (.avsVoltageWrite v ack rb) s = .next s :=
  congrArg Host.Outcome.next (if_pos (by simp [hruled]))

/-- A setpoint that suits the smallest divider among the clusters that are ON is taken up. -/
theorem exec_avsVoltageWrite_suits {v : BitVec 12} (hgood : s.plat.avserr = false) (hfree : s.ruledExists = false)
    (hv : v.toNat = s.plat.vAt s.plat.minDiv) (hlow : 6 ≤ s.plat.minDiv) (hhigh : s.plat.minDiv ≤ 12) (ack : Bool) (rb : BitVec 12) :
    exec (.avsVoltageWrite v ack rb) s = .next (if ack = true ∧ rb.toNat ≤ v.toNat + 10 ∧ v.toNat ≤ rb.toNat + 10
      then { s with plat := { s.plat with
        vset := v.toNat, vconf := v.toNat, avsTry := 0, railMv := tput s.plat.railMv 0 rb.toNat } }
      else if s.plat.avsTry < 2 then { s with plat := { s.plat with avsTry := s.plat.avsTry + 1 } }
      else { s with plat := { s.plat with
        avserr := true, avsTry := 0, vset := s.plat.vconf
        capDiv := (List.range 64).map fun n => (n, max s.plat.floorDiv (tgetD s.plat.capDiv n 6)) } }) := by
  have hsuits : (List.range' 6 7).any (fun d => decide (d ≤ s.plat.minDiv) && s.plat.vAt d == v.toNat) = true :=
    List.any_eq_true.mpr ⟨s.plat.minDiv, List.mem_range'_1.mpr ⟨hlow, by omega⟩, by simp [hv]⟩
  refine congrArg Host.Outcome.next ((if_neg (by simp [hruns, hgood, hfree, hsuits])).trans ?_)
  simp only [Bool.and_eq_true, decide_eq_true_eq, and_assoc]

end

theorem coreVoltage_clauses : Claims.CoreVoltage := by
  intro s v rb ack hruns
  refine ⟨⟨exec_avsStatusRead hruns false v, exec_avsStatusRead hruns true v⟩, fun hgood hfree hv hlow hhigh => ?write,
    fun hruled => exec_avsVoltageWrite_ruled hruled v rb ack⟩
  case write =>
    have hwrite := exec_avsVoltageWrite_suits hruns hgood hfree hv hlow hhigh ack rb
    refine ⟨fun hok => ?confirmed, fun hbad htry => ?again, fun hbad htry => ?failed⟩
    case confirmed => exact hwrite.trans (congrArg Host.Outcome.next (if_pos hok))
    case again => exact hwrite.trans (congrArg Host.Outcome.next ((if_neg hbad).trans (if_pos htry)))
    case failed =>
      refine ⟨_, hwrite.trans (congrArg Host.Outcome.next ((if_neg hbad).trans (if_neg (Nat.not_lt.mpr htry)))), rfl, rfl,
        fun n hn => ?_⟩
      have hcap := tget_numbered (fun n => max s.plat.floorDiv (tgetD s.plat.capDiv n 6)) 0 hn
      simp only [Nat.zero_add] at hcap
      rw [tgetD, hcap]
      exact Nat.le_max_left ..

/-! The cap loop. -/

section
variable {s : State} {w : BitVec 11} (hruns : s.loopsRun = true)
include hruns

theorem exec_capLoop : exec (.capLoop w) s = .next (s.capStep w.toNat) := congrArg Host.Outcome.next (if_pos hruns)

end

/-- The platform with a period's draw and the count of periods over the cap. -/
def State.drawn (s : State) (w : Nat) : Plat := { s.plat with watts := w, overCnt := if w > s.cap then s.plat.overCnt + 1 else 0 }

/-- The Freehand clusters that are ON and may slow. -/
def State.slowable (s : State) : List Nat := (s.onOf false).filter fun n => decide (tgetD s.plat.capDiv n 6 < 12)

section
variable {s : State} {w : Nat}

section
variable (hover : s.cap < w)
include hover

theorem capStep_slows (hslow : s.slowable ≠ []) : s.capStep w = { s with plat := (s.drawn w).raise s.slowable 1 } :=
  (if_pos hover).trans (if_pos (show (!s.slowable.isEmpty) = true by simpa using hslow))

theorem capStep_nclk (hslow : s.slowable = []) (hfree : s.ruledExists = false) (hndiv : s.plat.ndiv = 4) : s.capStep w =
    { s with plat := { s.drawn w with ndiv := 6, capSteps := 2 :: s.plat.capSteps } } :=
  (if_pos hover).trans ((if_neg (show ¬ (!s.slowable.isEmpty) = true by simp [hslow])).trans (if_pos (by simp [hfree, hndiv])))

theorem capStep_floor (hslow : s.slowable = []) (hruled : s.ruledExists = true) (hcount : s.plat.overCnt < 9) : s.capStep w =
    { s with plat := { s.drawn w with floor := true } } := by
  refine (if_pos hover).trans ((if_neg (show ¬ (!s.slowable.isEmpty) = true by simp [hslow])).trans ((if_neg (by simp [hruled])).trans (if_neg ?_)))
  simp [hover]
  omega

end

theorem capStep_between (hunder : w ≤ s.cap) (hnear : s.cap - s.cap / 32 ≤ w) : s.capStep w = { s with plat := s.drawn w } :=
  (if_neg (Nat.not_lt.mpr hunder)).trans (if_neg (Nat.not_lt.mpr hnear))

theorem capStep_undoes {k : Nat} {rest : List Nat} (hlow : w < s.cap - s.cap / 32) (hsteps : s.plat.capSteps = k :: rest) :
    s.capStep w = s.undoStep { s.drawn w with capSteps := rest, floor := false } k := by
  refine (if_neg (by omega)).trans ((if_pos hlow).trans ?_)
  simp only [hsteps]
  rfl

end

/-! The last step undone. -/

theorem tgetD_foldl_tput_of_not_mem {V : Type} (f : Tbl V → Nat → V) {xs : List Nat} {n : Nat} (h : n ∉ xs) (t : Tbl V) (d : V) :
    tgetD (xs.foldl (fun t i => tput t i (f t i)) t) n d = tgetD t n d := by
  induction xs generalizing t with
  | nil => rfl
  | cons x xs ih =>
    obtain ⟨hx, hxs⟩ := not_or.mp (mt List.mem_cons.mpr h)
    exact (ih hxs _).trans (tgetD_tput_ne _ _ _ hx)

theorem undoStep_divider_plat {k : Nat} (hodd : k % 2 = 1) (s : State) (x : Plat) :
    (s.undoStep x k).plat = { x with capDiv := x.lower (s.undoClus (k / 8)) } := by
  unfold State.undoStep
  rw [if_pos hodd]
  dsimp only
  split
  · rfl
  · exact throttled_plat ..

/-- A Ruled partition's cluster at the divider that it was created at is not among those whose dividers fall. -/
theorem not_mem_undoClus {s : State} {n p : Nat} (hholder : s.holder n = some p) (hruled : (s.part p).ruled = true)
    (hclk : tgetD s.plat.capDiv n 6 ≤ tgetD (s.part p).clk n 6) (mask : Nat) : n ∉ s.undoClus mask := by
  intro h
  have hfall := (List.mem_filter.mp h).2
  simp [hholder, hruled, Nat.not_lt.mpr hclk] at hfall

theorem undoNclk_of_slow {s : State} {p : Nat} (hp : p < 16) (hst : (s.part p).st ≠ .free) (hruled : (s.part p).ruled = true)
    (hnclk : (s.part p).nclk ≠ 4) : s.undoNclk = false :=
  List.all_eq_false.mpr ⟨p, List.mem_filter.mpr ⟨List.mem_range.mpr hp, by simp [hst, hruled]⟩, by simp [hnclk]⟩

theorem undoStep_nclk_held {s : State} (hheld : s.undoNclk = false) (x : Plat) : s.undoStep x 2 = { s with plat := x } := by
  unfold State.undoStep
  rw [if_neg (by decide), if_neg (Bool.eq_false_iff.mp hheld)]

theorem powerCap_clauses : Claims.PowerCap := by
  intro s w hruns cap x slow
  refine ⟨fun hover hslow => ?slows, fun hover hslow hfree hndiv => ?nclk, fun hover hslow hruled hcount => ?floor,
    fun hunder hnear => ?between, fun k rest hlow hsteps hk => ?undone, fun rest hlow hsteps hheld => ?held⟩
  case slows => exact (exec_capLoop hruns).trans (congrArg Host.Outcome.next (capStep_slows hover hslow))
  case nclk => exact (exec_capLoop hruns).trans (congrArg Host.Outcome.next (capStep_nclk hover hslow hfree hndiv))
  case floor => exact (exec_capLoop hruns).trans (congrArg Host.Outcome.next (capStep_floor hover hslow hruled hcount))
  case between => exact (exec_capLoop hruns).trans (congrArg Host.Outcome.next (capStep_between hunder hnear))
  case undone =>
    have hplat := undoStep_divider_plat (show k % 2 = 1 by omega) s { s.drawn w.toNat with capSteps := rest, floor := false }
    refine ⟨_, (exec_capLoop hruns).trans (congrArg Host.Outcome.next (capStep_undoes hlow hsteps)), ?_⟩
    rw [hplat]
    exact ⟨rfl, rfl, rfl, fun n p hholder hruled hclk =>
      tgetD_foldl_tput_of_not_mem _ (not_mem_undoClus hholder hruled hclk (k / 8)) _ _⟩
  case held =>
    obtain ⟨p, hp, hst, hruled, hnclk⟩ := hheld
    exact (exec_capLoop hruns).trans (congrArg Host.Outcome.next
      ((capStep_undoes hlow hsteps).trans (undoStep_nclk_held (undoNclk_of_slow hp hst hruled hnclk) _)))

/-! Temperature. -/

/-- The hottest sensor of a cluster. -/
def Plat.heat (x : Plat) (n : Nat) : Int := max (x.t (3 * n)) (max (x.t (3 * n + 1)) (x.t (3 * n + 2)))

/-- The hottest DRAM sensor of a cluster's die quadrant. -/
def Plat.dramHeat (x : Plat) (n : Nat) : Int :=
  (List.range 8).foldl (fun m d => max m (x.t (192 + 4 * d + quadrant n))) (x.t (192 + quadrant n))

theorem quadrant_lt (n : Nat) : quadrant n < 4 := by
  unfold quadrant b2n
  split <;> split <;> decide

theorem dramHeat_le {x : Plat} {m : Int} (h : ∀ i, 192 ≤ i → i < 224 → x.t i ≤ m) (n : Nat) : x.dramHeat n ≤ m := by
  have hq := quadrant_lt n
  refine List.foldlRecOn (motive := (· ≤ m)) _ _ (h _ (by omega) (by omega)) fun b hb d hd => max_le hb (h _ (by omega) ?_)
  have := List.mem_range.mp hd
  omega

/-- An operation on the platform alone, told apart from one that changes nothing. -/
theorem ite_plat_eq (s : State) (x : Plat) : (if x = s.plat then s else { s with plat := x }) = { s with plat := x } := by
  split
  next h => rw [h]
  next => rfl

theorem exec_thermalLoop_freehand {s : State} {c : BitVec 6} (hruns : s.loopsRun = true) (hfree : s.isRuledClu c.toNat = false) :
    exec (.thermalLoop c) s =
      let n := c.toNat
      let x := s.plat
      let cur := tgetD x.thDiv n 6
      .next (if (824 ≤ x.heat n ∨ 744 ≤ x.dramHeat n) ∧ cur < 12 then { s with plat := { x with thDiv := tput x.thDiv n (cur + 1) } }
        else if (x.heat n ≤ 784 ∧ x.dramHeat n ≤ 704) ∧ max 6 x.floorDiv < cur then
          { s with plat := { x with thDiv := tput x.thDiv n (cur - 1) } }
        else s) := by
  have hheat : max (s.plat.t (3 * c.toNat)) (max (s.plat.t (3 * c.toNat + 1)) (s.plat.t (3 * c.toNat + 2))) = s.plat.heat c.toNat := rfl
  have hdram : (List.range 8).foldl (fun m d => max m (s.plat.t (192 + 4 * d + quadrant c.toNat))) (s.plat.t (192 + quadrant c.toNat)) =
    s.plat.dramHeat c.toNat := rfl
  refine congrArg Host.Outcome.next ((if_neg (by simp [hruns])).trans ?_)
  simp only [hfree, Bool.and_eq_true, Bool.or_eq_true, decide_eq_true_eq, Bool.not_false, and_true, Bool.false_eq_true, if_false,
    ge_iff_le, gt_iff_lt, hheat, hdram]
  by_cases hup : (824 ≤ s.plat.heat c.toNat ∨ 744 ≤ s.plat.dramHeat c.toNat) ∧ tgetD s.plat.thDiv c.toNat 6 < 12
  · simp only [if_pos hup]
    exact ite_plat_eq s _
  · simp only [if_neg hup]
    by_cases hdown : (s.plat.heat c.toNat ≤ 784 ∧ s.plat.dramHeat c.toNat ≤ 704) ∧ max 6 s.plat.floorDiv < tgetD s.plat.thDiv c.toNat 6
    · simp only [if_pos hdown]
      exact ite_plat_eq s _
    · simp only [if_neg hdown, if_true]

section
variable {s : State} {i : Nat} {t : Int} (hi : i < 192)
include hi

theorem sampleHold_cool (ht : t ≤ 840) : s.sampleHold i t =
    { s with plat := { s.plat with holdT := s.plat.holdT.filter (fun m => m != i) } } :=
  (if_neg (Nat.not_le.mpr hi)).trans ((if_neg (by simp; omega)).trans (if_pos ht))

theorem sampleHold_between (hlow : 840 < t) (hhigh : t < 880) : s.sampleHold i t = s :=
  (if_neg (Nat.not_le.mpr hi)).trans ((if_neg (by simp; omega)).trans (if_neg (by omega)))

theorem mem_sampleHold_hot (ht : 880 ≤ t) : i ∈ (s.sampleHold i t).plat.holdT := by
  unfold State.sampleHold
  rw [if_neg (Nat.not_le.mpr hi)]
  by_cases hheld : i ∈ s.plat.holdT
  · rw [if_neg (by simp [hheld]), if_neg (by omega)]
    exact hheld
  · rw [if_pos (by simp [hheld, ht]), throttled_plat]
    exact mem_addOnce_self ..

end

theorem tripLimit_of_cluster {i : Nat} (hi : i < 192) : tripLimit i = 1000 := if_neg (by omega)

theorem exec_sensorSample_cluster {s : State} {i : BitVec 8} {v : BitVec 12} (hon : On s) (hi : i.toNat < 192)
    (hv : signed12 v.toNat < 1000) :
    exec (.sensorSample i v) s = .next ((s.sampled i.toNat v.toNat).sampleHold i.toNat (signed12 v.toNat)) :=
  (exec_sensorSample hon i v).trans (congrArg Host.Outcome.next (if_neg fun h => by
    rw [tripLimit_of_cluster hi] at h
    omega))

/-! Domains. -/

theorem exec_domainWake {s : State} {d : BitVec 7} (hon : On s) (hup : 1 ∉ s.plat.scribeDown) (hd : d.toNat < 92) :
    exec (.domainWake d) s = .next (if !s.domWanted d.toNat
      then (if tgetD s.plat.dom d.toNat 0 = 0 then s else { s with plat := { s.plat with dom := tdel s.plat.dom d.toNat } })
      else if tgetD s.plat.dom d.toNat 0 ≠ 0 || decide ((s.plat.dom.filter (fun e => e.2 == 1)).length ≥ 8) then s
      else { s with plat := { s.plat with dom := tput s.plat.dom d.toNat 1 } }) := by
  have hpower : s.plat.power = .running := hon
  exact congrArg Host.Outcome.next (if_neg (by simp [hpower, hup]; omega))

theorem thermalAndDomains_clauses : Claims.ThermalAndDomains := by
  refine ⟨fun s c hruns => ⟨fun hfree hhot hcur => ?slows, fun hfree hdram hcool hcur => ?speeds⟩,
    fun s i v hon hi hv => ⟨fun hcool => ?released, fun hlow hhigh => ?kept, fun hhot hroom => ?held⟩,
    fun s d hon hup hd => ⟨fun hunwanted hawake => ?off, fun hwanted hoff hfew => ?wakes, fun hwanted hmany => ?waits, fun hwaking => ?on⟩⟩
  case slows =>
    exact (exec_thermalLoop_freehand hruns hfree).trans (congrArg Host.Outcome.next (if_pos ⟨.inl hhot, hcur⟩))
  case speeds =>
    have htd := dramHeat_le hdram c.toNat
    have hth : s.plat.heat c.toNat ≤ 784 := hcool
    refine (exec_thermalLoop_freehand hruns hfree).trans (congrArg Host.Outcome.next ((if_neg ?_).trans (if_pos ⟨⟨hth, htd⟩, hcur⟩)))
    omega
  case released =>
    exact ⟨_, (exec_sensorSample_cluster hon hi hv).trans (congrArg Host.Outcome.next (sampleHold_cool hi hcool)), rfl, rfl⟩
  case kept =>
    exact ⟨_, (exec_sensorSample_cluster hon hi hv).trans (congrArg Host.Outcome.next (sampleHold_between hi hlow hhigh)), rfl, rfl⟩
  case held => exact ⟨_, exec_sensorSample_cluster hon hi hv, mem_sampleHold_hot hi hhot⟩
  case off =>
    exact (exec_domainWake hon hup hd).trans (congrArg Host.Outcome.next ((if_pos (by simp [hunwanted])).trans (if_neg hawake)))
  case wakes =>
    refine (exec_domainWake hon hup hd).trans (congrArg Host.Outcome.next ((if_neg (by simp [hwanted])).trans (if_neg ?_)))
    simp [hoff, hfew]
  case waits =>
    exact (exec_domainWake hon hup hd).trans (congrArg Host.Outcome.next ((if_neg (by simp [hwanted])).trans (if_pos (by simp [hmany]))))
  case on =>
    have hpower : s.plat.power = .running := hon
    exact congrArg Host.Outcome.next (if_neg (by simp [hpower, hwaking]))

/-- Settles O53: each loop by the branch that its measurement takes; what a throttle counts and records is no part of the platform. -/
theorem powerAndThermalLoops : Obligations.PowerAndThermalLoops :=
  ⟨droop_clauses, coreVoltage_clauses, powerCap_clauses, thermalAndDomains_clauses⟩

end Sys2Proof.Machine
end

section
/-! Resets (11 R414; 14 R477-R479): what a power-on, a cold and a warm reset leave of each part of the device. -/

namespace Sys2Proof.Machine

/-! Flash, whose programming a reset may cut off. -/

section
variable (s : State)

theorem cutFlash_of_idle {s : State} (hupd : s.plat.updSt = 0 ∨ 3 < s.plat.updSt) (hrec : s.plat.recSt ≠ 3) : s.cutFlash = s :=
  if_neg (by omega)

/-- What does not read flash, nor the values left free, is as it was. -/
theorem cutFlash_reads {α : Type} (f : State → α) (hf : ∀ flash free, f { s with free, plat := { s.plat with flash } } = f s) :
    f s.cutFlash = f s := by
  unfold State.cutFlash
  dsimp only
  split
  · exact hf ..
  · rfl

/-! A cold reset. -/

theorem coldState_power : s.coldState.plat.power = s.plat.power := cutFlash_reads s (·.plat.power) fun _ _ => rfl
theorem coldState_pwrGood : s.coldState.plat.pwrGood = s.plat.pwrGood := cutFlash_reads s (·.plat.pwrGood) fun _ _ => rfl
theorem coldState_lock : s.coldState.plat.lock = s.plat.lock := cutFlash_reads s (·.plat.lock) fun _ _ => rfl
theorem coldState_tb : s.coldState.plat.tb = s.plat.tb := cutFlash_reads s (·.plat.tb) fun _ _ => rfl
theorem coldState_tapIr : s.coldState.plat.tapIr = s.plat.tapIr := cutFlash_reads s (·.plat.tapIr) fun _ _ => rfl
theorem coldState_blt : s.coldState.blt = s.blt := cutFlash_reads s State.blt fun _ _ => rfl
theorem coldState_bltHead : s.coldState.bltHead = s.bltHead := cutFlash_reads s State.bltHead fun _ _ => rfl
theorem coldState_reg : s.coldState.reg = s.reg.filter (fun e => e.1 == 0x00800008) :=
  congrArg (List.filter fun e : Nat × W64 => e.1 == 0x00800008) (cutFlash_reads s State.reg fun _ _ => rfl)

theorem coldState_flash {s : State} (hupd : s.plat.updSt = 0 ∨ 3 < s.plat.updSt) (hrec : s.plat.recSt ≠ 3) :
    s.coldState.plat.flash = s.plat.flash := congrArg (·.plat.flash) (cutFlash_of_idle hupd hrec)

end

theorem ite_lt_of_lt {c : Prop} [Decidable c] {a b n : Nat} (ha : a < n) (hb : b < n) : (if c then a else b) < n := by
  split <;> assumption

theorem regReset_lt (o : Nat) : regReset o < 2 ^ 64 := by
  unfold regReset
  repeat' refine ite_lt_of_lt ?_ ?_
  all_goals decide

/-- The registers that a reset keeps read as they did, the others as R505 gives them. -/
theorem rg_of_kept {s t : State} {f : Nat → Bool} (h : t.reg = s.reg.filter (fun e => f e.1)) (o : Nat) :
    t.rg o = if f o then s.rg o else regReset o := by
  rw [State.rg, h, tget_filter_key]
  cases f o with
  | true => rfl
  | false => exact Nat.mod_eq_of_lt (regReset_lt o)

theorem powerOnAndColdReset_clauses : Claims.PowerOnAndColdReset := by
  intro s
  refine ⟨⟨s.cutFlash.plat.flash, s.cutFlash.free, fun hupd hrec => ?idle, rfl, rfl⟩, fun hpower => ?good, fun hreset => ?held,
    fun hisland => ?low, ?cold⟩
  case idle =>
    rw [cutFlash_of_idle hupd hrec]
    exact ⟨rfl, rfl⟩
  case good =>
    refine congrArg Host.Outcome.next ?_
    rcases hpower with hpower | hpower <;> rw [hpower]
  case held =>
    refine ⟨congrArg Host.Outcome.next (by rw [hreset]), congrArg Host.Outcome.next (if_neg (not_not_intro hreset)),
      congrArg Host.Outcome.next (if_neg (by simp [hreset]))⟩
  case low =>
    exact ⟨_, congrArg Host.Outcome.next (if_neg hisland), rfl, rfl, rfl, coldState_blt s, coldState_tb s⟩
  case cold =>
    have hrg := rg_of_kept (f := (· == 0x00800008)) (coldState_reg s)
    refine ⟨rfl, rfl, rfl, rfl, rfl, rfl, rfl, coldState_tb s, coldState_tapIr s, coldState_flash, coldState_blt s, coldState_bltHead s,
      fun o ho => (hrg o).trans (if_neg (by simpa using ho)), (hrg _).trans (if_pos rfl), ?_⟩
    exact congrArg (fun b : Bool => if b = true then Power.running else .waitGood) (coldState_lock s)

/-! A warm reset. -/

section
variable (now e : Nat)

theorem jrnAborted_of_final {e : Nat} (h : 2 ≤ bits e 288 3) : jrnAborted now e = e := if_pos h

theorem jrnAborted_of_open {e : Nat} (h : bits e 288 3 < 2) :
    jrnAborted now e = setBits (setBits (setBits e 288 3 3) 256 16 0x0601) 384 64 now := if_neg (Nat.not_le.mpr h)

theorem jrnAborted_fields {e : Nat} (h : bits e 288 3 < 2) :
    bits (jrnAborted now e) 288 3 = 3 ∧ bits (jrnAborted now e) 256 16 = 0x0601 ∧ bits (jrnAborted now e) 384 64 = now % 2 ^ 64 ∧
    bits (jrnAborted now e) 0 256 = bits e 0 256 := by
  rw [jrnAborted_of_open now h]
  refine ⟨?_, ?_, bits_setBits_same .., ?_⟩
  · rw [bits_setBits_apart (by decide), bits_setBits_apart (by decide), bits_setBits_same]
    rfl
  · rw [bits_setBits_apart (by decide), bits_setBits_same]
    rfl
  · rw [bits_setBits_apart (by decide), bits_setBits_apart (by decide), bits_setBits_apart (by decide)]

end

section
variable {s : State}

theorem warmReset_of_early (hready : s.plat.ready6 = false) (hwarm : s.plat.warmBoot = false) : s.warmReset = s.coldReset :=
  if_neg (by simp [hready, hwarm])

theorem warmReset_of_ready (hready : s.plat.ready6 = true) : s.warmReset = s.warmState := if_pos (by simp [hready])

/-- The DRAM of a partition that is not FREE goes to be cleared. -/
theorem mem_clearing_warmState {p : Nat} {r : Nat × Nat} (hp : p < 16) (hst : (s.part p).st ≠ .free) (hr : r ∈ (s.part p).dpa) :
    r ∈ s.warmState.clearing :=
  List.mem_append_right _ (List.mem_flatten.mpr ⟨_, List.mem_map.mpr ⟨p, List.mem_range.mpr hp, rfl⟩, by rwa [if_neg hst]⟩)

end

theorem warmReset_clauses : Claims.WarmReset := by
  refine ⟨fun s hon => ⟨s.warmReset, congrArg Host.Outcome.next (if_pos hon), congrArg Host.Outcome.next (if_pos ⟨hon, by decide⟩),
    warmReset_of_early, fun hready => ?ready⟩, fun s v hkey => ?locked, fun now e => ⟨jrnAborted_of_final now, jrnAborted_fields now⟩⟩
  case ready =>
    have hrg := rg_of_kept (s := s) (t := s.warmState) (f := fun o => o == 0x00800008 || o == oFabNode || o == oFabFm) rfl
    rw [warmReset_of_ready hready]
    exact ⟨(coldState_power s).trans hon, rfl, rfl, rfl, rfl, rfl, rfl, rfl, (hrg _).trans (if_pos rfl), (hrg _).trans (if_pos rfl),
      rfl, rfl, coldState_blt s, coldState_bltHead s, rfl, fun _ _ => mem_clearing_warmState⟩
  case locked => exact congrArg Host.Outcome.next (if_neg fun h => hkey h.2)

/-- Settles O51: each reset by the fields that it takes from the state before it, the registers by the keys that it keeps. -/
theorem resets : Obligations.Resets := ⟨powerOnAndColdReset_clauses, warmReset_clauses⟩

end Sys2Proof.Machine
end

section
/-! Scribes (12 R419; 14 R489, R490): a restart, its record and its count. -/

namespace Sys2Proof.Machine

/-! What counting and throttling leave of the platform, of the other counters, and of the log's queue (12 R422, R423, R426). -/

section
variable (s : State)

theorem countAt_plat (off code n : Nat) : (s.countAt off code n).plat = s.plat := by
  unfold State.countAt
  dsimp only
  repeat' split
  case isTrue.isFalse => exact State.logEvent_plat ..
  all_goals rfl

/-- An event changes no counter but those of lost records and of saturation. -/
theorem cnt_logEvent_ne {o : Nat} (hlost : o ≠ 0x00801088) (hsat : o ≠ 0x00801080) (e : Event) : (s.logEvent e).cnt o = s.cnt o := by
  unfold State.logEvent
  repeat' split
  · rfl
  · exact (State.cnt_setCnt_ne _ _ hsat).trans (State.cnt_setCnt_ne _ _ hlost)
  · exact State.cnt_setCnt_ne _ _ hlost

theorem cnt_countAt_ne {o off : Nat} (hoff : o ≠ off) (hlost : o ≠ 0x00801088) (hsat : o ≠ 0x00801080) (code n : Nat) :
    (s.countAt off code n).cnt o = s.cnt o := by
  unfold State.countAt
  dsimp only
  repeat' split
  case isTrue.isFalse =>
    exact (cnt_logEvent_ne _ hlost hsat _).trans ((State.cnt_setCnt_ne _ _ hsat).trans (State.cnt_setCnt_ne _ _ hoff))
  all_goals exact State.cnt_setCnt_ne _ _ hoff

theorem cnt_throttled_ne {o : Nat} (hoff : o ≠ 0x00801108) (hlost : o ≠ 0x00801088) (hsat : o ≠ 0x00801080) (srck srcid : Nat) (ps : List Nat) :
    (s.throttled srck srcid ps).cnt o = s.cnt o :=
  (foldl_throttleCtx_reads (·.cnt o) (fun _ _ => rfl) ps _).trans ((cnt_logEvent_ne _ hlost hsat _).trans (cnt_countAt_ne s hoff hlost hsat _ _))

theorem bltq_logEvent (e : Event) : s.bltq ⊆ (s.logEvent e).bltq := by
  unfold State.logEvent
  repeat' split
  · exact List.subset_append_left ..
  all_goals exact List.Subset.refl _

theorem bltq_countAt (off code n : Nat) : s.bltq ⊆ (s.countAt off code n).bltq := by
  unfold State.countAt
  dsimp only
  repeat' split
  case isTrue.isFalse => exact bltq_logEvent ((s.rawCount off n).rawCount (cntOff 0x0810) 1) _
  all_goals exact List.Subset.refl _

theorem bltq_throttled (srck srcid : Nat) (ps : List Nat) : s.bltq ⊆ (s.throttled srck srcid ps).bltq := by
  rw [State.throttled, foldl_throttleCtx_reads State.bltq fun _ _ => rfl]
  exact List.Subset.trans (bltq_countAt s _ _ _) (bltq_logEvent ..)

end

theorem newSat_of_lt {s : State} {o n : Nat} (h : s.cnt o + n < 2 ^ 48) : s.newSat o n = false := by
  rw [State.newSat, decide_eq_false (show ¬ s.cnt o + n > cntMax by unfold cntMax; omega), Bool.and_false]

theorem cnt_rawCount_of_lt {s : State} {o n : Nat} (h : s.cnt o + n < 2 ^ 48) : (s.rawCount o n).cnt o = s.cnt o + n := by
  have hlow : ¬ s.cnt o ≥ satBit := by unfold satBit; omega
  have hfit : ¬ s.cnt o + n > cntMax := by unfold cntMax; omega
  rw [State.rawCount, State.cnt_setCnt, cntAdd, if_neg hlow, if_neg hfit]
  exact Nat.mod_eq_of_lt (by omega)

/-! The restart. -/

section
variable {s : State} {k : BitVec 2} (hk : k.toNat ≤ 2)
include hk

theorem exec_watchdogExpiry (h : s.scribeUp k.toNat = true) :
    exec (.watchdogExpiry k) s = .next (s.scribeReset k.toNat) ∧ exec (.scribeMemoryUe k) s = .next (s.scribeReset k.toNat) :=
  have hruns : (decide (k.toNat ≤ 2) && s.scribeUp k.toNat) = true := by simp [hk, h]
  ⟨congrArg Host.Outcome.next (if_pos hruns), congrArg Host.Outcome.next (if_pos hruns)⟩

omit hk in
theorem exec_watchdogExpiry_down (h : s.scribeUp k.toNat = false) :
    exec (.watchdogExpiry k) s = .next s ∧ exec (.scribeMemoryUe k) s = .next s :=
  have hstays : ¬ (decide (k.toNat ≤ 2) && s.scribeUp k.toNat) = true := by simp [h]
  ⟨congrArg Host.Outcome.next (if_neg hstays), congrArg Host.Outcome.next (if_neg hstays)⟩

end

/-- A scribe is down, with a free value used for its program counter. -/
def State.scribeDropped (s : State) (k : Nat) : State :=
  { s.useFree with plat := { s.plat with scribeDown := addOnce s.plat.scribeDown k, holdP := s.plat.holdP || k == 1 } }

/-- What a scribe's restart leaves before Scribe-P's clock hold is felt as a throttle. -/
def State.scribeNoted (s : State) (k : Nat) : State :=
  (((s.scribeDropped k).count 0x0820).logEvent (s.event 0x0820 3 6 k s.freeVal.toNat 0 0)).countAt (oRestarts k) 0x0820 1

theorem scribeReset_eq (s : State) (k : Nat) : s.scribeReset k =
    if k = 1 ∧ s.plat.holdP = false then (s.scribeNoted k).throttled 0 0 (s.scribeNoted k).ruledParts else s.scribeNoted k := rfl

theorem scribeReset_plat (s : State) (k : Nat) : (s.scribeReset k).plat =
    { s.plat with scribeDown := addOnce s.plat.scribeDown k, holdP := s.plat.holdP || k == 1 } := by
  have hnoted : (s.scribeNoted k).plat = { s.plat with scribeDown := addOnce s.plat.scribeDown k, holdP := s.plat.holdP || k == 1 } := by
    rw [State.scribeNoted, countAt_plat, State.logEvent_plat, State.count_plat, State.scribeDropped]
  rw [scribeReset_eq]
  split
  · rw [throttled_plat, hnoted]
  · exact hnoted

theorem cnt_scribeReset (s : State) (k : Nat) : (s.scribeReset k).cnt (oRestarts k) = (s.scribeNoted k).cnt (oRestarts k) := by
  rw [scribeReset_eq]
  split
  next h =>
    rw [h.1]
    exact cnt_throttled_ne _ (by decide) (by decide) (by decide) _ _ _
  next => rfl

theorem cnt_scribeNoted {s : State} {k : Nat} (hk : k ≤ 2) (hrestarts : s.cnt (oRestarts k) < 2 ^ 48 - 1) :
    (s.scribeNoted k).cnt (oRestarts k) = s.cnt (oRestarts k) + 1 := by
  have hother (o : Nat) (ho : o = 0x00801100 ∨ o = 0x00801088 ∨ o = 0x00801080) : oRestarts k ≠ o := by
    unfold oRestarts
    omega
  unfold State.scribeNoted
  generalize hlogged : State.logEvent _ _ = t
  have hcnt : t.cnt (oRestarts k) = s.cnt (oRestarts k) := by
    rw [← hlogged, cnt_logEvent_ne _ (hother _ (by decide)) (hother _ (by decide))]
    exact cnt_countAt_ne _ (hother 0x00801100 (by decide)) (hother _ (by decide)) (hother _ (by decide)) _ _
  have hfit : t.cnt (oRestarts k) + 1 < 2 ^ 48 := by omega
  rw [countAt_of_room (newSat_of_lt hfit), cnt_rawCount_of_lt hfit, hcnt]

theorem mem_bltq_scribeNoted {s : State} (hroom : s.bltq.length < 64) (hcount : s.cnt 0x00801100 < 2 ^ 48 - 1) (k : Nat) :
    s.event 0x0820 3 6 k s.freeVal.toNat 0 0 ∈ (s.scribeNoted k).bltq := by
  have hcounted : (s.scribeDropped k).count 0x0820 = (s.scribeDropped k).rawCount 0x00801100 1 :=
    countAt_of_room (newSat_of_lt (s := s.scribeDropped k) (Nat.add_lt_of_lt_sub hcount)) _
  refine bltq_countAt _ _ _ _ ?_
  rw [hcounted, logEvent_of_room (show ((s.scribeDropped k).rawCount 0x00801100 1).bltq.length < 64 from hroom)]
  exact List.mem_append_right _ List.mem_cons_self

theorem mem_bltq_scribeReset {s : State} {e : Event} (k : Nat) (h : e ∈ (s.scribeNoted k).bltq) : e ∈ (s.scribeReset k).bltq := by
  rw [scribeReset_eq]
  split
  · exact bltq_throttled _ _ _ _ h
  · exact h

theorem scribeRestarts_clauses : Claims.ScribeRestarts := by
  refine fun s k hk => ⟨exec_watchdogExpiry_down, fun hup hroom hcount hrestarts => ?restarts⟩
  case restarts =>
    have hplat := scribeReset_plat s k.toNat
    obtain ⟨hexpiry, hmemory⟩ := exec_watchdogExpiry hk hup
    refine ⟨_, hexpiry, hmemory, ?down, ?stops, fun hone n hn => ?slow, ?counted, ?recorded⟩
    case down =>
      rw [hplat]
      exact mem_addOnce_self ..
    case stops =>
      rw [State.scribeUp, hplat, List.contains_iff_mem.mpr (mem_addOnce_self ..)]
      exact Bool.and_false _
    case slow =>
      rw [hplat]
      exact if_pos (by simp [hone])
    case counted => exact (cnt_scribeReset s _).trans (cnt_scribeNoted hk hrestarts)
    case recorded =>
      exact ⟨_, mem_bltq_scribeReset k.toNat (mem_bltq_scribeNoted (by omega) hcount _), rfl, rfl, BitVec.ofNat_toNat _ _⟩

/-- A device in boot stage 6 whose Scribe-B restarts. -/
def restartingState : State := { State.reset with plat := { power := .running, stage := 6, scribeDown := [0] } }

/-- Refutes O56: the statement lists a scribe whose watchdog expires behind those that are down, and the model lists it before them;
here Scribe-M while Scribe-B is down. -/
theorem not_platformCommandsComplete : ¬ Obligations.PlatformCommandsComplete := by
  unfold Obligations.PlatformCommandsComplete
  intro h
  obtain ⟨hscribes, -⟩ := h restartingState rfl
  obtain ⟨t, -, hexpiry, -, hdown, -⟩ := hscribes 2 (by decide) (by decide) (by decide) (by decide)
  have hreset := Host.Outcome.next.inj ((exec_watchdogExpiry (s := restartingState) (k := 2) (by decide) rfl).1.symm.trans hexpiry)
  rw [← hreset, scribeReset_plat] at hdown
  exact absurd hdown (by decide)

end Sys2Proof.Machine
end

section
/-! Boot, recovery and update (14 R480, R481, R484, R485, R487, R488). -/

namespace Sys2Proof.Machine

/-! Bond BIST's results (14 R498). -/

/-- Results are written one after the other, and what each is drawn from reads no register. -/
theorem rg_foldl_dbist {v : State → Nat → Nat} (hv : ∀ s o x c, v (s.setRg o x) c = v s c) {n c : Nat} (h : c < n) (s : State) :
    ((List.range n).foldl (fun (s : State) c => s.setRg (oDbistRes c) (v s c)) s).rg (oDbistRes c) = v s c % 2 ^ 64 := by
  induction n with
  | zero => exact absurd h (Nat.not_lt_zero c)
  | succ n ih =>
    rw [List.range_succ, List.foldl_append, List.foldl_cons, List.foldl_nil]
    rcases Nat.lt_succ_iff_lt_or_eq.mp h with hlt | rfl
    · exact (State.rg_setRg_ne _ _ (by unfold oDbistRes; omega)).trans (ih hlt)
    · rw [State.rg_setRg, foldl_reads (fun t => v t c) fun s x => hv ..]

/-- What reads neither the registers nor BIST's failure is as it was. -/
theorem bootBist_reads {α : Type} (f : State → α)
    (hf : ∀ (s : State) reg dbistFail, f { s with reg, plat := { s.plat with dbistFail } } = f s) (s : State) (bad : Bool) :
    f (s.bootBist bad) = f s := by
  unfold State.bootBist
  split
  · exact hf s s.reg true
  · exact foldl_reads f (fun s c => hf s (s.setRg (oDbistRes c) 1).reg s.plat.dbistFail) _ s

/-! Stage 4. -/

section
variable (s : State) (fail : Nat)

/-- The end of stage 4 before its bond BIST. -/
def State.memoryUp : State :=
  { s with
    link := .training
    clearing := if s.plat.warmBoot then s.clearing else [(0, 16 * quadGrans)]
    plat := { s.plat with stage := 5, dom := (List.range' 80 12).foldl (fun t d => tput t d 2) s.plat.dom
                          berr := if fail = 6 ∨ fail = 7 then fail else 0 } }

theorem bootMemory_eq : s.bootMemory fail =
    ((s.memoryUp fail).bootBist (decide (fail = 7))).setRg oDrmRsv (Config.rsvUnits.toNat * 2 ^ 25) := rfl

/-- What reads neither the registers nor BIST's failure. -/
theorem bootMemory_reads {α : Type} (f : State → α)
    (hf : ∀ (s : State) reg dbistFail, f { s with reg, plat := { s.plat with dbistFail } } = f s) :
    f (s.bootMemory fail) = f (s.memoryUp fail) := by
  rw [bootMemory_eq]
  exact (hf ((s.memoryUp fail).bootBist _) _ _).trans (bootBist_reads f hf _ _)

theorem dom_memoryUp {d : Nat} (hlow : 80 ≤ d) (hhigh : d < 92) : tgetD (s.memoryUp fail).plat.dom d 0 = 2 :=
  (tgetD_foldl_tput (fun _ => 2) d 0 _ _).trans (if_pos (List.mem_range'_1.mpr ⟨hlow, hhigh⟩))

theorem rg_bootMemory_dbist {fail c : Nat} (hpass : fail ≠ 7) (hc : c < 192) : (s.bootMemory fail).rg (oDbistRes c) = 1 := by
  rw [bootMemory_eq, State.rg_setRg_ne _ _ (by unfold oDbistRes oDrmRsv; omega), State.bootBist, if_neg (by simpa using hpass)]
  exact rg_foldl_dbist (v := fun _ _ => 1) (fun _ _ _ _ => rfl) hc _

end

/-! Each stage's end. -/

section
variable {s : State} (hon : On s) (hready : s.plat.ready6 = false) (f : BitVec 4)
include hon hready

theorem exec_bootStageComplete_memory (hstage : s.plat.stage = 4) : exec (.bootStageComplete f) s = .next (s.bootMemory f.toNat) := by
  refine congrArg Host.Outcome.next ((if_neg (by simp [hready]; exact hon)).trans ?_)
  simp only [hstage]

theorem exec_bootStageComplete_end (hstage : s.plat.stage = 6) (hscribe : s.plat.recBoot = true → 0 ∉ s.plat.scribeDown) :
    exec (.bootStageComplete f) s = .next (s.bootEnd f.toNat) := by
  refine congrArg Host.Outcome.next ((if_neg (by simp [hready]; exact hon)).trans ?_)
  simp only [hstage]
  exact if_neg (by simpa using hscribe)

end

theorem dramCleared_of_clean {s : State} (hon : On s) (hclean : s.upsets = []) : s.dramCleared = { s with
      dram := s.clearing.foldl (fun m r => mclear m (r.1 * 2 ^ 21) (r.2 * 2 ^ 21)) s.dram
      dramPoison := s.dramPoison.filter fun l => !s.clearing.any (fun r => decide (r.1 ≤ l / 8192) && decide (l / 8192 < r.1 + r.2))
      clearing := [] } :=
  Host.Outcome.next.inj ((next_of_on hon s.dramCleared).symm.trans (exec_dramClearDone hon hclean))

theorem bootStages_clauses : Claims.BootStages := by
  intro s f hon hready x
  have hruns : ¬ (decide (x.power ≠ .running) || x.ready6) = true := by simp [x, hready]; exact hon
  refine ⟨fun h0 => ?fuses, fun h1 => ?flash, fun h2 => ?check, fun h3 => ?voltage, fun h4 => ?memory, fun h5 hgood hup => ?linked,
    fun h5 hdown => ?waits, fun h6 hplain hclean => ?ready, fun h6 hrec hscribe hf hwarm => ?recovered⟩
  case memory =>
    refine ⟨_, exec_bootStageComplete_memory hon hready f h4, bootMemory_reads s _ (·.plat.stage) fun _ _ _ => rfl,
      bootMemory_reads s _ (·.link) fun _ _ _ => rfl, ?berr, State.rg_setRg .., fun d hlow hhigh => ?dom, fun hf c hc => ?bist,
      bootMemory_reads s _ (·.clearing) fun _ _ _ => rfl⟩
    case berr =>
      refine (bootMemory_reads s _ (·.plat.berr) fun _ _ _ => rfl).trans (if_congr (or_congr ?_ ?_) rfl rfl)
      · exact BitVec.toNat_inj (y := 6)
      · exact BitVec.toNat_inj (y := 7)
    case dom => exact (bootMemory_reads s _ (fun t => tgetD t.plat.dom d 0) fun _ _ _ => rfl).trans (dom_memoryUp s _ hlow hhigh)
    case bist => exact rg_bootMemory_dbist s (fun h => hf (BitVec.eq_of_toNat_eq h)) hc
  case ready =>
    refine (exec_bootStageComplete_end hon hready f h6 fun h => absurd (hplain.symm.trans h) (by decide)).trans
      (congrArg Host.Outcome.next ((if_neg (Bool.eq_false_iff.mp hplain)).trans ?_))
    rw [dramCleared_of_clean hon hclean]
    by_cases hwarm : s.plat.warmBoot = true
    · simp only [x, if_pos hwarm]
    · simp only [x, if_neg hwarm]
  case recovered =>
    refine (exec_bootStageComplete_end hon hready f h6 fun _ => hscribe).trans
      (congrArg Host.Outcome.next ((if_pos hrec).trans ((if_pos (congrArg BitVec.toNat hf)).trans ?_)))
    simp only [x, if_pos (show s.plat.warmBoot = true from hwarm)]
  all_goals refine congrArg Host.Outcome.next ((if_neg hruns).trans ?_)
  case fuses => simp only [show s.plat.stage = 0 from h0, x]
  case voltage => simp only [show s.plat.stage = 3 from h3, x]
  case flash =>
    simp only [show s.plat.stage = 1 from h1, x]
    exact if_congr (BitVec.toNat_inj (y := 1)) rfl rfl
  case check => simp only [show s.plat.stage = 2 from h2, State.runImage, x]
  case linked =>
    simp only [show s.plat.stage = 5 from h5, x]
    exact if_neg (by simp [show s.plat.berr = 0 from hgood, hup])
  case waits =>
    simp only [show s.plat.stage = 5 from h5]
    exact if_pos (by simp [hdown])

/-! Recovery and update. -/

section
variable {s : State} (hon : On s)
include hon

theorem recoveryBegin_of_recovery (hup : 0 ∉ s.plat.scribeDown) (hstage : s.plat.stage = 7) : s.recoveryBegin =
    { s with plat := { s.plat with recSt := 1, recBytes := 0, recErr := 0, image := 0 } } := by
  have hpower : s.plat.power = .running := hon
  refine (if_neg (by simp [hpower, hup, hstage])).trans ?_
  simp only [if_pos hstage]

theorem recoveryBegin_of_early (hup : 0 ∉ s.plat.scribeDown) (hstage : s.plat.stage < 3) : s.recoveryBegin =
    { s with plat := { s.plat with stage := 7, berr := 0, recSt := 1, recBytes := 0, recErr := 0, image := 0 } } := by
  have hpower : s.plat.power = .running := hon
  refine (if_neg (by simp [hpower, hup, hstage])).trans ?_
  rw [if_neg (show ¬ s.plat.stage = 7 by omega)]
  rfl

theorem recoveryData_of_room (hstage : s.plat.stage = 7) (hst : s.plat.recSt = 1) (hroom : s.plat.recBytes + 8 < 2 ^ 23) (v : BitVec 64) :
    s.recoveryData v = { s with plat := { s.plat with
      image := s.plat.image + v.toNat * 2 ^ (8 * s.plat.recBytes), recBytes := s.plat.recBytes + 8 } } := by
  have hpower : s.plat.power = .running := hon
  exact if_neg (by simp [hpower, hstage, hst]; omega)

theorem recoveryGo_of_received (hstage : s.plat.stage = 7) (hst : s.plat.recSt = 1) : s.recoveryGo =
    { s with plat := if imCheck s.plat.image s.plat.recBytes = 0
      then { s.plat with stage := 3, berr := 0, digest := imDigest s.plat.image, recBoot := true, recSt := 3 }
      else { s.plat with recSt := 5, recErr := imCheck s.plat.image s.plat.recBytes } } := by
  have hpower : s.plat.power = .running := hon
  refine (if_neg (by simp [hpower, hstage, hst])).trans ?_
  by_cases hgood : imCheck s.plat.image s.plat.recBytes = 0
  · simp only [if_pos hgood]
    rfl
  · simp only [if_neg hgood]

theorem recoveryAbort_of_recovery (hstage : s.plat.stage = 7) : s.recoveryAbort =
    { s with plat := { s.plat with recSt := 0, recBytes := 0, recErr := 0, image := 0 } } := by
  have hpower : s.plat.power = .running := hon
  exact if_neg (by simp [hpower, hstage])

theorem updateGo_of_idle (hlow : 3 ≤ s.plat.stage) (hstage : s.plat.stage ≠ 7) (hidle : s.plat.updSt = 0 ∨ 4 ≤ s.plat.updSt) :
    s.updateGo = { s with plat := { s.plat with updSt := 1, updErr := 0, updBytes := 0 } } := by
  have hpower : s.plat.power = .running := hon
  exact if_neg (by simp [hpower, hstage]; omega)

theorem exec_updateDone (hlow : 1 ≤ s.plat.updSt) (hhigh : s.plat.updSt ≤ 3) (hup : 0 ∉ s.plat.scribeDown) (hlink : s.link = .up)
    (ok : Bool) (image : Nat) : exec (.updateDone ok image) s =
      let n := bits (s.rg 0x00400408) 0 23
      let m := image % 2 ^ (8 * n)
      .next (if imCheck m n ≠ 0 then { s with plat := { s.plat with updBytes := n, updSt := 5, updErr := imCheck m n } }
        else if ok = true then { s with plat := { s.plat with updBytes := n, updSt := 4, updErr := 0, flash := m } }
        else { s.useFree with plat := { s.plat with updBytes := n, updSt := 5, updErr := 1, flash := s.freeVal.toNat } }) := by
  have hpower : s.plat.power = .running := hon
  exact congrArg Host.Outcome.next (if_neg (by simp [hpower, hup, hlink]; omega))

end

theorem updateGo_of_busy {s : State} (hlow : 1 ≤ s.plat.updSt) (hhigh : s.plat.updSt ≤ 3) : s.updateGo = s :=
  if_pos (by simp [hlow, hhigh])

theorem imCheck_of_badHeader {m n : Nat}
    (h : imMAGIC m ≠ 0x474D4957464B524D ∨ n < 8192 + imBODYLEN m ∨ imBODYLEN m % 4096 ≠ 0) : imCheck m n = 2 := by
  have hbad : imHeaderBad m n = true := by
    simp only [imHeaderBad, Bool.or_eq_true, bne_iff_ne, decide_eq_true_eq]
    tauto
  exact if_pos hbad

theorem updateEnd_clauses {s : State} (hon : On s) (hlow : 1 ≤ s.plat.updSt) (hhigh : s.plat.updSt ≤ 3) (hup : 0 ∉ s.plat.scribeDown)
    (hlink : s.link = .up) (image : Nat) {n m : Nat} (hn : bits (s.rg 0x00400408) 0 23 = n) (hm : image % 2 ^ (8 * n) = m) (ok : Bool) :
    ∃ t, exec (.updateDone ok image) s = .next t ∧ t.plat.updBytes = n ∧
      (imCheck m n ≠ 0 → t.plat.flash = s.plat.flash ∧ t.plat.updSt = 5 ∧ t.plat.updErr = imCheck m n) ∧
      (imCheck m n = 0 → ok = true → t.plat.flash = m ∧ t.plat.updSt = 4 ∧ t.plat.updErr = 0) ∧
      (imCheck m n = 0 → ok = false → t.plat.updSt = 5 ∧ t.plat.updErr = 1) := by
  have hdone := exec_updateDone hon hlow hhigh hup hlink ok image
  rw [hn] at hdone
  dsimp only at hdone
  rw [hm] at hdone
  refine ⟨_, hdone, ?_⟩
  by_cases hgood : imCheck m n = 0
  · rw [if_neg (not_not_intro hgood)]
    cases ok with
    | true => exact ⟨rfl, fun hbad => absurd hgood hbad, fun _ _ => ⟨rfl, rfl, rfl⟩, nofun⟩
    | false => exact ⟨rfl, fun hbad => absurd hgood hbad, nofun, fun _ _ => ⟨rfl, rfl⟩⟩
  · rw [if_pos hgood]
    exact ⟨rfl, fun _ => ⟨rfl, rfl, rfl⟩, fun h => absurd h hgood, fun h => absurd h hgood⟩

theorem recoveryAndUpdate_clauses : Claims.RecoveryAndUpdate := by
  refine ⟨fun s hon hstage => ⟨fun hup => ?begin_, ?abort, fun hst => ⟨fun v hroom => ?data, ?go⟩⟩,
    fun s hon hstage hup => ?forced, fun s hon hlow hstage => ⟨fun hidle => ?update, fun hlow hhigh => ?busy⟩,
    fun s image hon hlow hhigh hup hlink => ?done, fun m n => imCheck_of_badHeader⟩
  case begin_ => exact congrArg Host.Outcome.next (recoveryBegin_of_recovery hon hup hstage)
  case abort => exact congrArg Host.Outcome.next (recoveryAbort_of_recovery hon hstage)
  case data => exact congrArg Host.Outcome.next (recoveryData_of_room hon hstage hst hroom v)
  case go => exact congrArg Host.Outcome.next (recoveryGo_of_received hon hstage hst)
  case forced => exact ⟨_, congrArg Host.Outcome.next (recoveryBegin_of_early hon hup hstage), rfl, rfl, rfl⟩
  case update => exact congrArg Host.Outcome.next (updateGo_of_idle hon ‹_› hstage hidle)
  case busy => exact congrArg Host.Outcome.next (updateGo_of_busy hlow hhigh)
  case done => exact updateEnd_clauses hon hlow hhigh hup hlink image rfl rfl

/-- Settles O54: the stages by the state that each leaves, an image by its check, a scribe by the record of its restart. -/
theorem bootAndFirmware : Obligations.BootAndFirmware := ⟨bootStages_clauses, recoveryAndUpdate_clauses, scribeRestarts_clauses⟩

end Sys2Proof.Machine
end

section
/-! Test access: the TAP (14 R495), the I3C address (14 R482), loopback (14 R497), and bond BIST (14 R498). -/

namespace Sys2Proof.Machine

/-! The TAP and I3C. -/

theorem tapAndI3c_clauses : Claims.TapAndI3c := by
  refine fun s code a => ⟨rfl, rfl, rfl, rfl, fun hcode => ?bypass, fun hpower => ?address, rfl⟩
  case bypass =>
    refine congrArg Host.Outcome.next (if_neg fun hassigned => hcode ?_)
    simpa [BitVec.toNat_eq] using hassigned
  case address => exact congrArg Host.Outcome.next (if_neg hpower)

/-! Loopback. -/

section
variable {s : State} (hon : On s)
include hon

theorem exec_loopbackDepth {i : BitVec 5} (hi : i.toNat ≤ 16) (d : BitVec 3) :
    exec (.loopbackDepth i d) s = .next (s.setDepth i.toNat d.toNat) := by
  have hpower : s.plat.power = .running := hon
  exact congrArg Host.Outcome.next (if_neg (by simpa [hpower] using hi))

theorem exec_loopbackRun {i : BitVec 5} (hi : i.toNat ≤ 16) (hdepth : bits (s.rg (oLb i.toNat)) 0 3 = 1) (n e : BitVec 48) :
    exec (.loopbackRun i n e) s = .next (((s.lbRun i.toNat).countAt (oLb i.toNat + 8) 0 n.toNat).countAt (oLb i.toNat + 16) 0
      (min n.toNat e.toNat)) := by
  have hpower : s.plat.power = .running := hon
  exact congrArg Host.Outcome.next ((if_neg (by simpa [hpower] using hi)).trans (if_pos (by rw [hdepth]; rfl)))

end

section
variable {s : State} {i d : Nat}

theorem setDepth_of_off (hi : i < 16) (hoff : bit (s.rg (oPortCtl i)) 0 = false) (h5 : d ≠ 5) (hd : d < 7) :
    s.setDepth i d = s.setRg (oLb i) (setBits (s.rg (oLb i)) 0 3 d) := by
  have hok : s.depthOk i d = true := by
    unfold State.depthOk
    interval_cases d <;> simp_all
  rw [State.setDepth, hok]
  exact (if_neg Bool.false_ne_true).trans (if_neg (by simp [hi.ne]))

theorem setDepth_of_enabled (hi : i < 16) (hon : bit (s.rg (oPortCtl i)) 0 = true) (hd : d ∈ [1, 2, 3, 4, 6]) : s.setDepth i d = s := by
  have hbad : s.depthOk i d = false := by
    unfold State.depthOk
    fin_cases hd <;> simp [hon, hi.ne]
  exact if_pos (by rw [hbad]; rfl)

end

theorem cnt_lbRun_bits (s : State) (i : Nat) : (s.lbRun i).cnt (oLb i + 8) = 0 := by
  rw [State.lbRun, State.cnt_setCnt_ne _ _ (by omega), State.cnt_setCnt]
  rfl

theorem cnt_lbRun_errors (s : State) (i : Nat) : (s.lbRun i).cnt (oLb i + 16) = 0 := State.cnt_setCnt ..

theorem run_lbRun (s : State) (i : Nat) : bit ((s.lbRun i).rg (oLb i)) 3 = true := by
  rw [bit_eq_bits]
  exact beq_iff_eq.mpr (bits_rg_setRg_setBits_same (by decide) s (oLb i) 1)

/-- A run from cleared counters: neither saturates. -/
theorem countAt_lbRun (s : State) (i : Nat) {n e : Nat} (hn : n < 2 ^ 48) (he : e < 2 ^ 48) :
    ((s.lbRun i).countAt (oLb i + 8) 0 n).countAt (oLb i + 16) 0 e = ((s.lbRun i).rawCount (oLb i + 8) n).rawCount (oLb i + 16) e := by
  have herrors : ((s.lbRun i).rawCount (oLb i + 8) n).cnt (oLb i + 16) = 0 :=
    (State.cnt_setCnt_ne _ _ (by omega)).trans (cnt_lbRun_errors s i)
  have hbits : (s.lbRun i).newSat (oLb i + 8) n = false := newSat_of_lt (by rw [cnt_lbRun_bits]; omega)
  rw [countAt_of_room hbits, countAt_of_room (newSat_of_lt (by rw [herrors]; omega))]

/-! Bond BIST. -/

section
variable (fails : List (BitVec 8 × BitVec 3 × BitVec 9))

theorem dbistResult_lt (c : Nat) : dbistResult fails c < 2 ^ 64 := by
  unfold dbistResult
  split
  · omega
  · decide

/-- Leaving out other channels' failures changes no channel's first one. -/
theorem dbistResult_filter {p : Nat → Bool} {c : Nat} (hp : p c = true) :
    dbistResult (fails.filter fun e => p e.1.toNat) c = dbistResult fails c := by
  have hfind : (fails.filter fun e => p e.1.toNat).find? (fun e => e.1.toNat == c) = fails.find? (fun e => e.1.toNat == c) := by
    rw [List.find?_filter]
    refine congrArg (fails.find? ·) (funext fun e => ?_)
    by_cases he : e.1.toNat = c
    · simp [he, hp]
    · simp [he]
  rw [dbistResult, hfind, dbistResult]

/-- What BIST writes of a channel outside Ruled quads: its result among all. -/
theorem dbistWritten_of_free {s : State} {c : Nat} (hfree : s.ruledChannel c = false) :
    (if s.ruledChannel c then 0 else dbistResult (fails.filter fun e => !s.ruledChannel e.1.toNat) c) % 2 ^ 64 = dbistResult fails c := by
  rw [dbistResult_filter fails (p := fun c => !s.ruledChannel c) (by rw [hfree]; rfl), hfree]
  exact Nat.mod_eq_of_lt (dbistResult_lt fails c)

theorem not_isEmpty_filter {α : Type} (p : α → Bool) (l : List α) : (!(l.filter p).isEmpty) = l.any p := by
  induction l with
  | nil => rfl
  | cons x xs ih => cases hx : p x <;> simp [hx, ih]

theorem plat_foldl_dbist (v : State → Nat → Nat) (cs : List Nat) (s : State) :
    (cs.foldl (fun (s : State) c => s.setRg (oDbistRes c) (v s c)) s).plat = s.plat :=
  foldl_reads State.plat (fun t c => show (t.setRg (oDbistRes c) (v t c)).plat = t.plat from rfl) cs s

variable {s : State} (hon : On s)
include hon

theorem exec_dbistDone (hbusy : s.plat.dbistBusy = true) : exec (.dbistDone fails) s =
    let mine := fails.filter (fun e => !s.ruledChannel e.1.toNat)
    .next ((List.range 192).foldl (fun (s : State) c => s.setRg (oDbistRes c) (if s.ruledChannel c then 0 else dbistResult mine c))
      { s with plat := { s.plat with dbistBusy := false, dbistFail := !mine.isEmpty } }) := by
  have hpower : s.plat.power = .running := hon
  exact congrArg Host.Outcome.next (if_neg (by simp [hpower, hbusy]))

end

theorem loopbackAndBist_clauses : Claims.LoopbackAndBist := by
  refine ⟨fun s i d hon hi => ⟨fun hoff h5 h7 => ?depth, fun henabled hd => ?refused⟩,
    fun s i n e hon hi hdepth => ?run, fun s fails hon => ⟨fun hidle => ?go, fun hbusy => ?done⟩⟩
  case depth =>
    have hd : d.toNat < 7 := by have := d.isLt; omega
    refine ⟨_, (exec_loopbackDepth hon hi.le d).trans (congrArg Host.Outcome.next (setDepth_of_off hi hoff h5 hd)),
      (bits_rg_setRg_setBits_same (by decide) s _ _).trans (Nat.mod_eq_of_lt d.isLt),
      bits_rg_setRg_setBits_apart (.inr (by decide)) (by decide) s _ _⟩
  case refused =>
    refine (exec_loopbackDepth hon hi.le d).trans (congrArg Host.Outcome.next (setDepth_of_enabled hi henabled ?_))
    simpa [BitVec.toNat_eq] using hd
  case run =>
    have herrs : min n.toNat e.toNat < 2 ^ 48 := lt_of_le_of_lt (min_le_left ..) n.isLt
    have hruns := exec_loopbackRun hon (Nat.lt_succ_iff.mp hi) hdepth n e
    rw [countAt_lbRun s i.toNat n.isLt herrs] at hruns
    refine ⟨_, hruns, ?bits, ?errors, run_lbRun s i.toNat⟩
    case bits =>
      rw [show 0x02100008 + 0x20 * i.toNat = oLb i.toNat + 8 by unfold oLb; omega]
      refine (State.cnt_setCnt_ne _ _ (by omega)).trans ((cnt_rawCount_of_lt ?_).trans ?_)
      · rw [cnt_lbRun_bits]; omega
      · rw [cnt_lbRun_bits, Nat.zero_add]
    case errors =>
      rw [show 0x02100010 + 0x20 * i.toNat = oLb i.toNat + 16 by unfold oLb; omega]
      have hclear : ((s.lbRun i.toNat).rawCount (oLb i.toNat + 8) n.toNat).cnt (oLb i.toNat + 16) = 0 :=
        (State.cnt_setCnt_ne _ _ (by omega)).trans (cnt_lbRun_errors s i.toNat)
      rw [cnt_rawCount_of_lt (by rw [hclear]; omega), hclear, Nat.zero_add]
  case go => exact congrArg Host.Outcome.next (if_neg (by simp [show s.plat.power = .running from hon, hidle]))
  case done =>
    refine ⟨_, exec_dbistDone fails hon hbusy, congrArg Plat.dbistBusy (plat_foldl_dbist ..),
      (congrArg Plat.dbistFail (plat_foldl_dbist ..)).trans (not_isEmpty_filter _ fails), fun c hc hfree => ?result⟩
    case result =>
      refine Eq.trans ?_ (dbistWritten_of_free fails hfree)
      exact rg_foldl_dbist (v := fun t c => if t.ruledChannel c then 0 else dbistResult (fails.filter fun e => !s.ruledChannel e.1.toNat) c)
        (fun _ _ _ _ => rfl) hc _

/-- Settles O55: the TAP and the I3C address by their one field, loopback by its register and counters, BIST by its result registers. -/
theorem testAccess : Obligations.TestAccess := ⟨tapAndI3c_clauses, loopbackAndBist_clauses⟩

end Sys2Proof.Machine
end

section
/-! The Saturation Monitor (12 R434-R436) and checkpoint intervals (12 R445-R447). -/

namespace Sys2Proof.Machine

/-! The level that a window names (12 R435). -/

/-- Among levels 1 to k, best is the lowest with the largest stall of those whose use reaches the threshold, and 0 where none does. -/
structure SatLeads (th : Nat) (use stall : Nat → Nat) (k best : Nat) : Prop where
  none_reaches : best = 0 → ∀ l, 1 ≤ l → l ≤ k → use l < th
  le : best ≤ k
  reaches : best ≠ 0 → th ≤ use best
  leads : best ≠ 0 → ∀ l, 1 ≤ l → l ≤ k → th ≤ use l → stall l ≤ stall best ∧ (stall l = stall best → best ≤ l)

/-- The level named after one more is looked at. -/
def satPick (th : Nat) (use stall : Nat → Nat) (best l : Nat) : Nat :=
  if use l < th then best else if best = 0 ∨ stall best < stall l then l else best

section
variable {th : Nat} {use stall : Nat → Nat}

theorem satLeads_zero : SatLeads th use stall 0 0 := ⟨by omega, le_rfl, by omega, by omega⟩

theorem SatLeads.pick {k best : Nat} (h : SatLeads th use stall k best) :
    SatLeads th use stall (k + 1) (satPick th use stall best (k + 1)) := by
  obtain ⟨hnone, hle, hreaches, hleads⟩ := h
  have hlast (l : Nat) (hl : l ≤ k + 1) : l ≤ k ∨ l = k + 1 := by omega
  unfold satPick
  split_ifs with hlow hmore
  case pos =>
    refine ⟨fun hb l hl hk => ?_, by omega, hreaches, fun hb l hl hk hth => ?_⟩ <;> rcases hlast l hk with hk | rfl
    · exact hnone hb l hl hk
    · exact hlow
    · exact hleads hb l hl hk hth
    · omega
  case pos =>
    refine ⟨by omega, le_rfl, by omega, fun _ l hl hk hth => ?_⟩
    rcases hlast l hk with hk | rfl
    · by_cases hb : best = 0
      · exact absurd (hnone hb l hl hk) (by omega)
      · have := hleads hb l hl hk hth
        omega
    · exact ⟨le_rfl, fun _ => le_rfl⟩
  case neg =>
    refine ⟨by omega, by omega, hreaches, fun hb l hl hk hth => ?_⟩
    rcases hlast l hk with hk | rfl
    · exact hleads hb l hl hk hth
    · omega

theorem satLeads_foldl (n : Nat) : SatLeads th use stall n ((List.range' 1 n).foldl (satPick th use stall) 0) := by
  induction n with
  | zero => exact satLeads_zero
  | succ n ih =>
    rw [List.range'_1_concat, List.foldl_append, Nat.add_comm 1 n]
    exact ih.pick

end

theorem satLeads_satLevel (th : Nat) (util stall : W64) : SatLeads th (satField util) (satField stall) 5 (satLevel th util stall) :=
  satLeads_foldl 5

/-! A window's end (12 R434, R436). -/

theorem reach_satHist (s : State) (t : Nat) : (s.reach t).satHist = s.satHist := by
  unfold State.reach
  split <;> rfl

theorem reach_rg (s : State) (t o : Nat) : (s.reach t).rg o = s.rg o := by
  unfold State.reach
  split <;> rfl

theorem saturationMonitor_clauses : Claims.SaturationMonitor := by
  refine ⟨fun s util stall hon hrun => ?window, fun th util stall => ?level⟩
  case window =>
    have hpower : s.plat.power = .running := hon
    refine congrArg Host.Outcome.next ((if_neg (by simp [hpower, hrun])).trans ?_)
    simp only [reach_satHist, reach_rg, oSatCfg]
  case level =>
    obtain ⟨hnone, hle, hreaches, hleads⟩ := satLeads_satLevel th util stall
    exact ⟨hnone, fun h => ⟨hle, hreaches h, hleads h⟩⟩

/-! The mean time between failures (12 R445, R447). -/

section
variable {s : State}

theorem ckFailAt_of_first (hprev : s.hasPrev = false) (t : Nat) : s.ckFailAt t = { s with hasPrev := true, lastFail := t } :=
  if_pos (by rw [hprev]; rfl)

theorem ckFailAt_of_merged {t : Nat} (hprev : s.hasPrev = true) (hnear : t - s.lastFail < s.ckMerge * tickRate) : s.ckFailAt t = s :=
  (if_neg (by simp [hprev])).trans (if_pos hnear)

theorem ckFailAt_of_apart {t : Nat} (hprev : s.hasPrev = true) (hfar : s.ckMerge * tickRate ≤ t - s.lastFail) : s.ckFailAt t =
    ({ s with mtbf := mtbfNext s.mtbf s.ckAlpha (t - s.lastFail) % 2 ^ 32, lastFail := t } : State).ckRecompute :=
  (if_neg (by simp [hprev])).trans (if_neg (Nat.not_lt.mpr hfar))

end

/-- What reads no partition's checkpoint registers is as it was. -/
theorem ckRecompute_reads {α : Type} (f : State → α) (hf : ∀ (s : State) ckp, f { s with ckp } = f s) (s : State) : f s.ckRecompute = f s :=
  foldl_reads f (fun s _ => hf s _) _ s

theorem mtbfNext_rounds (m a d : Nat) : let den := 2 ^ a * 1050000000
    let x := m * (2 ^ a - 1) * 1050000000 + d
    2 * (mtbfNext m a d * den) ≤ 2 * x + den ∧ 2 * x < 2 * (mtbfNext m a d * den) + den := by
  intro den x
  have hpos : 0 < den := Nat.mul_pos (Nat.two_pow_pos a) (by decide)
  have hhalf : den = 2 * (den / 2) := by omega
  have hlow : mtbfNext m a d * den ≤ x + den / 2 := Nat.div_mul_le_self _ den
  have hhigh : x + den / 2 < mtbfNext m a d * den + den := Nat.lt_div_mul_add hpos
  omega

/-! The interval (12 R446). -/

/-- The root found below 2^n above r, of a value between the squares of r and of r + 2^n. -/
theorem ckSqrt_between {n v r : Nat} (hlow : r * r ≤ v) (hhigh : v < (r + 2 ^ n) * (r + 2 ^ n)) :
    ckSqrt n v r * ckSqrt n v r ≤ v ∧ v < (ckSqrt n v r + 1) * (ckSqrt n v r + 1) := by
  induction n generalizing r with
  | zero => exact ⟨hlow, hhigh⟩
  | succ n ih =>
    unfold ckSqrt
    split
    next hfits => exact ih hfits (by rw [Nat.add_assoc, ← Nat.two_mul, ← Nat.pow_succ']; exact hhigh)
    next hover => exact ih hlow (Nat.not_le.mp hover)

/-! Scribes' return. -/

section
variable {s : State} {k : BitVec 2} (hon : On s) (hdown : k.toNat ∈ s.plat.scribeDown)
include hon hdown

theorem exec_scribeRestartDone (hk : k.toNat ≠ 2) : exec (.scribeRestartDone k) s = .next { s with plat := { s.plat with
    scribeDown := s.plat.scribeDown.filter (fun i => i != k.toNat), holdP := s.plat.holdP && k.toNat != 1 } } := by
  have hpower : s.plat.power = .running := hon
  refine congrArg Host.Outcome.next ((if_neg (by simp [hpower, hdown])).trans ((if_neg hk).trans ?_))
  simp only [if_neg hk]

end

theorem exec_scribeRestartDone_memory {s : State} (hon : On s) (hdown : 2 ∈ s.plat.scribeDown) : exec (.scribeRestartDone 2) s =
    .next (s.plat.failLatch.foldl (fun t d => t.ckFailAt d)
      { s with plat := { s.plat with scribeDown := s.plat.scribeDown.filter (fun i => i != 2), failLatch := [] } }) := by
  have hpower : s.plat.power = .running := hon
  refine congrArg Host.Outcome.next ((if_neg (by simp [hpower, hdown])).trans ((if_pos rfl).trans ?_))
  have hhold : (s.plat.holdP && (2 : BitVec 2).toNat != 1) = s.plat.holdP := Bool.and_true _
  rw [hhold]
  rfl

theorem checkpointIntervals_clauses : Claims.CheckpointIntervals := by
  refine ⟨fun s p hon => ⟨?fail, fun hdue => ?due, fun t => ⟨fun hprev => ckFailAt_of_first hprev t,
    fun hprev hnear => ckFailAt_of_merged hprev hnear, fun hprev hfar => ?moves⟩,
    fun k hdown hk => exec_scribeRestartDone hon hdown hk, exec_scribeRestartDone_memory hon⟩,
    fun n v hv => ckSqrt_between (Nat.zero_le v) ?root, mtbfNext_rounds⟩
  case fail => exact congrArg Host.Outcome.next (if_pos hon)
  case due =>
    have hpower : s.plat.power = .running := hon
    exact congrArg Host.Outcome.next (if_neg (by simp [hpower, hdue]))
  case moves =>
    intro u
    have hu : u = _ := ckFailAt_of_apart hprev hfar
    rw [hu]
    exact ⟨ckRecompute_reads State.lastFail (fun _ _ => rfl) _, ckRecompute_reads State.mtbf (fun _ _ => rfl) _⟩
  case root => rwa [Nat.zero_add, ← Nat.pow_add, ← Nat.two_mul]

/-- Settles O50: the level by an induction over the levels, the mean time and the root by their bounds, the rest by the state each
command leaves. -/
theorem monitorAndIntervals : Obligations.MonitorAndIntervals := ⟨saturationMonitor_clauses, checkpointIntervals_clauses⟩

end Sys2Proof.Machine
end

section
/-! The Blot Log's records (12 R427-R430) and the notices of them (08 R320, R321; 12 R431). -/

namespace Sys2Proof.Machine

/-! A record's fields lie apart (12 R427). -/

/-- SRCK and SRCID. -/
def Event.source (e : Event) : Nat := e.srck % 256 + e.srcid % 2 ^ 32 * 2 ^ 8

/-- LNODE, PART, CTX and PV, where the event has them. -/
def Event.place (e : Event) : Nat := if e.pv then e.lnode % 2 ^ 16 + e.part % 16 * 2 ^ 16 + e.ctx % 8 * 2 ^ 20 + 2 ^ 23 else 0

section
variable (e : Event) (n : Nat)

theorem Event.source_lt : e.source < 2 ^ 40 := by
  unfold Event.source
  omega

theorem Event.place_lt : e.place < 2 ^ 32 := by
  unfold Event.place
  split <;> omega

theorem Event.place_mul : e.place * 2 ^ 192 =
    if e.pv then e.lnode % 2 ^ 16 * 2 ^ 192 + e.part % 16 * 2 ^ 208 + e.ctx % 8 * 2 ^ 212 + 2 ^ 215 else 0 := by
  unfold Event.place
  split <;> omega

theorem Event.record_eq : e.record n =
    n + e.time % 2 ^ 64 * 2 ^ 64 + e.code % 2 ^ 16 * 2 ^ 128 + e.cls % 2 ^ 3 * 2 ^ 144 + e.source * 2 ^ 152 + e.place * 2 ^ 192 + 1 * 2 ^ 224
      + e.d0.toNat * 2 ^ 256 + e.d1.toNat * 2 ^ 320 + e.d2.toNat * 2 ^ 384 + n % 2 ^ 64 * 2 ^ 448 := by
  have hsource : e.source * 2 ^ 152 = e.srck % 256 * 2 ^ 152 + e.srcid % 2 ^ 32 * 2 ^ 160 := by
    unfold Event.source
    omega
  have hcls : e.cls % 8 = e.cls % 2 ^ 3 := rfl
  rw [Event.record, ← e.place_mul, hsource, hcls, Nat.one_mul, ← Nat.add_assoc]

variable {n}

theorem Event.record_seq (hn : n < 2 ^ 64) : rcSeq (e.record n) = n := by
  rw [e.record_eq, rcSeq]
  iterate 10 rw [bits_add_mul_two_pow (by decide)]
  exact Nat.mod_eq_of_lt hn

theorem Event.record_fields (hn : n < 2 ^ 64) : let r := e.record n
    rcTime r = e.time % 2 ^ 64 ∧ rcCode r = e.code % 2 ^ 16 ∧ rcClass r = e.cls % 2 ^ 3 ∧ rcSource r = e.source ∧ rcCount r = 1 ∧
    bits r 256 64 = e.d0.toNat ∧ bits r 320 64 = e.d1.toNat ∧ bits r 384 64 = e.d2.toNat ∧ bits r 448 64 = n := by
  have hmod (v n : Nat) : v % 2 ^ n < 2 ^ n := Nat.mod_lt _ (Nat.two_pow_pos n)
  have htime := add_mul_two_pow_lt (m := 128) hn (hmod e.time 64) (by decide)
  have hcode := add_mul_two_pow_lt (m := 144) htime (hmod e.code 16) (by decide)
  have hcls := add_mul_two_pow_lt (m := 152) hcode (hmod e.cls 3) (by decide)
  have hsource := add_mul_two_pow_lt (m := 192) hcls e.source_lt (by decide)
  have hplace := add_mul_two_pow_lt (m := 224) hsource e.place_lt (by decide)
  have hcount := add_mul_two_pow_lt (m := 256) hplace (show 1 < 2 ^ 32 by decide) (by decide)
  have hd0 := add_mul_two_pow_lt (m := 320) hcount e.d0.isLt (by decide)
  have hd1 := add_mul_two_pow_lt (m := 384) hd0 e.d1.isLt (by decide)
  have hd2 := add_mul_two_pow_lt (m := 448) hd1 e.d2.isLt (by decide)
  intro r
  have hr : r = _ := e.record_eq n
  rw [hr]
  refine ⟨?_, ?_, ?_, ?_, ?_, ?_, ?_, ?_, (bits_add_mul_two_pow_top hd2 (hmod n 64)).trans (Nat.mod_eq_of_lt hn)⟩
  · rw [rcTime]
    iterate 9 rw [bits_add_mul_two_pow (by decide)]
    exact bits_add_mul_two_pow_top hn (hmod e.time 64)
  · rw [rcCode]
    iterate 8 rw [bits_add_mul_two_pow (by decide)]
    exact bits_add_mul_two_pow_top htime (hmod e.code 16)
  · rw [rcClass]
    iterate 7 rw [bits_add_mul_two_pow (by decide)]
    exact bits_add_mul_two_pow_top hcode (hmod e.cls 3)
  · rw [rcSource]
    iterate 6 rw [bits_add_mul_two_pow (by decide)]
    exact bits_add_mul_two_pow_top hcls e.source_lt
  · rw [rcCount]
    iterate 4 rw [bits_add_mul_two_pow (by decide)]
    exact bits_add_mul_two_pow_top hplace (by decide)
  · iterate 3 rw [bits_add_mul_two_pow (by decide)]
    exact bits_add_mul_two_pow_top hcount e.d0.isLt
  · iterate 2 rw [bits_add_mul_two_pow (by decide)]
    exact bits_add_mul_two_pow_top hd0 e.d1.isLt
  · rw [bits_add_mul_two_pow (by decide)]
    exact bits_add_mul_two_pow_top hd1 e.d2.isLt

end

/-! The front of the log's queue (12 R428-R430). -/

section
variable {s : State} {e : Event} {rest : List Event} (hq : s.bltq = e :: rest)
include hq

theorem logWrite_of_fold {r : Nat} (hfold : s.foldInto e = some r) : s.logWrite =
    ({ s with bltq := rest } : State).putRecord (setBits r 224 32 (min (bits r 224 32 + 1) (2 ^ 32 - 1))) := by
  have hrest : ({ s with bltq := rest } : State).foldInto e = some r := hfold
  simp only [State.logWrite, hq, hrest]
  rfl

/-- A record of a log that has not gone round: nothing is overwritten. -/
theorem logWrite_of_first (hcls : e.cls ≠ 0) (hhead : s.bltHead < 65536) : s.logWrite =
    { ({ s with bltq := rest } : State).putRecord (e.record s.bltHead) with
      bltHead := s.bltHead + 1
      bltNote := if s.noticesOn then s.bltNote else { s.bltNote with skip := s.bltHead :: s.bltNote.skip } } := by
  have hnofold : ({ s with bltq := rest } : State).foldInto e = none := if_pos hcls
  simp only [State.logWrite, hq, hnofold]
  exact if_neg fun h => by omega

end

theorem blt_putRecord_record (s : State) (e : Event) {n : Nat} (hn : n < 65536) : (s.putRecord (e.record n)).blt = tput s.blt n (e.record n) := by
  show tput s.blt (rcSeq (e.record n) % 65536) (e.record n) = _
  rw [e.record_seq (by omega), Nat.mod_eq_of_lt hn]

theorem logRecords_clauses : Claims.LogRecords := by
  refine ⟨fun s e rest hpower hq => ⟨fun hcls hhead => ?next_, fun r hfold => ?fold⟩,
    fun e n hn htime hcode hcls hsrck hsrcid => ?fields⟩
  case next_ =>
    refine ⟨_, congrArg Host.Outcome.next ((if_neg hpower).trans (logWrite_of_first hq hcls hhead)), rfl, rfl, ?_, fun j hj => ?_⟩
    · exact (congrArg (tget · s.bltHead) (blt_putRecord_record _ e hhead)).trans (tget_tput_self ..)
    · exact (congrArg (tget · j) (blt_putRecord_record _ e hhead)).trans (tget_tput_ne _ _ hj)
  case fold => exact congrArg Host.Outcome.next ((if_neg hpower).trans (logWrite_of_fold hq hfold))
  case fields =>
    obtain ⟨ht, hc, hk, hs, hrest⟩ := e.record_fields hn
    rw [Nat.mod_eq_of_lt htime] at ht
    rw [Nat.mod_eq_of_lt hcode] at hc
    rw [Nat.mod_eq_of_lt (show e.cls < 2 ^ 3 from hcls)] at hk
    rw [Event.source, Nat.mod_eq_of_lt hsrck, Nat.mod_eq_of_lt hsrcid] at hs
    exact ⟨e.record_seq hn, ht, hc, hk, hs, hrest⟩

/-! Notices. -/

section
variable {s : State} (hmay : s.maySendNotice = true) {n r : Nat}
include hmay

theorem exec_noticeSend (hcur : s.bltNote.cur = none) (hdue : s.noticeDue = some n) (hrec : s.record n = some r) : exec .noticeSend s =
    .next (if s.isFm then ((s.noticeWrite r s.pnode).setNotified n).noticeNext n else if s.slotsFull then s else s.noticeIssue n r 1) := by
  have hnext : (s.noticeDue.bind fun n => (s.record n).map fun r => (n, r)) = some (n, r) := by simp [hdue, hrec]
  refine congrArg Host.Outcome.next ((if_neg (by simp [hmay, hcur])).trans ?_)
  rw [hnext]

theorem exec_noticeResponse {k : Packet} {o : Op} (hcur : s.bltNote.cur = some n) (hreach : s.reaches k [13] = true)
    (hnum : s.unnumbered k = false) (hans : s.answered k = some o) (howner : o.owner = .notice) (hsub : k.rsub = 4) :
    exec (.noticeResponse k) s = .next (if k.status = 0 then ((s.release_ k).setNotified n).noticeNext n
      else (s.release_ k).noticeFailed n).sendWaiting := by
  refine congrArg Host.Outcome.next ((if_neg (by simp [State.respReaches, hreach])).trans ((if_neg (by simp [hnum])).trans ?_))
  simp only [hans, hcur]
  exact (if_neg (by simp [howner, Owner.isNotice, hsub])).trans (by rw [if_pos hmay])

theorem exec_noticeResendTimeout (hcur : s.bltNote.cur = some n) (hfree : s.slotsFull = false) : exec .noticeResendTimeout s =
    let s1 := (s.reach (s.bltNote.sentAt + usTicks 1000)).dropOps (fun o => o.owner.isNotice)
    .next (({ s1 with mgmtOut := s1.mgmtOut.filter (fun k => !(k.ptype == 12 && k.sub == 4)) } : State).noticeFailed n) := by
  simp only [exec, execNoticeResendTimeout, hcur]
  exact congrArg Host.Outcome.next (if_neg (by simp [hmay, hfree]))

end

section
variable {s : State} {n r : Nat} (hrec : s.record n = some r)
include hrec

theorem noticeFailed_of_more (htries : s.bltNote.tries < 3) : s.noticeFailed n = s.noticeIssue n r (s.bltNote.tries + 1) := by
  simp only [State.noticeFailed, hrec]
  exact if_pos htries

theorem noticeFailed_of_third (htries : 3 ≤ s.bltNote.tries) :
    s.noticeFailed n = ((s.count 0x0813).logEvent ((s.count 0x0813).event 0x0813 5 6 2 n 0 0)).noticeNext n := by
  simp only [State.noticeFailed, hrec]
  exact if_neg (Nat.not_lt.mpr htries)

end

/-- Taking a response leaves the log. -/
theorem record_release (s : State) (k : Packet) (n : Nat) : (s.release_ k).record n = s.record n :=
  take_reads (State.record · n) (fun _ => rfl) s k

theorem bltNote_release (s : State) (k : Packet) : (s.release_ k).bltNote = s.bltNote := take_reads State.bltNote (fun _ => rfl) s k

theorem noticesSent_clauses : Claims.NoticesSent := by
  refine fun s hmay => ⟨fun n r hcur hdue hrec => ⟨fun hfm => ?own, fun hfm hfree => ?sent⟩,
    fun n r k o hcur hrec hreach hnum hans howner hsub => ⟨fun hgood => ?answered, fun hbad htries => ?again⟩,
    fun n r hcur hrec hfree => ⟨fun htries hrec2 hnote => ?resent, fun htries hrec2 hnote => ?lost⟩⟩
  case own => exact (exec_noticeSend hmay hcur hdue hrec).trans (congrArg Host.Outcome.next (if_pos hfm))
  case sent =>
    refine (exec_noticeSend hmay hcur hdue hrec).trans (congrArg Host.Outcome.next ((if_neg ?_).trans (if_neg ?_)))
    · exact Bool.eq_false_iff.mp hfm
    · exact Bool.eq_false_iff.mp hfree
  case answered =>
    refine (exec_noticeResponse hmay hcur hreach hnum hans howner hsub).trans ?_
    rw [if_pos hgood]
    rfl
  case again =>
    refine (exec_noticeResponse hmay hcur hreach hnum hans howner hsub).trans ?_
    rw [if_neg hbad, noticeFailed_of_more ((record_release s k n).trans hrec) (by rwa [bltNote_release]), bltNote_release]
    rfl
  case resent =>
    refine (exec_noticeResendTimeout hmay hcur hfree).trans (congrArg Host.Outcome.next ((noticeFailed_of_more hrec2 ?_).trans ?_))
    · rwa [hnote]
    · rw [hnote]
  case lost =>
    refine (exec_noticeResendTimeout hmay hcur hfree).trans (congrArg Host.Outcome.next (noticeFailed_of_third hrec2 ?_))
    rwa [hnote]

/-- Settles O37: a record by its place and its fields, which lie apart; a notice by the state that each of its commands leaves. -/
theorem logAndNotices : Obligations.LogAndNotices := ⟨logRecords_clauses, noticesSent_clauses⟩

end Sys2Proof.Machine
end
